-- ==== Sys2Proof/Word.lean ====
section
/-!
DEFINITION. Bytes, and tables keyed by number.
-/

namespace Sys2Proof

/-- One byte. -/
abbrev Byte := BitVec 8

/-- A sequence of bytes, the byte at the lowest address first. -/
abbrev Bytes := List Byte

end Sys2Proof

namespace Sys2Proof.Machine

/-- A table of things by number, in rising order of the numbers. -/
abbrev Tab (α : Type) := List (Nat × α)

end Sys2Proof.Machine
end

