-- ==== Sys2Proof/Syntax.lean ====
section
/-!
DEFINITION. The commands of the hub: one constructor for every row of spec/opcode_table.json, with the row's operands.

A mailbox command's operand is the command as the Keeper reads it from the ring (02, "Command layout"), without its
opcode, together with the context whose ring it stands in and the bytes that the Keeper's reads of host memory for it
returned (the indirect block of R35, or the image of 19 R494).  The other rows carry the numbers, register values and
sampled values that the event brings.
-/

namespace Sys2Proof

/-- A mailbox command without its opcode (02, "Command layout"): the context whose ring holds it, the header fields, the
48 argument bytes (byte 16 of the command in bits 7:0) and the block that the Keeper copies from host memory for it
(02 R35), empty where there is none. -/
structure Cmd where
  ctx : Nat
  flags : BitVec 8
  layout : BitVec 8
  tag : BitVec 32
  txn : BitVec 32
  rsvd : BitVec 32
  args : BitVec 384
  block : List (BitVec 8)
  deriving DecidableEq, Repr

/-- A command as 64 bytes of a submission ring (byte 0 in bits 7:0), with the block that the Keeper copies for it. -/
structure RawCmd where
  word : BitVec 512
  block : List (BitVec 8)
  deriving DecidableEq, Repr

/-- The commands of the hub (spec/opcode_table.json, in its order). -/
inductive Instr where
  /-- DBL_SQ_TAIL_WRITE (R33): Host writes the submission tail; the write is honoured only if it moves the tail forward, otherwise it is ignored and counted in BAD_DOORBELL. -/
  | dblSqTailWrite (ctx : Nat) (fn : Nat) (value : BitVec 32)
  /-- DBL_CQ_HEAD_WRITE (R33): Host releases completion slots by moving the completion head forward over entries already posted. -/
  | dblCqHeadWrite (ctx : Nat) (fn : Nat) (value : BitVec 32)
  /-- DBL_CTRL_OPEN (R31): DBL_CTRL.OPEN checks the ring configuration and either opens the context or leaves it CLOSED with a REASON. -/
  | dblCtrlOpen (ctx : Nat) (fn : Nat) (value : BitVec 32)
  /-- DBL_CTRL_CLOSE (R26): DBL_CTRL.CLOSE starts teardown of an OPEN context, or acknowledges a FAULTED one. -/
  | dblCtrlClose (ctx : Nat) (fn : Nat) (value : BitVec 32)
  /-- DBL_RING_CONFIG_WRITE (R30): Write of a ring base or of DBL_RING_CFG; it is ignored and counted in WRITE_WHILE_OPEN while the context is OPEN or CLOSING. -/
  | dblRingConfigWrite (ctx : Nat) (fn : Nat) (off : Nat) (size : Nat) (value : BitVec 64)
  /-- DOORBELL_ACCESS_REFUSED (R29): A doorbell page access from a foreign function, or to an unassigned slot, reads 0 and raises a fault record to the integrator. -/
  | doorbellAccessRefused (ctx : Nat) (fn : Nat) (off : Nat) (write : Bool)
  /-- FUNCTION_LEVEL_RESET (R26): A function-level reset of a PCIe function starts teardown of its OPEN contexts with REASON 6. -/
  | functionLevelReset (fn : Nat)
  /-- BUS_MASTER_DISABLE (R26): Disabling bus mastering on a function starts teardown of its OPEN contexts with REASON 6. -/
  | busMasterDisable (fn : Nat) (on : Bool)
  /-- RING_ACCESS_ERROR (R551): A PCIe error on a ring, indirect-block or output-buffer access makes the context FAULTED with REASON 9. -/
  | ringAccessError (ctx : Nat) (addr : BitVec 64) (write : Bool)
  /-- COMMAND_FETCH (R32): Keeper fetches commands from a context's ring once it can reserve completion slots for them, then accepts and executes them in ring order. -/
  | commandFetch (ctx : Nat) (cmds : List RawCmd)
  /-- ORDERED_RELEASE (R36): A command held by FLAGS.ORDERED is accepted once every earlier command of its context has posted its completion. -/
  | orderedRelease (ctx : Nat)
  /-- MSIX_COALESCE_TIMEOUT (R42): Expiry of the COAL_TIME timer sends the context's pending MSI-X message. -/
  | msixCoalesceTimeout (ctx : Nat)
  /-- WATCHDOG_WARN (R554): Half of the watchdog period passes without a tail write, and the hub posts event WATCHDOG_WARN. -/
  | watchdogWarn (ctx : Nat)
  /-- WATCHDOG_EXPIRY (R553): The full watchdog period passes without a tail write, and the context is torn down with REASON 7. -/
  | watchdogExpiry (ctx : Nat)
  /-- TEARDOWN_COMPLETE (R27): Teardown of a context ends, and the slot moves from CLOSING to CLOSED or UNASSIGNED. -/
  | teardownComplete (ctx : Nat)
  /-- REMOTE_PART_REQUEST (R39): A die receives its part of a multi-die command, checks it, reserves what it needs and answers the home Keeper. -/
  | remotePartRequest (ctx : Nat) (die : Nat) (raw : RawCmd)
  /-- REMOTE_PART_ANSWER (R39): The home Keeper receives a die's answer; once every die has passed, it orders the step, and otherwise it releases the reservations. -/
  | remotePartAnswer (ctx : Nat) (die : Nat)
  /-- REMOTE_TIMEOUT (R39): A die fails to answer within 100 µs; every reservation is released and REMOTE_TIMEOUT is posted. -/
  | remoteTimeout (ctx : Nat)
  /-- NOP (R552): Returns VALUE unchanged in RESULT1. -/
  | nop (c : Cmd)
  /-- CTX_INFO (R553): Returns the issuing context's number, level, function, lock state, event mask and watchdog period. -/
  | ctxInfo (c : Cmd)
  /-- SYS_INFO (R553): Writes the 64-byte system block to a host buffer. -/
  | sysInfo (c : Cmd)
  /-- SYS_TIME (R552): Returns the package timebase at acceptance. -/
  | sysTime (c : Cmd)
  /-- CTX_WATCHDOG (R553): Sets or turns off the issuing context's watchdog period. -/
  | ctxWatchdog (c : Cmd)
  /-- CTX_EVENT_MASK (R554): Sets which subsystems' events the context receives; bit 0 stays set. -/
  | ctxEventMask (c : Cmd)
  /-- CTX_ASSIGN (R554): Assigns an UNASSIGNED context slot to a function and a level. -/
  | ctxAssign (c : Cmd)
  /-- CTX_REVOKE (R28): Ends a context by teardown, returning its slot to UNASSIGNED or CLOSED. -/
  | ctxRevoke (c : Cmd)
  /-- SYS_LOCK (R25): Locks every integrator-only command until the next PORST_N or package warm reset. -/
  | sysLock (c : Cmd)
  /-- MEM_ALLOC (R75): Allocates and zeroes an LP5X region on a die and maps it into the function's BAR2. -/
  | memAlloc (c : Cmd)
  /-- MEM_FREE (R75): Unmaps and frees a region that no Atlas entry uses. -/
  | memFree (c : Cmd)
  /-- SURF_CREATE (R76): Creates a LIVE Atlas entry that describes a surface in a region, and returns its handle. -/
  | surfCreate (c : Cmd)
  /-- SURF_DESTROY (R77): Makes an owned surface RETIRING and stops its grantees' writes. -/
  | surfDestroy (c : Cmd)
  /-- SURF_GRANT (R65): Sets the rights that a grantee holds on a surface, removing any rights that the new grant lacks. -/
  | surfGrant (c : Cmd)
  /-- SURF_REVOKE (R66): Removes rights from a grantee and stops its jobs, descriptors and streams on the surface. -/
  | surfRevoke (c : Cmd)
  /-- SURF_QUERY (R78): Writes the 64-byte entry image of a surface for its owner or a grantee. -/
  | surfQuery (c : Cmd)
  /-- SHARE_SET (R79): Sets a share group's bandwidth, cycle, memory and energy shares on one die. -/
  | shareSet (c : Cmd)
  /-- SHARE_JOIN (R79): Moves a context into a share group. -/
  | shareJoin (c : Cmd)
  /-- BAR2_ACCESS (R48): A host or peer BAR2 access is translated through the window table; an unmapped access reads 0 and raises a fault record. -/
  | bar2Access (fn : Nat) (rid : BitVec 16) (off : BitVec 64) (write : Bool) (len : Nat) (data : List (BitVec 8))
  /-- ATLAS_ENTRY_FREE (R53): A RETIRING entry becomes FREE once no frame, job, descriptor or stream still uses it, and its generation increments. -/
  | atlasEntryFree (index : Nat)
  /-- LAYER_CREATE (R105): Takes a layer slot for an output and commits it disabled with default records. -/
  | layerCreate (c : Cmd)
  /-- LAYER_DESTROY (R106): Frees a disabled, unstaged layer and its slots on every die of its group. -/
  | layerDestroy (c : Cmd)
  /-- LAYER_GEOM (R107): Stages a layer's enable, source, crop, transform, destination and ZPOS. -/
  | layerGeom (c : Cmd)
  /-- LAYER_STYLE (R108): Stages a layer's blend mode, plane alpha and fill, constant and key colours. -/
  | layerStyle (c : Cmd)
  /-- LAYER_QUERY (R109): Writes a layer's committed record and counters. -/
  | layerQuery (c : Cmd)
  /-- GRAT_SET (R110): Stages an output's band height. -/
  | gratSet (c : Cmd)
  /-- GRAT_QUERY (R111): Writes an output's graticule, band timing and column-to-engine map. -/
  | gratQuery (c : Cmd)
  /-- ENGINE_SPARES (R113): Stages whether each wing of a die holds back a spare engine. -/
  | engineSpares (c : Cmd)
  /-- TILE_START (R94): An engine that is free takes its next eligible tile by due time and starts composing it. -/
  | tileStart (engine : Nat)
  /-- TILE_COMPLETE (R95): An engine writes a finished tile into its band slot; the band is finished once all its tiles are written. -/
  | tileComplete (engine : Nat)
  /-- VBLANK_START (R14): At the start of an output's vertical blank the drain begins and the apply point takes effect. -/
  | vblankStart (out : Nat)
  /-- DRAIN_COMPLETE (R14): The drain ends, and the engines begin band 0 of the next frame. -/
  | drainComplete (out : Nat)
  /-- LATCH_INSTANT (R178): 250 µs before vertical blank, the configuration for the next frame is fixed and armed transactions are caught. -/
  | latchInstant (out : Nat)
  /-- LINE_START (R215): At each active line start the pipe sends the line from its finished band, or background colour if the band is missing. -/
  | lineStart (out : Nat)
  /-- COLOUR_ALLOC (R139): Allocates a coefficient bank or pre-blend LUT slot on a die. -/
  | colourAlloc (c : Cmd)
  /-- COLOUR_LOAD (R140): Loads a coefficient bank or LUT slot from an indirect block after checking it. -/
  | colourLoad (c : Cmd)
  /-- COLOUR_FREE (R139): Frees an unused bank or LUT slot. -/
  | colourFree (c : Cmd)
  /-- LAYER_COLOUR (R141): Stages a layer's CSC, chroma, LUT, scaler position and bank selections. -/
  | layerColour (c : Cmd)
  /-- LAYER_MATRIX (R142): Stages a layer's custom YCbCr matrix or its gamut matrix. -/
  | layerMatrix (c : Cmd)
  /-- OUTPUT_COLOUR (R143): Stages an output's output matrix, LUT enable and dither. -/
  | outputColour (c : Cmd)
  /-- OUTPUT_LUT (R143): Stages an output's pending post-blend LUT table. -/
  | outputLut (c : Cmd)
  /-- PROG_ALLOC (R156): Allocates a pixel-program slot on a die. -/
  | progAlloc (c : Cmd)
  /-- PROG_LOAD (R157): Loads a checked program into a slot. -/
  | progLoad (c : Cmd)
  /-- PROG_FREE (R156): Frees an unused program slot. -/
  | progFree (c : Cmd)
  /-- LAYER_PROGRAM (R158): Stages a layer's program slot selection. -/
  | layerProgram (c : Cmd)
  /-- LAYER_PARAMS (R159): Stages four of a layer's eight program constants. -/
  | layerParams (c : Cmd)
  /-- PROG_QUERY (R160): Returns a slot's program length and how many records select it. -/
  | progQuery (c : Cmd)
  /-- TXN_BEGIN (R188): Creates a transaction and returns its handle. -/
  | txnBegin (c : Cmd)
  /-- TXN_COMMIT (R166): Validates and admits the staged configuration, then moves the transaction to WAITING or ARMED, or refuses it. -/
  | txnCommit (c : Cmd)
  /-- TXN_CANCEL (R190): Discards the staged records of an OPEN transaction, or rolls back a WAITING one. -/
  | txnCancel (c : Cmd)
  /-- TXN_QUERY (R191): Returns a transaction's state, fence counts and timeout instant. -/
  | txnQuery (c : Cmd)
  /-- LAYER_FENCE (R192): Stages or removes a fence on a layer. -/
  | layerFence (c : Cmd)
  /-- TL_CREATE (R193): Creates a timeline with an initial value. -/
  | tlCreate (c : Cmd)
  /-- TL_SIGNAL (R193): Raises a timeline's value, which may arm waiting transactions. -/
  | tlSignal (c : Cmd)
  /-- TL_DESTROY (R193): Destroys a timeline and ends the transactions that wait on it. -/
  | tlDestroy (c : Cmd)
  /-- TL_GRANT (R193): Grants or revokes another context's right to wait on a timeline. -/
  | tlGrant (c : Cmd)
  /-- TL_QUERY (R193): Returns a timeline's value to its owner or a grantee. -/
  | tlQuery (c : Cmd)
  /-- FENCE_TIMEOUT (R184): The transaction's timeout expires before its fences signal, so it rolls back or discards the fenced records. -/
  | fenceTimeout (txn : Nat)
  /-- GROUP_DECISION (R180): A member die receives the primary's latch decision for a group and applies it, or does not, with every other member. -/
  | groupDecision (out : Nat) (die : Nat)
  /-- OUT_CONFIG (R226): Sets an output's port, class and owner. -/
  | outConfig (c : Cmd)
  /-- OUT_MODE (R227): Stages an output's mode, BPC and encoding, or a stop. -/
  | outMode (c : Cmd)
  /-- OUT_BACKGROUND (R228): Stages an output's background colour. -/
  | outBackground (c : Cmd)
  /-- OUT_WRITEBACK (R229): Stages write-back stream 1 with its period and target. -/
  | outWriteback (c : Cmd)
  /-- OUT_STATIC (R230): Stages static-collapse threshold and stretch, self-refresh and selective-update permissions. -/
  | outStatic (c : Cmd)
  /-- OUT_GROUP (R231): Forms or dissolves a clone, span or sync group. -/
  | outGroup (c : Cmd)
  /-- OUT_GENLOCK (R232): Enables or disables genlock of an output or sync group to EXT_VSYNC. -/
  | outGenlock (c : Cmd)
  /-- OUT_QUERY (R233): Writes an output's state, counters and group data. -/
  | outQuery (c : Cmd)
  /-- MODE_QUERY (R234): Writes a mode entry with its pixel clock and frame period. -/
  | modeQuery (c : Cmd)
  /-- MODE_WRITE (R234): Validates an integrator mode entry and writes it to the Attic. -/
  | modeWrite (c : Cmd)
  /-- OUTPUT_STOPPED (R200): A STOPPING output's resources have been released, and it is STOPPED. -/
  | outputStopped (out : Nat)
  /-- MODE_START (R205): At instant S the timing generator starts the new mode with a full vertical blank, and the frame counter increments. -/
  | modeStart (out : Nat)
  /-- WRITEBACK_FRAME_DONE (R217): A written frame is visible package-wide, and OUT_WB_DONE is posted. -/
  | writebackFrameDone (out : Nat)
  /-- STRETCH_REOPEN (R222): A change during a stretched blank re-opens the boundary at the next line start, draining and applying armed transactions. -/
  | stretchReopen (out : Nat)
  /-- PSR_ENTRY (R223): After the first cache-scanned frame has been sent whole, the port enters self refresh. -/
  | psrEntry (out : Nat)
  /-- EXT_VSYNC_EDGE (R213): An external sync edge is measured against the group's vertical blank, and the genlock slew and state update. -/
  | extVsyncEdge (out : Nat)
  /-- GENLOCK_FREEWHEEL (R213): Four nominal frame periods pass without an edge, and genlock enters FREEWHEEL. -/
  | genlockFreewheel (out : Nat)
  /-- DIM_LAYOUT (R258): Stages an output's zone layout, mode, delivery and packet offset. -/
  | dimLayout (c : Cmd)
  /-- DIM_ALGO (R259): Stages the dimming filter, clamp, limits and scene threshold. -/
  | dimAlgo (c : Cmd)
  /-- DIM_TABLES (R260): Stages the transfer table and light-spread kernel. -/
  | dimTables (c : Cmd)
  /-- DIM_QUERY (R261): Writes an output's dimming state and counters. -/
  | dimQuery (c : Cmd)
  /-- DIM_READ (R262): Copies zone levels or statistics of the last completed step. -/
  | dimRead (c : Cmd)
  /-- ZONE_PACKET_TRANSMIT (R255): At the line start TX_OFFSET lines after the first active line, the zone packet is sent on ZS or in-band. -/
  | zonePacketTransmit (out : Nat)
  /-- CHK_GRANT (R280): Sets or removes an output's check-value grant holder. -/
  | chkGrant (c : Cmd)
  /-- CHK_CONFIG (R281): Configures a region channel, which takes effect at the next apply point. -/
  | chkConfig (c : Cmd)
  /-- CHK_EXPECT (R282): Supplies an expected value for a region channel and frame. -/
  | chkExpect (c : Cmd)
  /-- CHK_READ (R284): Writes the last final check-value result. -/
  | chkRead (c : Cmd)
  /-- CHK_LANE (R283): Requests a capture or a preset of a channel's running value at a line of a frame. -/
  | chkLane (c : Cmd)
  /-- CHK_LANE_CAPTURE (R276): After the last pixel of line Y of frame F, the lane value is captured and the read completes. -/
  | chkLaneCapture (out : Nat) (ch : Nat)
  /-- CHK_LANE_PRESET (R276): At the start of line Y of frame F, VALUE is loaded into the lane and the frame is flagged PRESET. -/
  | chkLanePreset (out : Nat) (ch : Nat)
  /-- CHECK_RESULT_FINAL (R269): A frame's check values become final and are compared with the expected values. -/
  | checkResultFinal (out : Nat) (link : Option (BitVec 32))
  /-- PLT_JOB (R288): Checks a Plotter job and queues it on the destination's die once there is room. -/
  | pltJob (c : Cmd)
  /-- PLT_ABORT (R302): Stops the context's Plotter jobs on a die or every die. -/
  | pltAbort (c : Cmd)
  /-- PLT_QUERY (R302): Returns the context's queued jobs and charged cycles on a die. -/
  | pltQuery (c : Cmd)
  /-- PLOTTER_JOB_START (R287): The Plotter starts the next queued job once the previous one has ended. -/
  | plotterJobStart (die : Nat)
  /-- PLOTTER_JOB_COMPLETE (R296): Every write of a job is visible package-wide, the completion is posted and the timeline is signalled. -/
  | plotterJobComplete (die : Nat)
  /-- PLT_WATERMARK (R297): Lines up to WM_LINE are visible package-wide, and the watermark event is posted. -/
  | pltWatermark (die : Nat)
  /-- PLOTTER_SLICE_RESUME (R299): A job paused on an empty token bucket resumes when tokens return. -/
  | plotterSliceResume (die : Nat)
  /-- DMA_ALLOC (R325): Allocates a client DMA channel with its completion queue and rate. -/
  | dmaAlloc (c : Cmd)
  /-- DMA_FREE (R327): Frees an idle client channel. -/
  | dmaFree (c : Cmd)
  /-- DMA_SUBMIT (R326): Checks and queues descriptors once the completion queue has room. -/
  | dmaSubmit (c : Cmd)
  /-- DMA_ABORT (R327): Stops a channel's descriptors. -/
  | dmaAbort (c : Cmd)
  /-- DMA_QUERY (R327): Returns a channel's outstanding descriptors, tail and charge. -/
  | dmaQuery (c : Cmd)
  /-- DMA_DESCRIPTOR_START (R310): A channel starts its next descriptor after checking its handles, rights and ranges again. -/
  | dmaDescriptorStart (die : Nat) (ch : Nat)
  /-- DMA_DESCRIPTOR_COMPLETE (R312): A descriptor completes, its record is written and its timeline is signalled if SIGNAL is set. -/
  | dmaDescriptorComplete (die : Nat) (ch : Nat)
  /-- DMA_SLICE_RESUME (R315): A descriptor paused on an empty token bucket resumes when tokens return. -/
  | dmaSliceResume (die : Nat) (ch : Nat)
  /-- DMA_CTRL_GO (R322): GO latches a privileged channel's registers, checks the operation and starts it. -/
  | dmaCtrlGo (fn : Nat) (die : Nat) (ch : Nat) (value : BitVec 32)
  /-- DMA_CTRL_ABORT (R323): ABORT stops a privileged channel's running operation at the next 64-byte boundary. -/
  | dmaCtrlAbort (fn : Nat) (die : Nat) (ch : Nat) (value : BitVec 32)
  /-- PRIV_DMA_COMPLETE (R322): A privileged operation ends: its status registers are written, BUSY falls and DONE increments. -/
  | privDmaComplete (die : Nat) (ch : Nat)
  /-- PRIV_DMA_REGISTER_WRITE (R323): A write to a privileged channel's operand registers, ignored and counted while BUSY. -/
  | privDmaRegisterWrite (fn : Nat) (die : Nat) (ch : Nat) (off : Nat) (size : Nat) (value : BitVec 64)
  /-- LNK_CONFIG (R366): Sets a port's kind or roles, lanes, rates and options. -/
  | lnkConfig (c : Cmd)
  /-- LNK_QUERY (R372): Writes a port's state, equaliser values and counters. -/
  | lnkQuery (c : Cmd)
  /-- LNK_EQ (R367): Sets the transmit FIR, fixes the receiver equaliser or re-adapts it. -/
  | lnkEq (c : Cmd)
  /-- LNK_POWER (R368): Moves a Traverse port to TL_ON or TL_DEEP. -/
  | lnkPower (c : Cmd)
  /-- LNK_LOOPBACK (R368): Starts a PRBS31 loopback test on a port. -/
  | lnkLoopback (c : Cmd)
  /-- LOOPBACK_END (R368): The loopback duration ends; errors are returned and the port leaves LOOP. -/
  | loopbackEnd (port : Nat) (err0 : Nat) (err1 : Nat) (checked : BitVec 64)
  /-- LNK_CAMERA (R369): Starts, replaces or stops a camera stream into target surfaces. -/
  | lnkCamera (c : Cmd)
  /-- LNK_I2C (R370): Tunnels an I2C transfer over a Traverse back channel. -/
  | lnkI2c (c : Cmd)
  /-- LNK_AUX (R371): Performs a DPCD read or write over AUX. -/
  | lnkAux (c : Cmd)
  /-- LNK_BACKLIGHT (R371): Sets eDP backlight brightness over AUX at the next vertical blank. -/
  | lnkBacklight (c : Cmd)
  /-- LNK_DSI_CMD (R371): Sends a DSI panel command or read. -/
  | lnkDsiCmd (c : Cmd)
  /-- LANE_BLOCK_LOCK (R339): A receive lane counts 64 valid sync headers and reaches BLOCK_LOCK; with both lanes locked the port enters ADAPT. -/
  | laneBlockLock (port : Nat) (lane : Nat)
  /-- LANE_ADAPTED (R340): Both lanes reach FOM_MIN, and the port reports ADAPTED and enters WAIT. -/
  | laneAdapted (port : Nat) (lane : Nat) (foms : List (BitVec 8)) (dfes : List (BitVec 32))
  /-- ADAPT_TIMEOUT (R340): 10 ms after block lock without FOM_MIN, the port enters WEAK. -/
  | adaptTimeout (port : Nat)
  /-- PARTNER_ADAPTED (R340): 16 consecutive partner blocks report ADAPTED, and the port goes UP. -/
  | partnerAdapted (port : Nat) (data : List (BitVec 8))
  /-- TRAINING_TIMEOUT (R340): 20 ms from T0 without UP, the port enters ALONE or WEAK. -/
  | trainingTimeout (port : Nat) (heard : Bool)
  /-- SIGNAL_DETECT (R340): Signal detected on a receive lane in ALONE or DEEP returns the port to SEEK. -/
  | signalDetect (port : Nat) (lane : Nat)
  /-- WEAK_RETRY (R340): 100 ms after entering WEAK the port returns to SEEK. -/
  | weakRetry (port : Nat)
  /-- ALONE_BURST (R341): At the start of each 100 ms period in ALONE, the port sends training sequences for 5 ms. -/
  | aloneBurst (port : Nat)
  /-- LINK_LOSS (R340): An UP port loses lock, markers or its partner's adaptation, or overflows its elastic buffer, and retrains. -/
  | linkLoss (port : Nat) (reason : Nat)
  /-- FOM_WINDOW_END (R345): A figure-of-merit window ends; FOM is updated and continuous DFE taps may move. -/
  | fomWindowEnd (port : Nat) (lane : Nat) (above : Nat) (below : Nat) (dfe : BitVec 32)
  /-- DOZE_ENTRY (R347): A direction idle for DOZE_IDLE sends DOZE blocks and enters electrical idle. -/
  | dozeEntry (port : Nat)
  /-- DOZE_EXIT (R348): Payload due in a dozing direction sends training sequences and resumes the stream. -/
  | dozeExit (port : Nat)
  /-- DOZE_RECEIVED (R348): A received DOZE block tells the receiver not to count missing markers as a loss. -/
  | dozeReceived (port : Nat)
  /-- LOOP_REQUEST (R349): A far-end loop request from the partner is accepted or refused. -/
  | loopRequest (port : Nat)
  /-- CAMERA_VIDEO_FRAME (R355): A camera VIDEO_FRAME ends the previous frame and starts frame k into target k mod COUNT. -/
  | cameraVideoFrame (port : Nat) (data : List (BitVec 8))
  /-- CAMERA_VIDEO_LINE (R355): A camera line is checked and written into its target, or discarded. -/
  | cameraVideoLine (port : Nat) (data : List (BitVec 8))
  /-- CAMERA_FRAME_COMPLETE (R355): A complete camera frame is made visible, CAM_FRAMES increments and the timeline is signalled. -/
  | cameraFrameComplete (port : Nat)
  /-- BACK_STATUS (R352): A STATUS back-channel message from the partner is received. -/
  | backStatus (port : Nat) (data : List (BitVec 8))
  /-- I2C_REQ (R352): The hub carries out a tunnelled I2C request on its local bus and replies. -/
  | i2cReq (port : Nat) (data : List (BitVec 8))
  /-- I2C_RSP (R352): An I2C response completes the outstanding LNK_I2C. -/
  | i2cRsp (port : Nat) (data : List (BitVec 8))
  /-- TIME_REQUEST_SEND (R353): Every 1 ms the upstream end of a CHAIN port sends a TIME request. -/
  | timeRequestSend (port : Nat)
  /-- TIME_REQUEST (R353): The downstream end receives a TIME request and replies within 10 µs. -/
  | timeRequest (port : Nat) (data : List (BitVec 8))
  /-- TIME_REPLY (R468): The upstream end receives a TIME reply, computes θ and sends TIME_OFS. -/
  | timeReply (port : Nat) (data : List (BitVec 8))
  /-- DP_HOT_PLUG (R359): A sink is plugged in; the hub reads DPCD and trains the maximum configuration. -/
  | dpHotPlug (port : Nat) (lanes : Nat) (rate : Nat) (caps : Nat) (sizes : Nat × Nat × Nat)
  /-- DP_UNPLUG (R360): HPD low for more than 2 ms is an unplug; the port idles and frames are NOT_SENT. -/
  | dpUnplug (port : Nat)
  /-- DP_HPD_IRQ (R360): An HPD pulse makes the hub read link status and retrain if the link is lost. -/
  | dpHpdIrq (port : Nat) (lost : Bool) (psr : Bool)
  /-- DP_TRAINING_END (R359): A DP training attempt ends, and pixels resume at the next start of frame or the port is DOWN. -/
  | dpTrainingEnd (port : Nat) (ok : Bool) (lanes : Nat) (rate : Nat)
  /-- ENUM_REQ (R466): A package receives ENUM_REQ, takes its position, answers ENUM_ACK and enumerates onward. -/
  | enumReq (port : Nat) (data : List (BitVec 8))
  /-- ENUM_REQ_RETRY (R466): Every 1 ms without an answer, ENUM_REQ is sent again. -/
  | enumReqRetry (port : Nat)
  /-- ENUM_ACK (R466): An upstream package receives the acknowledgement of its enumeration request. -/
  | enumAck (port : Nat) (data : List (BitVec 8))
  /-- ENUM_REJECT (R466): Enumeration is refused as chain full or second head, and a fault record is raised. -/
  | enumReject (port : Nat) (data : List (BitVec 8))
  /-- CHAIN_END (R466): CHAIN_END carries the chain length upward, and each package records it. -/
  | chainEnd (port : Nat) (data : List (BitVec 8))
  /-- CHAIN_ENUM_TIMEOUT (R467): 60 ms after ready without enumeration, a package declares a chain of length 1. -/
  | chainEnumTimeout
  /-- TIME_OFS (R468): A downstream package receives θ and corrects its chain offset, possibly setting CHAIN_ALIGNED. -/
  | timeOfs (port : Nat) (data : List (BitVec 8))
  /-- BCAST (R465): A chain broadcast message for a barrier or a snapshot is received and passed on. -/
  | bcast (port : Nat) (data : List (BitVec 8))
  /-- BARRIER_ACK (R470): A chain barrier acknowledgement is received and passed upstream. -/
  | barrierAck (port : Nat) (data : List (BitVec 8))
  /-- PWR_STATE (R416): Requests SLEEP, DEEP, OFF or RUN for one die or every die, after the refusal checks. -/
  | pwrState (c : Cmd)
  /-- PWR_ENTRY_COMMIT (R394): Once outputs have stopped and ports are idle, the completion is posted and the die enters SLEEP or DEEP. -/
  | pwrEntryCommit (die : Nat)
  /-- WAKE_EVENT (R396): An enabled wake source, including the wake timer, starts the exit sequence from SLEEP or DEEP. -/
  | wakeEvent (die : Nat) (cause : Nat)
  /-- PWR_EXIT_COMPLETE (R396): The die reaches RUN after its PLL has locked and links have trained, and writes PWR_EXIT. -/
  | pwrExitComplete (die : Nat)
  /-- PWR_LIMITS (R417): Sets a die's LIMIT_MW and FLOOR_MW, or the package PKG_MW, after tests 7 and 8. -/
  | pwrLimits (c : Cmd)
  /-- PWR_FLOOR (R418): Stages a die's PROTECTED floor clock step. -/
  | pwrFloor (c : Cmd)
  /-- PWR_QUERY (R419): Writes a die's power state, budget and divisors. -/
  | pwrQuery (c : Cmd)
  /-- POWER_TICK (R403): Every 1 ms the allowance, the budget and the rung are updated and the token pool is refilled. -/
  | powerTick (die : Nat)
  /-- CLOCK_STEP_SWITCH (R408): After the voltage ramp, the engine clock divider switches glitch-free to the new step. -/
  | clockStepSwitch (die : Nat)
  /-- SENSOR_CONVERSION (R400): A junction sensor converts, and the die's thermal level and THERM_ALERT_N update. -/
  | sensorConversion (die : Nat) (sensor : Nat) (temp : BitVec 12)
  /-- THERMAL_SHUTDOWN (R401): After a 140 °C conversion and any Attic hold, the die removes core power and is lost. -/
  | thermalShutdown (die : Nat)
  /-- ANALOGUE_TRIP (R401): The analogue 150 °C trip removes core power at once. -/
  | analogueTrip (die : Nat)
  /-- IDLE_ENTER (R392): Both Keeper cores have no work, and the die gates their clock. -/
  | idleEnter (die : Nat)
  /-- IDLE_EXIT (R392): Work for a Keeper core ends IDLE within 0.1 µs. -/
  | idleExit (die : Nat)
  /-- PLL_LOCK (R426): Eight consecutive good windows declare lock, and the outputs leave bypass. -/
  | pllLock (die : Nat) (pll : Nat)
  /-- PLL_LOCK_LOSS (R432): A bad window or a missing reference switches a PLL to bypass, with the effects on its outputs or die. -/
  | pllLockLoss (die : Nat) (pll : Nat)
  /-- REFERENCE_MISSING (R426): No reference edge for 1 µs declares the reference missing. -/
  | referenceMissing (die : Nat) (pll : Nat)
  /-- PLL_LOCK_TIMEOUT (R427): A display PLL not locked 300 µs after programming is reprogrammed and a fault record is raised. -/
  | pllLockTimeout (die : Nat) (pll : Nat)
  /-- PLL_RELOCK_RETRY (R433): A PLL on bypass retries lock every 1 ms. -/
  | pllRelockRetry (die : Nat) (pll : Nat)
  /-- XTAL_LOSS (R432): The 32.768 kHz crystal fails, and the always-on domain runs from the slow RC oscillator. -/
  | xtalLoss (die : Nat)
  /-- TIMEBASE_CORRECTION (R436): A die corrects its timebase to the principal's by skipping or doubling increments. -/
  | timebaseCorrection (die : Nat)
  /-- CLK_OUT_WRITE (R435): A change of a clock output's source, divider or format takes effect with an idle gap. -/
  | clkOutWrite (fn : Nat) (die : Nat) (n : Nat) (value : BitVec 32)
  /-- PLL_REGISTER_WRITE (R438): A write to PLL_SSC or PLL_SEED is stored for the next programming, or ignored and counted if out of range. -/
  | pllRegisterWrite (fn : Nat) (die : Nat) (pll : Nat) (off : Nat) (value : BitVec 32)
  /-- FAULT_REPORT (R441): A detected error reaches the die's fault concentrator and opens or joins a die window. -/
  | faultReport (die : Nat) (cause : BitVec 16) (unit : BitVec 32) (reporter : BitVec 32) (detail : BitVec 64)
  /-- DIE_WINDOW_CLOSE (R442): After 2 µs the die window closes, the record goes to the principal and Survey is queued. -/
  | dieWindowClose (die : Nat) (cause : BitVec 16) (unit : BitVec 32)
  /-- FAULT_DIE_RECORD (R442): The principal receives a die record and opens or joins a package window. -/
  | faultDieRecord (die : Nat) (cause : BitVec 16) (unit : BitVec 32)
  /-- PACKAGE_WINDOW_CLOSE (R442): After 10 µs the merged record is posted as FLT_RECORD. -/
  | packageWindowClose (cause : BitVec 16) (unit : BitVec 32)
  /-- HELD_RECORD_EXPIRY (R443): A held record's 10 ms window ends, and the record is posted. -/
  | heldRecordExpiry (cause : BitVec 16) (unit : BitVec 32)
  /-- SURVEY_TEST_START (R446): A queued Survey request fences its unit and starts its test. -/
  | surveyTestStart (die : Nat) (unit : BitVec 32)
  /-- SURVEY_VERDICT (R448): A test ends as transient, lasting or escalated, and the unit returns or is retired. -/
  | surveyVerdict (die : Nat) (unit : BitVec 32) (pass : Bool)
  /-- DIE_LOSS (R451): The package stops using a lost die, ends its contexts and, for site 0, elects a new principal. -/
  | dieLoss (die : Nat) (reason : Nat)
  /-- FLT_READ (R456): Writes one of the last 256 fault records. -/
  | fltRead (c : Cmd)
  /-- SRV_TEST (R456): Requests Survey of a unit and completes at its verdict. -/
  | srvTest (c : Cmd)
  /-- SRV_QUERY (R456): Returns a unit's service state and transient count. -/
  | srvQuery (c : Cmd)
  /-- SRV_RESTORE (R456): Clears retirement records in the Attic. -/
  | srvRestore (c : Cmd)
  /-- PORST_N_ASSERT (R533): A PORST_N low pulse of at least 10 µs resets the package. -/
  | porstNAssert
  /-- PORST_N_RELEASE (R462): Release of PORST_N starts the cold start on every die. -/
  | porstNRelease
  /-- DIE_REPORT (R461): The principal receives a die's start-up report. -/
  | dieReport (die : Nat)
  /-- PACKAGE_READY (R462): Provisioning and boot outputs are done, and the package becomes ready for hosts. -/
  | packageReady
  /-- KPR_RESET_PKG (R473): KPR_RESET.PKG with its key starts a package warm reset. -/
  | kprResetPkg (fn : Nat) (die : Nat) (value : BitVec 32)
  /-- KPR_RESET_DIE (R474): KPR_RESET.DIE with its key starts a per-die reset of TARGET. -/
  | kprResetDie (fn : Nat) (die : Nat) (value : BitVec 32)
  /-- DIE_REJOIN (R474): A reset die loads the timebase, restores its contexts and rejoins the package. -/
  | dieRejoin (die : Nat)
  /-- DIE_REJOIN_TIMEOUT (R474): A die that has not rejoined within 30 ms is lost. -/
  | dieRejoinTimeout (die : Nat)
  /-- PCIE_HOT_RESET (R472): A PCIe hot reset or link down of a port resets that port's functions. -/
  | pcieHotReset (die : Nat)
  /-- PCIE_PERST (R525): PCIE_PERST_N low holds a die's PCIe port in link down. -/
  | pciePerst (die : Nat) (low : Bool)
  /-- KPR_SNAP_ARM (R471): Arms, replaces or refuses a snapshot at an instant and scope. -/
  | kprSnapArm (fn : Nat) (die : Nat) (value : BitVec 32)
  /-- SNAPSHOT_INSTANT (R471): At the instant, every die in scope latches frame counters and line indices. -/
  | snapshotInstant
  /-- ATC_LOAD (R494): Writes a provisioning image's records as one group on every die. -/
  | atcLoad (c : Cmd)
  /-- ATC_FW_STAGE (R489): Verifies and writes a firmware image into the non-running slot of every die. -/
  | atcFwStage (c : Cmd)
  /-- ATC_FW_SELECT (R495): Selects the firmware slot tried first at the next reset. -/
  | atcFwSelect (c : Cmd)
  /-- ATC_FW_COMMIT (R495): Raises SVN_MIN to the running SVN. -/
  | atcFwCommit (c : Cmd)
  /-- ATC_QUERY (R495): Writes the Attic's image, lock and slot state. -/
  | atcQuery (c : Cmd)
  /-- ATC_CTRL_READ (R491): ATC_CTRL.READ loads the Attic word at ATC_ADDR into ATC_DATA. -/
  | atcCtrlRead (fn : Nat) (die : Nat) (value : BitVec 32)
  /-- ATC_CTRL_WRITE (R490): ATC_CTRL.WRITE writes ATC_DATA to the Attic word, unless raw writes are locked. -/
  | atcCtrlWrite (fn : Nat) (die : Nat) (value : BitVec 32)
  /-- ATC_RAW_DONE (R491): A raw Attic access ends, and BUSY falls. -/
  | atcRawDone (die : Nat)
  /-- ATC_LOCK_WRITE (R490): Writing RAW or PERSIST locks raw Attic writes. -/
  | atcLockWrite (fn : Nat) (die : Nat) (value : BitVec 32)
  /-- ATC_DBG_CHALLENGE (R492): Generates a fresh debug-unlock nonce. -/
  | atcDbgChallenge (fn : Nat) (die : Nat) (value : BitVec 32)
  /-- ATC_DBG_SUBMIT (R492): Verifies the debug-unlock response, setting UNLOCKED or counting a failure. -/
  | atcDbgSubmit (fn : Nat) (die : Nat) (value : BitVec 32)
  /-- REGISTER_WRITE (R504): A write to a register field without behaviour of its own, applied by access type and permission. -/
  | registerWrite (fn : Nat) (off : Nat) (size : Nat) (value : BitVec 64)
  /-- BIT_ALIAS_WRITE (R508): An alias write changes one register bit by read-modify-write. -/
  | bitAliasWrite (fn : Nat) (off : Nat) (size : Nat) (value : BitVec 64)
  /-- INT_EN_WRITE (R513): Enabling a pending interrupt source sends an MSI-X message. -/
  | intEnWrite (fn : Nat) (die : Nat) (value : BitVec 32)
  /-- INT_MSIX_MESSAGE (R513): After the 1 µs merge window, a die sends its interrupt message on the integrator's vector. -/
  | intMsixMessage (die : Nat)
  /-- PMX_PAD_WRITE (R528): A pad function request is stored, or ignored if the exclusive function is already taken. -/
  | pmxPadWrite (fn : Nat) (die : Nat) (pad : Nat) (value : BitVec 32)
  /-- PMX_FUNCTION_CHANGE (R527): At the next PMX clock edge, pending pad functions change over. -/
  | pmxFunctionChange (die : Nat)
  /-- SUPPLY_FAULT (R534): A rail below 90 % or CORE_PG falling loses the die; VDD_AON low resets the package. -/
  | supplyFault (die : Nat) (rail : Nat)
  /-- FBK_READ (R545): Copies Field book records from the ring. -/
  | fbkRead (c : Cmd)
  /-- FBK_QUERY (R545): Returns the Field book's dropped count, stop flag and head. -/
  | fbkQuery (c : Cmd)
  /-- FBK_CTRL_FLUSH (R546): FBK_CTRL.FLUSH flushes the on-die buffer to the ring. -/
  | fbkCtrlFlush (fn : Nat) (die : Nat) (value : BitVec 32)
  /-- FBK_FLUSH (R542): At 512 held records, or 1 ms after the oldest, the on-die buffer flushes to the ring. -/
  | fbkFlush (die : Nat)
  /-- JTAG_EXTEST (R548): Boundary-scan EXTEST drives the scanned balls while PORST_N is low. -/
  | jtagExtest (dr : List Bool)
  /-- JTAG_SAMPLE_PRELOAD (R547): Samples or preloads the boundary-scan register. -/
  | jtagSamplePreload (dr : List Bool)
  /-- JTAG_IDCODE (R547): Selects the 32-bit IDCODE register. -/
  | jtagIdcode (dr : List Bool)
  /-- JTAG_HIGHZ (R548): Puts the scanned outputs in high impedance while PORST_N is low. -/
  | jtagHighz (dr : List Bool)
  /-- JTAG_CLAMP (R548): Clamps outputs to the boundary values while PORST_N is low. -/
  | jtagClamp (dr : List Bool)
  /-- JTAG_BYPASS (R547): Selects the 1-bit bypass register. -/
  | jtagBypass (dr : List Bool)
  /-- JTAG_REGACC (R549): At Update-DR, performs one register access permitted by lock state. -/
  | jtagRegacc (dr : BitVec 89)
  /-- JTAG_KDEBUG (R550): Keeper debug halt, step, breakpoint or memory access on an unlocked die. -/
  | jtagKdebug (die : Nat) (req : Nat) (addr : Nat) (value : BitVec 64)
  /-- KEEPER_HALT_TIMEOUT (R550): A Keeper halted longer than 1 ms makes its die lost. -/
  | keeperHaltTimeout (die : Nat)
  /-- LOOP_RELEASE (R337): A LOOP block with code 1 (release) from the partner ends the far-end loop that the hub holds for it. -/
  | loopRelease (port : Nat)
  /-- LOOP_ANSWER (R368): The partner's accept or refuse answer to the hub's far-end loop request arrives, and the test starts or LNK_LOOPBACK is refused with 0x0403. -/
  | loopAnswer (port : Nat) (data : List (BitVec 8))
  /-- AUX_REPLY (R371): The sink's AUX reply (ACK, NACK or DEFER) arrives and completes LNK_AUX with its bytes. -/
  | auxReply (port : Nat) (data : List (BitVec 8))
  /-- DSI_READ_RESPONSE (R363): The panel's response after bus turnaround arrives and completes a LNK_DSI_CMD read with its bytes. -/
  | dsiReadResponse (port : Nat) (data : List (BitVec 8))
  /-- COMMAND_TIMEOUT (R365): A link command's own time bound expires (LNK_I2C 10 ms, LNK_AUX 5 ms, LNK_POWER 20 ms), and it completes with 0x0801 or 0x0803. -/
  | commandTimeout (port : Nat)
  /-- MSIX_TABLE_WRITE (R513): A host write to the MSI-X table in BAR4 masks or unmasks a vector, and an unmask with the pending bit set sends the held message. -/
  | msixTableWrite (fn : Nat) (vec : Nat) (mask : Bool)
  /-- RESIZABLE_BAR_WRITE (R48): The host sets the BAR2 size through the Resizable BAR capability, and window entries beyond the new size become unreachable or reachable again. -/
  | resizableBarWrite (fn : Nat) (size : Nat)
  /-- OFF_WAKE (R399): WAKE_N held low while the package is in OFF runs the full start-up. -/
  | offWake
  /-- VIDEO_OFF_REPEAT (R350): While a VIDEO_OUT output is stopped, its Traverse port sends VIDEO_OFF once every 100 ms. -/
  | videoOffRepeat (port : Nat)
  deriving DecidableEq, Repr

end Sys2Proof
end

