-- ==== Sys2Proof/Decode.lean ====
section
/-!
DEFINITION. The hub is a block: spec/opcode_table.json gives no row a bit pattern, so no word spells a command (log entry 9).
The 64 bytes of a ring entry are taken apart in Machine/Operands.lean and Machine/CommandFetch.lean.
-/

namespace Sys2Proof

/-- The command that a word spells by the table's bits: none, because the table gives no row any bits. -/
def decodeTableWord (_nbits _w : Nat) : Option Instr := none

end Sys2Proof
end

