-- ==== Sys2Proof/Config.lean ====
section
/-!
DEFINITION. What the manual leaves open (free values: constants without a body), and the constants that it names
without giving them.
-/

namespace Sys2Proof.Config

/-- A free bit: the value that the manual does not define, by the number of the use.  See log entry 2. -/
opaque freeBit : Nat → Bool

/-- A free byte, by the number of the use.  See log entry 2. -/
opaque freeByte : Nat → BitVec 8

/-- A free 64-bit value, by the number of the use.  See log entry 2. -/
opaque freeWord : Nat → BitVec 64

/-- The factory device number of the die at a site (19 R478), unique to each die.  See log entry 21. -/
opaque device : Nat → BitVec 64

/-- Askeo's ECDSA P-256 public key in the boot ROM (19 R487), x and y; the manual does not give it.  See log entry 3. -/
opaque bootKey : BitVec 256 × BitVec 256

end Sys2Proof.Config
end

