-- ==== Sys2Proof/Machine/Bits.lean ====
section
/-!
DEFINITION. Little-endian bytes, bit fields, signed numbers (00 R7), and the operations on tables keyed by number.
-/

namespace Sys2Proof.Machine

/-- The `n` bytes of the number `v`, least significant first (00 R7). -/
def leBytes : Nat → Nat → Bytes
  | 0, _ => []
  | n + 1, v => BitVec.ofNat 8 v :: leBytes n (v / 256)

/-- The number whose bytes, least significant first, are the list (00 R7). -/
def leNat : Bytes → Nat
  | [] => 0
  | b :: t => b.toNat + 256 * leNat t

/-- The `w`-bit field of `v` whose lowest bit is `lo`. -/
def bits (v lo w : Nat) : Nat := v / 2 ^ lo % 2 ^ w

/-- A bit set as the manual writes one: bit `i` of the number `v`. -/
def bit (v i : Nat) : Bool := v.testBit i

/-- A Bool as a bit. -/
def b2n (b : Bool) : Nat := if b then 1 else 0

/-- The signed value of the `w`-bit number `v` (two's complement). -/
def signed (w v : Nat) : Int :=
  let u := v % 2 ^ w
  if u < 2 ^ (w - 1) then (u : Int) else (u : Int) - (2 ^ w : Nat)

/-- The `w`-bit two's complement number of the integer `i`. -/
def unsigned (w : Nat) (i : Int) : Nat := (i % ((2 ^ w : Nat) : Int)).toNat

/-- The lowest of the `n` numbers from `i` on for which `p` holds. -/
def firstNat (p : Nat → Bool) : Nat → Nat → Option Nat
  | 0, _ => none
  | n + 1, i => if p i then some i else firstNat p n (i + 1)

/-- The `want` lowest of the `n` numbers from `i` on for which `p` holds, as far as there are so many. -/
def firstNats (p : Nat → Bool) : Nat → Nat → Nat → List Nat
  | 0, _, _ => []
  | _ + 1, _, 0 => []
  | n + 1, i, want + 1 => if p i then i :: firstNats p n (i + 1) want else firstNats p n (i + 1) (want + 1)

/-- The quotient rounded up. -/
def ceilDiv (a b : Nat) : Nat := (a + b - 1) / b

/-- The quotient rounded to nearest, halves up. -/
def roundDiv (a b : Nat) : Nat := (2 * a + b) / (2 * b)

/-! ### Tables -/

/-- The entry at number `i`, if there is one. -/
def Tab.find {α : Type} (t : Tab α) (i : Nat) : Option α :=
  match t with
  | [] => none
  | (k, v) :: r => if k = i then some v else Tab.find r i

/-- The entry at number `i`, or `d` where there is none. -/
def Tab.get {α : Type} (t : Tab α) (i : Nat) (d : α) : α := (Tab.find t i).getD d

/-- The table with `v` at number `i`. -/
def Tab.set {α : Type} (t : Tab α) (i : Nat) (v : α) : Tab α :=
  match t with
  | [] => [(i, v)]
  | (k, w) :: r =>
    if k = i then (i, v) :: r else if i < k then (i, v) :: (k, w) :: r else (k, w) :: Tab.set r i v

/-- The table without an entry at number `i`. -/
def Tab.del {α : Type} (t : Tab α) (i : Nat) : Tab α := t.filter fun e => e.1 != i

/-- The table with `f` applied to the entry at `i`; no change where there is none. -/
def Tab.upd {α : Type} (t : Tab α) (i : Nat) (f : α → α) : Tab α :=
  t.map fun e => if e.1 = i then (e.1, f e.2) else e

/-- Does the table have an entry at number `i`? -/
def Tab.has {α : Type} (t : Tab α) (i : Nat) : Bool := (Tab.find t i).isSome

/-- Bits set among the low `n` of a number. -/
def popCount (n v : Nat) : Nat := (List.range n).countP (bit v)

end Sys2Proof.Machine
end

