-- ==== Sys2Proof/Machine/State.lean ====
section
/-!
DEFINITION. The state of the hub as plain data, one group of fields for each chapter of the manual, and the state at reset.

Every field's comment gives, between semicolons, what it is and its width, the file and rule of spec/ that names it, and its
reset value.  Instants are nanoseconds of the package timebase.  Numbers that stand for things are global: a context 0-4095, a
PCIe function `die * 16 + function`, an output 0-31, an engine `die * 24 + e`, a layer `die * 1024 + slot`, a region 0-2047, an
Atlas entry by its handle index, a transaction `die * 256 + slot`, a timeline `die * 1024 + slot`, a port `die * 8 + code`.
-/

namespace Sys2Proof.Machine

/-- Why the machine stops with a fault: it never does.  A refused command is a completion, a hardware error is a fault record,
and a command whose operands name nothing (WellFormed) changes nothing (02 R37, 17 R441). -/
inductive Fault where
  deriving DecidableEq, Repr

/-- Why the model refuses a command. -/
inductive Refusal where
  /-- The command of this name has no meaning yet.  Safe: nothing is claimed of it. -/
  | notModelled (mnemonic : String)
  deriving DecidableEq, Repr

/-! ### Host interface and mailbox (02, 20) -/

/-- The states of a context slot (02 R26). -/
inductive CtxState where
  | unassigned | closed | opened | closing | faulted
  deriving DecidableEq, Repr

/-- A command that was accepted and whose completion is to come (02 R40). -/
structure Pend where
  ctx : Nat
  /-- the period of the context, from one OPEN to the next, in which it was accepted -/
  epoch : Nat
  opcode : Nat
  tag : Nat
  /-- the submission index just past the command -/
  sqHead : Nat
  flags : Nat
  /-- the instant of acceptance -/
  time : Nat
  deriving DecidableEq, Repr

/-- A write of the hub to host memory that may yet end in a PCIe error (02 R551): where, the bytes before it (as far as the
hub had written them), the bytes written, the completion tail, phase bit and message count before it, and whether an MSI-X message of an
entry was sent with it or set a pending bit. -/
structure HostWrite where
  addr : Nat
  before : List (Option (BitVec 8))
  data : List (BitVec 8)
  cqTail : Nat
  phase : Bool
  coal : Nat := 0
  coalAt : Nat := 0
  sent : Bool := false
  pended : Bool := false
  deriving DecidableEq, Repr

/-- A teardown in progress (02 R26, R27). -/
structure Teardown where
  /-- the slot goes to UNASSIGNED (CTX_REVOKE mode 0), not CLOSED -/
  unassign : Bool
  /-- the CTX_REVOKE whose completion waits for the end of the teardown -/
  revoke : Option Pend
  deriving DecidableEq, Repr

/-- One context slot (02). -/
structure Ctx where
  /-- DBL_STATUS.STATE, 3 bits; 02 R26; UNASSIGNED -/
  state : CtxState := .unassigned
  /-- DBL_STATUS.REASON, 4 bits; 02 R26, R31; 0 -/
  reason : Nat := 0
  /-- DBL_STATUS.LEVEL, 2 bits; 02 R22; 0 -/
  level : Nat := 0
  /-- the function of the home die to which the slot is assigned, 0-15; 02 R21; 0 (an UNASSIGNED slot has none) -/
  fn : Nat := 0
  /-- share group, 0-31; 03 R72; 0 -/
  group : Nat := 0
  /-- DBL_SQ_TAIL.TAIL, 16 bits; 02 R29 (table); 0 -/
  sqTail : Nat := 0
  /-- DBL_CQ_HEAD.HEAD, 16 bits; 02 R29 (table); 0 -/
  cqHead : Nat := 0
  /-- DBL_SQ_HEAD.HEAD, 16 bits; 02 R29 (table); 0 -/
  sqHead : Nat := 0
  /-- DBL_CQ_TAIL.TAIL, 16 bits; 02 R29 (table); 0 -/
  cqTail : Nat := 0
  /-- DBL_SQ_BASE, 64 bits, [11:0] reserved; 02 R29 (table); 0 -/
  sqBase : BitVec 64 := 0
  /-- DBL_CQ_BASE, 64 bits, [11:0] reserved; 02 R29 (table); 0 -/
  cqBase : BitVec 64 := 0
  /-- DBL_RING_CFG, 32 bits, [15] reserved; 02 R29 (table); 0 -/
  cfg : BitVec 32 := 0
  /-- DBL_ERR.BAD_DOORBELL, 8 bits, saturating; 02 R29 (table); 0 -/
  badDoorbell : Nat := 0
  /-- DBL_ERR.LOST_EVENTS, 8 bits, saturating; 02 R29 (table); 0 -/
  lostEvents : Nat := 0
  /-- DBL_ERR.WRITE_WHILE_OPEN, 8 bits, saturating; 02 R29 (table); 0 -/
  writeWhileOpen : Nat := 0
  /-- submission base as read at OPEN, 64 bits; 02 R30; 0 -/
  sqBaseL : BitVec 64 := 0
  /-- completion base as read at OPEN, 64 bits; 02 R30; 0 -/
  cqBaseL : BitVec 64 := 0
  /-- DBL_RING_CFG as read at OPEN, 32 bits; 02 R30; 0 -/
  cfgL : BitVec 32 := 0
  /-- PHASE bit of the next entry, 1 bit; 02 R34; 1 -/
  phase : Bool := true
  /-- completion slots reserved for fetched commands, count; 02 R32; 0 -/
  resv : Nat := 0
  /-- command fetched and held by FLAGS.ORDERED, with the index past it; 02 R36; none -/
  held : Option (RawCmd × Nat) := none
  /-- event mask, 14 bits; 02 R554; 0x3FFF -/
  evMask : Nat := 0x3FFF
  /-- number of the next event, 32 bits; 02 R41; 0 -/
  evSeq : Nat := 0
  /-- an event was lost since the last one delivered, 1 bit; 02 R41; 0 -/
  evLost : Bool := false
  /-- watchdog period in ms, 14 bits; 02 R553; 0 -/
  wdog : Nat := 0
  /-- instant of the last restart of the watchdog, 64 bits; 02 R553; 0 -/
  wdogAt : Nat := 0
  /-- WATCHDOG_WARN was posted since the last restart, 1 bit; 02 R554; 0 -/
  warned : Bool := false
  /-- entries posted since the last MSI-X message, count; 02 R42; 0 -/
  coal : Nat := 0
  /-- instant of the first of those entries, 64 bits; 02 R42; 0 -/
  coalAt : Nat := 0
  /-- periods from OPEN to OPEN so far (the model's own count, to tell a completion of an ended period), unbounded; 02 R27; 0 -/
  epoch : Nat := 0
  /-- teardown in progress; 02 R26, R27; none -/
  tear : Option Teardown := none
  /-- the context has ended, and what ends with it waits for a command that is accepted and not yet ordered, 1 bit; 02 R27; 0 -/
  ending : Bool := false
  /-- the slot was assigned when its home die went, and returns to the assignment record when the die rejoins, 1 bit; 02 R26; 0 -/
  rejoins : Bool := false
  /-- the entries and buffers written to host memory for the context since OPEN, the newest first (a write may yet fail); 02 R551; none -/
  last : List HostWrite := []
  deriving DecidableEq, Repr

/-- One PCIe function (02 R21, R42; 03 R47; 16 R438; 20 R496). -/
structure Fn where
  /-- the function is enabled, 1 bit; 02 R21; 0 (1 for a physical function of a populated die, DESIGN CHOICE log 4) -/
  enabled : Bool := false
  /-- bus mastering enabled, 1 bit; 02 R31; 0 (the default of PCI Express, PRESUMED log 4) -/
  master : Bool := false
  /-- MSI-X table size, 1-64; 02 R42; 64 (DESIGN CHOICE log 4) -/
  msixSize : Nat := 64
  /-- requester ID, 16 bits; 17 R440; the function's number (DESIGN CHOICE log 4) -/
  rid : Nat := 0
  /-- masked vectors of the MSI-X table, 64 bits; 02 R42; 0 (DESIGN CHOICE log 4) -/
  vecMask : Nat := 0
  /-- pending-bit array, 64 bits; 02 R42, 20 R496; 0 -/
  vecPend : Nat := 0
  /-- log2 of the BAR2 size in bytes, 28-34; 03 R47; 28 -/
  bar2Log : Nat := 28
  /-- BAR2 window table: entry to (region, granule of the region); 03 R47; empty -/
  win : Tab (Nat × Nat) := []
  /-- the function has written through BAR2 and no broadcast has followed, 1 bit; 14 R389; 0 -/
  wrote : Bool := false
  /-- latched CLK_TB_HI, 32 bits; 16 R438; 0 -/
  tbHi : Nat := 0
  deriving DecidableEq, Repr

/-- A command whose parts are with several dies (02 R39). -/
structure Remote where
  raw : RawCmd
  /-- the submission index just past the command -/
  sqHead : Nat
  /-- the instant at which the parts were sent -/
  time : Nat
  /-- dies that a part was sent to -/
  dies : List Nat
  /-- dies that passed their part and hold its reservation -/
  passed : List Nat := []
  /-- refusals: die, status, ERR_OFFSET, RESULT0, RESULT1 -/
  refused : List (Nat × Nat × Nat × Nat × Nat) := []
  /-- dies whose answer has reached the home Keeper -/
  heard : List Nat := []
  deriving DecidableEq, Repr

/-- What the hub has sent on its pins and links, beside its writes to host memory (the model's own record). -/
inductive Sent where
  /-- MSI-X message: function, vector (02 R42) -/
  | msix (fn vec : Nat)
  /-- answer to a BAR2 read (03 R48) or to a read of a device register: function, bytes -/
  | readData (fn : Nat) (data : List (BitVec 8))
  /-- a PCIe completion that is not successful: function, 1 Unsupported Request, 2 Configuration Request Retry Status (18 R463) -/
  | refusal (fn status : Nat)
  /-- message from one Keeper to another (02 R39): from, to, what -/
  | keeper (src dst : Nat) (what : Nat)
  /-- line of pixels (packed as sent) on a port: output, line, words (08 R215) -/
  | line (out y : Nat) (px : List Nat)
  /-- line of pixels on a DSI port: port, how (0 non-burst with sync pulses, 1 burst, 2 write_memory_start, 3 write_memory_continue; 4 more
  with a clock lane that is not continuous), line, the packet's bytes (13 R363) -/
  | dsi (port how y : Nat) (packet : List (BitVec 8))
  /-- zone packet on the wires of a zone-stream port: output, clock period in ns, and the bits of D1 and D0 at each clock edge while FRM is
  high, which stand from a quarter period before the edge to a quarter period after it (09 R256, 16 R424) -/
  | zone (out period : Nat) (edges : List (Bool × Bool))
  /-- Traverse control block or back-channel message: port, kind, bytes (13) -/
  | trv (port kind : Nat) (data : List (BitVec 8))
  /-- AUX transaction request, DSI packet, local I2C transfer: port, kind, bytes (13) -/
  | bus (port kind : Nat) (data : List (BitVec 8))
  deriving DecidableEq, Repr

/-! ### Regions, surfaces and shares (03, 14) -/

/-- A memory region (03 R46). -/
structure Region where
  /-- owning context, 12 bits; 03 R46, R64; (no region) -/
  owner : Nat
  /-- 4 MiB granules of the die's pool, in the region's order, 1-4096; 03 R46; (no region) -/
  granules : List Nat
  /-- function whose BAR2 maps it; 03 R47; (no region) -/
  fn : Nat
  /-- first window entry; 03 R47; (no region) -/
  win : Nat
  /-- share group charged, 5 bits; 03 R46; (no region) -/
  group : Nat
  /-- the owner has ended: the region is freed when its surfaces leave RETIRING, 1 bit; 03 R68; 0 -/
  dead : Bool := false
  deriving DecidableEq, Repr

/-- An Atlas entry that is LIVE or RETIRING (03 R50). -/
structure Surf where
  /-- RETIRING, or else LIVE, 1 bit; 03 R53; (FREE) -/
  retiring : Bool
  /-- generation, 16 bits; 03 R52; (FREE) -/
  gen : Nat
  /-- FORMAT, 16 bits; 03 R54; (FREE) -/
  fmt : Nat
  /-- width in pixels, 1-16,384; 03 R55; (FREE) -/
  width : Nat
  /-- height in lines, 1-16,384; 03 R55; (FREE) -/
  height : Nat
  /-- region, 0-2047; 03 R50; (FREE) -/
  region : Nat
  /-- crate budget, 16 bits; 03 R61; (FREE) -/
  budget : Nat
  /-- three planes: offset in 64-byte units and pitch field, 32 bits each; 03 R50, R76; (FREE) -/
  planes : List (Nat × Nat)
  /-- owner context, 12 bits; 03 R64; (FREE) -/
  owner : Nat
  /-- grants: context and rights (bit 0 READ, bit 1 WRITE), at most 8; 03 R50, R64; (FREE) -/
  grants : List (Nat × Nat)
  deriving DecidableEq, Repr

/-- Shares of one group on one die (03 R72). -/
structure Share where
  /-- BW, 1/256 units, 9 bits; 03 R72; 0 -/
  bw : Nat := 0
  /-- CYCLES, 1/256 units, 9 bits; 03 R72; 0 -/
  cycles : Nat := 0
  /-- MEM in granules, 32 bits; 03 R72; 0 -/
  mem : Nat := 0
  /-- ENERGY, 8 bits; 03 R72; 16 -/
  energy : Nat := 16
  deriving DecidableEq, Repr

/-! ### Layers, colour, programs (04, 05, 06) -/

/-- A 3x3 matrix of S3.12 coefficients, row-major, with offsets (05 R121). -/
structure Mat where
  c : List Int
  off : List Int
  deriving DecidableEq, Repr

/-- The identity matrix (05 R142). -/
def Mat.ident : Mat := { c := [4096, 0, 0, 0, 4096, 0, 0, 0, 4096], off := [0, 0, 0] }

/-- A layer record, committed or staged (04 R82, 05 R141, R142, 06 R158, R159), with the defaults of LAYER_CREATE. -/
structure LayerRec where
  /-- FLAGS bit 0 ENABLE, 1 bit; 04 R107; 0 -/
  enable : Bool := false
  /-- FLAGS bit 1 LIVE, 1 bit; 04 R107; 0 -/
  live : Bool := false
  /-- TRANSFORM, 8 bits; 04 R107; 0 -/
  transform : Nat := 0
  /-- SOURCE, 32 bits; 04 R107; 0 -/
  source : Nat := 0
  /-- CROP_X, 16 bits; 04 R107; 0 -/
  cropX : Nat := 0
  /-- CROP_Y, 16 bits; 04 R107; 0 -/
  cropY : Nat := 0
  /-- CROP_W, 16 bits; 04 R107; 0 -/
  cropW : Nat := 0
  /-- CROP_H, 16 bits; 04 R107; 0 -/
  cropH : Nat := 0
  /-- DST_X, signed 16 bits; 04 R107; 0 -/
  dstX : Int := 0
  /-- DST_Y, signed 16 bits; 04 R107; 0 -/
  dstY : Int := 0
  /-- DST_W, 16 bits; 04 R107; 0 -/
  dstW : Nat := 0
  /-- DST_H, 16 bits; 04 R107; 0 -/
  dstH : Nat := 0
  /-- ZPOS, 6 bits; 04 R107; 0 -/
  zpos : Nat := 0
  /-- BLEND, 8 bits; 04 R108; 0 -/
  blend : Nat := 0
  /-- PLANE_ALPHA, U2.14; 04 R108; 0x4000 -/
  planeAlpha : Nat := 0x4000
  /-- FILL, 4 x U2.14; 04 R108; opaque black -/
  fill : Nat := 0x4000000000000000
  /-- CONST, 4 x U2.14; 04 R108; 0 -/
  const : Nat := 0
  /-- KEY_LO, 4 x U2.14; 04 R108; 0 -/
  keyLo : Nat := 0
  /-- KEY_HI, 4 x U2.14; 04 R108; 0 -/
  keyHi : Nat := 0
  /-- CSC, 8 bits; 05 R141; 0 -/
  csc : Nat := 0
  /-- CHROMA, 8 bits; 05 R141; 0 -/
  chroma : Nat := 0
  /-- PRE_LUT, 8 bits; 05 R141; 0xFF -/
  preLut : Nat := 0xFF
  /-- SCALER, 8 bits; 05 R141; 0 -/
  scaler : Nat := 0
  /-- H_BANK, 8 bits; 05 R141; 0xFF -/
  hBank : Nat := 0xFF
  /-- V_BANK, 8 bits; 05 R141; 0xFF -/
  vBank : Nat := 0xFF
  /-- custom YCbCr matrix, 9 x 16 + 3 x 32 bits; 05 R142; identity -/
  ycc : Mat := Mat.ident
  /-- gamut matrix; 05 R142; none -/
  gamut : Option Mat := none
  /-- PROG, 16 bits; 06 R158; 0xFFFF -/
  prog : Nat := 0xFFFF
  /-- K0-K7, 64 bits each; 06 R159; 0 -/
  ks : List Nat := [0, 0, 0, 0, 0, 0, 0, 0]
  deriving DecidableEq, Repr

/-- What the cost of a layer takes from its source surface, held with the committed record (04 R89). -/
structure SrcFig where
  fmt : Nat
  width : Nat
  height : Nat
  budget : Nat
  planes : List (Nat × Nat)
  die : Nat
  deriving DecidableEq, Repr

/-- A layer slot in use (04 R81). -/
structure Layer where
  /-- output, 5 bits; 04 R80; (free slot) -/
  out : Nat
  /-- committed record; 04 R82; (free slot) -/
  cur : LayerRec := {}
  /-- source figures at the last commit that changed the record; 04 R89; none -/
  fig : Option SrcFig := none
  /-- the list owner has ended: fill colour from the next boundary, 1 bit; 04 R112; 0 -/
  ended : Bool := false
  /-- the whole layer was in fill colour in the last frame, 1 bit; 04 R109; 0 -/
  inFill : Bool := false
  /-- slots on the other dies of the group: layer keys; 04 R90; none -/
  peers : List Nat := []
  /-- FRAMES_SHOWN, 64 bits; 04 R109; 0 -/
  shown : Nat := 0
  /-- FILL_FRAMES, 32 bits; 04 R109; 0 -/
  fillFrames : Nat := 0
  /-- FETCH_FAULTS, 32 bits; 04 R109; 0 -/
  fetchFaults : Nat := 0
  /-- LAST_FRAME, 64 bits; 04 R109; 0 -/
  lastFrame : Nat := 0
  deriving DecidableEq, Repr

/-- A coefficient bank (05 R127): 64 phases of 8 taps in each direction. -/
structure Bank where
  owner : Nat
  /-- share group it counts against (05 R132) -/
  group : Nat
  horiz : List (List Int)
  vert : List (List Int)
  /-- a copy that the hub made for a group (05 R136): of this bank, by its key -/
  copyOf : Option Nat := none
  /-- the owner has ended (05 R137) -/
  dead : Bool := false
  deriving DecidableEq, Repr

/-- A LUT: DOMAIN and the tables of red, green and blue (05 R123). -/
structure Lut where
  domain : Nat
  red : List Nat
  green : List Nat
  blue : List Nat
  deriving DecidableEq, Repr

/-- A pre-blend LUT slot (05 R132). -/
structure LutSlot where
  owner : Nat
  group : Nat
  lut : Lut
  copyOf : Option Nat := none
  dead : Bool := false
  deriving DecidableEq, Repr

/-- A pixel-program slot (06 R153): LENGTH words. -/
structure Prog where
  owner : Nat
  group : Nat
  words : List (BitVec 32)
  copyOf : Option Nat := none
  dead : Bool := false
  deriving DecidableEq, Repr

/-- A pixel of the working format: four U2.14 channels (05 R115). -/
structure Px where
  b : Nat
  g : Nat
  r : Nat
  a : Nat
  deriving DecidableEq, Repr

/-- A tile that an engine composes (04 R94). -/
structure TileRef where
  out : Nat
  band : Nat
  col : Nat
  deriving DecidableEq, Repr

/-! ### Transactions and timelines (07) -/

/-- The states of a transaction (07 R163); an ENDED one is gone from the store. -/
inductive TxnState where
  | opened | validating | waiting | armed
  deriving DecidableEq, Repr

/-- A staged fence (07 R181). -/
structure Fence where
  tl : Nat
  value : Nat
  /-- instant of the signal that reached the value, once it has (07 R183) -/
  signalled : Option Nat := none
  deriving DecidableEq, Repr

/-- An output colour record (05 R143). -/
structure OutColour where
  /-- FLAGS, 8 bits; 05 R143; matrix off, LUT off, DITHER 2 -/
  flags : Nat := 8
  /-- output matrix; 05 R143; identity -/
  mat : Mat := Mat.ident
  deriving DecidableEq, Repr

/-- Dimming layout (09 R258). -/
structure DimLayout where
  /-- MODE, 8 bits; 09 R258; 0 -/
  mode : Nat := 0
  /-- DELIVERY, 8 bits; 09 R258; 0 -/
  delivery : Nat := 0
  /-- ZS_RATE, 8 bits; 09 R258; 0 -/
  zsRate : Nat := 0
  /-- COLS, 8 bits; 09 R258; 0 -/
  cols : Nat := 0
  /-- ROWS, 8 bits; 09 R258; 0 -/
  rows : Nat := 0
  /-- TX_OFFSET, 16 bits; 09 R258; 0 -/
  txOffset : Nat := 0
  deriving DecidableEq, Repr

/-- Dimming algorithm fields (09 R259). -/
structure DimAlgo where
  /-- FLAGS bit 0, neighbour clamp, 1 bit; 09 R259; 0 -/
  clamp : Bool := false
  /-- RISE, U1.15; 09 R259; 0x8000 -/
  rise : Nat := 0x8000
  /-- FALL, U1.15; 09 R259; 0x8000 -/
  fall : Nat := 0x8000
  /-- DELTA, 12 bits; 09 R259; 4095 -/
  delta : Nat := 4095
  /-- LEVEL_MIN, 12 bits; 09 R259; 0 -/
  lvlMin : Nat := 0
  /-- LEVEL_MAX, 12 bits; 09 R259; 4095 -/
  lvlMax : Nat := 4095
  /-- GAIN_MAX, U2.14; 09 R259; 0xFFFF -/
  gainMax : Nat := 0xFFFF
  /-- SCENE_THRESH, 18 bits; 09 R259; 32,768 -/
  thresh : Nat := 32768
  deriving DecidableEq, Repr

/-- Dimming tables (09 R260). -/
structure DimTabs where
  /-- transfer table, e[m][n] at 33 m + n, 12 bits each; 09 R260; min (128 m, 4095) -/
  e : List Nat := (List.range 1089).map fun i => min (128 * (i / 33)) 4095
  /-- light-spread kernel, K[b][a] at 9 b + a, 17 bits each; 09 R260; 65,536 at K[4][4] -/
  k : List Nat := (List.range 81).map fun i => if i = 40 then 65536 else 0
  deriving DecidableEq, Repr

/-- The staged records of one output in one transaction: a field is `none` where nothing is staged. -/
structure OutStage where
  /-- OUT_MODE: mode (0xFF stop), BPC, ENCODING; 08 R227; not staged -/
  mode : Option (Nat × Nat × Nat) := none
  /-- OUT_BACKGROUND; 08 R228; not staged -/
  bg : Option Nat := none
  /-- OUT_WRITEBACK: PERIOD, TARGET; 08 R229; not staged -/
  wb : Option (Nat × Nat) := none
  /-- OUT_STATIC: FLAGS, STATIC_FRAMES; 08 R230; not staged -/
  static : Option (Nat × Nat) := none
  /-- GRAT_SET; 04 R110; not staged -/
  band : Option Nat := none
  /-- OUTPUT_COLOUR; 05 R143; not staged -/
  colour : Option OutColour := none
  /-- OUTPUT_LUT; 05 R143; not staged -/
  lut : Option Lut := none
  /-- DIM_LAYOUT; 09 R258; not staged -/
  dimLayout : Option DimLayout := none
  /-- DIM_ALGO; 09 R259; not staged -/
  dimAlgo : Option DimAlgo := none
  /-- DIM_TABLES; 09 R260; not staged -/
  dimTabs : Option DimTabs := none
  deriving DecidableEq, Repr

/-- A mode entry (08 R202). -/
structure ModeEntry where
  num : Nat
  flags : Nat
  hActive : Nat
  hFront : Nat
  hSync : Nat
  hBack : Nat
  vActive : Nat
  vFront : Nat
  vSync : Nat
  vBack : Nat
  pllN : Nat
  pllP : Nat
  vTotalMax : Nat
  deriving DecidableEq, Repr

/-- What the figures of an output that has applied took from its records before (07 R177). -/
structure OldOut where
  mode : Option ModeEntry
  bandH : Nat
  wbPeriod : Nat
  wbTarget : Nat
  statFrames : Nat
  layout : DimLayout
  deriving DecidableEq, Repr

/-- An open transaction (07 R162). -/
structure Txn where
  /-- state; 07 R163; (no transaction) -/
  state : TxnState := .opened
  /-- owner context; 07 R162; (no transaction) -/
  owner : Nat
  /-- MODE independent, or else atomic, 1 bit; 07 R188; (no transaction) -/
  indep : Bool
  /-- APPLY_EVENTS, 1 bit; 07 R188; (no transaction) -/
  events : Bool
  /-- TIMEOUT_MS, 14 bits; 07 R188; (no transaction) -/
  timeoutMs : Nat
  /-- staged layer records by layer number; 07 R163, 04 R82; none -/
  layers : Tab LayerRec := []
  /-- layers whose SOURCE a LAYER_GEOM of the transaction stages; 04 R87; none -/
  geom : List Nat := []
  /-- source figures taken at the commit; 04 R89; none -/
  figs : Tab SrcFig := []
  /-- staged fences by layer number, at most 64; 07 R181; none -/
  fences : Tab Fence := []
  /-- staged records of outputs; 07 R163; none -/
  outs : Tab OutStage := []
  /-- ENGINE_SPARES: die to HOLD; 04 R113; none -/
  spares : Tab Nat := []
  /-- PWR_FLOOR: die to step; 15 R418; none -/
  floors : Tab Nat := []
  /-- ENGINE_SPARES after validation: die to the engines that its wings hold back, a mask of 24 bits; 04 R103; none -/
  held : Tab Nat := []
  /-- the deferred completion of TXN_COMMIT; 07 R189; none -/
  commit : Option Pend := none
  /-- timeout instant, 64 bits; 07 R191; 0 -/
  timeout : Nat := 0
  /-- instant at which it became ARMED; 07 R178; 0 -/
  armedAt : Nat := 0
  /-- order of passing validation among transactions (the model's own count); 07 R165; 0 -/
  valSeq : Nat := 0
  /-- schedule tables built at validation: output to the engines of its columns; 04 R92, R93; none -/
  tables : Tab (List Nat) := []
  /-- order of becoming ARMED among transactions (the model's own count); 07 R179; 0 -/
  armSeq : Nat := 0
  /-- outputs still to apply; 07 R191; none -/
  todo : List Nat := []
  /-- outputs at which something has applied; 07 R189; none -/
  applied : List Nat := []
  /-- layers whose staged record has applied or was discarded; 07 R183; none -/
  doneLayers : List Nat := []
  /-- outputs whose staged records have applied; 07 R179; none -/
  doneOuts : List Nat := []
  /-- dies whose staged records have applied; 07 R177; none -/
  doneDies : List Nat := []
  /-- outputs at which it has applied, with their records before; 07 R177; none -/
  oldOuts : Tab OldOut := []
  /-- layers whose record it has changed, with the record and source figures before; 07 R177; none -/
  oldLayers : Tab (LayerRec × Option SrcFig) := []
  /-- outputs at which it has applied, with the engines of their columns before; 07 R177; none -/
  oldTables : Tab (List Nat) := []
  /-- instant of the last apply point; 07 R189; 0 -/
  lastApply : Nat := 0
  /-- status of the first discard (independent mode); 07 R183; 0 -/
  discard : Nat := 0
  deriving DecidableEq, Repr

/-- A timeline (07 R181). -/
structure Timeline where
  /-- owner context; 07 R181; (no timeline) -/
  owner : Nat
  /-- value, 64 bits; 07 R181; (no timeline) -/
  value : Nat
  /-- generation, 16 bits; 07 R193; (no timeline) -/
  gen : Nat
  /-- wait grants, at most 8 contexts; 07 R193; none -/
  grants : List Nat := []
  deriving DecidableEq, Repr

/-! ### Outputs (08), local dimming (09), check values (10) -/

/-- The states of an output (08 R200). -/
inductive OutState where
  | stopped | starting | running | changing | stopping
  deriving DecidableEq, Repr

/-- One layer as a frame composes it: its key, its record, and whether the whole layer is in its fill colour (04 R89). -/
structure FrameLayer where
  key : Nat
  lr : LayerRec
  fig : Option SrcFig
  fill : Bool
  deriving DecidableEq, Repr

/-- The frame that is composed or scanned: what the latch point fixed (04 R100, 08 R221). -/
structure Frame where
  /-- FRAME_COUNT that the frame carries -/
  num : Nat := 0
  layers : List FrameLayer := []
  /-- 0 composed, 1 cache (static), 2 cache (rate-reduced), 3 self refresh (08 R233) -/
  source : Nat := 0
  /-- stream 0 writes the frame into the cache frame (08 R221, R224) -/
  toCache : Bool := false
  /-- stream 1 writes the frame (08 R229) -/
  toTarget : Bool := false
  /-- lines sent by eDP selective update; none: the whole frame (08 R223) -/
  onlyBands : Option (List Nat) := none
  /-- bands that were missing when their scan began (08 R215) -/
  missing : List Nat := []
  /-- first failing crate of each layer: key, cause, crate row, crate column (03 R71) -/
  faults : List (Nat × Nat × Nat × Nat) := []
  /-- the port stopped sending before the last line (10 R270) -/
  truncated : Bool := false
  /-- the port sent no pixels (10 R270) -/
  notSent : Bool := false
  /-- a lane was preset (10 R270) -/
  preset : Bool := false
  /-- first or second frame from S (10 R270) -/
  invalidMode : Bool := false
  /-- frame counter that pixel programs see: of a clone or span group, the primary's (06 R147) -/
  clock : Nat := 0
  /-- the counters and events of its layers have followed its composition (03 R71, 04 R109) -/
  settled : Bool := false
  deriving DecidableEq, Repr

/-- The timing generator of a running output (08 R205, R208, R222). -/
structure Scan where
  /-- the instant of pixel clock `refPx`: S, the instant at which the mode began, until genlock changes the rate -/
  s0 : Nat := 0
  /-- the pixel clock, counted from S, from which the present rate holds; 08 R213 -/
  refPx : Nat := 0
  /-- pixel-clock offset in ppm since then, signed; 08 R213 -/
  rate : Int := 0
  /-- pixel clocks from S to the start of the present vertical blank -/
  vbPx : Nat := 0
  /-- lines of the present vertical blank -/
  blank : Nat := 0
  /-- next active line to start; V_ACTIVE once all have started -/
  line : Nat := 0
  /-- the instant at which the drain began -/
  drainAt : Nat := 0
  /-- the drain has ended -/
  drained : Bool := false
  /-- the latch instant of the next boundary has passed -/
  latched : Bool := false
  /-- the present blank is stretched (08 R222) -/
  stretched : Bool := false
  /-- the boundary was re-opened: the step of local dimming does not run again (09 R252) -/
  reopened : Bool := false
  /-- frames begun since S -/
  frames : Nat := 0
  deriving DecidableEq, Repr

/-- Statistics of one zone (09 R240): MAX, Σv, pixel count and the 16 bins. -/
structure ZoneStat where
  max : Nat := 0
  sum : Nat := 0
  count : Nat := 0
  bins : List Nat := [0, 0, 0, 0, 0, 0, 0, 0, 0, 0, 0, 0, 0, 0, 0, 0]
  deriving DecidableEq, Repr

/-- What a completed dimming step leaves (09 R242, R262). -/
structure DimStep where
  /-- FRAME_COUNT served -/
  frame : Nat := 0
  stats : List ZoneStat := []
  levels : List Nat := []
  deriving DecidableEq, Repr

/-- Local dimming of one output (09). -/
structure Dim where
  /-- committed layout; 09 R258; MODE 0 -/
  layout : DimLayout := {}
  /-- committed algorithm; 09 R259; its defaults -/
  algo : DimAlgo := {}
  /-- committed tables; 09 R260; their defaults -/
  tabs : DimTabs := {}
  /-- statistics being collected, by zone; 09 R240; empty -/
  acc : Tab ZoneStat := []
  /-- statistics of the last frame, by zone; 09 R242; none -/
  last : Tab ZoneStat := []
  /-- a band of the last frame was missing, 1 bit; 09 R249; 0 -/
  hold : Bool := false
  /-- temporal filter state s per zone, 20 bits each; 09 R245; 0 -/
  filt : List Nat := []
  /-- levels sent, 12 bits each; 09 R247; 0 -/
  levels : List Nat := []
  /-- backlight estimates Bz, U2.14 each; 09 R248; 0 -/
  bz : List Nat := []
  /-- histogram H of the last frame, 16 values; 09 R246; 0 -/
  hist : List Nat := []
  /-- frames still flagged SETTLING, 0-3; 09 R261; 0 -/
  settle : Nat := 0
  /-- gain 0x4000 in this frame (first after a change), 1 bit; 09 R253; 0 -/
  flat : Bool := false
  /-- FLAGS of the packet of this frame, 4 bits; 09 R254; 0 -/
  pktFlags : Nat := 0
  /-- the packet of this frame has been sent, 1 bit; 09 R255; 0 -/
  pktSent : Bool := false
  /-- zone packet that goes in-band, and its bytes sent so far; 13 R351; none -/
  inBand : Option (List (BitVec 8) × Nat) := none
  /-- FRAME, 64 bits; 09 R261; 0 -/
  frame : Nat := 0
  /-- DISTANCE, 32 bits; 09 R261; 0 -/
  dist : Nat := 0
  /-- SCENE_CUTS, 32 bits, saturating; 09 R261; 0 -/
  cuts : Nat := 0
  /-- HOLDS, 32 bits, saturating; 09 R261; 0 -/
  holds : Nat := 0
  /-- PACKETS, 32 bits, saturating; 09 R261; 0 -/
  packets : Nat := 0
  /-- STEP_END, 64 bits; 09 R261; 0 -/
  stepEnd : Nat := 0
  /-- data of the last two completed steps, newest first; 09 R262; none -/
  steps : List DimStep := []
  deriving DecidableEq, Repr

/-- Configuration of a region channel (10 R281). -/
structure ChkCfg where
  flags : Nat
  width : Nat
  x : Nat
  y : Nat
  w : Nat
  h : Nat
  poly : Nat
  init : Nat
  deriving DecidableEq, Repr

/-- A pending lane operation (10 R276). -/
structure LaneOp where
  ch : Nat
  write : Bool
  y : Nat
  frame : Nat
  value : Nat
  pend : Option Pend
  deriving DecidableEq, Repr

/-- The values of a frame that has ended: its flags and number, its lanes, and the channels' configurations (10 R269). -/
structure FrameVals where
  flags : Nat
  num : Nat
  lanes : Tab Nat
  cfg : Tab ChkCfg
  deriving DecidableEq, Repr

/-- A final result (10 R284). -/
structure ChkRes where
  /-- FLAGS, 16 bits; 10 R284; 0 -/
  flags : Nat := 0
  /-- COMPARED, 16 bits; 10 R284; 0 -/
  compared : Nat := 0
  /-- MISMATCHED, 16 bits; 10 R284; 0 -/
  mismatched : Nat := 0
  /-- FRAME, 64 bits; 10 R284; 0 -/
  frame : Nat := 0
  /-- FINAL_TIME, 64 bits; 10 R284; 0 -/
  time : Nat := 0
  /-- REGION, 16 values of 64 bits; 10 R284; 0 -/
  region : List Nat := []
  /-- FRAME_VALUE, 64 bits; 10 R284; 0 -/
  frameValue : Nat := 0
  /-- LINK_VALUE, 64 bits; 10 R284; 0 -/
  linkValue : Nat := 0
  deriving DecidableEq, Repr

/-- Check values of one pipe (10). -/
structure Chk where
  /-- grant holder; 10 R277; none -/
  holder : Option Nat := none
  /-- region channel configurations in force; 10 R281; none -/
  cfg : Tab ChkCfg := []
  /-- configurations that await an apply point, in the order of their acceptance: channel, configuration (none disables) and the instant
  of acceptance; 10 R278; none -/
  next : List (Nat × Option ChkCfg × Nat) := []
  /-- queued expected values: channel, frame, value, at most 5 frames each; 10 R272; none -/
  expect : List (Nat × Nat × Nat) := []
  /-- pending lane operations; 10 R276; none -/
  ops : List LaneOp := []
  /-- running lanes 0-17, 64 bits each; 10 R267, R276; INIT -/
  lanes : Tab Nat := []
  /-- the line that the port is sending, which the lanes take as it is sent: its number, packed codes and blended pixels; 10 R270; none -/
  cur : Option (Nat × List (Nat × Nat × Nat) × List Px) := none
  /-- values of the frame that has ended and is not final yet; 10 R269; none -/
  ended : Option FrameVals := none
  /-- last final result; 10 R284; 0 -/
  res : ChkRes := {}
  /-- MISMATCHES, 32 bits, saturating; 10 R284; 0 -/
  mismatches : Nat := 0
  /-- LINK_MISMATCHES, 32 bits, saturating; 10 R284; 0 -/
  linkMismatches : Nat := 0
  deriving DecidableEq, Repr

/-- Genlock of an output or sync group (08 R213, R232). -/
structure Genlock where
  /-- ENABLE, 1 bit; 08 R232; 0 -/
  on : Bool := false
  /-- EDGE, 1 bit; 08 R232; 0 -/
  edge : Nat := 0
  /-- OFFSET_NS, signed 32 bits; 08 R232; 0 -/
  offset : Int := 0
  /-- GENLOCK state: 0 off, 1 acquiring, 2 locked, 3 freewheel; 08 R233; 0 -/
  state : Nat := 0
  /-- consecutive edges within one line; 08 R213; 0 -/
  good : Nat := 0
  /-- instant of the last edge; 08 R213; 0 -/
  lastEdge : Nat := 0
  /-- pixel-clock offset in ppm, signed; 08 R213; 0 -/
  ppm : Int := 0
  /-- pixel-clock offset of the primary's frame in progress in ppm, signed; 08 R207, R213; 0 -/
  rate : Int := 0
  deriving DecidableEq, Repr

/-- One output (08). -/
structure Output where
  /-- STATE; 08 R200; STOPPED -/
  state : OutState := .stopped
  /-- PORT, 8 bits; 08 R226; 0xFF -/
  port : Nat := 0xFF
  /-- CLASS, 2 bits; 08 R226; 1 STANDARD (DESIGN CHOICE log 6) -/
  cls : Nat := 1
  /-- list owner; 08 R199, 04 R80; none -/
  owner : Option Nat := none
  /-- owner named by OUT_CONFIG that takes the list at the next apply point; 08 R199; none -/
  newOwner : Option Nat := none
  /-- mode in force (a copy of its entry); 08 R227; none (MODE reads 0xFF) -/
  mode : Option ModeEntry := none
  /-- BPC, 4 bits; 08 R227; 0 (no default: 08 R227) -/
  bpc : Nat := 0
  /-- ENCODING, 1 bit; 08 R227; 0 (no default: 08 R227) -/
  enc : Nat := 0
  /-- the output has been started before, 1 bit; 08 R230; 0 -/
  started : Bool := false
  /-- background colour, 64 bits; 08 R214; opaque black -/
  bg : Nat := 0x4000000000000000
  /-- band height, 16 or 32; 04 R110; 16 -/
  bandH : Nat := 16
  /-- write-back PERIOD, 8 bits; 08 R229; 0 -/
  wbPeriod : Nat := 0
  /-- write-back TARGET, 32 bits; 08 R229; 0 -/
  wbTarget : Nat := 0
  /-- FRAME_COUNT at the apply point of the write-back record, 64 bits; 08 R229; 0 -/
  wbSince : Nat := 0
  /-- PERIOD 0xFF: the one frame has been written, 1 bit; 08 R229, 15 R413; 0 -/
  wbDone : Bool := false
  /-- rows of the crate row being collected for a crated target; 08 R217; none -/
  wbRows : List (List Px) := []
  /-- FRAME_COUNT of the written frame whose OUT_WB_DONE is due; 08 R217; none -/
  wbFlight : Option Nat := none
  /-- STATIC_FRAMES, 8 bits; 08 R230; 0 (8 or 0 at the first start) -/
  statFrames : Nat := 0
  /-- static FLAGS, 3 bits; 08 R230; 7 -/
  statFlags : Nat := 7
  /-- static-picture counter, 16 bits, saturating; 08 R220; 0 -/
  staticCount : Nat := 0
  /-- a change under R220 since the last latch instant, 1 bit; 08 R220; 0 -/
  changed : Bool := false
  /-- layers whose source content or standing changed since the last latch instant; 08 R220, R223; none -/
  dirty : List Nat := []
  /-- those that the last latch instant fixed; 08 R223; none -/
  dirtyAt : List Nat := []
  /-- update divisor q, 1-4; 08 R224; 1 -/
  q : Nat := 1
  /-- divisor that takes effect at the next apply point; 15 R412; none -/
  qNext : Option Nat := none
  /-- group kind 0-3; 08 R231; 0 -/
  grp : Nat := 0
  /-- group primary, 5 bits; 08 R231; 0xFF -/
  primary : Nat := 0xFF
  /-- member index, 6 bits; 08 R231; 0 -/
  index : Nat := 0
  /-- the group's members, at the primary; 08 R231; none -/
  members : List Nat := []
  /-- what a member had before the group took it (owner, band height), to take back at dissolution; 08 R212; none -/
  own : Option (Option Nat × Nat) := none
  /-- genlock; 08 R213; off -/
  gen : Genlock := {}
  /-- banks of the die's band-buffer pool that hold the output's four bands, in order, `none` for one that it lacks, at most 96; 17 R447, R449;
  empty -/
  banks : List (Option Nat) := []
  /-- mode whose band buffer and zones a STOPPING output still holds; 08 R200; none -/
  relMode : Option ModeEntry := none
  /-- display PLL in use, 0 or 1; 08 R206; 0xFF -/
  pll : Nat := 0xFF
  /-- FRAME_COUNT, 64 bits; 08 R208; 0 -/
  frameCount : Nat := 0
  /-- FLIP_TIME, 64 bits; 08 R208; 0 -/
  flipTime : Nat := 0
  /-- FRAME_TIME, 64 bits; 08 R208; 0 -/
  frameTime : Nat := 0
  /-- UNDERRUN_BANDS, 32 bits, saturating; 08 R233; 0 -/
  undBands : Nat := 0
  /-- UNDERRUN_LINES, 32 bits, saturating; 08 R233; 0 -/
  undLines : Nat := 0
  /-- OUT_UNDERRUN was posted in this frame, 1 bit; 08 R215; 0 -/
  undPosted : Bool := false
  /-- a boot output that still scans its boot image, 1 bit; 18 R464; 0 -/
  boot : Bool := false
  /-- the hub itself stops the output at its next apply point (power entry, Survey), 1 bit; 15 R394, 17 R449, R450; 0 -/
  stopNext : Bool := false
  /-- granules of the cache frame; 08 R218; none -/
  cache : List Nat := []
  /-- the cache frame holds a whole picture, 1 bit; 08 R221; 0 -/
  cacheFull : Bool := false
  /-- a change has been latched that no frame composed since shows, 1 bit; 08 R221, 15 R412; 0 -/
  cacheStale : Bool := false
  /-- self refresh, 1 bit; 08 R223; 0 -/
  psr : Bool := false
  /-- its display PLL has lost lock: it goes to CHANGING at its next line start, 1 bit; 08 R200, 16 R432; 0 -/
  pllLost : Bool := false
  /-- instant A of the start, change or stop in progress; 08 R205; 0 -/
  aTime : Nat := 0
  /-- output colour record; 05 R143; its defaults -/
  colour : OutColour := {}
  /-- pending post-blend LUT; 05 R135; identity (none stands for it) -/
  lutPend : Option Lut := none
  /-- active post-blend LUT; 05 R135; identity (none stands for it) -/
  lutAct : Option Lut := none
  /-- tile column to engine of the die, for the frame in progress; 04 R92, R100; none -/
  cols : List Nat := []
  /-- the same as the latch point fixed it for the next frame; 04 R100; none -/
  tabAt : List Nat := []
  /-- FRAME_COUNT of the group's primary less the output's own, from S on; 06 R147; 0 -/
  skew : Int := 0
  /-- timing generator; 08 R205; not running -/
  scan : Option Scan := none
  /-- the frame being composed or scanned; 04 R100; none -/
  frame : Option Frame := none
  /-- band-buffer slots: band to column to rows of pixels; 04 R95; empty -/
  bands : Tab (Tab (List (List Px))) := []
  /-- local dimming; 09; off -/
  dim : Dim := {}
  /-- check values; 10; none configured -/
  chk : Chk := {}
  /-- layers that the latch point found for the next frame, and whether each is shown whole in its fill colour; 03 R65, 04 R89; none -/
  fills : List (Nat × Bool) := []
  /-- the same for the records in force, should the group's boundary apply nothing; 03 R65, 07 R180; none -/
  fillsOld : List (Nat × Bool) := []
  /-- the group decision for the next boundary: member dies that confirmed it; 07 R180; none -/
  decided : List Nat := []
  /-- the latch instant at which that decision began, 64 bits; 07 R180; 0 -/
  openAt : Nat := 0
  /-- the outcome of that decision, once the group's apply point has begun, and that apply point; 07 R180; none -/
  verdict : Option (Bool × Nat) := none
  deriving DecidableEq, Repr

/-! ### Plotter (11) and DMA (12) -/

/-- One write of the hub or of a BAR2 access to LP5X. -/
inductive MemWrite where
  /-- bytes from an address -/
  | bytes (addr : Nat) (data : Bytes)
  /-- zeros over a range -/
  | zeros (addr len : Nat)
  deriving DecidableEq, Repr

/-- A Plotter job (11 R288), queued or running. -/
structure Job where
  /-- the PLT_JOB whose completion it carries -/
  pend : Pend
  op : Nat
  transform : Nat
  blend : Nat
  flags : Nat
  csc : Nat
  dst : Nat
  src : Nat
  /-- source rectangle X, Y, W, H -/
  srcRect : List Nat
  /-- destination rectangle X, Y, W, H -/
  dstRect : List Nat
  colour : Nat
  alpha : Nat
  wmLine : Nat
  tl : Nat
  value : Nat
  /-- clipping rectangles in use -/
  clips : List (List Nat)
  /-- cycles drawn so far; 11 R299 -/
  drawn : Nat := 0
  /-- lines (rows of crates for a crated destination) processed, in processing order; 11 R296 -/
  done : Nat := 0
  /-- what is left to write of the line in progress, read but not yet paid for: granule, pixels and writes of each 64 bytes, in
  processing order; 11 R299, R300 -/
  line : List (Nat × Nat × List MemWrite) := []
  /-- pixels written; 11 R296 -/
  pixels : Nat := 0
  /-- failing crates met: 0 source or 1 destination, row, column; 11 R294 -/
  bad : List (Nat × Nat × Nat) := []
  /-- PLT_WATERMARK has been posted; 11 R297 -/
  marked : Bool := false
  deriving DecidableEq, Repr

/-- The Plotter of one die (11 R287). -/
structure Plt where
  /-- queue of at most 256 jobs, the running one first; 11 R287; empty -/
  jobs : List Job := []
  /-- the first job runs, 1 bit; 11 R287; 0 -/
  busy : Bool := false
  /-- cycles charged to each context since its OPEN: context to (period, cycles); 11 R302; none -/
  charged : Tab (Nat × Nat) := []
  deriving DecidableEq, Repr

/-- A client descriptor (12 R306). -/
structure DmaDesc where
  op : Nat
  flags : Nat
  planes : Nat
  dst : Nat
  dstOff : Nat
  len : Nat
  source : Nat
  value : Nat
  /-- sequence number, 32 bits; 12 R317 -/
  seq : Nat
  deriving DecidableEq, Repr

/-- A descriptor, or an operation of a privileged channel, that runs. -/
structure DmaRun where
  /-- bytes processed, from the start of the range in the copy direction; 12 R319 -/
  moved : Nat := 0
  /-- cycles drawn; 12 R315 -/
  drawn : Nat := 0
  /-- COMPARE: offset of the first differing byte; 12 R317 -/
  diff : Option Nat := none
  deriving DecidableEq, Repr

/-- A client DMA channel that is allocated (12 R305). -/
structure DmaChan where
  /-- owner context; 12 R305; (free channel) -/
  owner : Nat
  /-- share group that it counts against; 12 R305; (free channel) -/
  group : Nat
  /-- CQ_LOG2; 12 R316, R325; (free channel) -/
  cqLog : Nat
  /-- RATE, 1-256; 12 R314, R325; (free channel) -/
  rate : Nat
  /-- timeline handle, or 0; 12 R325; (free channel) -/
  tl : Nat
  /-- CQ_BASE, 64 bits; 12 R316, R325; (free channel) -/
  base : Nat
  /-- CQ_HEAD of the last submit; 12 R318; 0 -/
  head : Nat := 0
  /-- index of the next record; 12 R325; 0 -/
  tail : Nat := 0
  /-- expected phase, 1 bit; 12 R316; 1 -/
  phase : Bool := true
  /-- next SEQ, 32 bits; 12 R325; 0 -/
  seq : Nat := 0
  /-- outstanding descriptors, the running one first; 12 R311, at most 64 queued; none -/
  queue : List DmaDesc := []
  /-- the first descriptor runs; 12 R311; none -/
  run : Option DmaRun := none
  /-- a record write has failed: no more submits; 12 R318; 0 -/
  dead : Bool := false
  /-- cycles charged since DMA_ALLOC; 12 R327; 0 -/
  charged : Nat := 0
  /-- the records written, the newest first, for a write may yet fail; 12 R318; none -/
  last : List HostWrite := []
  deriving DecidableEq, Repr

/-- Registers of a privileged DMA channel (12 R321). -/
structure PrivDma where
  /-- DMA_SRC, 37 bits; 12 R321; 0 -/
  src : Nat := 0
  /-- DMA_DST, 37 bits; 12 R321; 0 -/
  dst : Nat := 0
  /-- DMA_LEN, 32 bits; 12 R321; 0 -/
  len : Nat := 0
  /-- DMA_CTRL.OP and BARRIER, 3 bits; 12 R321; 0 -/
  ctrl : Nat := 0
  /-- DMA_PATTERN, 64 bits; 12 R321; 0 -/
  pattern : Nat := 0
  /-- DMA_STATUS.BUSY with the latched SRC, DST, LEN, OP and PATTERN; 12 R322; 0 -/
  busy : Option (Nat × Nat × Nat × Nat × Nat) := none
  /-- DMA_STATUS.LAST_STATUS, 16 bits; 12 R321; 0 -/
  last : Nat := 0
  /-- DMA_COUNT.DONE, 16 bits, modulo; 12 R321; 0 -/
  done : Nat := 0
  /-- DMA_COUNT.IGNORED, 8 bits, saturating; 12 R321; 0 -/
  ignored : Nat := 0
  /-- DMA_BYTES, 32 bits; 12 R321; 0 -/
  bytes : Nat := 0
  /-- DMA_MISMATCH, 32 bits; 12 R321; 0xFFFF_FFFF -/
  mismatch : Nat := 0xFFFFFFFF
  deriving DecidableEq, Repr

/-! ### Ports and links (13) -/

/-- State of a port (13 R340, R372). -/
inductive LinkState where
  | off | seek | adapt | wait | up | weak | alone | deep | loop | down
  deriving DecidableEq, Repr

/-- One lane of a Traverse port (13 R337, R343-R346). -/
structure Lane where
  /-- RX_STATE of the receive lane: 0 NONE, 1 BIT_LOCK, 2 BLOCK_LOCK, 3 ADAPTED; 13 R337; 0 -/
  rx : Nat := 0
  /-- FOM, 8 bits; 13 R345; 0 -/
  fom : Nat := 0
  /-- CTLE code, 4 bits; 13 R344; 0 (DESIGN CHOICE log 16) -/
  ctle : Nat := 0
  /-- the CTLE code and the DFE taps are fixed by LNK_EQ, 1 bit; 13 R344; 0 -/
  fixed : Bool := false
  /-- LNK_EQ OP 2 re-adapts the lane in place, 1 bit; 13 R367; 0 -/
  adapting : Bool := false
  /-- four DFE taps, signed; 13 R344; 0 (DESIGN CHOICE log 16) -/
  dfe : List Int := [0, 0, 0, 0]
  /-- transmit FIR, PRE, MAIN, POST; 13 R343; 4, 50, 10 -/
  fir : List Nat := [4, 50, 10]
  /-- FOM windows that have still to end before the figure is no longer STALE, 0-4; 13 R346; 0 -/
  stale : Nat := 0
  /-- the partner's FOM of its lane, 8 bits; 13 R372; 0 -/
  partnerFom : Nat := 0
  deriving DecidableEq, Repr

/-- A camera stream's configuration (13 R356, R369). -/
structure CamCfg where
  owner : Nat
  targets : List Nat
  lineNs : Nat
  tl : Nat
  base : Nat
  /-- die of the targets -/
  die : Nat
  /-- W_line of R356, bytes -/
  wLine : Nat
  /-- share group of the targets' owner -/
  group : Nat
  deriving DecidableEq, Repr

/-- The camera frame that is being received (13 R355). -/
structure CamFrame where
  /-- frame index k -/
  k : Nat
  /-- lines received: plane, line -/
  got : List (Nat × Nat) := []
  /-- lines of crate rows that are not complete: line to row bytes -/
  rows : Tab (List (BitVec 8)) := []
  /-- a line was discarded, or the port left UP -/
  bad : Bool := false
  /-- every plane line has been received once: the frame has ended, complete -/
  full : Bool := false
  /-- VIDEO_FRAME did not match the targets: the frame is ignored -/
  ignored : Bool := false
  deriving DecidableEq, Repr

/-- A loopback test (13 R349, R368). -/
structure LoopTest where
  mode : Nat
  lanes : Nat
  duration : Nat
  start : Nat
  cmd : Option Pend
  /-- far end: the partner has accepted -/
  accepted : Bool
  deriving DecidableEq, Repr

/-- An I2C transfer requested on a port (13 R370). -/
structure I2cReq where
  cmd : Pend
  id : Nat
  buf : Nat
  msg : List (BitVec 8)
  deriving DecidableEq, Repr

/-- One port: DP_0, DP_1 (codes 0, 1), DSI (2), TV_0-TV_3 (4-7) of a die (13). -/
structure Port where
  /-- KIND, 8 bits; 13 R330, R366; 0 (off) -/
  kind : Nat := 0
  /-- OPTIONS, 8 bits; 13 R366; 0 -/
  options : Nat := 0
  /-- LANES, 8 bits; 13 R366; 0 -/
  lanes : Nat := 0
  /-- DP_RATE, 8 bits; 13 R366; 0 -/
  dpRate : Nat := 0
  /-- DSI_RATE, 16 bits; 13 R366; 0 -/
  dsiRate : Nat := 0
  /-- RATE_TX, 2 bits; 13 R366; 0 -/
  rateTx : Nat := 0
  /-- RATE_RX, 2 bits; 13 R366; 0 -/
  rateRx : Nat := 0
  /-- DOZE_IDLE in µs; 13 R366; 100 -/
  dozeIdle : Nat := 100
  /-- FOM_MIN, 8 bits; 13 R345, R366; 96 -/
  fomMin : Nat := 96
  /-- CAM_OWNER, 16 bits; 13 R366; 0xFFFF -/
  camOwner : Nat := 0xFFFF
  /-- STATE, 4 bits; 13 R340, R372; 0 (OFF) -/
  state : LinkState := .off
  /-- timebase of the last state change, 64 bits; 13 R372; 0 -/
  stateTime : Nat := 0
  /-- T0, instant of the last restart of training, 64 bits; 13 R340; 0 -/
  t0 : Nat := 0
  /-- instant at which both lanes reached BLOCK_LOCK, 64 bits; 13 R340; 0 -/
  lockAt : Nat := 0
  /-- transmit dozing, 1 bit; 13 R347, R372; 0 -/
  txDoze : Bool := false
  /-- receive dozing, 1 bit; 13 R347, R372; 0 -/
  rxDoze : Bool := false
  /-- lane 0; 13 R332 -/
  lane0 : Lane := {}
  /-- lane 1; 13 R332 -/
  lane1 : Lane := {}
  /-- PARTNER_ID, 32 bits; 13 R372; 0 -/
  partnerId : Nat := 0
  /-- PARTNER: port code, die site, roles; 13 R372; 0, 0, 0 -/
  partner : List Nat := [0, 0, 0]
  /-- STATUS byte that the partner sent last; 13 R352; 0 -/
  partnerStatus : Nat := 0
  /-- LINK_RETRAINS, 32 bits, saturating; 13 R372; 0 -/
  retrains : Nat := 0
  /-- CODING_ERRORS of both lanes, 32 bits; 13 R338, R372; 0 -/
  coding : Nat := 0
  /-- CAM_FRAMES, 32 bits; 13 R372; 0 -/
  camFrames : Nat := 0
  /-- CAM_FAULTS, 32 bits; 13 R372; 0 -/
  camFaults : Nat := 0
  /-- FILLER_ADJUST, 32 bits; 13 R372; 0 -/
  filler : Nat := 0
  /-- camera stream; 13 R369; none -/
  cam : Option CamCfg := none
  /-- configuration that replaces the stream at the next VIDEO_FRAME; 13 R357; none -/
  camNext : Option CamCfg := none
  /-- frames of the stream begun; 13 R355; 0 -/
  camK : Nat := 0
  /-- the frame in progress; 13 R355; none -/
  camFrame : Option CamFrame := none
  /-- loopback test; 13 R368; none -/
  test : Option LoopTest := none
  /-- the port returns its received blocks for a far-end test of its partner, 1 bit; 13 R349; 0 -/
  farHeld : Bool := false
  /-- LNK_POWER with STATE 0 whose completion waits for UP; 13 R365; none -/
  wakeCmds : List Pend := []
  /-- I2C transfers, the outstanding one first; 13 R352, R370; none -/
  i2c : List I2cReq := []
  /-- ID of the next I2C request, 8 bits; 13 R352; 0 (DESIGN CHOICE log 16) -/
  i2cId : Nat := 0
  /-- LNK_AUX commands that wait, the one on the wire first: command, OP, request; 13 R371; none -/
  aux : List (Pend × Nat × List (BitVec 8)) := []
  /-- retries of the AUX transaction on the wire after DEFER, 0-7; 13 R371; 0 -/
  auxTries : Nat := 0
  /-- brightness writes that wait for a vertical blank: LEVEL, ENABLE, command; 13 R362, R371; none -/
  light : List (Nat × Nat × Pend) := []
  /-- DSI commands that wait for a vertical blank: packet, read, command; 13 R371; none -/
  dsiWait : List (List (BitVec 8) × Bool × Pend) := []
  /-- DSI reads that wait for their response, the oldest first; 13 R371; none -/
  dsiRead : List Pend := []
  /-- DSI: the link is in ULPS, 1 bit; 13 R363, 15 R394; 0 -/
  ulps : Bool := false
  /-- HPD is high: a sink is plugged in, 1 bit; 13 R360; 0 -/
  sink : Bool := false
  /-- sink's lane count; 13 R359; 0 -/
  sinkLanes : Nat := 0
  /-- sink's highest rate code; 13 R359; 0 -/
  sinkRate : Nat := 0
  /-- sink capabilities: [0] Adaptive-Sync, [1] PSR, [2] PSR2 with selective update, [3] AUX backlight; 13 R372; 0 -/
  sinkCaps : Nat := 0
  /-- bits of the sink's brightness; 13 R362; 16 (DESIGN CHOICE log 16) -/
  sinkBits : Nat := 16
  /-- granularity of the sink's selective update in pixels and lines; 13 R361; 1, 1 (DESIGN CHOICE log 16) -/
  sinkGran : Nat × Nat := (1, 1)
  /-- trained maximum: lanes, rate code; 13 R359; none -/
  trained : Option (Nat × Nat) := none
  /-- configuration in use: lanes, rate code; 13 R359; 0, 0 -/
  inUse : Nat × Nat := (0, 0)
  /-- a training attempt runs, for this configuration; 13 R359; none -/
  training : Option (Nat × Nat) := none
  /-- self refresh is disabled until the next mode change, 1 bit; 13 R361; 0 -/
  psrOff : Bool := false
  /-- number of the next MARKER, 32 bits; 13 R337; 0 (DESIGN CHOICE log 16) -/
  marker : Nat := 0
  /-- instant at which the port last sent a stream block, 64 bits; 13 R347; 0 -/
  lastTx : Nat := 0
  /-- STATUS byte that the port sent last; 13 R352; 0 -/
  status : Nat := 0
  /-- timebase of the last TIME request sent, 64 bits; 13 R353; 0 -/
  timeReq : Nat := 0
  /-- timebase of the last repeat of VIDEO_OFF, 64 bits; 13 R350; 0 -/
  offAt : Nat := 0
  /-- sequence number of the next TIME request, 32 bits; 13 R337; 0 (DESIGN CHOICE log 16) -/
  timeSeq : Nat := 0
  deriving DecidableEq, Repr

/-! ### Power and heat (15) -/

/-- Power state of a die (15 R414). -/
inductive PwrState where
  | run | idle | entering | sleep | deep | exiting | off
  deriving DecidableEq, Repr

/-- An entry to SLEEP, DEEP or OFF in progress (15 R394). -/
structure PwrEntry where
  /-- 2 SLEEP, 3 DEEP, 4 OFF -/
  target : Nat
  /-- the PWR_STATE command whose completion it carries -/
  cmd : Option Pend
  /-- wake event latched before the commit point -/
  wake : Option Nat := none
  /-- outputs that the entry stops at their next apply points; 15 R394, R397 -/
  stops : List Nat := []
  deriving DecidableEq, Repr

/-- A junction sensor (15 R414). -/
structure Sensor where
  /-- TEMP, 12 bits; 15 R414; 0 -/
  temp : Nat := 0
  /-- VALID, 1 bit; 15 R414; 0 -/
  valid : Bool := false
  /-- conversions since start or exit, 0-2; 15 R402; 2 -/
  seen : Nat := 2
  deriving DecidableEq, Repr

/-- Power manager of one die (15). -/
structure Pwr where
  /-- PWR_STATE.STATE, 3 bits; 15 R414; RUN -/
  state : PwrState := .run
  /-- PWR_STATE.LAST_WAKE, 3 bits; 15 R414; 0 -/
  lastWake : Nat := 0
  /-- PWR_STATE.STEP, 2 bits; 15 R414; 0 -/
  step : Nat := 0
  /-- step of the core voltage; 15 R408; 0 -/
  volt : Nat := 0
  /-- CORE_VID code that the die drives at the end of its ramp, 5 bits; 21 R524; 15 -/
  vid : Nat := 15
  /-- instant at which the voltage ramp in progress, or the last one, ends; 15 R408, 21 R524; 0 -/
  rampEnd : Nat := 0
  /-- clock step to which the divider will switch; 15 R408; none -/
  stepTo : Option Nat := none
  /-- PWR_STATE.FLOOR, 2 bits; 15 R414; 1 -/
  floor : Nat := 1
  /-- PWR_STATE.RUNG, 4 bits; 15 R414; 0 -/
  rung : Nat := 0
  /-- PWR_COUNT.ENTRIES, 16 bits, modulo; 15 R414; 0 -/
  entries : Nat := 0
  /-- PWR_COUNT.REFUSED, 8 bits, saturating; 15 R414; 0 -/
  refused : Nat := 0
  /-- PWR_COUNT.ABORTED, 8 bits, saturating; 15 R414; 0 -/
  aborted : Nat := 0
  /-- PWR_REFUSER.KIND, 4 bits; 15 R414; 0 -/
  refKind : Nat := 0
  /-- PWR_REFUSER.REQUESTED, 3 bits; 15 R414; 0 -/
  refReq : Nat := 0
  /-- PWR_REFUSER.INDEX, 16 bits; 15 R414; 0 -/
  refIndex : Nat := 0
  /-- PWR_WAKE_EN.EN, 6 bits; 15 R414; 0x07 -/
  wakeEn : Nat := 7
  /-- PWR_WAKE_TIMER.TICKS, 32 bits; 15 R414; 0 -/
  wakeTimer : Nat := 0
  /-- PWR_WAKE_COUNT.REPLAYS, 8 bits, saturating; 15 R414; 0 -/
  replays : Nat := 0
  /-- PWR_WAKE_COUNT.WAKES, 8 bits, saturating; 15 R414; 0 -/
  wakes : Nat := 0
  /-- PWR_BUDGET.BUDGET_MW, 16 bits; 15 R414; 19,000 -/
  budget : Nat := 19000
  /-- PWR_BUDGET.ESTIMATE_MW, 16 bits; 15 R414; 0 -/
  estimate : Nat := 0
  /-- allowance A in mW, signed while it is computed; 15 R403; LIMIT_MW -/
  allow : Nat := 19000
  /-- LIMIT_MW, 16 bits; 15 R417; 19,000 -/
  limit : Nat := 19000
  /-- FLOOR_MW, 16 bits; 15 R417; 6000 -/
  floorMw : Nat := 6000
  /-- consecutive ticks at or below 0.9 of the budget one rung lower; 15 R406; 0 -/
  below : Nat := 0
  /-- the shortfall of R406 has been reported and holds, 1 bit; 15 R406; 0 -/
  short : Bool := false
  /-- STATE_TIME, 64 bits; 15 R419; 0 -/
  stateTime : Nat := 0
  /-- RUNG_TIME, 64 bits; 15 R419; 0 -/
  rungTime : Nat := 0
  /-- tokens of the last refill, 32 bits; 15 R411, R419; 0 -/
  pool : Nat := 0
  /-- token bucket of each share group; 15 R411; empty -/
  bucket : Tab Nat := []
  /-- last refill of each share group; 15 R411; empty -/
  refill : Tab Nat := []
  /-- sensors 0-11; 15 R414; 0, not valid -/
  sensors : Tab Sensor := []
  /-- THM_MAX.TEMP, 12 bits; 15 R414; 0 -/
  maxTemp : Nat := 0
  /-- THM_MAX.SENSOR, 4 bits; 15 R414; 0 -/
  maxSensor : Nat := 0
  /-- THM_MAX.LEVEL, 2 bits; 15 R414; 0 -/
  level : Nat := 0
  /-- THM_COUNT.WARN, 8 bits, saturating; 15 R414; 0 -/
  warn : Nat := 0
  /-- THM_COUNT.REDUCE, 8 bits, saturating; 15 R414; 0 -/
  reduce : Nat := 0
  /-- entry in progress; 15 R394; none -/
  entry : Option PwrEntry := none
  /-- PWR_STATE with STATE 0 whose completion waits for RUN; 15 R415; none -/
  runCmds : List Pend := []
  /-- instant of the commit point of the last entry; 15 R396; 0 -/
  commitAt : Nat := 0
  /-- the PCIe port of the die holds its link in L1, 1 bit; 15 R394; 0 -/
  l1 : Bool := false
  /-- a thermal shutdown is pending, 1 bit; 15 R400; 0 -/
  shutdown : Bool := false
  deriving DecidableEq, Repr

/-! ### Clocks (16) -/

/-- The modulator of a display PLL while a ramp runs (16 R430). -/
structure PllMod where
  /-- instant of the ramp's start -/
  start : Nat
  /-- reference cycles run since -/
  cycles : Nat := 0
  e1 : Int := 0
  e2 : Int := 0
  /-- the LFSR, 16 bits -/
  lfsr : Nat
  /-- divide ratio of the last cycle -/
  q : Nat := 0
  deriving DecidableEq, Repr

/-- One PLL (16 R438): the root PLL or a display PLL. -/
structure Pll where
  /-- PLL_DIV.N, 8 bits; 16 R438; 200 root, 0 display -/
  n : Nat := 0
  /-- PLL_DIV.P, 8 bits; 16 R438; 0 -/
  p : Nat := 0
  /-- PLL_STATUS.LOCKED, 1 bit; 16 R438; 0 -/
  locked : Bool := false
  /-- PLL_STATUS.BYPASS, 1 bit; 16 R438; 1 -/
  bypass : Bool := true
  /-- PLL_STATUS.REF_OK, 1 bit; 16 R438; 0 -/
  refOk : Bool := false
  /-- PLL_STATUS.RAMP, 1 bit (PLL_DIV.INTEGER is its opposite); 16 R438; 0 -/
  ramp : Bool := false
  /-- PLL_SSC.EN, 1 bit; 16 R438; 0 -/
  sscEn : Bool := false
  /-- PLL_SSC.SPREAD, 6 bits; 16 R438; 0 -/
  spread : Nat := 0
  /-- PLL_SSC.FMOD, 3 bits; 16 R438; 0 -/
  fmod : Nat := 0
  /-- PLL_SEED.SEED, 16 bits; 16 R438; 0xACE1 -/
  seed : Nat := 0xACE1
  /-- EN, SPREAD, FMOD and seed as the last programming used them; 16 R431, R438; 0, 0, 0, 0xACE1 -/
  used : Bool × Nat × Nat × Nat := (false, 0, 0, 0xACE1)
  /-- PLL_FRAC.D, 24 bits, two's complement; 16 R438; 0 -/
  frac : Int := 0
  /-- PLL_COUNT.LOSSES, 8 bits, saturating; 16 R438; 0 -/
  losses : Nat := 0
  /-- PLL_COUNT.TIMEOUTS, 8 bits, saturating; 16 R438; 0 -/
  timeouts : Nat := 0
  /-- PLL_COUNT.IGNORED, 8 bits, saturating; 16 R438; 0 -/
  ignored : Nat := 0
  /-- instant of the last programming or relock attempt, 64 bits; 16 R427; 0 -/
  progAt : Nat := 0
  /-- number of the attempt that runs since the PLL was programmed for its mode, 64 bits; 17 R441; 0 -/
  attempts : Nat := 0
  /-- instant of lock, 64 bits; 16 R426; 0 -/
  lockAt : Nat := 0
  /-- instant from which the spread-spectrum ramp runs; 16 R429; none -/
  rampAt : Option Nat := none
  /-- the modulator, as it was when the ramp last changed; 16 R430; none -/
  mod : Option PllMod := none
  deriving DecidableEq, Repr

/-- Clock block of one die (16 R438). -/
structure Clk where
  /-- CLK_REF.SYS_OK, 1 bit; 16 R438; 0 -/
  sysOk : Bool := false
  /-- CLK_REF.VID_OK, 1 bit; 16 R438; 0 -/
  vidOk : Bool := false
  /-- CLK_REF.XTAL_OK, 1 bit; 16 R438; 0 -/
  xtalOk : Bool := false
  /-- CLK_REF.RC_ACTIVE, 1 bit; 16 R438; 1 -/
  rcActive : Bool := true
  /-- CLK_REF.ALIGNED, 1 bit; 16 R438; 0 -/
  aligned : Bool := false
  /-- the die's timebase less the package timebase, in ns; 16 R436, 18 R462; 0 -/
  tbOff : Int := 0
  /-- instant of the last correction of the timebase, 64 bits; 16 R436; 0 -/
  corrAt : Nat := 0
  /-- CLK_DOMAIN.ROOT_ON, 12 bits; 16 R438; 0 -/
  rootOn : Nat := 0
  /-- CLK_OUT_0 and CLK_OUT_1: SRC, FORMAT, DIV, OVER in one 32-bit word each; 16 R438; 0x200 -/
  outs : List Nat := [0x200, 0x200]
  /-- the crystal failed: reported at the next exit to RUN, 1 bit; 16 R432; 0 -/
  xtalLost : Bool := false
  /-- the root PLL; 16 R438; N 200 -/
  root : Pll := { n := 200 }
  /-- PLL_DISP_0; 16 R438 -/
  disp0 : Pll := {}
  /-- PLL_DISP_1; 16 R438 -/
  disp1 : Pll := {}
  deriving DecidableEq, Repr

/-! ### Faults and Survey (17) -/

/-- A die window or a record on its way to the principal (17 R442). -/
structure DieWin where
  cause : Nat
  unit : Nat
  reporters : Nat
  firstRep : Nat
  lastRep : Nat
  firstTime : Nat
  lastTime : Nat
  detail : Nat
  /-- ACTION bits known at the die (17 R445) -/
  action : Nat
  deriving DecidableEq, Repr

/-- A package window or held record at the principal (17 R442, R443). -/
structure PkgWin where
  win : DieWin
  /-- dies that reported, 8 bits -/
  dies : Nat
  /-- instant at which the window opened -/
  openAt : Nat
  /-- held record (17 R443) -/
  held : Bool
  deriving DecidableEq, Repr

/-- How a unit that Survey tests is fenced (17 R447). -/
structure UnitFence where
  /-- the engine's columns were moved to this spare; none where the wing had none, or for another unit -/
  spare : Option Nat
  /-- the engine was itself the wing's spare -/
  wasSpare : Bool
  deriving DecidableEq, Repr

/-- A request for Survey (17 R446). -/
structure SrvReq where
  unit : Nat
  /-- SEQ of the record that queued it, once that is posted; 0xFFFF_FFFF for SRV_TEST (17 R457) -/
  seq : Option Nat
  /-- instant of the first error -/
  time : Nat
  /-- DETAIL of the error that queued it, an address for an LP5X channel; none where no error did (17 R448) -/
  detail : Option Nat
  /-- SRV_TEST commands that joined it -/
  cmds : List Pend
  /-- the unit is still fenced from a test that was aborted (17 R452) -/
  fenced : Option UnitFence := none
  deriving DecidableEq, Repr

/-- A test that runs (17 R447). -/
structure SrvTest where
  req : SrvReq
  start : Nat
  fence : UnitFence
  deriving DecidableEq, Repr

/-- Service history of one unit (17 R448, R456). -/
structure UnitRec where
  unit : Nat
  /-- transient verdicts of the last 10 s: instant, and the granule of the error that an LP5X channel was tested for -/
  transients : List (Nat × Option Nat) := []
  /-- timebase of the last verdict, 0 before any -/
  lastVerdict : Nat := 0
  retired : Bool := false
  deriving DecidableEq, Repr

/-- Survey state of one die (17 R454). -/
structure Srv where
  /-- open die windows, at most 32 signatures; 17 R442, R443; none -/
  wins : List DieWin := []
  /-- Survey queue, at most 16 requests; 17 R446; empty -/
  queue : List SrvReq := []
  /-- tests that run; 17 R446; none -/
  tests : List SrvTest := []
  /-- for each region mismatch with SURVEY, the engines still to be tested one at a time; the first is the one asked for; 10 R274; none -/
  serial : List (List Nat) := []
  /-- service history of the die's units; 17 R448; none -/
  units : List UnitRec := []
  /-- SRV_ENG_IN.IN_SERVICE, 24 bits; 17 R454; 0x7F_F7FF -/
  engIn : Nat := 0x7FF7FF
  /-- SRV_ENG_SPARE.SPARE, 24 bits; 17 R454; 0x80_0800 -/
  engSpare : Nat := 0x800800
  /-- SRV_ENG_RETIRED.RETIRED, 24 bits; 17 R454; 0 -/
  engRetired : Nat := 0
  /-- SRV_COUNT.TESTS, 8 bits, saturating; 17 R454; 0 -/
  cTests : Nat := 0
  /-- SRV_COUNT.TRANSIENT, 8 bits, saturating; 17 R454; 0 -/
  cTransient : Nat := 0
  /-- SRV_COUNT.LASTING, 8 bits, saturating; 17 R454; 0 -/
  cLasting : Nat := 0
  /-- SRV_COUNT.ABORTED, 8 bits, saturating; 17 R454; 0 -/
  cAborted : Nat := 0
  /-- SRV_ECC.SRAM_CORR, 16 bits, saturating; 17 R454; 0 -/
  sramCorr : Nat := 0
  /-- SRV_ECC.LP5X_CORR, 16 bits, saturating; 17 R454; 0 -/
  lp5xCorr : Nat := 0
  /-- SRV_RECORDS.WINDOWS, 16 bits, modulo; 17 R454; 0 -/
  windows : Nat := 0
  /-- SRV_RECORDS.DROPPED, 8 bits, saturating; 17 R454; 0 -/
  dropped : Nat := 0
  /-- SRV_RECORDS.HELD, 8 bits, saturating; 17 R454; 0 -/
  held : Nat := 0
  /-- SRV_POOL.BB_RETIRED, 7 bits; 17 R454; 0 -/
  bbRetired : Nat := 0
  deriving DecidableEq, Repr

/-- The principal's side of fault records (17 R442-R445). -/
structure Flt where
  /-- die records on their way to the principal: die, record; 17 R442; none -/
  transit : List (Nat × DieWin) := []
  /-- open package windows and held records, at most 64; 17 R442, R443; none -/
  wins : List PkgWin := []
  /-- signature (cause, unit) and instant of its last posted record; 17 R443; none -/
  posted : List (Nat × Nat × Nat) := []
  /-- the last 256 records, 64 bytes each, with their SEQ, newest first; 17 R444; none -/
  records : List (Nat × List (BitVec 8)) := []
  /-- SEQ of the next record, 32 bits; 17 R445; 0 -/
  seq : Nat := 0
  /-- errors dropped since the last record, 16 bits, saturating; 17 R445; 0 -/
  dropped : Nat := 0
  deriving DecidableEq, Repr

/-! ### Start-up, chain and resets (18) -/

/-- KPR_ registers of one die (18 R476). -/
structure Kpr where
  /-- KPR_BOOT.STEP, 4 bits; 18 R476; 0 -/
  step : Nat := 0
  /-- KPR_BOOT.READY_MS, 16 bits; 18 R476; 0 -/
  readyMs : Nat := 0
  /-- KPR_RESET.TARGET, 3 bits; 18 R476; 0 -/
  target : Nat := 0
  /-- KPR_RESET.KEY, 16 bits; 18 R476; 0 -/
  key : Nat := 0
  /-- KPR_COUNT.WARM, 8 bits, saturating; 18 R476; 0 -/
  warm : Nat := 0
  /-- KPR_COUNT.DIE_RESETS, 8 bits, saturating; 18 R476; 0 -/
  dieResets : Nat := 0
  /-- KPR_COUNT.IGNORED, 8 bits, saturating; 18 R476; 0 -/
  ignored : Nat := 0
  /-- KPR_SNAP_AT.AT, 64 bits; 18 R476; 0 -/
  snapAt : Nat := 0
  /-- KPR_SNAP_CTRL.SCOPE, 2 bits; 18 R476; 0 -/
  scope : Nat := 0
  /-- KPR_SNAP_STATE.STATE, 2 bits; 18 R476; 0 -/
  snapState : Nat := 0
  /-- KPR_SNAP_STATE.REASON, 2 bits; 18 R476; 0 -/
  snapReason : Nat := 0
  /-- instant, in chain time for chain scope, and scope of an armed snapshot; 18 R471; none -/
  armed : Option (Nat × Nat) := none
  /-- KPR_SNAP_FRAME_p, p = 0-3, 64 bits each; 18 R476; 0 -/
  frames : List Nat := [0, 0, 0, 0]
  /-- KPR_SNAP_LINE_p, p = 0-3, 16 bits each; 18 R476; 0 -/
  lines : List Nat := [0, 0, 0, 0]
  deriving DecidableEq, Repr

/-- The package's place in the chain (18 R465-R469). -/
structure Chain where
  /-- CHAIN_HEAD, as sampled; 18 R459, 21 R523; 1 (board-fixed, DESIGN CHOICE log 4) -/
  head : Bool := true
  /-- KPR_CHAIN.POS, 2 bits; 18 R476; 0 -/
  pos : Nat := 0
  /-- KPR_CHAIN.LEN, 3 bits; 18 R476; 1 -/
  len : Nat := 1
  /-- KPR_CHAIN.CHAIN_ALIGNED, 1 bit; 18 R468, R476; 0 -/
  aligned : Bool := false
  /-- KPR_CHAIN.UP: port key; 18 R476; none (reads 0) -/
  up : Option Nat := none
  /-- KPR_CHAIN.DOWN: port key; 18 R476; none (reads 0) -/
  down : Option Nat := none
  /-- KPR_CHAIN_OFS.OFS, signed 64 bits; 18 R476; 0 -/
  ofs : Int := 0
  /-- a TIME_OFS has set the offset since enumeration, 1 bit; 18 R468; 0 -/
  set : Bool := false
  /-- correction still to be made, at no more than 1 ns per µs; 18 R468; 0 -/
  todo : Int := 0
  /-- instant from which that correction runs (the model's own record), 64 bits; 18 R468; 0 -/
  ofsAt : Nat := 0
  /-- consecutive exchanges with |θ| at most 6 ns; 18 R468; 0 -/
  good : Nat := 0
  /-- the package has been enumerated or is the head, 1 bit; 18 R466; 0 -/
  enumerated : Bool := false
  /-- port over which the package was last enumerated, its upstream side while that is cut off too; 18 R467; none -/
  upSide : Option Nat := none
  /-- an ENUM_REQ sent downstream waits for its answer, 1 bit; 18 R466; 0 -/
  asking : Bool := false
  /-- timebase of the last ENUM_REQ sent, 64 bits; 18 R466; 0 -/
  askAt : Nat := 0
  /-- device number of the chain principal, 32 bits; 18 R465; 0 -/
  headDev : Nat := 0
  /-- chain barriers that wait for BARRIER_ACK: number; 18 R470; none -/
  barrier : Option Nat := none
  deriving DecidableEq, Repr

/-! ### The Attic and secure boot (19) -/

/-- A raw access in progress (19 R491). -/
structure RawAcc where
  write : Bool
  addr : Nat
  data : Nat
  deriving DecidableEq, Repr

/-- The Attic of one die and its registers (19). -/
structure Atc where
  /-- words of the Attic by word number, 64 bits each; 19 R478; none written since the factory (DESIGN CHOICE log 21) -/
  words : Tab (BitVec 64) := []
  /-- FW_VERSION and SVN of slot A where its content verifies; 19 R487, R488; a factory image (board-fixed, DESIGN CHOICE log 21) -/
  imgA : Option (Nat × Nat) := some (0x00030002, 1)
  /-- FW_VERSION and SVN of slot B where its content verifies; 19 R487, R488; none (board-fixed, DESIGN CHOICE log 21) -/
  imgB : Option (Nat × Nat) := none
  /-- ATC_STATUS.IMAGE: slot running, 1 bit; 19 R491; 0 -/
  image : Nat := 0
  /-- the boot ROM found no valid image: the die stays in it, 1 bit; 18 R461, 19 R488; 0 -/
  inRom : Bool := false
  /-- SVN of the running image, 32 bits; 19 R489; 0 -/
  svn : Nat := 0
  /-- write pointer: record slot written last, 0-9215; 19 R484; 9215 (DESIGN CHOICE log 21) -/
  ptr : Nat := 9215
  /-- SEQ of the record written last, 16 bits; 19 R480; 0 (DESIGN CHOICE log 21) -/
  seq : Nat := 0
  /-- records written since PORST_N, 64 bits; 19 R495; 0 -/
  written : Nat := 0
  /-- ATC_STATUS.BUSY with the access; 19 R491; 0 -/
  busy : Option RawAcc := none
  /-- ATC_ADDR.WORD, 18 bits; 19 R491; 0 -/
  addr : Nat := 0
  /-- ATC_DATA.DATA, 64 bits; 19 R491; 0 -/
  data : Nat := 0
  /-- ATC_LOCK.RAW, 1 bit; 19 R491; 0 -/
  rawLock : Bool := false
  /-- ATC_LOCK.PERSIST, 1 bit; 19 R491; 0 -/
  persist : Bool := false
  /-- ATC_LOCK.LOCKED, 1 bit; 19 R491; LOCK word -/
  locked : Bool := false
  /-- ATC_COUNT.IGNORED, 8 bits, saturating; 19 R491; 0 -/
  ignored : Nat := 0
  /-- ATC_COUNT.RETRIES, 8 bits, saturating; 19 R491; 0 -/
  retries : Nat := 0
  /-- ATC_COUNT.DBG_FAILS, 8 bits, saturating; 19 R491; 0 -/
  dbgFails : Nat := 0
  /-- failed unlocks since PORST_N, 0-3; 19 R492; 0 -/
  fails : Nat := 0
  /-- ATC_DBG_CTRL.UNLOCKED, 1 bit; 19 R491; 0 -/
  unlocked : Bool := false
  /-- ATC_DBG_CTRL.BARRED, 1 bit; 19 R491; 0 -/
  barred : Bool := false
  /-- ATC_DBG_CHAL_i: 16 nonce bytes; 19 R491; 0 -/
  nonce : List (BitVec 8) := List.replicate 16 0
  /-- the nonce has not served a SUBMIT yet, 1 bit; 19 R492; 0 -/
  fresh : Bool := false
  /-- ATC_DBG_RESP_i, 16 words of 32 bits; 19 R491; 0 -/
  resp : List Nat := List.replicate 16 0
  deriving DecidableEq, Repr

/-! ### Identification and interrupt registers (20) -/

/-- ID_ and INT_ blocks of one die (20 R510, R512). -/
structure Regs where
  /-- ID_FW.FIRMWARE, 32 bits; 20 R510; 0 -/
  fw : Nat := 0
  /-- ID_LOCKERR.COUNT, 8 bits, saturating; 20 R510; 0 -/
  lockErr : Nat := 0
  /-- ID_LOCKERR.OFFSET, 16 bits; 20 R510; 0 -/
  lockOff : Nat := 0
  /-- ID_ACCERR.SIZE, 8 bits, saturating; 20 R510; 0 -/
  accSize : Nat := 0
  /-- ID_ACCERR.ALIAS, 8 bits, saturating; 20 R510; 0 -/
  accAlias : Nat := 0
  /-- ID_SCRATCH.SCRATCH, 32 bits; 20 R510; 0 -/
  scratch : BitVec 32 := 0
  /-- INT_EN.EN, 13 bits; 20 R512; 0 -/
  intEn : Nat := 0
  /-- INT_VEC.VECTOR, 6 bits; 20 R512; 0 -/
  intVec : Nat := 0
  /-- INT_VEC.MSIX_EN, 1 bit; 20 R512; 0 -/
  intMsix : Bool := false
  /-- INT_CNT_n.COUNT, n = 0-12, 16 bits each; 20 R512; 0 -/
  intCount : Tab Nat := []
  /-- INT_CNT_n.ACK, n = 0-12, 16 bits each; 20 R512; 0 -/
  intAck : Tab Nat := []
  /-- instant of the first event of a message that is still being merged; 20 R513; none -/
  intOpen : Option Nat := none
  deriving DecidableEq, Repr

/-! ### Pads (21) -/

/-- PMX_PAD_n (21 R530). -/
structure Pad where
  /-- FUNC, 4 bits; 21 R530; 0 -/
  func : Nat := 0
  /-- PULL, 2 bits; 21 R530; 1 -/
  pull : Nat := 1
  /-- DRIVE, 2 bits; 21 R530; 1 -/
  drive : Nat := 1
  /-- SLOW, 1 bit; 21 R530; 0 -/
  slow : Bool := false
  /-- ACTIVE, 4 bits; 21 R530; 0 -/
  active : Nat := 0
  /-- PULL, DRIVE and SLOW in effect; 21 R527; 1, 1, 0 -/
  now : Nat × Nat × Bool := (1, 1, false)
  /-- the change of class at this edge holds the pad in high impedance until 10 ns after it; 21 R527; none -/
  zUntil : Nat := 0
  deriving DecidableEq, Repr

/-- Pad multiplexer of one die (21 R530). -/
structure Pmx where
  /-- GP_0 to GP_23 by number; 21 R530; reset values -/
  pads : Tab Pad := []
  /-- PMX_GPIO_OUT.OUT as written, 24 bits; 21 R530; 0 -/
  out : Nat := 0
  /-- PMX_GPIO_OUT as driven since the last edge, 24 bits; 21 R527; 0 -/
  outNow : Nat := 0
  /-- PMX_COUNT.IGNORED, 8 bits, saturating; 21 R530; 0 -/
  ignored : Nat := 0
  /-- PMX_VSEL.V33, 1 bit; 21 R523, R530; 0 (board-fixed, DESIGN CHOICE log 4) -/
  v33 : Bool := false
  deriving DecidableEq, Repr

/-! ### Field book and JTAG (22) -/

/-- Field book of one die (22 R540-R546). -/
structure Fbk where
  /-- FBK_CTRL.SRC_EN, 10 bits; 22 R546; 0x1F1 -/
  srcEn : Nat := 0x1F1
  /-- FBK_CTRL.MODE, 1 bit; 22 R546; 0 -/
  mode : Bool := false
  /-- FBK_STATUS.STOPPED, 1 bit; 22 R546; 0 -/
  stopped : Bool := false
  /-- FBK_HEAD.HEAD, 64 bits (index of the next record written to the ring); 22 R546; 0 -/
  head : Nat := 0
  /-- FBK_TAIL.TAIL, 64 bits; 22 R546; 0 -/
  tail : Nat := 0
  /-- FBK_COUNT.DROPPED, 16 bits, saturating; 22 R546; 0 -/
  dropped : Nat := 0
  /-- FBK_COUNT.FLUSHES, 16 bits, modulo; 22 R546; 0 -/
  flushes : Nat := 0
  /-- on-die buffer, at most 1024 records of 32 bytes, oldest first; 22 R542; empty -/
  buf : List (List (BitVec 8)) := []
  /-- ring of 262,144 records in the system area: slot to record; 22 R542; empty -/
  ring : Tab (List (BitVec 8)) := []
  /-- a record was dropped since the last one written, 1 bit; 22 R542; 0 -/
  lost : Bool := false
  /-- instant of the oldest record in the buffer, 64 bits; 22 R542; 0 -/
  oldest : Nat := 0
  /-- recording is suspended from PWR_ENTER to PWR_EXIT, 1 bit; 22 R544; 0 -/
  suspended : Bool := false
  /-- TIME of the last PWR_ENTER, 64 bits; 22 R540; 0 -/
  enterAt : Nat := 0
  deriving DecidableEq, Repr

/-- Keeper debug port of one die (22 R550). -/
structure Kdbg where
  /-- the Keeper is halted since this instant; 22 R550; not halted -/
  halted : Option Nat := none
  /-- breakpoint addresses; 22 R549; none -/
  breaks : List Nat := []
  /-- 64-bit words of Keeper memory that debug access has written; 22 R549; none -/
  mem : Tab (BitVec 64) := []
  deriving DecidableEq, Repr

/-- The package's TAP (22 R547-R549). -/
structure Jtag where
  /-- instruction register, 8 bits; 22 R547; 0x02 (IDCODE) -/
  ir : Nat := 2
  /-- boundary-scan register, 7 + 144 x dies cells; 22 R548; 0 (DESIGN CHOICE log 5) -/
  bsr : List Bool := []
  /-- EXTEST or CLAMP drives the outputs from the boundary-scan register, 1 bit; 22 R548; 0 -/
  driving : Bool := false
  /-- HIGHZ holds the scanned outputs in high impedance, 1 bit; 22 R548; 0 -/
  highz : Bool := false
  /-- bypass register, 1 bit; 22 R547; 0 (DESIGN CHOICE log 5) -/
  bypass : Bool := false
  /-- data register that the next Capture-DR returns for REGACC: read data, 64 bits; 22 R549; 0 (DESIGN CHOICE log 5) -/
  accData : BitVec 64 := 0
  /-- and its status, 16 bits; 22 R549; 0 (DESIGN CHOICE log 5) -/
  accStatus : Nat := 0
  /-- bits shifted out on TDO by the last scan of a data register, the first one out first (the model's own record); 22 R547; none -/
  tdo : List Bool := []
  deriving DecidableEq, Repr

/-! ### The package -/

/-- Where the package is in its start-up (18 R462, R463, 15 R399). -/
inductive Phase where
  | off | porst | starting | ready
  deriving DecidableEq, Repr

/-- The report of a die to the principal (18 R461). -/
structure Report where
  /-- stepping, 16 bits; 18 R461, 20 R510; (no report) -/
  stepping : Nat
  /-- firmware version, 32 bits; 18 R461; (no report) -/
  fw : Nat
  /-- image booted, 1 bit; 18 R461; (no report) -/
  image : Nat
  /-- result of the Attic load: the slot that SELECT names was booted, 1 bit; 18 R461, 19 R488; (no report) -/
  selected : Bool
  deriving DecidableEq, Repr

/-- Facts and states of the package (00 R3, 02 R25, 14 R375, 17 R451). -/
structure Pkg where
  /-- PART: 2, 4 or 8; 00 R3, 20 R510; 4 (board-fixed: the reference cockpit's SHM4, DESIGN CHOICE log 4) -/
  part : Nat := 4
  /-- SITES, 8 bits; 00 R3, 20 R510; 0x0F (board-fixed, DESIGN CHOICE log 4) -/
  sites : Nat := 0x0F
  /-- lost die sites, 8 bits; 01 R19, 17 R451; 0 -/
  lost : Nat := 0
  /-- reason for which each lost die was lost; 17 R441; none -/
  why : Tab Nat := []
  /-- SITES_UP, 8 bits; 20 R510; 0 -/
  sitesUp : Nat := 0
  /-- SYS_LOCK in force, 1 bit; 02 R25; 0 -/
  lock : Bool := false
  /-- site of the principal die, 3 bits; 01 R19, 17 R451; 0 -/
  principal : Nat := 0
  /-- phase of the package; 18 R462; PORST_N low -/
  phase : Phase := .porst
  /-- PKG_MW, 32 bits; 15 R417; 78,000 (peak of the SHM4, 01 R20) -/
  pkgMw : Nat := 78000
  /-- LP5X GiB per die; 14 R375; 8 each (board-fixed, DESIGN CHOICE log 4) -/
  gib : Tab Nat := [(0, 8), (1, 8), (2, 8), (3, 8)]
  /-- LP5X data rate in MT/s; 14 R375; 8533 (board-fixed, DESIGN CHOICE log 4) -/
  mts : Nat := 8533
  /-- dies with inline ECC, 8 bits; 14 R375; 0 (board-fixed, DESIGN CHOICE log 4) -/
  ecc : Nat := 0
  /-- THERM_ALERT_N, 1 bit; 15 R400; 1 -/
  alertN : Bool := true
  /-- instant of the last release of PORST_N or broadcast of a warm reset; 18 R462; 0 -/
  startAt : Nat := 0
  /-- instant at which the package became ready (the model's own record), 64 bits; 18 R467; 0 -/
  readyAt : Nat := 0
  /-- dies that have reported to the principal, 8 bits; 18 R461; 0 -/
  reported : Nat := 0
  /-- the reports of the dies, by site; 18 R461; none -/
  reports : Tab Report := []
  /-- dies in a per-die reset or rejoin, with its start; 18 R474; none -/
  resets : Tab Nat := []
  /-- dies whose PCIE_PERST_N is low, 8 bits; 21 R525; 0 -/
  perst : Nat := 0
  deriving DecidableEq, Repr

/-- One die. -/
structure Die where
  regs : Regs := {}
  srv : Srv := {}
  fbk : Fbk := {}
  kdbg : Kdbg := {}
  pwr : Pwr := {}
  clk : Clk := {}
  /-- HOLD: wings that hold a spare, 2 bits; 04 R102, R113; 0b11 -/
  hold : Nat := 3
  /-- SCHED_GEN, 32 bits; 04 R111; 0 -/
  schedGen : Nat := 0
  kpr : Kpr := {}
  atc : Atc := {}
  pmx : Pmx := {}
  plt : Plt := {}
  /-- privileged DMA channels 0-3; 12 R321; reset values -/
  priv : Tab PrivDma := []
  /-- remote-granule buffer: granules of other dies as they were read, each with what units of this die have written to it since (unit and bytes;
the unit numbers are the model's own); 14 R386, R388; empty -/
  rbuf : List (Nat × List (BitVec 8) × Tab (List (BitVec 8))) := []
  /-- fetches of the running tiles that met an uncorrectable error: engine and granule; 14 R378; none -/
  zeroed : List (Nat × Nat) := []
  deriving DecidableEq, Repr

/-- The whole hub but its queue of commands and its LP5X memory. -/
structure Hub where
  /-- package timebase, ns, 64 bits; 02 R552, 16 R436; 0 -/
  now : Nat := 0
  /-- provisioning in force, as loaded at the last start: record type, key and payload; 18 R462, 19 R494; none -/
  prov : List (Nat × Nat × List (BitVec 8)) := []
  /-- instant and context of the last acceptance of a command (the model's own, to order acceptances of one nanosecond); 01 R18; 0, 0 -/
  accAt : Nat × Nat := (0, 0)
  /-- number of the next free value (the model's own); log 2; 0 (DESIGN CHOICE log 2) -/
  freeIx : Nat := 0
  /-- what the hub has sent on pins and links, oldest first (the model's own); log 1; empty -/
  outbox : List Sent := []
  pkg : Pkg := {}
  dies : Tab Die := []
  /-- contexts by global number; 01 R17; all UNASSIGNED -/
  ctxs : Tab Ctx := []
  /-- PCIe functions; 02 R21; as Fn says -/
  fns : Tab Fn := []
  /-- host memory as the hub has written it: `function * 2^64 + address` to byte; 02 R551; nothing written -/
  host : Tab (BitVec 8) := []
  /-- commands whose parts are with several dies, by issuing context; 02 R39; none -/
  remote : Tab Remote := []
  flt : Flt := {}
  jtag : Jtag := {}
  chain : Chain := {}
  /-- client DMA channels that are allocated, by die * 32 + number; 12 R305; none -/
  dma : Tab DmaChan := []
  /-- regions 0-2047; 03 R46; none -/
  regions : Tab Region := []
  /-- Atlas entries that are LIVE or RETIRING, by handle index; 03 R50; none -/
  atlas : Tab Surf := []
  /-- generations of FREE entries that have been used, by handle index; 03 R52; none (1) -/
  gens : Tab Nat := []
  /-- entries that returned to FREE, in that order; 03 R52; none -/
  freed : List Nat := []
  /-- shares, by die * 32 + group; 03 R72; 0, 0, 0, 16 -/
  shares : Tab Share := []
  /-- layer slots in use, by die * 1024 + slot; 04 R81; none -/
  layers : Tab Layer := []
  /-- coefficient banks in use, by die * 16 + index; 05 R132; none -/
  banks : Tab Bank := []
  /-- pre-blend LUT slots in use, by die * 128 + index; 05 R132; none -/
  luts : Tab LutSlot := []
  /-- program slots in use, by die * 256 + index; 06 R153; none -/
  progs : Tab Prog := []
  /-- open transactions, by die * 256 + slot; 07 R162; none -/
  txns : Tab Txn := []
  /-- generations of transaction slots, 16 bits; 07 R162; 1 -/
  txnGens : Tab Nat := []
  /-- transactions that have become ARMED (the model's own count of their order); 07 R179; 0 -/
  armCount : Nat := 0
  /-- transactions that have passed validation (the model's own count of their order); 07 R165; 0 -/
  valCount : Nat := 0
  /-- schedule tables of the dies: output to the engine of each of its tile columns, 0-23; 04 R92; none -/
  tables : Tab (List Nat) := []
  /-- timelines, by die * 1024 + slot; 07 R181; none -/
  tls : Tab Timeline := []
  /-- generations of timeline slots that have been used; 07 R193; none (1) -/
  tlGens : Tab Nat := []
  /-- timeline slots that returned to free, in that order; 07 R193; none -/
  tlFreed : List Nat := []
  /-- outputs 0-31; 08 R196; STOPPED -/
  outs : Tab Output := []
  /-- integrator mode entries 0-63; 08 R201; empty -/
  modes : Tab ModeEntry := []
  /-- ports by die * 8 + code; 13 R330; off -/
  ports : Tab Port := []
  /-- tile that each busy engine composes, by engine; 04 R94; none -/
  engines : Tab TileRef := []
  deriving DecidableEq, Repr

/-- The state of the machine: the commands that wait, first in first out; the LP5X memory of every die as address and byte
pairs (address `die * 2^34 + offset`) in canonical form; and the hub. -/
structure State where
  pending : List Instr
  lp5x : List Host.Cell
  hub : Hub
  deriving DecidableEq, Repr

/-! ### Reset -/

/-- The functions of the board: the physical function of each populated die; the host enables virtual functions later (log entry 4). -/
def resetFns : Tab Fn := ([0, 16, 32, 48]).map fun f => (f, { enabled := true, rid := f })

/-- The machine with PORST_N low: no command waits, no memory is listed, every register at its reset value. -/
def State.reset : State :=
  { pending := [], lp5x := [], hub := { fns := resetFns } }

end Sys2Proof.Machine
end

