-- ==== Sys2Proof/Machine/Operands.lean ====
section
/-!
DEFINITION. The fields of a mailbox command (02, "Command layout") and of its indirect block, and a command as 64 bytes of a
ring.
-/

namespace Sys2Proof.Machine

/-- The field of `size` bytes at byte `off` (16 to 63) of the command (02, "Command layout"; little-endian, 00 R7). -/
def argN (c : Cmd) (off size : Nat) : Nat := bits c.args.toNat (8 * (off - 16)) (8 * size)

/-- A one-byte field. -/
def arg8 (c : Cmd) (off : Nat) : Nat := argN c off 1

/-- A two-byte field. -/
def arg16 (c : Cmd) (off : Nat) : Nat := argN c off 2

/-- A four-byte field. -/
def arg32 (c : Cmd) (off : Nat) : Nat := argN c off 4

/-- An eight-byte field. -/
def arg64 (c : Cmd) (off : Nat) : Nat := argN c off 8

/-- A signed two-byte field. -/
def argI16 (c : Cmd) (off : Nat) : Int := signed 16 (arg16 c off)

/-- A signed four-byte field. -/
def argI32 (c : Cmd) (off : Nat) : Int := signed 32 (arg32 c off)

/-- The bytes of a command's arguments from `off`. -/
def argBytes (c : Cmd) (off size : Nat) : Bytes := leBytes size (argN c off size)

/-- Byte `i` of the block that the Keeper copied (02 R35); beyond its end 0. -/
def blk8 (c : Cmd) (i : Nat) : Nat := ((c.block.drop i).headD 0).toNat

/-- A little-endian field of `size` bytes of the block. -/
def blkN (c : Cmd) (i size : Nat) : Nat := leNat ((c.block.drop i).take size)

/-- The 16-bit words of the block from byte `i`. -/
def words16 : Bytes → List Nat
  | a :: b :: t => (a.toNat + 256 * b.toNat) :: words16 t
  | _ => []

/-- The 32-bit words of a byte sequence. -/
def words32 : Bytes → List Nat
  | a :: b :: c :: d :: t => (a.toNat + 256 * (b.toNat + 256 * (c.toNat + 256 * d.toNat))) :: words32 t
  | _ => []

/-- `n` 16-bit words of the block from byte `i`. -/
def blkWords (c : Cmd) (i n : Nat) : List Nat := words16 ((c.block.drop i).take (2 * n))

/-- Are `size` bytes of the block from `i` all 0? -/
def blkZero (c : Cmd) (i size : Nat) : Bool := ((c.block.drop i).take size).all (· == 0)

/-- The first byte of a reserved range that is not 0 (00 R8; log 34); the range's start where all are 0. -/
def firstSet (off : Nat) (bs : Bytes) : Nat := off + ((bs.findIdx? (· != 0)).getD 0)

/-- FLAGS.ORDERED (02, "Command layout"). -/
def isOrdered (flags : Nat) : Bool := bit flags 0

/-- FLAGS.INDIRECT. -/
def isIndirect (flags : Nat) : Bool := bit flags 1

/-- FLAGS.QUIET. -/
def isQuiet (flags : Nat) : Bool := bit flags 2

/-- The opcode of a ring entry: bytes 0 and 1. -/
def rawOpcode (r : RawCmd) : Nat := (r.word.extractLsb' 0 16).toNat

/-- A ring entry of a context as a command without its opcode. -/
def rawCmd (ctx : Nat) (r : RawCmd) : Cmd :=
  { ctx := ctx
    flags := r.word.extractLsb' 16 8
    layout := r.word.extractLsb' 24 8
    tag := r.word.extractLsb' 32 32
    txn := r.word.extractLsb' 64 32
    rsvd := r.word.extractLsb' 96 32
    args := r.word.extractLsb' 128 384
    block := r.block }

/-- The ring entry that holds a command under an opcode. -/
def cmdRaw (op : BitVec 16) (c : Cmd) : RawCmd :=
  { word := c.args ++ c.rsvd ++ c.txn ++ c.tag ++ c.layout ++ c.flags ++ op, block := c.block }

end Sys2Proof.Machine
end

