-- ==== Sys2Proof/Machine/Flags.lean ====
section
/-!
DEFINITION. Checks and the order in which the Keeper reports their failures (02 R38, R39).  Status codes are those of 02 R45.
-/

namespace Sys2Proof.Machine

/-- One check of a command: the status that its failure draws, the offset it reports (255: no single field), whether it
fails, the die that it belongs to, if any, and the results that its refusal carries. -/
structure Ck where
  st : Nat
  off : Nat
  bad : Bool
  die : Option Nat := none
  r0 : Nat := 0
  r1 : Nat := 0
  deriving DecidableEq, Repr

/-- The rank of a status family in the order of 02 R38. -/
def famRank (st : Nat) : Nat :=
  match st / 256 with
  | 1 => 1
  | 2 => 2
  | 3 => 3
  | 4 => 4
  | 6 => 5
  | 5 => 6
  | _ => 7

/-- Place of a check among the checks of its family where objects lie on several dies: a check of no die first, then the
lowest die (02 R39). -/
def dieRank (k : Ck) : Nat := match k.die with | none => 0 | some d => d + 1

/-- Does failure `a` rank before failure `b`?  `byDie`: the command names objects on several dies; `listed`: the order of the
list decides within a family (a chapter's own order), not the lowest offset, but for malformed fields, where the offset decides. -/
def ranksBefore (byDie listed : Bool) (a b : Ck) : Bool :=
  let fa := famRank a.st
  let fb := famRank b.st
  if fa ≠ fb then fa < fb
  else if byDie && dieRank a ≠ dieRank b then dieRank a < dieRank b
  else if listed && fa ≠ 1 then false else a.off < b.off

/-- Do the checks belong to more than one die? -/
def severalDies (l : List Ck) : Bool :=
  let ds := l.filterMap Ck.die
  match ds with
  | [] => false
  | d :: t => t.any (· != d)

/-- The failure to report: the first in the order of 02 R38 and R39; among equals the first of the list. -/
def firstFail (listed : Bool) (l : List Ck) : Option Ck :=
  let byDie := severalDies l
  (l.filter Ck.bad).foldl (fun best k =>
    match best with
    | none => some k
    | some b => if ranksBefore byDie listed k b then some k else some b) none

/-- A count that stops at its maximum (20 R504). -/
def satInc (max n : Nat) : Nat := if n < max then n + 1 else max

/-- A sum that stops at a maximum. -/
def satAdd (max n k : Nat) : Nat := min max (n + k)

end Sys2Proof.Machine
end

