-- ==== Sys2Proof/Machine/Ops.lean ====
section
/-!
DEFINITION. The operations that every command shares: LP5X memory in canonical form, access to the groups of the hub, host
memory, completions, events and interrupts (02), fault reports (17), Field book records (22), and the run of a mailbox command
from its ring to its completion.
-/

namespace Sys2Proof.Machine

/-! ### LP5X memory: a sorted list of the bytes that are not 0 (log entry 7) -/

/-- What an LP5X byte reads as that no entry lists (log entry 7). -/
def lp5xDefault : Byte := 0

/-- Strictly rising addresses above `lo`, no entry equal to what an unlisted byte reads as. -/
def Memory.wfFrom (lo : Nat) : List Host.Cell → Bool
  | [] => true
  | (a, b) :: t => decide (lo ≤ a) && (b != lp5xDefault) && Memory.wfFrom (a + 1) t

/-- The canonical form of LP5X memory. -/
def Memory.wf (m : List Host.Cell) : Bool := Memory.wfFrom 0 m

/-- The byte at address `a`. -/
def Memory.read (m : List Host.Cell) (a : Nat) : Byte :=
  match m with
  | [] => lp5xDefault
  | (k, b) :: t => if k = a then b else if a < k then lp5xDefault else Memory.read t a

/-- Memory with byte `b` at address `a`. -/
def Memory.write (m : List Host.Cell) (a : Nat) (b : Byte) : List Host.Cell :=
  match m with
  | [] => if b = lp5xDefault then [] else [(a, b)]
  | (k, c) :: t =>
    if k < a then (k, c) :: Memory.write t a b
    else
      let rest := if k = a then t else (k, c) :: t
      if b = lp5xDefault then rest else (a, b) :: rest

/-- Memory with the bytes `bs` from address `a`. -/
def Memory.writeBytes (m : List Host.Cell) (a : Nat) (bs : Bytes) : List Host.Cell :=
  match bs with
  | [] => m
  | b :: t => Memory.writeBytes (Memory.write m a b) (a + 1) t

/-- Memory with `len` zero bytes from address `a`. -/
def Memory.zero (m : List Host.Cell) (a len : Nat) : List Host.Cell :=
  m.filter fun e => !(decide (a ≤ e.1) && decide (e.1 < a + len))

/-- `len` bytes from address `a`. -/
def Memory.readBytes (m : List Host.Cell) (a : Nat) : Nat → Bytes
  | 0 => []
  | n + 1 => Memory.read m a :: Memory.readBytes m (a + 1) n

/-- Memory after one write. -/
def Memory.apply (m : List Host.Cell) : MemWrite → List Host.Cell
  | .bytes a d => Memory.writeBytes m a d
  | .zeros a n => Memory.zero m a n

/-- What a command does: the hub after it and its writes to LP5X, in order. -/
abbrev Eff := Hub × List MemWrite

/-- The machine after an action that reads LP5X and the hub: the queue of commands is as it was, and LP5X changes by the
action's writes alone. -/
def act (f : List Host.Cell → Hub → Eff) (s : State) : State :=
  let e := f s.lp5x s.hub
  { s with hub := e.1, lp5x := e.2.foldl Memory.apply s.lp5x }

/-- An action that writes no LP5X. -/
def onHub (f : Hub → Hub) (s : State) : State := { s with hub := f s.hub }

/-! ### Access to the groups of the hub -/

/-- Context slot `c`. -/
def getCtx (h : Hub) (c : Nat) : Ctx := h.ctxs.get c {}

/-- The hub with context slot `c` changed. -/
def setCtx (h : Hub) (c : Nat) (x : Ctx) : Hub := { h with ctxs := h.ctxs.set c x }

/-- The hub with `f` applied to context slot `c`. -/
def updCtx (h : Hub) (c : Nat) (f : Ctx → Ctx) : Hub := setCtx h c (f (getCtx h c))

/-- Die `d`. -/
def getDie (h : Hub) (d : Nat) : Die := h.dies.get d {}

/-- The hub with `f` applied to die `d`. -/
def updDie (h : Hub) (d : Nat) (f : Die → Die) : Hub := { h with dies := h.dies.set d (f (getDie h d)) }

/-- PCIe function `f`. -/
def getFn (h : Hub) (f : Nat) : Fn := h.fns.get f { rid := f }

/-- The hub with `g` applied to function `f`. -/
def updFn (h : Hub) (f : Nat) (g : Fn → Fn) : Hub := { h with fns := h.fns.set f (g (getFn h f)) }

/-- Output `o`. -/
def getOut (h : Hub) (o : Nat) : Output := h.outs.get o {}

/-- The hub with `f` applied to output `o`. -/
def updOut (h : Hub) (o : Nat) (f : Output → Output) : Hub := { h with outs := h.outs.set o (f (getOut h o)) }

/-- Is die site `d` populated and not lost (00 R3, 17 R451)? -/
def dieUp (h : Hub) (d : Nat) : Bool := bit h.pkg.sites d && !bit h.pkg.lost d

/-- The populated die sites that are not lost, in ascending order. -/
def upDies (h : Hub) : List Nat := (List.range 8).filter (dieUp h)

/-- Is the package ready for hosts (18 R463)? -/
def ready (h : Hub) : Bool := h.pkg.phase == .ready

/-- Has the port of a function left Detect, with the package not yet ready for hosts (18 R463)? -/
def portEarly (h : Hub) (f : Nat) : Bool :=
  h.pkg.phase == .starting && dieUp h (f / 16) && decide ((getDie h (f / 16)).kpr.step ≥ 4) && !bit h.pkg.perst (f / 16)

/-- Is die `d` in RUN or IDLE (15 R390)? -/
def awake (h : Hub) (d : Nat) : Bool :=
  let p := (getDie h d).pwr.state
  p == .run || p == .idle

/-- Home die of a context (01 R17). -/
def homeDie (c : Nat) : Nat := c / 512

/-- The function to which a context is assigned. -/
def ctxFn (h : Hub) (c : Nat) : Nat := homeDie c * 16 + (getCtx h c).fn

/-- Privilege level of a context (02 R22). -/
def levelOf (h : Hub) (c : Nat) : Nat := (getCtx h c).level

/-- A free value is taken: the next number, and the hub with the counter advanced (log entry 2). -/
def takeFree (h : Hub) : Nat × Hub := (h.freeIx, { h with freeIx := h.freeIx + 1 })

/-- The hub sends something on its pins or links. -/
def send (x : Sent) (h : Hub) : Hub := { h with outbox := h.outbox ++ [x] }

/-- The timebase at an instant that has come: it never runs backwards (log entry 8). -/
def at_ (t : Nat) (h : Hub) : Hub := { h with now := max h.now t }

/-- Contexts that are assigned, in ascending order. -/
def assigned (h : Hub) : List Nat := (h.ctxs.filter fun e => e.2.state != .unassigned).map Prod.fst

/-- The integrator context (02 R23). -/
def integrator (h : Hub) : Option Nat :=
  ((h.ctxs.find? fun e => e.2.state != .unassigned && e.2.level == 2)).map Prod.fst

/-- The physical function that carries the integrator context (20 R500); 128 where no context is the integrator. -/
def integratorFn (h : Hub) : Nat :=
  match integrator h with
  | none => 128
  | some c => ctxFn h c

/-- The integrator and every system client, in ascending order (17 R444). -/
def sysClients (h : Hub) : List Nat := (assigned h).filter fun c => (getCtx h c).level ≥ 1

/-- The idle step: one nanosecond passes (16 R436; log entry 8). -/
def idle (s : State) : State := onHub (fun h => { h with now := (h.now + 1) % 2 ^ 64 }) s

/-! ### Host memory -/

/-- Host memory after a write of `bs` at bus address `a` of function `f` (02 R551); bus addresses have 64 bits. -/
def hostPut (f a : Nat) (bs : Bytes) (t : Tab Byte) : Tab Byte :=
  match bs with
  | [] => t
  | b :: r => hostPut f (a + 1) r (t.set (f * 2 ^ 64 + a % 2 ^ 64) b)

/-- The hub writes `bs` at bus address `a` of function `f`. -/
def hostWrite (f a : Nat) (bs : Bytes) (h : Hub) : Hub := { h with host := hostPut f a bs h.host }

/-- What the hub has written at bus addresses from `a` of function `f`. -/
def hostRead (f a : Nat) (h : Hub) : Nat → List (Option Byte)
  | 0 => []
  | n + 1 => h.host.find (f * 2 ^ 64 + a % 2 ^ 64) :: hostRead f (a + 1) h n

/-- May anything still be written to host memory for a context (02 R27)?  While it is OPEN, and, for the completions of commands that it had
accepted, while it closes by DBL_CTRL.CLOSE or CTX_REVOKE. -/
def mayPost (x : Ctx) : Bool :=
  x.state == .opened || (x.state == .closing && (x.reason == 5 || x.reason == 8))

/-- A write to host memory for a context: remembered, because it may yet fail (02 R551). -/
def ctxPut (c a : Nat) (bs : Bytes) (h : Hub) : Hub :=
  let f := ctxFn h c
  let old := hostRead f a h bs.length
  let x := getCtx h c
  let h := setCtx h c { x with
    last := { addr := a % 2 ^ 64, before := old, data := bs, cqTail := x.cqTail, phase := x.phase, coal := x.coal, coalAt := x.coalAt } :: x.last }
  hostWrite f a bs h

/-- The write of a result into a buffer of a context, while anything may still be written for it (02 R27 step 2). -/
def ctxWrite (c a : Nat) (bs : Bytes) (h : Hub) : Hub := if mayPost (getCtx h c) then ctxPut c a bs h else h

/-! ### Field book (22 R540-R542) -/

/-- The 32 bytes of a Field book record (22 R541). -/
def fbkBytes (time typ die flags a0 a1 : Nat) : Bytes :=
  leBytes 8 time ++ leBytes 2 typ ++ leBytes 1 die ++ leBytes 1 flags ++ leBytes 4 a0 ++ leBytes 8 a1 ++ leBytes 8 0

/-- Is record `r` of the same nanosecond as `n`, and of a higher type (22 R541)? -/
def fbkAfter (n r : Bytes) : Bool :=
  r.take 8 == n.take 8 && decide (leNat ((r.drop 8).take 2) > leNat ((n.drop 8).take 2))

/-- A record put behind the others, but before those of the same nanosecond that have a higher type (22 R541). -/
def fbkInsert (n : Bytes) (buf : List Bytes) : List Bytes :=
  let tail := (buf.reverse.takeWhile (fbkAfter n)).length
  buf.take (buf.length - tail) ++ n :: buf.drop (buf.length - tail)

/-- Field book of a die after a record is made at `now`, which the die's own timebase gives as `time` (22 R540-R542, R544). -/
def fbkAdd (f : Fbk) (now time die src typ a0 a1 : Nat) (aligned : Bool) : Fbk :=
  if !(bit f.srcEn src || src == 0) || f.suspended then f
  else if f.stopped || f.buf.length ≥ 1024 then { f with dropped := satInc 65535 f.dropped, lost := true }
  else if f.mode && f.head - f.tail ≥ 262144 then
    { f with stopped := true, dropped := satInc 65535 f.dropped, lost := true }
  else
    { f with
      buf := fbkInsert (fbkBytes time typ die (b2n f.lost + 2 * b2n (!aligned)) a0 a1) f.buf
      oldest := if f.buf.isEmpty then now else f.oldest
      head := f.head + 1
      lost := false }

/-- Die `d` makes a Field book record. -/
def fbkRecord (d src typ a0 a1 : Nat) (h : Hub) : Hub :=
  if dieUp h d then updDie h d fun x => { x with fbk := fbkAdd x.fbk h.now ((h.now : Int) + x.clk.tbOff).toNat d src typ a0 a1 x.clk.aligned } else h

/-! ### MSI-X (02 R42) and direct-register interrupts (20 R511, R513) -/

/-- A message on a vector of a function: sent, or held as pending while the vector is masked (02 R42). -/
def msix (f vec : Nat) (h : Hub) : Hub :=
  let x := getFn h f
  if vec ≥ x.msixSize || f ≥ 128 then h
  else if bit x.vecMask vec then updFn h f fun x => { x with vecPend := x.vecPend ||| 2 ^ vec }
  else send (.msix f vec) h

/-- INT_VEC.BAD of a die (20 R512). -/
def intBad (h : Hub) (d : Nat) : Bool :=
  let r := (getDie h d).regs
  r.intMsix && r.intVec ≥ (getFn h (integratorFn h)).msixSize

/-- A message of a die starts to be merged, unless messages are off (20 R513). -/
def intRaise (d : Nat) (h : Hub) : Hub :=
  let r := (getDie h d).regs
  if r.intMsix && !intBad h d && r.intOpen.isNone then
    updDie h d fun x => { x with regs := { x.regs with intOpen := some h.now } }
  else h

/-- An event of interrupt source `n` of die `d` (20 R511). -/
def intEvent (d n : Nat) (h : Hub) : Hub :=
  if !dieUp h d then h
  else
    let h := updDie h d fun x =>
      { x with regs := { x.regs with intCount := x.regs.intCount.set n ((x.regs.intCount.get n 0 + 1) % 65536) } }
    if bit (getDie h d).regs.intEn n then intRaise d h else h

/-! ### Fault reports (17 R440-R443) -/

/-- A unit ID (17 R440). -/
def unitId (cls die inst : Nat) : Nat := cls + 256 * die + 65536 * inst

/-- The signature of a window. -/
def DieWin.is (w : DieWin) (cause unit : Nat) : Bool := w.cause == cause && w.unit == unit

/-- A report joins a window (17 R442). -/
def DieWin.join (w : DieWin) (reporter now : Nat) : DieWin :=
  { w with reporters := satInc 65535 w.reporters, lastRep := reporter, lastTime := now }

/-- When the last record of a signature was posted. -/
def postedAt (f : Flt) (cause unit : Nat) : Option Nat :=
  (f.posted.find? fun e => e.1 == cause && e.2.1 == unit).map fun e => e.2.2

/-- Is a record of the signature less than 10 ms old (17 R443)? -/
def recentlyPosted (h : Hub) (cause unit : Nat) : Bool :=
  match postedAt h.flt cause unit with
  | none => false
  | some t => h.now < t + 10000000

/-- `n` errors are dropped for want of a free signature entry (17 R443). -/
def dropErrors (d n : Nat) (h : Hub) : Hub :=
  let h := updDie h d fun x => { x with srv := { x.srv with dropped := satAdd 255 x.srv.dropped n } }
  { h with flt := { h.flt with dropped := satAdd 65535 h.flt.dropped n } }

/-- A record of a held signature takes one more report (17 R443). -/
def PkgWin.join (w : PkgWin) (d reporter now : Nat) : PkgWin :=
  { w with win := w.win.join reporter now, dies := w.dies ||| 2 ^ d }

/-- An error reaches the fault concentrator of die `d` (17 R441-R443): it joins the open window or held record of its
signature, or opens one. -/
def faultReport (d cause unit reporter detail : Nat) (h : Hub) : Hub :=
  if !dieUp h d then h
  else
    let srv := (getDie h d).srv
    let new : DieWin :=
      { cause := cause, unit := unit, reporters := 1, firstRep := reporter, lastRep := reporter,
        firstTime := h.now, lastTime := h.now, detail := detail, action := 0 }
    let h := if cause == 0x0306 then intEvent d 12 h else h
    if srv.wins.any (·.is cause unit) then
      updDie h d fun x =>
        { x with srv := { x.srv with wins := x.srv.wins.map fun w => if w.is cause unit then w.join reporter h.now else w } }
    else if h.flt.wins.any (fun w => w.held && w.win.is cause unit) then
      { h with flt := { h.flt with
          wins := h.flt.wins.map fun w => if w.held && w.win.is cause unit then w.join d reporter h.now else w } }
    else if recentlyPosted h cause unit then
      if h.flt.wins.length ≥ 64 then dropErrors d 1 h
      else
        let h := updDie h d fun x => { x with srv := { x.srv with held := satInc 255 x.srv.held } }
        { h with flt := { h.flt with
            wins := h.flt.wins ++ [{ win := { new with action := 64 }, dies := 2 ^ d, openAt := h.now, held := true }] } }
    else if srv.wins.length ≥ 32 then dropErrors d 1 h
    else updDie h d fun x => { x with srv := { x.srv with wins := x.srv.wins ++ [new] } }

/-- An access of a function that it may not make (17 R441, cause 0x0306): reported on the die whose port carries it. -/
def accessFault (f bar0 : Nat) (h : Hub) : Hub :=
  let u := unitId 0x0A (f / 16) (getFn h f).rid
  faultReport (f / 16) 0x0306 u u bar0 h

/-! ### Completions and events (02 R34, R41, R42) -/

/-- Entries of the completion ring as latched at OPEN. -/
def cqSize (x : Ctx) : Nat := 2 ^ bits x.cfgL.toNat 4 4

/-- Entries of the submission ring as latched at OPEN. -/
def sqSize (x : Ctx) : Nat := 2 ^ bits x.cfgL.toNat 0 4

/-- Completion slots in use: posted and not released, or reserved (02 R32). -/
def cqUsed (x : Ctx) : Nat := (x.cqTail + cqSize x - x.cqHead) % cqSize x + x.resv

/-- Is a completion slot free (02 R32)? -/
def cqFree (x : Ctx) : Bool := cqUsed x < cqSize x - 1

/-- The 32 bytes of an entry (02, "Completion layout"). -/
def entryBytes (st op tag sqHead cflags err r0 r1 time : Nat) : Bytes :=
  leBytes 2 st ++ leBytes 2 op ++ leBytes 4 tag ++ leBytes 2 sqHead ++ leBytes 1 cflags ++ leBytes 1 err ++
    leBytes 4 r0 ++ leBytes 8 r1 ++ leBytes 8 time

/-- Signal one more posted entry of a context (02 R42). -/
def coalesce (c : Nat) (h : Hub) : Hub :=
  let x := getCtx h c
  let cfg := x.cfgL.toNat
  if !bit cfg 14 then h
  else if x.coal + 1 ≥ max 1 (bits cfg 16 8) then
    msix (ctxFn h c) (bits cfg 8 6) (setCtx h c { x with coal := 0 })
  else setCtx h c { x with coal := x.coal + 1, coalAt := if x.coal = 0 then h.now else x.coalAt }

/-- Did a message go out on a vector between two states of the hub, and did its pending bit become set? -/
def messageSent (before after : Hub) : Bool := before.outbox.length < after.outbox.length

/-- The newest write of an entry (not of a buffer) is marked with the message that announced it. -/
def markNewest (x : Ctx) (sent pended : Bool) : List HostWrite → List HostWrite
  | [] => []
  | w :: t =>
    if w.addr = (x.cqBaseL.toNat + 32 * w.cqTail) % 2 ^ 64 then { w with sent := w.sent || sent, pended := w.pended || pended } :: t
    else w :: markNewest x sent pended t

/-- The newest entry of a context is marked with the message that announced it (02 R551). -/
def markMessage (c : Nat) (before after : Hub) : Hub :=
  let f := ctxFn before c
  let p := (getFn after f).vecPend ≠ (getFn before f).vecPend
  updCtx after c fun x => { x with last := markNewest x (messageSent before after) p x.last }

/-- Write an entry into the next completion slot, advance the tail, and signal it (02 R34). -/
def postEntry (c st op tag sqHead cflags err r0 r1 time : Nat) (h : Hub) : Hub :=
  let x := getCtx h c
  let a := x.cqBaseL.toNat + 32 * x.cqTail
  let h := ctxPut c a (entryBytes st op tag sqHead (b2n x.phase + cflags) err r0 r1 time) h
  let h := updCtx h c fun x =>
    let t := (x.cqTail + 1) % cqSize x
    { x with cqTail := t, phase := if t = 0 then !x.phase else x.phase }
  markMessage c h (coalesce c h)

/-- An accepted command completes (02 R34, R36, R37). -/
def complete (p : Pend) (st off r0 r1 : Nat) (h : Hub) : Hub :=
  let h := fbkRecord (homeDie p.ctx) 1 0x0101 (p.opcode + 65536 * st) (p.ctx + 4096 * p.tag) h
  let x := getCtx h p.ctx
  if x.epoch ≠ p.epoch || !mayPost x then h
  else
    let h := setCtx h p.ctx { x with resv := x.resv - 1 }
    if isQuiet p.flags && st == 0 then h
    else postEntry p.ctx st p.opcode p.tag p.sqHead 0 off (r0 % 2 ^ 32) (r1 % 2 ^ 64) p.time h

/-- A completion that carries no failing field. -/
def completeOk (p : Pend) (r0 r1 : Nat) (h : Hub) : Hub := complete p 0 255 r0 r1 h

/-- The hub posts an event to a context, or discards it (02 R41). -/
def postEventAt (time c code r0 r1 : Nat) (h : Hub) : Hub :=
  let x := getCtx h c
  if x.state ≠ .opened then h
  else
    let seq := x.evSeq
    let x := { x with evSeq := (seq + 1) % 2 ^ 32 }
    if !(bit x.evMask (code / 256) || code / 256 == 0) then setCtx h c x
    else if !cqFree x then setCtx h c { x with lostEvents := satInc 255 x.lostEvents, evLost := true }
    else postEntry c 0 code seq x.sqHead (2 + 4 * b2n x.evLost) 255 (r0 % 2 ^ 32) (r1 % 2 ^ 64) time
      (setCtx h c { x with evLost := false })

/-- An event that occurs now. -/
def postEvent (c code r0 r1 : Nat) (h : Hub) : Hub := postEventAt h.now c code r0 r1 h

/-- An event to several contexts, in ascending order. -/
def postEvents (cs : List Nat) (code r0 r1 : Nat) (h : Hub) : Hub := cs.foldl (fun h c => postEvent c code r0 r1 h) h

/-! ### The run of a mailbox command -/

/-- What the execution of a command answers: the hub after it, its LP5X writes, and the completion to post, or none where the
completion is deferred (02 R40). -/
structure Res where
  hub : Hub
  ws : List MemWrite := []
  reply : Option (Nat × Nat × Nat × Nat) := none

/-- Success with RESULT0 and RESULT1. -/
def okRes (h : Hub) (r0 r1 : Nat := 0) (ws : List MemWrite := []) : Res :=
  { hub := h, ws := ws, reply := some (0, 255, r0, r1) }

/-- A refusal or failure met after the checks: status, ERR_OFFSET, RESULT0 and RESULT1. -/
def failRes (h : Hub) (st off : Nat) (r0 r1 : Nat := 0) : Res := { hub := h, reply := some (st, off, r0, r1) }

/-- A deferred completion. -/
def laterRes (h : Hub) (ws : List MemWrite := []) : Res := { hub := h, ws := ws }

/-- How a command uses its TXN field. -/
inductive TxnUse where
  /-- must be 0 (0x0109) -/
  | never
  /-- must name an open transaction of the context, into which the command is staged (0x0401, 0x0402) -/
  | stage
  /-- names the transaction on which the command acts (0x0401) -/
  | acts
  deriving DecidableEq, Repr

/-- What the manual fixes of one mailbox command: opcode, level, whether SYS_LOCK refuses it, its TXN field, its indirect
block (none: not supported; otherwise the lengths allowed, and `direct` where the command may also do without), its reserved argument ranges, whether its chapter fixes its own
order of checks, when it must wait in the ring, its checks, and its execution. -/
structure Spec where
  op : Nat
  level : Nat := 0
  locks : Bool := false
  txn : TxnUse := .never
  block : Option (Nat → Bool) := none
  direct : Bool := false
  rsv : List (Nat × Nat) := []
  listed : Bool := false
  waits : Cmd → Hub → Bool := fun _ _ => false
  checks : Cmd → List Host.Cell → Hub → List Ck := fun _ _ _ => []
  run : Cmd → Pend → List Host.Cell → Hub → Res

/-- The key in the transaction store and the entry that a TXN value names for a context (07 R162), if it does. -/
def txnOf (h : Hub) (c v : Nat) : Option (Nat × Txn) :=
  if v = 0 || bits v 11 5 ≠ 0 then none
  else
    let k := bits v 8 3 * 256 + bits v 0 8
    match h.txns.find k with
    | none => none
    | some t => if h.txnGens.get k 1 = bits v 16 16 && t.owner = c then some (k, t) else none

/-- The handle of transaction `k`. -/
def txnHandle (h : Hub) (k : Nat) : Nat := k % 256 + 256 * (k / 256) + 65536 * h.txnGens.get k 1

/-- The checks of the command's header (02 R35, R38, R8; R22, R25; 07 R162, R164). -/
def headChecks (sp : Spec) (c : Cmd) (h : Hub) : List Ck :=
  let fl := c.flags.toNat
  let tx := c.txn.toNat
  -- DESIGN CHOICE (log 81): of two failures of one family at one offset, the first of this list is reported.
  [ { st := 0x0103, off := 2, bad := bits fl 3 5 ≠ 0 },
    { st := 0x0102, off := 3, bad := c.layout ≠ 1 },
    { st := 0x0103, off := 12, bad := c.rsvd ≠ 0 },
    { st := 0x0301, off := 0, bad := levelOf h c.ctx < sp.level },
    { st := 0x0305, off := 0, bad := sp.locks && h.pkg.lock } ] ++
  (match sp.block with
   | none => [{ st := 0x0107, off := 2, bad := isIndirect fl }]
   | some ok =>
     if !isIndirect fl then [{ st := 0x0107, off := 2, bad := !sp.direct }]
     else
       [ { st := 0x0107, off := 16, bad := arg64 c 16 % 64 ≠ 0 },
         { st := 0x0107, off := 24, bad := arg32 c 24 < 64 || arg32 c 24 > 65536 || !ok (arg32 c 24) },
         { st := 0x0103, off := 28, bad := arg32 c 28 ≠ 0 } ]) ++
  (match sp.txn with
   | .never => [{ st := 0x0109, off := 8, bad := tx ≠ 0 }]
   | .stage =>
     match txnOf h c.ctx tx with
     | none => [{ st := 0x0401, off := 8, bad := true }]
     | some t => [{ st := 0x0402, off := 8, bad := t.2.state ≠ .opened }]
   | .acts => [{ st := 0x0401, off := 8, bad := (txnOf h c.ctx tx).isNone }]) ++
  sp.rsv.map fun r => { st := 0x0103, off := firstSet r.1 (argBytes c r.1 r.2), bad := argN c r.1 r.2 ≠ 0 }

/-- Is the Keeper of a die halted by its debug port (22 R550)? -/
def halted (h : Hub) (d : Nat) : Bool := (getDie h d).kdbg.halted.isSome

/-- Does a bank of Keeper memory of die `d` undergo a test, for which mailbox fetch pauses (17 R447)? -/
def keeperTest (h : Hub) (d : Nat) : Bool :=
  (getDie h d).srv.tests.any fun t => t.req.unit % 256 == 2 && decide (240 ≤ t.req.unit / 65536)

/-- Has the context a command to fetch, and a completion slot to reserve for it (02 R26, R27, R32; 15 R394; 18 R463), with no command
before it whose parts are with other dies (02 R40)? -/
def fetchable (h : Hub) (c : Nat) : Bool :=
  let x := getCtx h c
  ready h && dieUp h (homeDie c) && awake h (homeDie c) && !halted h (homeDie c) && !keeperTest h (homeDie c) &&
    x.state == .opened && x.sqHead ≠ x.sqTail && cqFree x && x.held.isNone && !h.remote.has c

/-- The context with one more command fetched: head advanced, slot reserved (02 R32). -/
def fetchOne (x : Ctx) : Ctx := { x with sqHead := (x.sqHead + 1) % sqSize x, resv := x.resv + 1 }

/-- The instant of an acceptance: now, or the next nanosecond where a higher context was accepted in this one (01 R18; log 82). -/
def acceptAt (c : Nat) (h : Hub) : Nat := if h.accAt.1 = h.now && c < h.accAt.2 then (h.now + 1) % 2 ^ 64 else h.now

/-- A command of context `c` is accepted. -/
def stamp (c : Nat) (h : Hub) : Hub := { h with now := acceptAt c h, accAt := (acceptAt c h, c) }

/-- The record of an accepted command. -/
def pendOf (op : Nat) (c : Cmd) (sqHead : Nat) (h : Hub) : Pend :=
  { ctx := c.ctx, epoch := (getCtx h c.ctx).epoch, opcode := op, tag := c.tag.toNat, sqHead := sqHead,
    flags := c.flags.toNat, time := h.now }

/-- The checks and the execution of an accepted command, as one step (02 R37). -/
def orderCmd (sp : Spec) (c : Cmd) (p : Pend) (m : List Host.Cell) (h : Hub) : Eff :=
  match firstFail sp.listed (headChecks sp c h ++ sp.checks c m h) with
  | some k => (complete p k.st k.off k.r0 k.r1 h, [])
  | none =>
    let r := sp.run c p m h
    match r.reply with
    | none => (r.hub, r.ws)
    | some (st, off, r0, r1) => (complete p st off r0 r1 r.hub, r.ws)

/-- The dies other than the home die that have a part of a command (02 R39). -/
def partDies (sp : Spec) (c : Cmd) (m : List Host.Cell) (h : Hub) : List Nat :=
  ((sp.checks c m h).filterMap Ck.die).eraseDups.filter fun d => d != homeDie c.ctx && dieUp h d

/-- The home Keeper sends the parts of an accepted command to dies (02 R39). -/
def sendParts (op : Nat) (c : Cmd) (sqHead : Nat) (ds : List Nat) (h : Hub) : Hub :=
  let h := { h with remote := h.remote.set c.ctx { raw := cmdRaw (BitVec.ofNat 16 op) c, sqHead := sqHead, time := h.now, dies := ds } }
  ds.foldl (fun h d => send (.keeper (homeDie c.ctx) d 0) h) h

/-- Acceptance of a fetched command (02 R37, R40).  Where a Keeper that has a part of it is halted and cannot answer, the command
waits for it (02 R39; 22 R550); otherwise every die answers. -/
def acceptCmd (sp : Spec) (c : Cmd) (sqHead : Nat) (m : List Host.Cell) (h : Hub) : Eff :=
  let ds := partDies sp c m h
  if ds.any (halted h) && (firstFail sp.listed (headChecks sp c h)).isNone then (sendParts sp.op c sqHead ds h, [])
  else orderCmd sp c (pendOf sp.op c sqHead h) m h

/-- Does a die hold a reservation for the command of another context (02 R39): its home die, which accepted it first, or a die that passed
its part (01 R18; log 26)? -/
def reservedFor (h : Hub) (ctx d : Nat) : Bool := h.remote.any fun e => e.1 != ctx && (homeDie e.1 == d || e.2.passed.contains d)

/-- Must a command wait for the reservation of another context's command on a die that it involves? -/
def heldOff (sp : Spec) (c : Cmd) (m : List Host.Cell) (h : Hub) : Bool :=
  !h.remote.isEmpty && (homeDie c.ctx :: partDies sp c m h).any (reservedFor h c.ctx)

/-- The Keeper takes the command `c` from the head of its context's ring: fetched, held where FLAGS.ORDERED holds it (02 R36),
and otherwise accepted.  Nothing happens where the context has no command to fetch, no slot is free, or the command waits in
the ring. -/
def mailStep (sp : Spec) (c : Cmd) (m : List Host.Cell) (h : Hub) : Eff :=
  if !fetchable h c.ctx || sp.waits c h || heldOff sp c m h then (h, [])
  else
    let x := getCtx h c.ctx
    let y := fetchOne x
    if isOrdered c.flags.toNat && x.resv > 0 then
      (setCtx h c.ctx { y with held := some (cmdRaw (BitVec.ofNat 16 sp.op) c, y.sqHead) }, [])
    else acceptCmd sp c y.sqHead m (stamp c.ctx (setCtx h c.ctx y))

/-- The meaning of a mailbox row. -/
def mail (sp : Spec) (c : Cmd) (s : State) : State := act (mailStep sp c) s

/-! ### Visibility (14 R386, R387, R389) -/

/-- The remote-granule buffer of a die is emptied. -/
def emptyBuffer (d : Nat) (h : Hub) : Hub :=
  if (getDie h d).rbuf.isEmpty then h else updDie h d fun x => { x with rbuf := [] }

/-- A visibility broadcast: every die empties its buffer (14 R387). -/
def broadcast (h : Hub) : Hub := (h.dies.map Prod.fst).foldl (fun h d => emptyBuffer d h) h

/-- What a function wrote through BAR2 before a command that its context announces is visible package-wide before the command takes effect
(14 R389). -/
def bar2Visible (c : Nat) (h : Hub) : Hub :=
  let f := ctxFn h c
  if (getFn h f).wrote then broadcast (updFn h f fun x => { x with wrote := false }) else h

/-! ### Checks that many commands share -/

/-- A check. -/
def ck (st off : Nat) (bad : Bool) : Ck := { st := st, off := off, bad := bad }

/-- A check that belongs to a die. -/
def ckd (die st off : Nat) (bad : Bool) : Ck := { st := st, off := off, bad := bad, die := some die }

/-- A die site that a field names: populated and not lost (0x0203), and awake, because a part forwarded to a die that is in,
entering or leaving a low-power state draws 0x0408 (15 R394). -/
def dieCk (h : Hub) (off d : Nat) : Ck :=
  if d < 8 && dieUp h d then ckd d 0x0408 off (!awake h d) else ck 0x0203 off true

/-- An output number: below 32 (0x0202), on a die that is there (0x0203) and awake (0x0408). -/
def outCks (h : Hub) (off o : Nat) : List Ck := if o ≥ 32 then [ck 0x0202 off true] else [dieCk h off (o / 4)]

/-- A field that names a global context (02 R553); `need`: an assigned slot is needed. -/
def ctxCks (h : Hub) (off v : Nat) (need : Bool) : List Ck :=
  if v > 4095 then [ck 0x0202 off true]
  else [dieCk h off (homeDie v), ckd (homeDie v) 0x0404 off (need && (getCtx h v).state == .unassigned)]

/-- ERR_OFFSET of byte `i` of an indirect block (02, "Completion layout"). -/
def blkOff (i : Nat) : Nat := if i ≥ 191 then 0xFE else i + 64

/-- A reserved range of the block: its first byte that is not 0 is reported (00 R8; log 34). -/
def rsvCk (c : Cmd) (i size : Nat) : Ck :=
  ck 0x0103 (blkOff (firstSet i ((c.block.drop i).take size))) (!blkZero c i size)

/-- A host buffer that must be 64-byte aligned (0x0105). -/
def bufCk (c : Cmd) (off : Nat) : Ck := ck 0x0105 off (arg64 c off % 64 ≠ 0)

end Sys2Proof.Machine
end

