-- ==== Sys2Proof/Machine/Atlas.lean ====
section
/-!
DEFINITION. Pixel formats, planes, handles and rights (03 R51-R64), LP5X granules and regions (03 R46, 14 R380), and where the
bytes of a surface lie.
-/

namespace Sys2Proof.Machine

/-! ### Formats (03 R54) -/

/-- One row of the format table: bytes per pixel of plane 0, crated, YCbCr, chroma subsampling factors, bytes of a word of
plane 1, number of planes, and roles (bit 0 L, 1 PS, 2 PD, 3 WB, 4 CAM). -/
structure Fmt where
  bpp : Nat
  crated : Bool := false
  ycc : Bool := false
  sx : Nat := 1
  sy : Nat := 1
  word1 : Nat := 0
  planes : Nat := 1
  roles : Nat

/-- The format table (03 R54). -/
def fmtOf (code : Nat) : Option Fmt :=
  match code with
  | 0x0001 => some { bpp := 4, roles := 31 }
  | 0x0002 => some { bpp := 4, roles := 7 }
  | 0x0003 => some { bpp := 4, roles := 7 }
  | 0x0004 => some { bpp := 4, roles := 7 }
  | 0x0005 => some { bpp := 4, roles := 15 }
  | 0x0006 => some { bpp := 2, roles := 7 }
  | 0x0007 => some { bpp := 8, roles := 15 }
  | 0x0008 => some { bpp := 1, roles := 7 }
  | 0x0009 => some { bpp := 1, roles := 3, planes := 2 }
  | 0x0010 => some { bpp := 1, ycc := true, sx := 2, sy := 2, word1 := 2, planes := 2, roles := 19 }
  | 0x0011 => some { bpp := 1, ycc := true, sx := 2, sy := 2, word1 := 2, planes := 2, roles := 3 }
  | 0x0012 => some { bpp := 1, ycc := true, sx := 2, sy := 1, word1 := 2, planes := 2, roles := 19 }
  | 0x0013 => some { bpp := 2, ycc := true, sx := 2, sy := 2, word1 := 4, planes := 2, roles := 19 }
  | 0x0014 => some { bpp := 2, ycc := true, sx := 2, sy := 1, word1 := 4, planes := 2, roles := 19 }
  | 0x0015 => some { bpp := 1, ycc := true, word1 := 1, planes := 3, roles := 3 }
  | 0x0101 => some { bpp := 4, crated := true, planes := 2, roles := 31 }
  | 0x0102 => some { bpp := 4, crated := true, planes := 2, roles := 7 }
  | 0x0103 => some { bpp := 4, crated := true, planes := 2, roles := 7 }
  | 0x0104 => some { bpp := 4, crated := true, planes := 2, roles := 7 }
  | 0x0105 => some { bpp := 4, crated := true, planes := 2, roles := 15 }
  | 0x0106 => some { bpp := 2, crated := true, planes := 2, roles := 7 }
  | 0x0108 => some { bpp := 1, crated := true, planes := 2, roles := 7 }
  | _ => none

/-- A format row, or ARGB_8888 for a code of no row (no surface has such a code). -/
def fmtD (code : Nat) : Fmt := (fmtOf code).getD { bpp := 4, roles := 31 }

/-- Does the format allow role bit `r` (03 R54)? -/
def hasRole (code r : Nat) : Bool := bit (fmtD code).roles r

/-- Crate columns of a width and crate rows of a height (03, "The crated format"). -/
def crateCols (w : Nat) : Nat := ceilDiv w 64
/-- Crate rows of a height. -/
def crateRows (h : Nat) : Nat := ceilDiv h 4

/-- G_RAW: granules of a RAW crate (03 R59). -/
def gRaw (code : Nat) : Nat := 256 * (fmtD code).bpp / 64

/-- The raw maximum of a crate row, in granules (03 R59). -/
def rawMax (code w : Nat) : Nat := crateCols w * gRaw code

/-- Row bytes of plane `p` of an uncrated surface (03 R55). -/
def rowBytes (f : Fmt) (w p : Nat) : Nat := if p = 0 then w * f.bpp else w / f.sx * f.word1

/-- Lines of plane `p` of an uncrated surface. -/
def planeLines (f : Fmt) (h p : Nat) : Nat := if p = 0 then h else h / f.sy

/-- Size in bytes of plane `p` whose pitch field is `pitch` (03 R55, R57; the I_8 palette has 1024 bytes). -/
def planeSize (code h p pitch : Nat) : Nat :=
  let f := fmtD code
  if f.crated then (if p = 0 then crateRows h * pitch else 64 * pitch)
  else if code = 0x0009 && p = 1 then 1024
  else if p < f.planes then pitch * planeLines f h p
  else 0

/-! ### LP5X granules (14 R375-R380) -/

/-- Granules of 4 MiB of a die's client pool: its usable capacity less the 64 MiB system area (14 R377, R380). -/
def poolSize (h : Hub) (d : Nat) : Nat :=
  let g := h.pkg.gib.get d 0 * 256
  (if bit h.pkg.ecc d then g * 31 / 32 else g) - 16

/-- Granules of a die's pool that regions and cache frames hold (03 R46, 08 R218). -/
def usedGranules (h : Hub) (d : Nat) : List Nat :=
  (h.regions.filter fun e => e.1 / 256 == d).flatMap (fun e => e.2.granules) ++
    (h.outs.filter fun e => e.1 / 4 == d).flatMap fun e => e.2.cache

/-- The `n` lowest free granules of a die's pool, if there are so many (log entry 10). -/
def freeGranules (h : Hub) (d n : Nat) : Option (List Nat) :=
  let used := usedGranules h d
  let l := firstNats (fun g => !used.contains g) (poolSize h d) 0 n
  if l.length = n then some l else none

/-- Bytes of a granule. -/
def granBytes : Nat := 4194304

/-- The memory address of byte `off` of granules of die `d`. -/
def granAddr (d : Nat) (gs : List Nat) (off : Nat) : Nat :=
  d * 2 ^ 34 + (gs.getD (off / granBytes) 0) * granBytes + off % granBytes

/-- The memory address of byte `off` of a region. -/
def regAddr (h : Hub) (r off : Nat) : Nat :=
  match h.regions.find r with
  | none => 0
  | some g => granAddr (r / 256) g.granules off

/-- The address of byte `off` of plane `p` of a surface. -/
def planeAddr (h : Hub) (s : Surf) (p off : Nat) : Nat := regAddr h s.region (64 * (s.planes.getD p (0, 0)).1 + off)

/-- `n` bytes of a plane from byte `off`, byte by byte, because granules need not be contiguous (03 R46). -/
def planeRead (m : List Host.Cell) (h : Hub) (s : Surf) (p off n : Nat) : Bytes :=
  (List.range n).map fun i => Memory.read m (planeAddr h s p (off + i))

/-- A number of `n` bytes of a plane. -/
def planeNat (m : List Host.Cell) (h : Hub) (s : Surf) (p off n : Nat) : Nat := leNat (planeRead m h s p off n)

/-- Writes of `bs` into a plane from byte `off`; a byte outside the plane is not written (03 R69). -/
def planeWrite (h : Hub) (s : Surf) (p off : Nat) (bs : Bytes) : List MemWrite :=
  let n := planeSize s.fmt s.height p (s.planes.getD p (0, 0)).2
  (bs.take (n - off)).mapIdx fun i b => .bytes (planeAddr h s p (off + i)) [b]

/-! ### Handles and rights (03 R51, R64) -/

/-- The die of a surface handle (03 R51). -/
def handleDie (v : Nat) : Nat := v % 65536 / 8192

/-- The entry that a handle names, whatever its generation. -/
def entryOf (h : Hub) (v : Nat) : Option Surf := h.atlas.find (v % 65536)

/-- The LIVE surface that a handle names (03 R51, R53). -/
def surfOf (h : Hub) (v : Nat) : Option Surf :=
  if v = 0 then none
  else match entryOf h v with
    | none => none
    | some s => if s.retiring || s.gen ≠ v / 65536 then none else some s

/-- The checks of a handle field (03 R51, R53).  A FREE entry keeps its generation (03 R52), so that a handle of an earlier surface is stale. -/
def handleCks (h : Hub) (off v : Nat) : List Ck :=
  let d := v % 65536 / 8192
  if v = 0 then [ck 0x0404 off true]
  else if !dieUp h d then [ckd d 0x0203 off true]
  else dieCk h off d :: match entryOf h v with
    | none => [ckd d 0x0304 off (h.gens.get (v % 65536) 1 ≠ v / 65536), ckd d 0x0404 off true]
    | some s => [ckd d 0x0304 off (s.retiring || s.gen ≠ v / 65536)]

/-- The handle of the entry at an index. -/
def handleOf (ix : Nat) (s : Surf) : Nat := ix + 65536 * s.gen

/-- The rights a context holds on a surface: READ 1, WRITE 2; the owner both (03 R64). -/
def rightsOf (s : Surf) (c : Nat) : Nat :=
  if s.owner = c then 3 else ((s.grants.find? fun g => g.1 == c).map Prod.snd).getD 0

/-- A surface that a command may use only with right `r` (bit 0 READ, 1 WRITE): the status without it is 0x0303. -/
def rightCk (h : Hub) (off v c r : Nat) : Ck :=
  match surfOf h v with
  | none => ck 0x0303 off false
  | some s => ckd (v % 65536 / 8192) 0x0303 off (!bit (rightsOf s c) r)

/-- Has the context the right, so that the surface's properties may be compared (02 R38)? -/
def mayUse (h : Hub) (v c r : Nat) : Bool := match surfOf h v with | none => false | some s => bit (rightsOf s c) r

/-- A region field (03 R75): the checks that its number draws, with those of ownership.  DESIGN CHOICE (log 81): a region that its owner's
teardown has left waiting (R68) belongs to no context, to one in the same slot neither. -/
def regionCks (h : Hub) (off r c : Nat) : List Ck :=
  (if r ≥ 2048 then [ck 0x0202 off true] else [dieCk h off (r / 256)]) ++
  [ckd (r / 256) 0x0302 off (match h.regions.find r with | none => false | some g => g.owner ≠ c || g.dead),
   ckd (r / 256) 0x0404 off (r < 2048 && (h.regions.find r).isNone)]

/-! ### Writes that reach a picture (08 R220) -/

/-- Does the surface hold a plane in one of the granules (numbers of die `d`)? -/
def planeInGranules (h : Hub) (s : Surf) (d : Nat) (gs : List Nat) : Bool :=
  match h.regions.find s.region with
  | none => false
  | some r => s.region / 256 == d &&
      (List.range (fmtD s.fmt).planes).any fun p =>
        let lo := 64 * (s.planes.getD p (0, 0)).1
        let n := planeSize s.fmt s.height p (s.planes.getD p (0, 0)).2
        n > 0 && (List.range ((lo + n - 1) / granBytes - lo / granBytes + 1)).any fun i =>
          gs.contains (r.granules.getD (lo / granBytes + i) 0)

/-- The content or the standing of layers changed: their outputs have changed, every member of a clone or span group too (08 R220,
R223). -/
def dirtied (ls : List (Nat × Layer)) (h : Hub) : Hub :=
  { h with outs := h.outs.map fun e =>
      let mine := (ls.filter fun l => l.2.out == e.1 || ((e.2.grp == 1 || e.2.grp == 2) && l.2.out == e.2.primary)).map Prod.fst
      if mine.isEmpty then e else (e.1, { e.2 with changed := true, dirty := (mine ++ e.2.dirty).eraseDups }) }

/-- Granules of die `d` were written: every output with an enabled layer that reads a surface there has changed (08 R220). -/
def touched (d : Nat) (gs : List Nat) (h : Hub) : Hub :=
  dirtied (h.layers.filter fun e => e.2.cur.enable && e.2.cur.source ≠ 0 &&
      (match surfOf h e.2.cur.source with | none => false | some s => planeInGranules h s d gs)) h

/-- The granules that byte writes touch, with their dies. -/
def writesTouched (ws : List MemWrite) (h : Hub) : Hub :=
  let keys := (ws.map fun w => match w with | .bytes a _ => a / granBytes | .zeros a _ => a / granBytes).eraseDups
  keys.foldl (fun h k => touched (k / 4096) [k % 4096] h) h

/-- A surface changed state or lost a grant that a layer uses (08 R220). -/
def surfChanged (v : Nat) (h : Hub) : Hub := dirtied (h.layers.filter fun e => e.2.cur.enable && e.2.cur.source == v) h

end Sys2Proof.Machine
end

