-- ==== Sys2Proof/Machine/Modes.lean ====
section
/-!
DEFINITION. The mode table: entries, their validation, the built-in entries, and what follows from an entry (08 R201-R204,
R210, R234; 01 R12, R13, R15; 04 R91).
-/

namespace Sys2Proof.Machine

/-- H_TOTAL (08 R202). -/
def hTotal (e : ModeEntry) : Nat := e.hActive + e.hFront + e.hSync + e.hBack

/-- V_TOTAL (08 R202). -/
def vTotal (e : ModeEntry) : Nat := e.vActive + e.vFront + e.vSync + e.vBack

/-- Lines of the vertical blank. -/
def vBlank (e : ModeEntry) : Nat := e.vFront + e.vSync + e.vBack

/-- Nanoseconds of `px` pixel clocks as a fraction: the pixel clock is 27 MHz x PLL_N / PLL_P (08 R202). -/
def pxNum (e : ModeEntry) (px : Nat) : Nat := px * e.pllP * 1000

/-- Denominator of `pxNum`. -/
def pxDen (e : ModeEntry) : Nat := 27 * e.pllN

/-- Nanoseconds of `px` pixel clocks, rounded down. -/
def pxNs (e : ModeEntry) (px : Nat) : Nat := pxNum e px / pxDen e

/-- Pixel clock in Hz, rounded to nearest (08 R234). -/
def pixelHz (e : ModeEntry) : Nat := roundDiv (27000000 * e.pllN) e.pllP

/-- Frame period in ns, rounded to nearest (08 R234). -/
def framePeriod (e : ModeEntry) : Nat := roundDiv (pxNum e (hTotal e * vTotal e)) (pxDen e)

/-- Is a vertical blank long enough for bands of `bh` lines: at least two band times and 20 µs (01 R15)?  With genlock every
time is divided by 1.001 (08 R213; log entry 13). -/
def blankOk (e : ModeEntry) (bh : Nat) (genlock : Bool) : Bool :=
  bh ≤ vBlank e &&
    decide (pxNum e ((vBlank e - bh) * hTotal e) * 1000 ≥ 20000 * pxDen e * (if genlock then 1001 else 1000))

/-- Does the entry allow a port kind: 4 DP, 5 eDP, 6 DSI, 7 Traverse (08 R202)? -/
def modeAllows (e : ModeEntry) (k : Nat) : Bool := bit e.flags k

/-- Are the pixel clocks of two entries exactly equal (08 R206)? -/
def sameClock (a b : ModeEntry) : Bool := a.pllN * b.pllP == b.pllN * a.pllP

/-- Are the frame periods exactly equal (08 R211)? -/
def samePeriod (a b : ModeEntry) : Bool :=
  hTotal a * vTotal a * a.pllP * b.pllN == hTotal b * vTotal b * b.pllP * a.pllN

/-- The entry of 32 bytes (08 R202). -/
def entryOfBytes (b : Bytes) : ModeEntry :=
  let n (i k : Nat) : Nat := leNat ((b.drop i).take k)
  { num := n 0 1, flags := n 2 2, hActive := n 4 2, hFront := n 6 2, hSync := n 8 2, hBack := n 10 2, vActive := n 12 2,
    vFront := n 14 2, vSync := n 16 2, vBack := n 18 2, pllN := n 20 1, pllP := n 21 1, vTotalMax := n 22 2 }

/-- The 32-byte image of an entry (08 R202). -/
def modeImage (e : ModeEntry) : Bytes :=
  leBytes 1 e.num ++ leBytes 1 0 ++ leBytes 2 e.flags ++
    ([e.hActive, e.hFront, e.hSync, e.hBack, e.vActive, e.vFront, e.vSync, e.vBack].flatMap (leBytes 2)) ++
    leBytes 1 e.pllN ++ leBytes 1 e.pllP ++ leBytes 2 e.vTotalMax ++ leBytes 8 0

/-- The checks of a 32-byte entry in the order of 08 R203; offsets are those of the entry plus `o`. -/
def entryCks (o : Nat) (b : Bytes) : List Ck :=
  let e := entryOfBytes b
  let n (i k : Nat) : Nat := leNat ((b.drop i).take k)
  let porch := [(6, e.hFront), (8, e.hSync), (10, e.hBack), (14, e.vFront), (16, e.vSync), (18, e.vBack)]
  [ck 0x0103 (o + 1) (n 1 1 ≠ 0), ck 0x0103 (o + 2) (e.flags ≥ 256), ck 0x0103 (o + 24) (n 24 8 ≠ 0),
   ck 0x0202 o (e.num ≥ 0x40),
   ck 0x0201 (o + 2) (bits e.flags 4 4 = 0),
   ck 0x0204 (o + 4) (e.hActive < 64 || e.hActive > 8192)] ++
  (porch.filter fun p => p.1 < 12).map (fun p => ck 0x0204 (o + p.1) (p.2 = 0)) ++
  [ck 0x0204 (o + 12) (e.vActive < 64 || e.vActive > 4320)] ++
  (porch.filter fun p => p.1 > 12).map (fun p => ck 0x0204 (o + p.1) (p.2 = 0)) ++
  [ck 0x0204 255 (hTotal e < e.hActive + 16 || hTotal e > 16383 || vTotal e > 8191),
   ck 0x0208 (o + 20) (e.pllN < 112 || e.pllN > 222),
   ck 0x0208 (o + 21) (e.pllP < 5),
   ck 0x0208 255 (27 * e.pllN > 1200 * e.pllP),
   ck 0x0201 (o + 22) (if bit e.flags 2 then !(vTotal e < e.vTotalMax && e.vTotalMax ≤ 8191) else e.vTotalMax ≠ 0),
   ck 0x0201 255
     (let f := hTotal e * vTotal e * e.pllP; 27000000 * e.pllN < 10 * f || 27000000 * e.pllN > 240 * f),
   ck 0x0207 255 (!blankOk e 16 false),
   ck 0x0209 255 ((bit e.flags 4 || bit e.flags 5) && 27 * e.pllN * 240 > 251424 * e.pllP)]

/-- The built-in entries (08 R204); the porch, sync and polarity values are those of the standards that it names
(log entry 14). -/
def builtIn : List ModeEntry :=
  [ { num := 0x80, flags := 0xF0, hActive := 640, hFront := 16, hSync := 96, hBack := 48, vActive := 480, vFront := 10,
      vSync := 2, vBack := 33, pllN := 210, pllP := 225, vTotalMax := 0 },
    { num := 0x81, flags := 0xF3, hActive := 1280, hFront := 110, hSync := 40, hBack := 220, vActive := 720, vFront := 5,
      vSync := 5, vBack := 20, pllN := 220, pllP := 80, vTotalMax := 0 },
    { num := 0x82, flags := 0xF3, hActive := 1280, hFront := 440, hSync := 40, hBack := 220, vActive := 720, vFront := 5,
      vSync := 5, vBack := 20, pllN := 220, pllP := 80, vTotalMax := 0 },
    { num := 0x83, flags := 0xF3, hActive := 1920, hFront := 88, hSync := 44, hBack := 148, vActive := 1080, vFront := 4,
      vSync := 5, vBack := 36, pllN := 220, pllP := 40, vTotalMax := 0 },
    { num := 0x84, flags := 0xF3, hActive := 1920, hFront := 528, hSync := 44, hBack := 148, vActive := 1080, vFront := 4,
      vSync := 5, vBack := 36, pllN := 220, pllP := 40, vTotalMax := 0 },
    { num := 0x85, flags := 0xF3, hActive := 3840, hFront := 176, hSync := 88, hBack := 296, vActive := 2160, vFront := 8,
      vSync := 10, vBack := 72, pllN := 220, pllP := 20, vTotalMax := 0 },
    { num := 0x86, flags := 0xF3, hActive := 3840, hFront := 176, hSync := 88, hBack := 296, vActive := 2160, vFront := 8,
      vSync := 10, vBack := 72, pllN := 220, pllP := 10, vTotalMax := 0 },
    { num := 0x87, flags := 0xF0, hActive := 1024, hFront := 24, hSync := 136, hBack := 160, vActive := 768, vFront := 3,
      vSync := 6, vBack := 29, pllN := 130, pllP := 54, vTotalMax := 0 },
    { num := 0x88, flags := 0xF1, hActive := 1920, hFront := 48, hSync := 32, hBack := 80, vActive := 1200, vFront := 3,
      vSync := 6, vBack := 26, pllN := 154, pllP := 27, vTotalMax := 0 },
    { num := 0x89, flags := 0xF1, hActive := 2560, hFront := 48, hSync := 32, hBack := 80, vActive := 1440, vFront := 3,
      vSync := 5, vBack := 33, pllN := 161, pllP := 18, vTotalMax := 0 } ]

/-- The entry that a mode number names (08 R201). -/
def modeOf (h : Hub) (n : Nat) : Option ModeEntry :=
  if n < 64 then h.modes.find n else builtIn.find? fun e => e.num == n

/-- MODE_QUERY (08 R234). -/
def modeQuery : Spec :=
  { op := 0x0411, rsv := [(17, 7), (32, 32)]
    checks := fun c _ h => [bufCk c 24, ck 0x0404 16 (modeOf h (arg8 c 16)).isNone]
    run := fun c _ _ h =>
      match modeOf h (arg8 c 16) with
      | none => failRes h 0x0404 16
      | some e =>
        okRes (ctxWrite c.ctx (arg64 c 24)
          (modeImage e ++ leBytes 8 (pixelHz e) ++ leBytes 8 (framePeriod e) ++ leBytes 16 0) h) 64 }

/-! ### What an output makes of its mode -/

/-- The group kind under which an output is composed with others: clone or span, at its primary. -/
def composed (x : Output) : Bool := x.grp == 1 || x.grp == 2

/-- Members of the clone or span group whose primary is `o`, in member order; otherwise `o` alone. -/
def membersOf (h : Hub) (o : Nat) : List Nat :=
  let x := getOut h o
  if composed x && x.primary == o then x.members else [o]

/-- Is `o` a member of a clone or span group and not its primary (08 R225)? -/
def nonPrimary (h : Hub) (o : Nat) : Bool := composed (getOut h o) && (getOut h o).primary ≠ o

/-- The output whose layer list `o` shows: the primary of its clone or span group, or itself (04 R90). -/
def listOf (h : Hub) (o : Nat) : Nat := if nonPrimary h o then (getOut h o).primary else o

/-- Width of the logical picture of a primary (or lone output) under mode `e` (08 R210). -/
def logicalW (h : Hub) (o : Nat) (e : ModeEntry) : Nat :=
  if (getOut h o).grp = 2 then (membersOf h o).length * e.hActive else e.hActive

/-- Bands of a frame (04 R91). -/
def bandsOf (e : ModeEntry) (bh : Nat) : Nat := ceilDiv e.vActive bh

/-- Lines of band `b` (04 R91). -/
def bandLines (e : ModeEntry) (bh b : Nat) : Nat := min bh (e.vActive - bh * b)

/-- Tile columns (04 R91). -/
def tileCols (e : ModeEntry) : Nat := ceilDiv e.hActive 256

/-- Pixels of column `t` (04 R91). -/
def colWidth (e : ModeEntry) (t : Nat) : Nat := min 256 (e.hActive - 256 * t)

/-- Bytes of a pipe's four band-buffer slots (01 R13). -/
def bandBytes (e : ModeEntry) (bh : Nat) : Nat := 4 * (tileCols e * 256 * bh * 8)

/-- The row of MODE_QUERY. -/
def execModeQuery (c : Cmd) (s : State) : Host.Outcome State Fault Refusal := .next (mail modeQuery c s)

end Sys2Proof.Machine
end

