-- ==== Sys2Proof/Machine/Staging.lean ====
section
/-!
DEFINITION. Layer numbers, owners of layer lists, and the staging of records into open transactions (04 R80-R82, 07 R163, R164).
-/

namespace Sys2Proof.Machine

/-- The layer that a layer number names (04 R81). -/
def layerOf (h : Hub) (v : Nat) : Option Layer := if v ≥ 8192 then none else h.layers.find v

/-- Owner of the list of output `o` (04 R80). -/
def listOwner (h : Hub) (o : Nat) : Option Nat := (getOut h o).owner

/-- Does a context own the list of the layer's output? -/
def ownsLayer (h : Hub) (l : Layer) (c : Nat) : Bool := listOwner h l.out == some c

/-- The checks of a LAYER field (04 R80, R81); `query`: the integrator may also query.  DESIGN CHOICE (log 81): a number that names the
slot which a group's layer holds on another die (R90) answers 0x0404, as that of a free slot does. -/
def layerCks (h : Hub) (off v c : Nat) (query : Bool := false) : List Ck :=
  if v ≥ 8192 then [ck 0x0202 off true]
  else dieCk h off (v / 1024) ::
    (if !dieUp h (v / 1024) then []
     else match layerOf h v with
      | none => [ckd (v / 1024) 0x0404 off true]
      | some l => [ckd (v / 1024) 0x0302 off (!ownsLayer h l c && !(query && levelOf h c == 2))])

/-- Is the layer slot free (04 R90, R105)? -/
def layerSlotFree (h : Hub) (k : Nat) : Bool := !h.layers.has k && !h.layers.any fun e => e.2.peers.contains k

/-- The lowest free layer slot of a die. -/
def freeLayerSlot (h : Hub) (d : Nat) : Option Nat := firstNat (fun k => layerSlotFree h k) 1024 (d * 1024)

/-- Key of the transaction that a staged command's TXN field names. -/
def stagedKey (c : Cmd) : Nat := let v := c.txn.toNat; bits v 8 3 * 256 + bits v 0 8

/-- The transaction of a staged command. -/
def stagedTxn (h : Hub) (c : Cmd) : Option Txn := (txnOf h c.ctx c.txn.toNat).map Prod.snd

/-- Does a transaction stage a record of the layer (04 R82)? -/
def stagesLayer (t : Txn) (v : Nat) : Bool := t.layers.has v || t.fences.has v

/-- Does a transaction stage a record of the output? -/
def stagesOut (t : Txn) (o : Nat) : Bool := t.outs.has o

/-- Does a transaction stage a record of the die? -/
def stagesDie (t : Txn) (d : Nat) : Bool := t.spares.has d || t.floors.has d

/-- The open transaction for which `p` holds, with its key. -/
def txnWhere (h : Hub) (p : Txn → Bool) : Option (Nat × Txn) := h.txns.find? fun e => p e.2

/-- Another open transaction stages the layer (04 R82). -/
def layerConflict (h : Hub) (c : Cmd) (v : Nat) : Bool :=
  h.txns.any fun e => e.1 ≠ stagedKey c && stagesLayer e.2 v

/-- Another open transaction stages the same record of the output, the one for which `part` holds (05 R135, 09 R257; log 81 for the other
records). -/
def outConflict (h : Hub) (c : Cmd) (o : Nat) (part : OutStage → Bool) : Bool :=
  h.txns.any fun e => e.1 ≠ stagedKey c && match e.2.outs.find o with | none => false | some s => part s

/-- The output's colour record and its pending post-blend LUT, which one transaction at a time may stage (05 R135). -/
def OutStage.colourPart (s : OutStage) : Bool := s.colour.isSome || s.lut.isSome

/-- The output's dimming record, which one transaction at a time may stage (09 R257). -/
def OutStage.dimPart (s : OutStage) : Bool := s.dimLayout.isSome || s.dimAlgo.isSome || s.dimTabs.isSome

/-- Another open transaction stages the die's HOLD bits, or its floor step: the record that `part` takes (log 81). -/
def dieConflict (h : Hub) (c : Cmd) (d : Nat) (part : Txn → Tab Nat) : Bool :=
  h.txns.any fun e => e.1 ≠ stagedKey c && (part e.2).has d

/-- The layer record as a transaction has it: staged, or else committed. -/
def recIn (h : Hub) (t : Txn) (v : Nat) : LayerRec :=
  match t.layers.find v with
  | some r => r
  | none => match layerOf h v with | none => {} | some l => l.cur

/-- The layer record that a staged command changes. -/
def stagedRec (h : Hub) (c : Cmd) (v : Nat) : LayerRec :=
  match stagedTxn h c with
  | none => {}
  | some t => recIn h t v

/-- The hub with the staged command's transaction changed. -/
def updStaged (h : Hub) (c : Cmd) (f : Txn → Txn) : Hub := { h with txns := h.txns.upd (stagedKey c) f }

/-- A layer record is staged (04 R82). -/
def stageLayer (h : Hub) (c : Cmd) (v : Nat) (f : LayerRec → LayerRec) : Hub :=
  let r := f (stagedRec h c v)
  updStaged h c fun t => { t with layers := t.layers.set v r }

/-- The records of an output that a transaction stages. -/
def outIn (t : Txn) (o : Nat) : OutStage := t.outs.get o {}

/-- A record of an output is staged. -/
def stageOut (h : Hub) (c : Cmd) (o : Nat) (f : OutStage → OutStage) : Hub :=
  updStaged h c fun t => { t with outs := t.outs.set o (f (outIn t o)) }

/-- The checks of a staged command on a layer (04 R82, 07 R164). -/
def stageLayerCks (h : Hub) (c : Cmd) (off v : Nat) : List Ck :=
  layerCks h off v c.ctx ++ [ckd (v / 1024) 0x0407 off (layerConflict h c v)]

/-- The checks of a staged command on the output at offset `off` (08 R225): its number, its owner where `owner` holds, no other
member of a clone or span group than the primary, and no other transaction that stages the same record. -/
def stageOutCks (h : Hub) (c : Cmd) (owner : Bool) (part : OutStage → Bool) (off : Nat := 16) : List Ck :=
  let o := arg8 c off
  outCks h off o ++
  [ckd (o / 4) 0x0302 off (owner && o < 32 && listOwner h (listOf h o) ≠ some c.ctx),
   ckd (o / 4) 0x0403 off (nonPrimary h o),
   ckd (o / 4) 0x0407 off (outConflict h c o part)]

/-- The specification of a command that stages something and answers nothing. -/
def staging (op : Nat) (level : Nat) (locks : Bool) (rsv : List (Nat × Nat))
    (checks : Cmd → List Host.Cell → Hub → List Ck) (run : Cmd → Hub → Hub) : Spec :=
  { op := op, level := level, locks := locks, txn := .stage, rsv := rsv, checks := checks
    run := fun c _ _ h => okRes (run c h) }

/-! ### Objects that layer records select (05 R132-R137, 06 R153, R154) -/

/-- Does a record select coefficient bank `i` (05 R134)? -/
def selBank (i : Nat) (r : LayerRec) : Bool := r.hBank == i || r.vBank == i

/-- Does a record select pre-blend LUT slot `i`? -/
def selLut (i : Nat) (r : LayerRec) : Bool := r.preLut == i

/-- Does a record select program slot `i`? -/
def selProg (i : Nat) (r : LayerRec) : Bool := r.prog == i

/-- Committed records of layers of die `d` for which `p` holds. -/
def committedSel (h : Hub) (d : Nat) (p : LayerRec → Bool) : Nat := h.layers.countP fun e => e.1 / 1024 == d && p e.2.cur

/-- Staged records of layers of die `d` for which `p` holds. -/
def stagedSel (h : Hub) (d : Nat) (p : LayerRec → Bool) : Nat :=
  (h.txns.map fun e => e.2.layers.countP fun l => l.1 / 1024 == d && !e.2.doneLayers.contains l.1 && p l.2).sum

/-- Has the group of the output on whose list layer `v` stands a member on die `d`, other than the layer's own die? -/
def groupReaches (h : Hub) (v d : Nat) : Bool :=
  v / 1024 ≠ d && match h.layers.find v with | none => false | some l => (membersOf h l.out).any fun m => m / 4 == d

/-- Does a record, committed or still to apply, select an object: for a copy that the hub made on a die, a record of a layer whose group
has a member there (05 R136)? -/
def objSelected (h : Hub) (n k : Nat) (copyOf : Option Nat) (sel : Nat → LayerRec → Bool) : Bool :=
  match copyOf with
  | none => committedSel h (k / n) (sel (k % n)) > 0 || stagedSel h (k / n) (sel (k % n)) > 0
  | some j =>
    let reads (v : Nat) (r : LayerRec) : Bool := v / 1024 == j / n && sel (j % n) r && groupReaches h v (k / n)
    (h.layers.any fun e => reads e.1 e.2.cur) ||
      h.txns.any fun t => t.2.layers.any fun l => !t.2.doneLayers.contains l.1 && reads l.1 l.2

/-- Objects that only records kept are freed when the last record goes: those of ended owners, and the hub's own copies
(05 R136, R137; 06 R154). -/
def sweepObjects (h : Hub) : Hub :=
  { h with
    banks := h.banks.filter fun e => !(e.2.dead || e.2.copyOf.isSome) || objSelected h 16 e.1 e.2.copyOf selBank
    luts := h.luts.filter fun e => !(e.2.dead || e.2.copyOf.isSome) || objSelected h 128 e.1 e.2.copyOf selLut
    progs := h.progs.filter fun e => !(e.2.dead || e.2.copyOf.isSome) || objSelected h 256 e.1 e.2.copyOf selProg }

/-- A layer changed: every output of its list has changed (08 R220). -/
def markChanged (o : Nat) (h : Hub) : Hub :=
  (membersOf h o).foldl (fun h m => updOut h m fun x => { x with changed := true }) h

/-! ### Where a layer lies (04 R83, R84, R91) -/

/-- The output of a die whose bands and cache frame `o` uses: for a clone group, its first member on the die (08 R209). -/
def homePipe (h : Hub) (o : Nat) : Nat :=
  let x := getOut h o
  if x.grp = 1 then ((membersOf h x.primary).find? fun m => m / 4 == o / 4).getD o else o

/-- The clipped destination in a picture of W x H: first and last column and line (04 R84). -/
def clipTo (r : LayerRec) (w hh : Nat) : Option (Nat × Nat × Nat × Nat) :=
  let x0 := max r.dstX 0
  let y0 := max r.dstY 0
  let x1 := min (r.dstX + r.dstW) w - 1
  let y1 := min (r.dstY + r.dstH) hh - 1
  if x1 < x0 || y1 < y0 then none else some (x0.toNat, y0.toNat, x1.toNat, y1.toNat)

/-- The clipped destination in the picture of a primary (or lone output). -/
def clipOf (h : Hub) (r : LayerRec) (o : Nat) (e : ModeEntry) : Option (Nat × Nat × Nat × Nat) :=
  clipTo r (logicalW h o e) e.vActive

end Sys2Proof.Machine
end

