-- ==== Sys2Proof/Machine/Colour.lean ====
section
/-!
DEFINITION. Stage selections, LUTs, matrices and coefficient banks: the commands 0x0220-0x0229 (05 R132-R143).
-/

namespace Sys2Proof.Machine

/-- The bilinear filter of AUTO (05 R126). -/
def bilinear : List (List Int) :=
  (List.range 64).map fun (p : Nat) => [0, 0, 0, 4096 - 64 * (p : Int), 64 * (p : Int), 0, 0, 0]

/-- The identity curve of `n` entries with an interval of 2^k (05 R123, R139). -/
def identCurve (n k : Nat) : List Nat := (List.range n).map fun i => min (i * 2 ^ k) 0xFFFF

/-- The identity pre-blend LUT at DOMAIN 0 (05 R139). -/
def identPre : Lut := { domain := 0, red := identCurve 1025 4, green := identCurve 1025 4, blue := identCurve 1025 4 }

/-- The identity post-blend LUT at DOMAIN 0 (05 R143). -/
def identPost : Lut := { domain := 0, red := identCurve 4097 2, green := identCurve 4097 2, blue := identCurve 4097 2 }

/-- The lowest free index of a table of `n` objects a die. -/
def freeIndex (has : Nat → Bool) (n d : Nat) : Option Nat := firstNat (fun k => !has k) n (d * n)

/-- Is there room for one more object on die `d` for share group `g`: a free index, and below the group's limit (05 R132)? -/
def bankRoom (h : Hub) (d g : Nat) : Bool :=
  (freeIndex h.banks.has 16 d).isSome && decide (h.banks.countP (fun e => e.1 / 16 == d && e.2.group == g) < 8)

/-- As `bankRoom`, for LUT slots. -/
def lutRoom (h : Hub) (d g : Nat) : Bool :=
  (freeIndex h.luts.has 128 d).isSome && decide (h.luts.countP (fun e => e.1 / 128 == d && e.2.group == g) < 64)

/-- COLOUR_ALLOC (05 R139). -/
def colourAlloc : Spec :=
  { op := 0x0220, rsv := [(18, 46)]
    checks := fun c _ h =>
      let k := arg8 c 16
      let d := arg8 c 17
      let g := (getCtx h c.ctx).group
      [ck 0x0106 16 (k ≠ 1 && k ≠ 2), dieCk h 17 d,
       ckd d 0x0607 255 (k = 1 && !bankRoom h d g), ckd d 0x060B 255 (k = 2 && !lutRoom h d g)]
    run := fun c _ _ h =>
      let d := arg8 c 17
      let g := (getCtx h c.ctx).group
      if arg8 c 16 = 1 then
        match freeIndex h.banks.has 16 d with
        | none => failRes h 0x0607 255
        | some k =>
          let b : Bank := { owner := c.ctx, group := g, horiz := bilinear, vert := bilinear }
          okRes { h with banks := h.banks.set k b } (k % 16)
      else
        match freeIndex h.luts.has 128 d with
        | none => failRes h 0x060B 255
        | some k =>
          let l : LutSlot := { owner := c.ctx, group := g, lut := identPre }
          okRes { h with luts := h.luts.set k l } (k % 128) }

/-- The checks of an object named by a die and an index: `own` is its owner unless it has ended (05 R139, R134). -/
def objCks (h : Hub) (ctx doff ioff d i n : Nat) (present : Bool) (own : Option Nat) : List Ck :=
  [dieCk h doff d, ck 0x0202 ioff (i ≥ n), ckd d 0x0404 ioff (d < 8 && dieUp h d && i < n && !present),
   ckd d 0x0302 ioff (present && own ≠ some ctx)]

/-- The owner of bank `k`; none for a copy of the hub's (DESIGN CHOICE, log 81) and once the owner has ended. -/
def bankOwner (h : Hub) (k : Nat) : Option Nat :=
  match h.banks.find k with | none => none | some b => if b.dead || b.copyOf.isSome then none else some b.owner

/-- The owner of LUT slot `k`. -/
def lutOwner (h : Hub) (k : Nat) : Option Nat :=
  match h.luts.find k with | none => none | some b => if b.dead || b.copyOf.isSome then none else some b.owner

/-- The checks of KIND, DIE and INDEX at `o` (05 R139, R140) with those of use (05 R134). -/
def colourObjCks (h : Hub) (c : Cmd) (o : Nat) : List Ck :=
  let k := arg8 c o
  let d := arg8 c (o + 1)
  let i := arg8 c (o + 2)
  ck 0x0106 o (k ≠ 1 && k ≠ 2) ::
  (if k = 1 then
    objCks h c.ctx (o + 1) (o + 2) d i 16 (h.banks.has (d * 16 + i)) (bankOwner h (d * 16 + i)) ++
    [ckd d 0x0403 (o + 2) (committedSel h d (selBank i) > 0), ckd d 0x0407 (o + 2) (stagedSel h d (selBank i) > 0)]
   else if k = 2 then
    objCks h c.ctx (o + 1) (o + 2) d i 128 (h.luts.has (d * 128 + i)) (lutOwner h (d * 128 + i)) ++
    [ckd d 0x0403 (o + 2) (committedSel h d (selLut i) > 0), ckd d 0x0407 (o + 2) (stagedSel h d (selLut i) > 0)]
   else [dieCk h (o + 1) d])

/-- COLOUR_FREE (05 R139). -/
def colourFree : Spec :=
  { op := 0x0222, rsv := [(19, 45)]
    checks := fun c _ h => colourObjCks h c 16
    run := fun c _ _ h =>
      let d := arg8 c 17
      let i := arg8 c 18
      if arg8 c 16 = 1 then okRes { h with banks := h.banks.del (d * 16 + i) }
      else okRes { h with luts := h.luts.del (d * 128 + i) } }

/-- A coefficient word (05 R127, R140). -/
def coefOf (w : Nat) : Int := signed 14 w

/-- The two passes of bank checks (05 R127): the form of every word, and, when every word is sound, the sums of the phases. -/
def bankCks (c : Cmd) : List Ck :=
  let ws := blkWords c 0 1024
  let one (i : Nat) (bad : Bool) : Ck := { st := 0x0201, off := blkOff i, bad := bad, r0 := i }
  match ws.findIdx? fun w => signed 16 w ≠ signed 14 w with
  | some i => [one (2 * i) true]
  | none =>
    match (List.range 128).find? fun p => (((ws.drop (8 * p)).take 8).map coefOf).sum ≠ 4096 with
    | some p => [one (16 * p) true]
    | none => []

/-- The checks of a LUT block (05 R140, R143): DOMAIN and its reserved bytes. -/
def lutCks (c : Cmd) : List Ck := [ck 0x0106 64 (blk8 c 0 > 1), rsvCk c 1 15]

/-- `n` phases of 8 taps from byte `i` of the block. -/
def phases (c : Cmd) (i : Nat) : List (List Int) :=
  (List.range 64).map fun p => (blkWords c (i + 16 * p) 8).map coefOf

/-- The LUT of a block whose tables have `n` entries. -/
def lutOf (c : Cmd) (n : Nat) : Lut :=
  { domain := blk8 c 0, red := blkWords c 16 n, green := blkWords c (16 + 2 * n) n, blue := blkWords c (16 + 4 * n) n }

/-- COLOUR_LOAD (05 R127, R140). -/
def colourLoad : Spec :=
  { op := 0x0221, block := some fun n => n == 2048 || n == 6166, rsv := [(35, 29)]
    checks := fun c _ h =>
      let k := arg8 c 32
      [ck 0x0107 24 ((k = 1 && arg32 c 24 ≠ 2048) || (k = 2 && arg32 c 24 ≠ 6166))] ++ colourObjCks h c 32 ++
      (if k = 1 then bankCks c else if k = 2 then lutCks c else [])
    run := fun c _ _ h =>
      let d := arg8 c 33
      let i := arg8 c 34
      if arg8 c 32 = 1 then
        okRes { h with banks := h.banks.upd (d * 16 + i) fun b => { b with horiz := phases c 0, vert := phases c 1024 } }
      else okRes { h with luts := h.luts.upd (d * 128 + i) fun l => { l with lut := lutOf c 1025 } } }

/-- The checks of a field that selects an object of the layer's die, `none` being its value for no selection (05 R134, R141). -/
def selectCks (ctx off v none n : Nat) (present : Bool) (own : Option Nat) : List Ck :=
  if v = none then []
  else [ck 0x0202 off (v ≥ n), ck 0x0404 off (v < n && !present), ck 0x0302 off (v < n && present && own ≠ some ctx)]

/-- LAYER_COLOUR (05 R141). -/
def layerColour : Spec :=
  staging 0x0224 0 false [(24, 40)]
    (fun c _ h =>
      let v := arg16 c 16
      let d := v / 1024
      let csc := arg8 c 18
      let bank (off : Nat) : List Ck :=
        let b := arg8 c off
        selectCks c.ctx off b 0xFF 16 (h.banks.has (d * 16 + b)) (bankOwner h (d * 16 + b))
      stageLayerCks h c 16 v ++
      [ck 0x0106 18 (csc > 3 && csc ≠ 0x80), ck 0x0103 19 (arg8 c 19 ≥ 8), ck 0x0103 21 (arg8 c 21 ≥ 2)] ++
      selectCks c.ctx 20 (arg8 c 20) 0xFF 128 (h.luts.has (d * 128 + arg8 c 20)) (lutOwner h (d * 128 + arg8 c 20)) ++
      bank 22 ++ bank 23)
    fun c h =>
      stageLayer h c (arg16 c 16) fun r =>
        { r with csc := arg8 c 18, chroma := arg8 c 19, preLut := arg8 c 20, scaler := arg8 c 21
                 hBank := arg8 c 22, vBank := arg8 c 23 }

/-- The matrix in a command's COEF and OFF fields (05 R121, R142). -/
def matOf (c : Cmd) : Mat :=
  { c := (List.range 9).map fun i => argI16 c (20 + 2 * i), off := (List.range 3).map fun i => argI32 c (40 + 4 * i) }

/-- The check of a matrix's offsets: within their limits (05 R121), and 0 where `zero`; the first that is not is reported. -/
def offCk (zero : Bool) (m : Mat) : Ck :=
  let i := m.off.findIdx? fun v => v < -65536 || v > 65535 || (zero && v ≠ 0)
  ck 0x0201 (40 + 4 * i.getD 0) i.isSome

/-- LAYER_MATRIX (05 R142). -/
def layerMatrix : Spec :=
  staging 0x0225 0 false [(19, 1), (38, 2), (52, 12)]
    (fun c _ h =>
      let w := arg8 c 18
      stageLayerCks h c 16 (arg16 c 16) ++
      [ck 0x0106 18 (w = 0 || w > 3), ck 0x0103 20 (w = 3 && argN c 20 18 ≠ 0), ck 0x0103 40 (w = 3 && argN c 40 12 ≠ 0),
       if w = 1 || w = 2 then offCk (w = 2) (matOf c) else ck 0x0201 40 false])
    fun c h =>
      stageLayer h c (arg16 c 16) fun r =>
        match arg8 c 18 with
        | 1 => { r with ycc := matOf c }
        | 2 => { r with gamut := some (matOf c) }
        | _ => { r with gamut := none }

/-- OUTPUT_COLOUR (05 R143). -/
def outputColour : Spec :=
  staging 0x0228 0 false [(18, 2), (38, 2), (52, 12)]
    (fun c _ h =>
      let f := arg8 c 17
      stageOutCks h c true OutStage.colourPart ++
      [ck 0x0103 17 (f ≥ 16), ck 0x0106 17 (bits f 2 2 = 3), offCk false (matOf c)])
    fun c h => stageOut h c (arg8 c 16) fun x => { x with colour := some { flags := arg8 c 17, mat := matOf c } }

/-- OUTPUT_LUT (05 R143). -/
def outputLut : Spec :=
  { op := 0x0229, txn := .stage, block := some fun n => n == 24598, rsv := [(33, 31)]
    checks := fun c _ h => stageOutCks h c true OutStage.colourPart 32 ++ lutCks c
    run := fun c _ _ h => okRes (stageOut h c (arg8 c 32) fun x => { x with lut := some (lutOf c 4097) }) }

/-! ### The rows -/

/-- COLOUR_ALLOC. -/
def execColourAlloc (c : Cmd) (s : State) : Host.Outcome State Fault Refusal := .next (mail colourAlloc c s)
/-- COLOUR_LOAD. -/
def execColourLoad (c : Cmd) (s : State) : Host.Outcome State Fault Refusal := .next (mail colourLoad c s)
/-- COLOUR_FREE. -/
def execColourFree (c : Cmd) (s : State) : Host.Outcome State Fault Refusal := .next (mail colourFree c s)
/-- LAYER_COLOUR. -/
def execLayerColour (c : Cmd) (s : State) : Host.Outcome State Fault Refusal := .next (mail layerColour c s)
/-- LAYER_MATRIX. -/
def execLayerMatrix (c : Cmd) (s : State) : Host.Outcome State Fault Refusal := .next (mail layerMatrix c s)
/-- OUTPUT_COLOUR. -/
def execOutputColour (c : Cmd) (s : State) : Host.Outcome State Fault Refusal := .next (mail outputColour c s)
/-- OUTPUT_LUT. -/
def execOutputLut (c : Cmd) (s : State) : Host.Outcome State Fault Refusal := .next (mail outputLut c s)

end Sys2Proof.Machine
end

