-- ==== Sys2Proof/Machine/Programs.lean ====
section
/-!
DEFINITION. Pixel programs: the micro-ops (06 R147-R149), and the commands 0x0240-0x0246 (06 R153-R160).
-/

namespace Sys2Proof.Machine

/-! ### Micro-op words (06 R148, R149) -/

/-- OP of a word. -/
def uOp (w : BitVec 32) : Nat := bits w.toNat 0 5
/-- D of a word. -/
def uD (w : BitVec 32) : Nat := bits w.toNat 5 5
/-- A of a word. -/
def uA (w : BitVec 32) : Nat := bits w.toNat 10 5
/-- B of a word. -/
def uB (w : BitVec 32) : Nat := bits w.toNat 15 5
/-- C of a word. -/
def uC (w : BitVec 32) : Nat := bits w.toNat 20 5
/-- WMASK of a word. -/
def uMask (w : BitVec 32) : Nat := bits w.toNat 28 4

/-- Is B a source register of the operation (06 R149)? -/
def bIsReg (op : Nat) : Bool :=
  (1 ≤ op && op ≤ 0x0B) || (0x0F ≤ op && op ≤ 0x11) || (0x14 ≤ op && op ≤ 0x16)

/-- Is C a source register of the operation? -/
def cIsReg (op : Nat) : Bool := (5 ≤ op && op ≤ 7) || op == 0x16

/-- Is B an immediate? -/
def bIsImm (op : Nat) : Bool := op == 0x12 || op == 0x13 || op == 0x17

/-- Does a word read register V3, the frame counter (08 R220)? -/
def readsV3 (w : BitVec 32) : Bool :=
  uA w == 3 || (bIsReg (uOp w) && uB w == 3) || (cIsReg (uOp w) && uC w == 3)

/-- The registers that a program may write (06 R147). -/
def writable (r : Nat) : Bool := r == 0 || (4 ≤ r && r ≤ 23)

/-- The checks of word `i` of a program of `len` words (06 R150).  DESIGN CHOICE (log 81): of two malformed failures of one word 0x0103 is
reported, as the order of 02 R38 within a class has it in the other commands. -/
def wordCks (len i : Nat) (w : BitVec 32) : List Ck :=
  let k (st : Nat) (bad : Bool) : Ck := { st := st, off := blkOff (16 + 4 * i), bad := bad, r0 := i }
  let op := uOp w
  if i ≥ len then [k 0x0103 (w ≠ 0)]
  else
    [k 0x0103 (bits w.toNat 25 3 ≠ 0 || (op < 0x18 && !bIsReg op && !bIsImm op && uB w ≠ 0) ||
        (op < 0x18 && !cIsReg op && op ≠ 0x17 && uC w ≠ 0) || (op = 0x17 && (uB w ≥ 16 || uC w ≥ 16))),
     k 0x0106 (op ≥ 0x18 || uMask w = 0),
     k 0x0201 (!writable (uD w) || ((op = 0x12 || op = 0x13) && uB w > 15))]

/-! ### Commands -/

/-- Is there room for a program slot (06 R153)? -/
def progRoom (h : Hub) (d g : Nat) : Bool :=
  (freeIndex h.progs.has 256 d).isSome && decide (h.progs.countP (fun e => e.1 / 256 == d && e.2.group == g) < 128)

/-- The owner of program slot `k`.  DESIGN CHOICE (log 81): a slot that holds the hub's own group copy has none. -/
def progOwner (h : Hub) (k : Nat) : Option Nat :=
  match h.progs.find k with | none => none | some b => if b.dead || b.copyOf.isSome then none else some b.owner

/-- PROG_ALLOC (06 R156). -/
def progAlloc : Spec :=
  { op := 0x0240, rsv := [(17, 47)]
    checks := fun c _ h =>
      [dieCk h 16 (arg8 c 16), ckd (arg8 c 16) 0x0606 255 (!progRoom h (arg8 c 16) (getCtx h c.ctx).group)]
    run := fun c _ _ h =>
      match freeIndex h.progs.has 256 (arg8 c 16) with
      | none => failRes h 0x0606 255
      | some k =>
        let p : Prog := { owner := c.ctx, group := (getCtx h c.ctx).group, words := [0xF0000000] }
        okRes { h with progs := h.progs.set k p } (k % 256) }

/-- The checks of a program named by DIE and INDEX at `o`. -/
def progCks (h : Hub) (c : Cmd) (o : Nat) : List Ck :=
  let d := arg8 c o
  let i := arg8 c (o + 1)
  objCks h c.ctx o (o + 1) d i 256 (h.progs.has (d * 256 + i)) (progOwner h (d * 256 + i))

/-- The checks of use of a program slot (05 R134, 06 R154).  DESIGN CHOICE (log 81): of a slot in use that is staged too, use is reported. -/
def progUseCks (h : Hub) (c : Cmd) (o : Nat) : List Ck :=
  let d := arg8 c o
  let i := arg8 c (o + 1)
  [ckd d 0x0403 (o + 1) (committedSel h d (selProg i) > 0), ckd d 0x0407 (o + 1) (stagedSel h d (selProg i) > 0)]

/-- Word `i` of the block of PROG_LOAD. -/
def progWord (c : Cmd) (i : Nat) : BitVec 32 := BitVec.ofNat 32 (blkN c (16 + 4 * i) 4)

/-- PROG_LOAD (06 R150, R157). -/
def progLoad : Spec :=
  { op := 0x0241, block := some (· == 272), rsv := [(34, 30)]
    checks := fun c _ h =>
      let len := blk8 c 0
      progCks h c 32 ++ progUseCks h c 32 ++
      [rsvCk c 1 15, ck 0x0201 64 (len = 0 || len > 64)] ++
      (List.range 64).flatMap fun i => wordCks len i (progWord c i)
    run := fun c _ _ h =>
      let ws := (List.range (blk8 c 0)).map (progWord c)
      okRes { h with progs := h.progs.upd (arg8 c 32 * 256 + arg8 c 33) fun p => { p with words := ws } } }

/-- PROG_FREE (06 R156). -/
def progFree : Spec :=
  { op := 0x0242, rsv := [(18, 46)]
    checks := fun c _ h => progCks h c 16 ++ progUseCks h c 16
    run := fun c _ _ h => okRes { h with progs := h.progs.del (arg8 c 16 * 256 + arg8 c 17) } }

/-- LAYER_PROGRAM (06 R158). -/
def layerProgram : Spec :=
  staging 0x0244 0 false [(20, 44)]
    (fun c _ h =>
      let v := arg16 c 16
      let k := v / 1024 * 256 + arg16 c 18
      stageLayerCks h c 16 v ++ selectCks c.ctx 18 (arg16 c 18) 0xFFFF 256 (h.progs.has k) (progOwner h k))
    fun c h => stageLayer h c (arg16 c 16) fun r => { r with prog := arg16 c 18 }

/-- LAYER_PARAMS (06 R159). -/
def layerParams : Spec :=
  staging 0x0245 0 false [(19, 5), (56, 8)]
    (fun c _ h =>
      stageLayerCks h c 16 (arg16 c 16) ++ [ck 0x0201 18 (arg8 c 18 ≠ 0 && arg8 c 18 ≠ 4)])
    fun c h =>
      let ks := (List.range 4).map fun i => arg64 c (24 + 8 * i)
      stageLayer h c (arg16 c 16) fun r =>
        { r with ks := if arg8 c 18 = 0 then ks ++ r.ks.drop 4 else r.ks.take 4 ++ ks }

/-- PROG_QUERY (06 R160). -/
def progQuery : Spec :=
  { op := 0x0246, rsv := [(18, 46)]
    checks := fun c _ h => progCks h c 16
    run := fun c _ _ h =>
      let d := arg8 c 16
      let i := arg8 c 17
      match h.progs.find (d * 256 + i) with
      | none => failRes h 0x0404 17
      | some p => okRes h p.words.length (committedSel h d (selProg i) + 2 ^ 32 * stagedSel h d (selProg i)) }

/-! ### The rows -/

/-- PROG_ALLOC. -/
def execProgAlloc (c : Cmd) (s : State) : Host.Outcome State Fault Refusal := .next (mail progAlloc c s)
/-- PROG_LOAD. -/
def execProgLoad (c : Cmd) (s : State) : Host.Outcome State Fault Refusal := .next (mail progLoad c s)
/-- PROG_FREE. -/
def execProgFree (c : Cmd) (s : State) : Host.Outcome State Fault Refusal := .next (mail progFree c s)
/-- LAYER_PROGRAM. -/
def execLayerProgram (c : Cmd) (s : State) : Host.Outcome State Fault Refusal := .next (mail layerProgram c s)
/-- LAYER_PARAMS. -/
def execLayerParams (c : Cmd) (s : State) : Host.Outcome State Fault Refusal := .next (mail layerParams c s)
/-- PROG_QUERY. -/
def execProgQuery (c : Cmd) (s : State) : Host.Outcome State Fault Refusal := .next (mail progQuery c s)

end Sys2Proof.Machine
end

