-- ==== Sys2Proof/Machine/Pixel.lean ====
section
/-!
DEFINITION. The arithmetic of the layer stages and of the output stages, to the bit (05 R115-R131, 06 R145-R149), with the
reading of surfaces in every format (03 R54, R57-R62) and the conversions of the hub's writers (08 R217).
-/

namespace Sys2Proof.Machine

/-! ### The working format (05 R115, R116) -/

/-- Saturation at the top of U2.14. -/
def sat16 (v : Nat) : Nat := min v 0xFFFF

/-- Saturation at both ends. -/
def clampU (v : Int) : Nat := (min (max v 0) 0xFFFF).toNat

/-- The product of two U2.14 values (05 R116). -/
def mulU (a b : Nat) : Nat := sat16 ((a * b + 0x2000) / 2 ^ 14)

/-- A pixel with one function on every channel. -/
def Px.map (f : Nat → Nat) (p : Px) : Px := { b := f p.b, g := f p.g, r := f p.r, a := f p.a }

/-- A pixel with a function on the colour channels. -/
def Px.rgb (f : Nat → Nat) (p : Px) : Px := { p with b := f p.b, g := f p.g, r := f p.r }

/-- Two pixels channel by channel. -/
def Px.zip (f : Nat → Nat → Nat) (p q : Px) : Px := { b := f p.b q.b, g := f p.g q.g, r := f p.r q.r, a := f p.a q.a }

/-- The pixel of a 64-bit colour field (04 R108). -/
def pxOf (v : Nat) : Px := { b := bits v 0 16, g := bits v 16 16, r := bits v 32 16, a := bits v 48 16 }

/-- The 64-bit field of a pixel. -/
def pxWord (p : Px) : Nat := p.b + 65536 * (p.g + 65536 * (p.r + 65536 * p.a))

/-! ### Unpack (05 R117, R118) -/

/-- An `n`-bit integer field as U2.14 (05 R117). -/
def unpackInt (n v : Nat) : Nat := let m := 2 ^ n - 1; (v * 32768 + m) / (2 * m)

/-- A binary16 field as U2.14 (05 R117). -/
def unpackHalf (f : Nat) : Nat :=
  let e := bits f 10 5
  let m := bits f 0 10
  if bit f 15 then 0
  else if e = 31 then (if m = 0 then 0xFFFF else 0)
  else if e = 0 then (m + 512) / 1024
  else if e ≥ 11 then sat16 ((1024 + m) * 2 ^ (e - 11))
  else (1024 + m + 2 ^ (10 - e)) / 2 ^ (11 - e)

/-- The layout of a pixel word: the format code without its crated bit. -/
def baseCode (code : Nat) : Nat := code % 256

/-- The pixel of a word of an RGB or A_8 format, after the clamp of alpha; `const` is the layer's constant colour
(05 R117, R118). -/
def unpackWord (code w : Nat) (const : Px) : Px :=
  let u8 (lo : Nat) : Nat := unpackInt 8 (bits w lo 8)
  let u10 (lo : Nat) : Nat := unpackInt 10 (bits w lo 10)
  match baseCode code with
  | 0x02 => { b := u8 0, g := u8 8, r := u8 16, a := 0x4000 }
  | 0x03 => { b := u8 16, g := u8 8, r := u8 0, a := u8 24 }
  | 0x04 => { b := u10 0, g := u10 10, r := u10 20, a := unpackInt 2 (bits w 30 2) }
  | 0x05 => { b := u10 20, g := u10 10, r := u10 0, a := unpackInt 2 (bits w 30 2) }
  | 0x06 => { b := unpackInt 5 (bits w 0 5), g := unpackInt 6 (bits w 5 6), r := unpackInt 5 (bits w 11 5), a := 0x4000 }
  | 0x07 => { b := unpackHalf (bits w 16 16), g := unpackHalf (bits w 32 16), r := unpackHalf (bits w 48 16),
              a := min (unpackHalf (bits w 0 16)) 0x4000 }
  | 0x08 => let a := unpackInt 8 (bits w 0 8); { b := mulU const.b a, g := mulU const.g a, r := mulU const.r a, a := a }
  | _ => { b := u8 0, g := u8 8, r := u8 16, a := u8 24 }

/-! ### Crates (03 R57-R62) -/

/-- A decoded crate: its mode (0 CONST, 1 PALETTE, 2 RAW), colour, and first granule of plane 1. -/
structure Crate where
  mode : Nat
  colour : Nat
  gran : Nat

/-- GCOUNT that a mode requires (03 R59). -/
def crateCount (code mode : Nat) : Nat := if mode = 1 then 2 else if mode = 2 then gRaw code else 0

/-- The walk of a crate row from column `c` on (03 R62): the good crates, and the cause and column of the first failure. -/
def crateWalk (m : List Host.Cell) (h : Hub) (s : Surf) (row eff start : Nat) :
    Nat → Nat → Nat → Option Crate → List Crate × Option (Nat × Nat)
  | 0, _, _, _ => ([], none)
  | n + 1, c, used, prev =>
    let hd := planeNat m h s 0 (row * (s.planes.getD 0 (0, 0)).2 + 16 + 8 * c) 8
    let mode := bits hd 0 2
    let cnt := bits hd 8 5
    let col := bits hd 32 32
    let bpp := (fmtD s.fmt).bpp
    if bits hd 2 6 ≠ 0 || bits hd 13 19 ≠ 0 || (if mode = 0 then col ≥ 2 ^ (8 * bpp) else col ≠ 0) then ([], some (3, c))
    else if mode = 3 && c = 0 then ([], some (5, c))
    else if cnt ≠ crateCount s.fmt mode then ([], some (4, c))
    else if cnt > 0 && start + used + cnt > (s.planes.getD 1 (0, 0)).2 then ([], some (2, c))
    else if used + cnt > eff then ([], some (1, c))
    else
      let k : Crate := if mode = 3 then prev.getD { mode := 0, colour := 0, gran := 0 }
        else { mode := mode, colour := col, gran := start + used }
      let r := crateWalk m h s row eff start n (c + 1) (used + cnt) (some k)
      (k :: r.1, r.2)

/-- A crate row (03 R58, R61, R62). -/
def crateRow (m : List Host.Cell) (h : Hub) (s : Surf) (row : Nat) : List Crate × Option (Nat × Nat) :=
  let o := row * (s.planes.getD 0 (0, 0)).2
  if planeNat m h s 0 (o + 8) 8 ≠ 0 then ([], some (3, 0))
  else
    crateWalk m h s row (min s.budget (planeNat m h s 0 (o + 4) 2)) (planeNat m h s 0 o 4) (crateCols s.width) 0 0 none

/-- The pixel word at (x, y) of a crate (03 R60). -/
def crateWord (m : List Host.Cell) (h : Hub) (s : Surf) (k : Crate) (x y : Nat) : Nat :=
  let bpp := (fmtD s.fmt).bpp
  match k.mode with
  | 0 => k.colour
  | 1 =>
    let ix := bits (planeNat m h s 1 (64 * (k.gran + 1) + 16 * y + x / 4) 1) (2 * (x % 4)) 2
    planeNat m h s 1 (64 * k.gran + 4 * ix) 4 % 2 ^ (8 * bpp)
  | _ => planeNat m h s 1 (64 * k.gran + (64 * y + x) * bpp) bpp

/-- The crate rows of a surface that a range of lines touches. -/
def crateRowsOf (m : List Host.Cell) (h : Hub) (s : Surf) (y0 n : Nat) : Tab (List Crate × Option (Nat × Nat)) :=
  if !(fmtD s.fmt).crated || n = 0 then []
  else (List.range ((y0 + n - 1) / 4 - y0 / 4 + 1)).map fun i => (y0 / 4 + i, crateRow m h s (y0 / 4 + i))

/-- Does the walk show crate (c, n) in fill colour (03 R62)? -/
def crateFails (rows : Tab (List Crate × Option (Nat × Nat))) (row col : Nat) : Bool :=
  match rows.find row with
  | none => false
  | some r => decide (col ≥ r.1.length)

/-- The pixel word at (x, y) of plane 0 of a surface; 0 in a failing crate. -/
def pixelWord (m : List Host.Cell) (h : Hub) (s : Surf) (rows : Tab (List Crate × Option (Nat × Nat))) (x y : Nat) : Nat :=
  let f := fmtD s.fmt
  if f.crated then
    match (rows.get (y / 4) ([], none)).1[x / 64]? with
    | none => 0
    | some k => crateWord m h s k (x % 64) (y % 4)
  else planeNat m h s 0 (y * (s.planes.getD 0 (0, 0)).2 + x * f.bpp) f.bpp

/-! ### Chroma (05 R118-R120) -/

/-- One step of chroma upsampling along an axis of `n` samples: position `k`, replicate, centred siting, and the samples
(05 R119). -/
def upsample (rep centred : Bool) (n : Nat) (c : Nat → Nat) (k : Nat) : Nat :=
  let at' (i : Int) : Nat := c (min (max i 0) ((n : Int) - 1)).toNat
  let j : Int := (k / 2 : Nat)
  if rep then at' j
  else if centred then
    if k % 2 = 0 then (3 * at' j + at' (j - 1) + 2) / 4 else (3 * at' j + at' (j + 1) + 2) / 4
  else if k % 2 = 0 then at' j else (at' j + at' (j + 1) + 1) / 2

/-- Bits of a field of a YCbCr format. -/
def yccDepth (code : Nat) : Nat := if code = 0x0013 || code = 0x0014 then 10 else 8

/-- The stored chroma value at chroma position (x, y) as U2.14: `cr` selects Cr, otherwise Cb (03 R54, 05 R117). -/
def chromaAt (m : List Host.Cell) (h : Hub) (s : Surf) (cr : Bool) (x y : Nat) : Nat :=
  let pitch (p : Nat) : Nat := (s.planes.getD p (0, 0)).2
  match s.fmt with
  | 0x0015 => let p := if cr then 2 else 1; unpackInt 8 (planeNat m h s p (y * pitch p + x) 1)
  | 0x0013 | 0x0014 =>
    let w := planeNat m h s 1 (y * pitch 1 + 4 * x) 4
    unpackInt 10 (if cr then bits w 22 10 else bits w 6 10)
  | f =>
    let w := planeNat m h s 1 (y * pitch 1 + 2 * x) 2
    unpackInt 8 (if cr == (f != 0x0011) then bits w 8 8 else bits w 0 8)

/-- The luma value at (x, y) as U2.14. -/
def lumaAt (m : List Host.Cell) (h : Hub) (s : Surf) (x y : Nat) : Nat :=
  let pitch := (s.planes.getD 0 (0, 0)).2
  if yccDepth s.fmt = 10 then unpackInt 10 (bits (planeNat m h s 0 (y * pitch + 2 * x) 2) 6 10)
  else unpackInt 8 (planeNat m h s 0 (y * pitch + x) 1)

/-- The upsampled chroma at crop position (a, b) (05 R119). -/
def chromaUp (m : List Host.Cell) (h : Hub) (s : Surf) (r : LayerRec) (cr : Bool) (a b : Nat) : Nat :=
  let f := fmtD s.fmt
  let rep := bit r.chroma 0
  let x0 := r.cropX / f.sx
  let y0 := r.cropY / f.sy
  let col (i : Nat) : Nat :=
    if f.sy = 1 then chromaAt m h s cr (x0 + i) (y0 + b)
    else upsample rep (!bit r.chroma 2) (r.cropH / 2) (fun j => chromaAt m h s cr (x0 + i) (y0 + j)) b
  if f.sx = 1 then col a else upsample rep (bit r.chroma 1) (r.cropW / 2) col a

/-! ### Matrices and LUTs (05 R121-R123) -/

/-- A pixel through a matrix (05 R121). -/
def matPx (t : Mat) (p : Px) : Px :=
  let one (i : Nat) : Nat :=
    let acc := t.c.getD (3 * i) 0 * p.r + t.c.getD (3 * i + 1) 0 * p.g + t.c.getD (3 * i + 2) 0 * p.b
    clampU ((acc + 2048) / 4096 + t.off.getD i 0)
  { p with r := one 0, g := one 1, b := one 2 }

/-- A fraction rounded to nearest, ties away from zero. -/
def roundAway (n : Int) (d : Nat) : Int :=
  let q : Int := ((2 * n.natAbs + d) / (2 * d) : Nat)
  if n < 0 then -q else q

/-- The built-in YCbCr matrix of a CSC code for a source depth (05 R122).  Y lies in green, Cb in blue, Cr in red. -/
def builtInMat (csc n : Nat) : Mat :=
  let kr : Int := if csc < 2 then 2126 else 2627
  let kb : Int := if csc < 2 then 722 else 593
  let kg : Int := 10000 - kr - kb
  let m : Nat := 2 ^ n - 1
  let sc : Nat := 2 ^ (n - 8)
  let lim := csc % 2 == 0
  let yb : Nat := if lim then 16 * sc else 0
  let yr : Nat := if lim then 219 * sc else m
  let cz : Nat := if lim then 128 * sc else 2 ^ (n - 1)
  let cs : Nat := if lim then 224 * sc else m
  let den : Nat := 10000 * kg.toNat
  let w (v : Int) : Int := roundAway (v * m * 4096) (den * cs)
  let a := roundAway (m * 4096) yr
  let crR := 2 * (10000 - kr) * kg
  let cbB := 2 * (10000 - kb) * kg
  let crG := -2 * (10000 - kr) * kr
  let cbG := -2 * (10000 - kb) * kb
  let off (v : Int) : Int := roundAway (-((yb * den * cs : Nat) + v * cz * yr) * 16384) (yr * den * cs)
  { c := [w crR, a, 0, w crG, a, w cbG, 0, a, w cbB], off := [off crR, off (crG + cbG), off cbB] }

/-- One channel through a LUT table of `n` entries with an interval of 2^k (05 R123). -/
def lutVal (t : List Nat) (n k x : Nat) : Nat :=
  let i := x / 2 ^ k
  if i ≥ n - 1 then t.getD (n - 1) 0
  else
    let e0 : Int := t.getD i 0
    let e1 : Int := t.getD (i + 1) 0
    (e0 + ((e1 - e0) * (x % 2 ^ k : Nat) + 2 ^ (k - 1)) / (2 ^ k : Nat)).toNat

/-- A pixel through a LUT of `n` entries; `k0` is the interval of DOMAIN 0 (05 R123). -/
def lutPx (l : Lut) (n k0 : Nat) (p : Px) : Px :=
  let k := if l.domain = 0 then k0 else k0 + 2
  { p with r := lutVal l.red n k p.r, g := lutVal l.green n k p.g, b := lutVal l.blue n k p.b }

/-! ### The scaler (05 R124-R126) -/

/-- Pre-decimation factor of an axis (05 R124). -/
def preDec (s d : Nat) : Nat := if 2 * d ≥ s then 1 else if 4 * d ≥ s then 2 else 4

/-- s' of an axis. -/
def axisLen (s d : Nat) : Nat := ceilDiv s (preDec s d)

/-- The step of an axis (05 R125). -/
def axisInc (s d : Nat) : Nat := (axisLen s d * 65536 + d / 2) / d

/-- p of destination position k (05 R125). -/
def axisP (s d k : Nat) : Int := (axisInc s d / 2 : Nat) - 32768 + (k * axisInc s d : Nat)

/-- The sample under the tap centre. -/
def axisI (s d k : Nat) : Int := axisP s d k / 65536

/-- The phase. -/
def axisPh (s d k : Nat) : Nat := (axisP s d k / 1024 % 64).toNat

/-- The taps of an axis at a position: the loaded bank, or bilinear for AUTO. -/
def tapsAt (bank : Option (List (List Int))) (ph : Nat) : List Int := (bank.getD bilinear).getD ph []

/-- Eight samples filtered (05 R125). -/
def filterPx (taps : List Int) (smp : Int → Px) (i : Int) : Px :=
  let acc (ch : Px → Nat) : Nat :=
    clampU (((taps.mapIdx fun t c => c * (ch (smp (i - 3 + t)) : Int)).sum + 2048) / 4096)
  { b := acc Px.b, g := acc Px.g, r := acc Px.r, a := acc Px.a }

/-- The mean of `dec` samples from `j * dec` on, the last of the crop repeated (05 R124). -/
def decPx (dec s : Nat) (f : Nat → Px) (j : Nat) : Px :=
  if dec = 1 then f j
  else
    let ps := (List.range dec).map fun i => f (min (dec * j + i) (s - 1))
    let mean (ch : Px → Nat) : Nat := ((ps.map ch).sum + dec / 2) / dec
    { b := mean Px.b, g := mean Px.g, r := mean Px.r, a := mean Px.a }

/-- Is the axis skipped: AUTO and s = d (05 R126)? -/
def axisSkipped (bank : Option (List (List Int))) (s d : Nat) : Bool := bank.isNone && s == d

/-- Sample (u, v) of the picture `f` of sw x sh pixels as it is fetched for a destination of dw x dh: both pre-decimations, vertical first
(05 R124).  DEDUCED (log entry 86): the samples of which the mean is taken are unpacked and upsampled, and no later stage has run on them. -/
def fetchedPx (sw sh dw dh : Nat) (f : Nat → Nat → Px) (u v : Nat) : Px :=
  decPx (preDec sw dw) sw (fun uu => decPx (preDec sh dh) sh (f uu) v) u

/-- The fetched samples `f` of a crop of sw x sh scaled to dw x dh, at position (kx, ky): the vertical pass, then the horizontal pass
(05 R125, R126). -/
def scalePx (hb vb : Option (List (List Int))) (sw sh dw dh : Nat) (f : Nat → Nat → Px) (kx ky : Nat) : Px :=
  let col (u : Nat) : Px :=
    if axisSkipped vb sh dh then f u ky
    else
      let n := axisLen sh dh
      filterPx (tapsAt vb (axisPh sh dh ky)) (fun j => f u (min (max j 0) ((n : Int) - 1)).toNat) (axisI sh dh ky)
  if axisSkipped hb sw dw then col kx
  else
    let n := axisLen sw dw
    filterPx (tapsAt hb (axisPh sw dw kx)) (fun j => col (min (max j 0) ((n : Int) - 1)).toNat) (axisI sw dw kx)

/-- The range of samples that a span of destination positions reads, before pre-decimation is undone (07 R168). -/
def axisRange (bank : Option (List (List Int))) (s d k0 k1 : Nat) : Nat × Nat :=
  if axisSkipped bank s d then (k0, k1)
  else ((max (axisI s d k0 - 3) 0).toNat, (min (axisI s d k1 + 4) ((axisLen s d : Int) - 1)).toNat)

/-- That range carried back through pre-decimation (07 R168). -/
def axisSource (bank : Option (List (List Int))) (s d k0 k1 : Nat) : Nat × Nat :=
  let (lo, hi) := axisRange bank s d k0 k1
  let dec := if axisSkipped bank s d then 1 else preDec s d
  if dec = 1 then (lo, hi) else (dec * lo, min (dec * hi + dec - 1) (s - 1))

/-! ### Crop, mirror and rotation (04 R83) -/

/-- Width and height of the rotated crop. -/
def rotSize (r : LayerRec) : Nat × Nat := if bit r.transform 0 then (r.cropH, r.cropW) else (r.cropW, r.cropH)

/-- The crop position of pixel (u, v) of the rotated crop: the clockwise rotation undone, then the mirror. -/
def unrotate (r : LayerRec) (u v : Nat) : Nat × Nat :=
  let (a, b) :=
    match bits r.transform 0 2 with
    | 0 => (u, v)
    | 1 => (v, r.cropH - 1 - u)
    | 2 => (r.cropW - 1 - u, r.cropH - 1 - v)
    | _ => (r.cropW - 1 - v, u)
  (if bit r.transform 2 then r.cropW - 1 - a else a, b)

/-! ### Premultiply, programs, blend (05 R128, R129; 06 R146-R149) -/

/-- Does the premultiply stage run (04 R96)?  BLEND 1 acts as BLEND 0 on an A_8 layer (05 R118). -/
def premulRuns (r : LayerRec) (a8 solid : Bool) : Bool := (r.blend == 1 && !a8) || r.planeAlpha != 0x4000 || solid

/-- The premultiply stage (05 R128). -/
def premul (r : LayerRec) (a8 solid : Bool) (p : Px) : Px :=
  if !premulRuns r a8 solid then p
  else
    let a := mulU p.a r.planeAlpha
    let k := if (r.blend == 1 && !a8) || solid then a else r.planeAlpha
    { b := mulU p.b k, g := mulU p.g k, r := mulU p.r k, a := a }

/-- A channel of a pixel register: 0 B, 1 G, 2 R, 3 A. -/
def Px.ch (p : Px) (i : Nat) : Nat := match i with | 0 => p.b | 1 => p.g | 2 => p.r | _ => p.a

/-- A bitwise complement on 16 bits. -/
def not16 (v : Nat) : Nat := 0xFFFF - v

/-- The result of a micro-op on registers a, b, c and the fields B and C (06 R149). -/
def microOp (op : Nat) (a b c : Px) (fb fc : Nat) : Px :=
  match op with
  | 0x00 => a
  | 0x01 => a.zip (fun x y => sat16 (x + y)) b
  | 0x02 => a.zip (fun x y => x - y) b
  | 0x03 => a.zip (fun x y => max x y - min x y) b
  | 0x04 => a.zip mulU b
  | 0x05 => (a.zip mulU b).zip (fun x z => sat16 (x + z)) c
  | 0x06 => (a.zip mulU b).zip (fun x z => z - x) c
  | 0x07 =>
    let w := c.map fun z => min z 0x4000
    (a.zip (fun x z => mulU x (0x4000 - z)) w).zip (fun x y => sat16 (x + y)) (b.zip mulU w)
  | 0x08 => a.zip min b
  | 0x09 => a.zip max b
  | 0x0A => a.zip (fun x y => (x + y + 1) / 2) b
  | 0x0B => let v := sat16 ((a.b * b.b + a.g * b.g + a.r * b.r + 0x2000) / 2 ^ 14); { b := v, g := v, r := v, a := v }
  | 0x0C => a.map fun x => if x = 0 then 0xFFFF else sat16 ((2 ^ 28 + x / 2) / x)
  | 0x0D => a.rgb fun x => mulU x a.a
  | 0x0E => a.rgb fun x => if a.a = 0 then 0 else sat16 ((x * 16384 + a.a / 2) / a.a)
  | 0x0F => a.zip (· &&& ·) b
  | 0x10 => a.zip (· ||| ·) b
  | 0x11 => a.zip (· ^^^ ·) b
  | 0x12 => a.map fun x => x * 2 ^ fb % 65536
  | 0x13 => a.map fun x => x / 2 ^ fb
  | 0x14 => a.zip (fun x y => if x < y then 0xFFFF else 0) b
  | 0x15 => a.zip (fun x y => if x = y then 0xFFFF else 0) b
  | 0x16 => (a.zip (· &&& ·) c).zip (· ||| ·) (b.zip (fun y z => y &&& not16 z) c)
  | _ => { b := a.ch (bits fb 0 2), g := a.ch (bits fb 2 2), r := a.ch (bits fc 0 2), a := a.ch (bits fc 2 2) }

/-- The registers after one word (06 R149). -/
def runWord (v : List Px) (w : BitVec 32) : List Px :=
  let z : Px := { b := 0, g := 0, r := 0, a := 0 }
  let old := v.getD (uD w) z
  let new := microOp (uOp w) (v.getD (uA w) z) (v.getD (uB w) z) (v.getD (uC w) z) (uB w) (uC w)
  let k := uMask w
  v.set (uD w)
    { b := if bit k 0 then new.b else old.b, g := if bit k 1 then new.g else old.g
      r := if bit k 2 then new.r else old.r, a := if bit k 3 then new.a else old.a }

/-- A program on a pixel: the sample, the pixel beneath, the position, the record and the frame counter (06 R146, R147). -/
def runProgram (ws : List (BitVec 32)) (s d : Px) (x y : Nat) (r : LayerRec) (frame : Nat) : Px :=
  let z : Px := { b := 0, g := 0, r := 0, a := 0 }
  let v2 : Px := { b := x, g := y, r := ((x : Int) - r.dstX).toNat, a := ((y : Int) - r.dstY).toNat }
  let v3 : Px := { b := bits frame 0 16, g := bits frame 16 16, r := r.planeAlpha, a := 0 }
  let v := [s, { d with a := 0x4000 }, v2, v3] ++ List.replicate 20 z ++ r.ks.map pxOf
  ((ws.foldl runWord v).headD z)

/-- Source-over (05 R129). -/
def srcOver (s d : Px) : Px :=
  let k := 0x4000 - min s.a 0x4000
  { b := sat16 (s.b + mulU d.b k), g := sat16 (s.g + mulU d.g k), r := sat16 (s.r + mulU d.r k)
    a := sat16 (min s.a 0x4000 + mulU d.a k) }

/-- The blend unit (05 R129). -/
def blendPx (r : LayerRec) (s d : Px) : Px :=
  let sum := srcOver s d
  let ks := 0x4000 - min s.a 0x4000
  let kd := 0x4000 - d.a
  match r.blend with
  | 2 => { s with a := 0x4000 }
  | 3 => { b := sat16 (s.b + d.b), g := sat16 (s.g + d.g), r := sat16 (s.r + d.r), a := sum.a }
  | 4 =>
    let f (cs cd : Nat) : Nat := sat16 (mulU cs cd + mulU cs kd + mulU cd ks)
    { b := f s.b d.b, g := f s.g d.g, r := f s.r d.r, a := sum.a }
  | 5 =>
    let lo := pxOf r.keyLo
    let hi := pxOf r.keyHi
    if lo.b ≤ s.b && s.b ≤ hi.b && lo.g ≤ s.g && s.g ≤ hi.g && lo.r ≤ s.r && s.r ≤ hi.r then d else sum
  | _ => sum

/-! ### The output stages (05 R130, R131; 09 R249) -/

/-- The dither threshold matrix (05 R131). -/
def bayer (y x : Nat) : Nat := [0, 8, 2, 10, 12, 4, 14, 6, 3, 11, 1, 9, 15, 7, 13, 5].getD (4 * (y % 4) + x % 4) 0

/-- The dither offsets (ox, oy) for DITHER and the frame counter (05 R131). -/
def ditherOff (dither frame : Nat) : Nat × Nat :=
  if dither ≠ 2 then (0, 0) else match frame % 4 with | 0 => (0, 0) | 1 => (2, 2) | 2 => (2, 0) | _ => (0, 2)

/-- One channel quantised to `n` bits at (x, y) of the logical picture (05 R131). -/
def packCh (n dither frame x y v : Nat) : Nat :=
  let q := min v 0x4000 * (2 ^ n - 1)
  let rem := q % 16384
  let (ox, oy) := ditherOff dither frame
  q / 16384 + (if dither = 0 then (if rem ≥ 0x2000 then 1 else 0)
    else if rem ≥ (2 * bayer (y + oy) (x + ox) + 1) * 512 then 1 else 0)

/-- The output stages on a blended pixel: the matrix, the compensation `comp`, the LUT and the pack to red, green and blue codes
(05 R130). -/
def outStages (k : OutColour) (lut : Option Lut) (comp : Px → Px) (n frame x y : Nat) (p : Px) : Nat × Nat × Nat :=
  let p := if bit k.flags 0 then matPx k.mat p else p
  let p := comp p
  let p := if bit k.flags 1 then (match lut with | none => lutPx identPost 4097 2 p | some l => lutPx l 4097 2 p) else p
  let d := bits k.flags 2 2
  (packCh n d frame x y p.r, packCh n d frame x y p.g, packCh n d frame x y p.b)

/-! ### The hub's writers (08 R217) -/

/-- U2.14 as binary16, ties to even (08 R217). -/
def toHalf (v : Nat) : Nat :=
  if v = 0 then 0
  else
    let p := v.log2
    let m :=
      if p ≤ 10 then v * 2 ^ (10 - p)
      else
        let sh := p - 10
        let q := v / 2 ^ sh
        let rem := v % 2 ^ sh
        let half := 2 ^ (sh - 1)
        if rem > half || (rem = half && q % 2 = 1) then q + 1 else q
    (p + 1) * 1024 + m - 1024

/-- One channel as an `n`-bit code without dither (05 R131). -/
def quant (n v : Nat) : Nat := packCh n 0 0 0 0 v

/-- The pixel word of a write-back target's format (08 R217). -/
def wbWord (code : Nat) (p : Px) : Nat :=
  match baseCode code with
  | 0x05 => quant 10 p.r + 2 ^ 10 * quant 10 p.g + 2 ^ 20 * quant 10 p.b + 2 ^ 30 * 3
  | 0x07 => 0x3C00 + 2 ^ 16 * toHalf p.b + 2 ^ 32 * toHalf p.g + 2 ^ 48 * toHalf p.r
  | _ => quant 8 p.b + 2 ^ 8 * quant 8 p.g + 2 ^ 16 * quant 8 p.r + 2 ^ 24 * 255

/-- The distinct words of a crate in order of first occurrence. -/
def distinct (l : List Nat) : List Nat := l.foldl (fun acc w => if acc.contains w then acc else acc ++ [w]) []

/-- One crate as the hub's writers encode it (08 R217): its header and its granules; `prev` is the crate before it in the row.
`ws` holds the 256 words of the crate, line by line. -/
def encodeCrate (code : Nat) (prev : Option (List Nat)) (ws : List Nat) : Nat × Bytes :=
  let bpp := (fmtD code).bpp
  let ds := distinct ws
  if prev == some ws then (3, [])
  else if ds.length = 1 then (2 ^ 32 * ws.headD 0, [])
  else if ds.length ≤ 4 then
    (1 + 256 * 2,
     ((List.range 4).flatMap fun i => leBytes 4 (ds.getD i 0)) ++ leBytes 48 0 ++
       (List.range 64).map fun i => BitVec.ofNat 8
         (((List.range 4).map fun j => ds.idxOf (ws.getD (4 * i + j) 0) * 4 ^ j).sum))
  else (2 + 256 * gRaw code, ws.flatMap (leBytes bpp))

/-- The crates of a row of 64-pixel groups, each the 256 words of one crate: headers and granules. -/
def encodeCrates (code : Nat) : Option (List Nat) → List (List Nat) → List Nat × Bytes
  | _, [] => ([], [])
  | prev, ws :: t =>
    let (hd, gs) := encodeCrate code prev ws
    let (hs, g2) := encodeCrates code (some ws) t
    (hd :: hs, gs ++ g2)

/-- The writes of a whole crate row (03 R58-R61, 08 R217): `px` gives the word at (x, line 0-3); pixels outside the surface take
the last pixel inside (log entry 15). -/
def writeCrateRow (h : Hub) (s : Surf) (row : Nat) (px : Nat → Nat → Nat) : List MemWrite :=
  let cols := crateCols s.width
  let lines := min 4 (s.height - 4 * row)
  let crates := (List.range cols).map fun c =>
    (List.range 256).map fun i => px (min (64 * c + i % 64) (s.width - 1)) (min (i / 64) (lines - 1))
  let (hs, gs) := encodeCrates s.fmt none crates
  let start := row * rawMax s.fmt s.width
  planeWrite h s 0 (row * (s.planes.getD 0 (0, 0)).2)
      (leBytes 4 start ++ leBytes 2 s.budget ++ leBytes 2 (gs.length / 64) ++ leBytes 8 0 ++ hs.flatMap (leBytes 8)) ++
    planeWrite h s 1 (64 * start) gs

end Sys2Proof.Machine
end

