-- ==== Sys2Proof/Machine/Fabric.lean ====
section
/-!
DEFINITION. What a die's units read of LP5X: the bytes that a rectangle occupies, the remote-granule buffer, its emptying at a visibility
broadcast, and the granules in which a fetch met an uncorrectable error (14 R377-R379, R386-R388; 11 R295).
-/

namespace Sys2Proof.Machine

/-! ### Offsets (14 R377, R379) -/

/-- Bytes of LP5X of a die that can be addressed: all, or 31/32 of them with inline ECC (14 R375, R377). -/
def usableBytes (h : Hub) (d : Nat) : Nat :=
  let n := h.pkg.gib.get d 0 * 2 ^ 30
  if bit h.pkg.ecc d then n * 31 / 32 else n

/-- The die byte offset at which the system area begins: the top 64 MiB of what can be addressed (14 R380). -/
def systemStart (h : Hub) (d : Nat) : Nat := usableBytes h d - 2 ^ 26

/-- The LP5X channel in which a die byte offset lies (14 R379). -/
def lpChannel (a : Nat) : Nat := (a / 2 ^ 8 ^^^ a / 2 ^ 16 ^^^ a / 2 ^ 24) % 2

/-! ### Ranges of bytes -/

/-- Granules of 64 bytes that cover `n` bytes from `lo`. -/
def granules64 (lo n : Nat) : Nat := if n = 0 then 0 else (lo + n - 1) / 64 - lo / 64 + 1

/-- The place of a byte of a plane in its region. -/
def regionPos (s : Surf) (p off : Nat) : Nat := 64 * (s.planes.getD p (0, 0)).1 + off

/-- The bytes of its region that a rectangle of a surface occupies, as offsets and lengths, over every line of every plane; a crated
surface occupies the header rows of its crate rows and the granules that its budget gives them (11 R295). -/
def rectBytes (s : Surf) (x y w hh : Nat) : List (Nat × Nat) :=
  let f := fmtD s.fmt
  let start (p : Nat) : Nat := 64 * (s.planes.getD p (0, 0)).1
  let pitch (p : Nat) : Nat := (s.planes.getD p (0, 0)).2
  if w = 0 || hh = 0 then []
  else if f.crated then
    (List.range ((y + hh - 1) / 4 - y / 4 + 1)).flatMap fun i =>
      let r := y / 4 + i
      [(start 0 + r * pitch 0, 16 + 8 * crateCols s.width), (start 1 + 64 * r * s.budget, 64 * s.budget)]
  else
    ((List.range hh).map fun i => (start 0 + (y + i) * pitch 0 + x * f.bpp, w * f.bpp)) ++
    ((List.range (f.planes - 1)).flatMap fun i =>
      let p := i + 1
      if s.fmt = 0x0009 then [(start p, 1024)]
      else (List.range ((y + hh - 1) / f.sy - y / f.sy + 1)).map fun i =>
        (start p + (y / f.sy + i) * pitch p + x / f.sx * f.word1, ((x + w - 1) / f.sx - x / f.sx + 1) * f.word1))

/-- The numbers of the 64-byte granules of the package's LP5X in which ranges of a region lie. -/
def regionGrans (h : Hub) (r : Nat) (l : List (Nat × Nat)) : List Nat :=
  l.flatMap fun e => (List.range (granules64 e.1 e.2)).map fun i => regAddr h r (64 * (e.1 / 64 + i)) / 64

/-- The granules of a rectangle of a surface that die `d` reads over the fabric: none of a surface of its own. -/
def rectGrans (h : Hub) (d : Nat) (s : Surf) (x y w hh : Nat) : List Nat :=
  if s.region / 256 = d then [] else regionGrans h s.region (rectBytes s x y w hh)

/-- The granules of `n` bytes of a plane that die `d` reads over the fabric. -/
def planeGrans (h : Hub) (d : Nat) (s : Surf) (p off n : Nat) : List Nat :=
  if s.region / 256 = d then [] else regionGrans h s.region [(regionPos s p off, n)]

/-! ### The remote-granule buffer (14 R386-R388) -/

/-- The model's number of a die's DMA channel as a unit that writes (14 R388). -/
def dmaUnit (ch : Nat) : Nat := 1 + ch

/-- The model's number of a die's PCIe port as a unit that writes. -/
def portUnit : Nat := 40

/-- Granules that a remote-granule buffer of 512 KiB holds. -/
def bufferGrans : Nat := 8192

/-- Die `d` reads the granules `gs` of other dies: each that its buffer does not hold comes from LP5X, and stays there for the reads that
follow.  The manual does not say which granule makes room for another: one that was read may have left the buffer since (a free bit), and of
more than the buffer holds a free run of neighbours stays (log 89). -/
def remoteRead (d : Nat) (gs : List Nat) (m : List Host.Cell) (h : Hub) : Hub :=
  if gs.isEmpty then h
  else
    let old := (getDie h d).rbuf
    let keep := (old.zipIdx.filter fun e => !gs.contains e.1.1 || Config.freeBit (h.freeIx + e.2)).map Prod.fst
    let new := (gs.eraseDups.filter fun g => !keep.any fun e => e.1 == g).map fun g =>
      (g, Memory.readBytes m (64 * g) 64, ([] : Tab Bytes))
    let all := keep ++ new
    let left := if all.length ≤ bufferGrans then all
      else (all.rotateLeft ((Config.freeWord (h.freeIx + old.length)).toNat % all.length)).take bufferGrans
    { updDie h d fun x => { x with rbuf := left } with freeIx := h.freeIx + old.length + 1 }

/-- LP5X as unit `u` of die `d` reads it: with what its die's buffer holds in place of what has been written since, but for its own writes. -/
def remoteView (h : Hub) (d u : Nat) (m : List Host.Cell) : List Host.Cell :=
  (getDie h d).rbuf.foldl (fun m e => Memory.writeBytes m (64 * e.1) (e.2.2.get u e.2.1)) m

/-- What unit `u` of die `d` writes to other dies, its own later reads return, and no other read through the buffer (14 R386, R388). -/
def ownWrites (d u : Nat) (ws : List MemWrite) (h : Hub) : Hub :=
  if (getDie h d).rbuf.isEmpty then h
  else updDie h d fun x => { x with rbuf := x.rbuf.map fun e =>
    let old := e.2.2.get u e.2.1
    let new := Memory.readBytes (ws.foldl Memory.apply (Memory.writeBytes [] (64 * e.1) old)) (64 * e.1) 64
    if new = old then e else (e.1, e.2.1, e.2.2.set u new) }

/-- Writes by unit `u` of die `d`: its reads return them, and layers that they reach have changed. -/
def unitWrites (d u : Nat) (ws : List MemWrite) (h : Hub) : Hub := writesTouched ws (ownWrites d u ws h)

/-- No buffer keeps a granule of die `d`, which is lost: its surfaces read as zeros (17 R451). -/
def forgetDie (d : Nat) (h : Hub) : Hub :=
  { h with dies := h.dies.map fun e => (e.1, { e.2 with rbuf := e.2.rbuf.filter fun g => g.1 / 2 ^ 28 != d }) }

/-! ### Uncorrectable errors (14 R378) -/

/-- LP5X as engine `e` of die `d` fetches it: a granule whose fetch met an uncorrectable error is 64 zero bytes. -/
def fetchView (h : Hub) (d e : Nat) (m : List Host.Cell) : List Host.Cell :=
  ((getDie h d).zeroed.filter fun z => z.1 == e).foldl (fun m z => Memory.zero m (64 * z.2) 64) (remoteView h d 0 m)

/-- Did a fetch of engine `e` meet an error in the system area of its die, where LUTs and pixel programs lie at addresses that the manual does
not give (14 R378, R380; log 39)? -/
def systemZeroed (h : Hub) (d e : Nat) : Bool :=
  (getDie h d).zeroed.any fun z => z.1 == e && decide (d * 2 ^ 34 + systemStart h d ≤ 64 * z.2) && decide (64 * z.2 < (d + 1) * 2 ^ 34)

/-- Numbers of a table as they are or zero, by free bits from `ix`. -/
def mayZero (ix : Nat) (l : List Nat) : List Nat := l.zipIdx.map fun e => if Config.freeBit (ix + e.2) then 0 else e.1

/-- The hub's LUTs and programs as engine `e` of die `d` loads them: where a granule of the system area was zero, any of their entries may
have been in it. -/
def fetchHub (h : Hub) (d e : Nat) : Hub :=
  if !systemZeroed h d e then h
  else
    let ix (kind k : Nat) : Nat := h.freeIx + 2 ^ 40 * kind + 2 ^ 24 * k
    { h with
      luts := h.luts.map fun q => if q.1 / 128 ≠ d then q else
        let l := q.2.lut
        (q.1, { q.2 with lut := { l with
          red := mayZero (ix 1 q.1) l.red, green := mayZero (ix 1 q.1 + 2 ^ 16) l.green, blue := mayZero (ix 1 q.1 + 2 ^ 17) l.blue } })
      progs := h.progs.map fun q => if q.1 / 256 ≠ d then q else
        (q.1, { q.2 with words := (mayZero (ix 2 q.1) (q.2.words.map BitVec.toNat)).map (BitVec.ofNat 32) }) }

/-- The free values of such a load are spent. -/
def fetchSpent (d e : Nat) (h : Hub) : Hub := if systemZeroed h d e then { h with freeIx := h.freeIx + 2 ^ 43 } else h

end Sys2Proof.Machine
end

