-- ==== Sys2Proof/Machine/Surfaces.lean ====
section
/-!
DEFINITION. Regions, surfaces and shares: the commands of the 0x01xx range (03 R74-R79), but for those that take rights away
and for SHARE_SET (Machine/Access.lean), with BAR2 accesses (03 R47, R48) and the end of a retiring entry's life (03 R53).
-/

namespace Sys2Proof.Machine

/-! ### MEM_ALLOC, MEM_FREE (03 R46-R49, R75) -/

/-- Window entries of a function's BAR2 (03 R47). -/
def winCount (f : Fn) : Nat := 2 ^ (f.bar2Log - 22)

/-- The lowest free run of `n` window entries (03 R47). -/
def winRun (f : Fn) (n : Nat) : Option Nat :=
  firstNat (fun i => i + n ≤ winCount f && (List.range n).all fun j => !f.win.has (i + j)) (winCount f) 0

/-- Granules that a share group's regions hold on a die. -/
def groupGranules (h : Hub) (d g : Nat) : Nat :=
  ((h.regions.filter fun e => e.1 / 256 == d && e.2.group == g).map fun e => e.2.granules.length).sum

/-- Shares of group `g` on die `d` as set (03 R72). -/
def shareSet (h : Hub) (d g : Nat) : Share := h.shares.get (d * 32 + g) {}

/-- Shares of a group on a die; group 0 holds what the others leave (03 R72). -/
def shareOf (h : Hub) (d g : Nat) : Share :=
  if g ≠ 0 then shareSet h d g
  else
    let rest := (List.range 31).map fun i => shareSet h d (i + 1)
    { bw := 256 - (rest.map Share.bw).sum, cycles := 256 - (rest.map Share.cycles).sum,
      mem := poolSize h d - (rest.map Share.mem).sum, energy := 16 }

/-- The lowest free region slot of a die. -/
def regionSlot (h : Hub) (d : Nat) : Option Nat := firstNat (fun i => !h.regions.has (d * 256 + i)) 256 0

/-- What MEM_ALLOC finds: region, granules, window entry. -/
def memFind (h : Hub) (c d n : Nat) : Option (Nat × List Nat) :=
  let g := (getCtx h c).group
  match regionSlot h d, freeGranules h d n with
  | some slot, some gs =>
    if groupGranules h d g + n > (shareOf h d g).mem then none else some (d * 256 + slot, gs)
  | _, _ => none

/-- The window table with a region's granules at entries from `w`. -/
def mapRegion (r w n : Nat) (t : Tab (Nat × Nat)) : Tab (Nat × Nat) :=
  (List.range n).foldl (fun t i => t.set (w + i) (r, i)) t

/-- The window table without a region. -/
def unmapRegion (r : Nat) (h : Hub) : Hub :=
  { h with fns := h.fns.map fun e => (e.1, { e.2 with win := e.2.win.filter fun w => w.2.1 != r }) }

/-- MEM_ALLOC (03 R75). -/
def memAlloc : Spec :=
  { op := 0x0100, rsv := [(17, 1), (20, 44)]
    checks := fun c _ h =>
      let d := arg8 c 16
      let n := arg16 c 18
      [ck 0x0201 18 (n = 0 || n > 4096), dieCk h 16 d,
       ck 0x020B 255 (1 ≤ n && n ≤ 4096 && (winRun (getFn h (ctxFn h c.ctx)) n).isNone),
       ckd d 0x060B 255 (memFind h c.ctx d n).isNone]
    run := fun c _ _ h =>
      let d := arg8 c 16
      let n := arg16 c 18
      let f := ctxFn h c.ctx
      match memFind h c.ctx d n, winRun (getFn h f) n with
      | some (r, gs), some w =>
        let reg : Region := { owner := c.ctx, granules := gs, fn := f, win := w, group := (getCtx h c.ctx).group }
        let h := { h with regions := h.regions.set r reg }
        let h := updFn h f fun x => { x with win := mapRegion r w n x.win }
        okRes h r (w * granBytes) (gs.map fun g => .zeros (d * 2 ^ 34 + g * granBytes) granBytes)
      | _, _ => failRes h 0x060B 255 }

/-- Does an Atlas entry, LIVE or RETIRING, have a plane in the region (03 R49)? -/
def regionUsed (h : Hub) (r : Nat) : Bool := h.atlas.any fun e => e.2.region == r

/-- A region goes: unmapped and freed. -/
def freeRegion (r : Nat) (h : Hub) : Hub :=
  let h := unmapRegion r h
  { h with regions := h.regions.del r }

/-- MEM_FREE (03 R49, R75). -/
def memFree : Spec :=
  { op := 0x0101, rsv := [(18, 46)]
    checks := fun c _ h => regionCks h 16 (arg16 c 16) c.ctx ++ [ckd (arg16 c 16 / 256) 0x0403 16 (regionUsed h (arg16 c 16))]
    run := fun c _ _ h => okRes (freeRegion (arg16 c 16) h) }

/-! ### SURF_CREATE, SURF_QUERY (03 R55, R76, R78) -/

/-- The entry of a die that SURF_CREATE takes: the one that has been free longest (03 R52; log entry 10). -/
def freeEntry (h : Hub) (d : Nat) : Option Nat :=
  match firstNat (fun e => !h.atlas.has (d * 8192 + e) && !h.gens.has (d * 8192 + e)) 8192 0 with
  | some e => some (d * 8192 + e)
  | none => h.freed.find? fun ix => ix / 8192 == d && h.gens.get ix 1 < 0xFFFF

/-- Plane fields of SURF_CREATE: (offset field, pitch field) of planes 0 to 2. -/
def planeArgs (c : Cmd) : List (Nat × Nat) :=
  [(arg32 c 28, arg32 c 32), (arg32 c 36, arg32 c 40), (arg32 c 44, arg32 c 48)]

/-- The checks of one plane's fields: unused fields, pitch, palette, and the bound in the region (03 R55, R57, R76). -/
def planeCks (f : Fmt) (fmt w hh p off pitch rbytes : Nat) (owned : Bool) : List Ck :=
  let o := 28 + 8 * p
  if p ≥ f.planes then [ck 0x0103 o (off ≠ 0), ck 0x0103 (o + 4) (pitch ≠ 0)]
  else
    (if f.crated then
      (if p = 0 then [ck 0x0105 (o + 4) (pitch % 64 ≠ 0), ck 0x0204 (o + 4) (pitch < 16 + 8 * crateCols w)] else [])
     else if fmt = 0x0009 && p = 1 then [ck 0x0201 (o + 4) (pitch ≠ 0)]
     else [ck 0x0105 (o + 4) (pitch % 64 ≠ 0), ck 0x0204 (o + 4) (pitch < rowBytes f w p || pitch > 262144)]) ++
    [ck 0x020B o (owned && 64 * off + planeSize fmt hh p pitch > rbytes)]

/-- SURF_CREATE (03 R76). -/
def surfCreate : Spec :=
  { op := 0x0110, rsv := [(26, 2), (52, 12)]
    checks := fun c _ h =>
      let r := arg16 c 16
      let fmt := arg16 c 18
      let w := arg16 c 20
      let hh := arg16 c 22
      let b := arg16 c 24
      let f := fmtD fmt
      let rb := match h.regions.find r with | none => 0 | some g => g.granules.length * granBytes
      let owned := match h.regions.find r with | none => false | some g => g.owner == c.ctx && !g.dead
      regionCks h 16 r c.ctx ++
      [ck 0x0106 18 (fmtOf fmt).isNone,
       ck 0x0204 20 (w = 0 || w > 16384 || (f.sx = 2 && w % 2 = 1)),
       ck 0x0204 22 (hh = 0 || hh > 16384 || (f.sy = 2 && hh % 2 = 1)),
       ck 0x0201 24 (if f.crated then b = 0 || b > rawMax fmt w else b ≠ 0)] ++
      (planeArgs c).zipIdx.flatMap (fun pp => planeCks f fmt w hh pp.2 pp.1.1 pp.1.2 rb owned) ++
      [ckd (r / 256) 0x0601 255 (freeEntry h (r / 256)).isNone]
    run := fun c _ _ h =>
      let r := arg16 c 16
      match freeEntry h (r / 256) with
      | none => failRes h 0x0601 255
      | some ix =>
        let s : Surf :=
          { retiring := false, gen := h.gens.get ix 1, fmt := arg16 c 18, width := arg16 c 20, height := arg16 c 22,
            region := r, budget := arg16 c 24, planes := planeArgs c, owner := c.ctx, grants := [] }
        okRes { h with atlas := h.atlas.set ix s, freed := h.freed.filter (· != ix) } (handleOf ix s) }

/-- Committed layer records that read a surface (03 R67). -/
def usersOf (h : Hub) (v : Nat) : Nat := (h.layers.filter fun e => e.2.cur.source == v).length

/-- Bytes from the first byte of any plane to the last (03 R78; log entry 11). -/
def footprint (s : Surf) : Nat :=
  let ps := (List.range (fmtD s.fmt).planes).map fun p =>
    (64 * (s.planes.getD p (0, 0)).1, planeSize s.fmt s.height p (s.planes.getD p (0, 0)).2)
  let hi := (ps.map fun e => e.1 + e.2).foldl max 0
  hi - (ps.map Prod.fst).foldl min hi

/-- The entry image of SURF_QUERY (03 R78). -/
def surfImage (h : Hub) (c v : Nat) (s : Surf) : Bytes :=
  let own := s.owner == c
  leBytes 4 v ++ leBytes 2 s.fmt ++ leBytes 2 s.owner ++ leBytes 2 s.width ++ leBytes 2 s.height ++
  leBytes 2 (if own then s.region else 0xFFFF) ++ leBytes 2 s.budget ++
  (if own then s.planes.flatMap fun p => leBytes 4 p.1 ++ leBytes 4 p.2 else leBytes 24 0) ++
  leBytes 1 (if s.retiring then 2 else 1) ++ leBytes 1 s.grants.length ++
  leBytes 1 (if own then 0x83 else rightsOf s c) ++ leBytes 1 0 ++ leBytes 4 (usersOf h v) ++
  leBytes 8 (footprint s) ++ leBytes 8 0

/-- SURF_QUERY (03 R78). -/
def surfQuery : Spec :=
  { op := 0x0114, rsv := [(20, 4), (32, 32)]
    checks := fun c _ h =>
      let v := arg32 c 16
      [bufCk c 24] ++ handleCks h 16 v ++
      [ckd (v % 65536 / 8192) 0x0303 16 (match surfOf h v with
        | none => false
        | some s => s.owner ≠ c.ctx && !s.grants.any fun g => g.1 == c.ctx)]
    run := fun c _ _ h =>
      match surfOf h (arg32 c 16) with
      | none => failRes h 0x0404 16
      | some s => okRes (ctxWrite c.ctx (arg64 c 24) (surfImage h c.ctx (arg32 c 16) s) h) 64 }

/-! ### SHARE_JOIN (03 R79) -/

/-- Does the context own the list of an output, a region or an open transaction (03 R79)? -/
def ownsCharged (h : Hub) (c : Nat) : Bool :=
  h.outs.any (fun e => e.2.owner == some c) || h.regions.any (fun e => e.2.owner == c) ||
    h.txns.any fun e => e.2.owner == c

/-- SHARE_JOIN (03 R79). -/
def shareJoin : Spec :=
  { op := 0x0121, level := 2, locks := true, rsv := [(19, 45)]
    checks := fun c _ h =>
      ctxCks h 16 (arg16 c 16) true ++
      [ck 0x0201 18 (arg8 c 18 > 31), ckd (homeDie (arg16 c 16)) 0x0403 16 (ownsCharged h (arg16 c 16))]
    run := fun c _ _ h => okRes (updCtx h (arg16 c 16) fun x => { x with group := arg8 c 18 }) }

/-! ### BAR2 accesses (03 R47, R48) -/

/-- The LP5X address to which a function's window table takes a BAR2 byte offset, if it is mapped and within BAR2. -/
def bar2Addr (h : Hub) (f off : Nat) : Option Nat :=
  let x := getFn h f
  if off ≥ 2 ^ x.bar2Log then none
  else match x.win.find (off / granBytes) with
    | none => none
    | some (r, i) => match h.regions.find r with
      | none => none
      | some g => some (granAddr (r / 256) g.granules (i * granBytes + off % granBytes))

/-- An unmapped BAR2 access is reported with the requester ID (03 R48, 17 R441). -/
def bar2Fault (f rid off : Nat) (h : Hub) : Hub :=
  let u := unitId 0x0A (f / 16) rid
  faultReport (f / 16) 0x020B u u off h

/-- A BAR2 access of `n` bytes (03 R48): each byte goes through the window table; an unmapped byte reads 0 and takes no write,
and is reported once for the access. -/
def bar2Access (f rid off : Nat) (write : Bool) (len : Nat) (data : Bytes) (m : List Host.Cell) (h : Hub) : Eff :=
  if portEarly h f && !write then (send (.refusal f 1) h, [])
  else if !ready h || !(getFn h f).enabled then (h, [])
  else
    let n := if write then data.length else len
    let as := (List.range n).map fun i => bar2Addr h f (off + i)
    let h1 := match as.findIdx? Option.isNone with | none => h | some i => bar2Fault f rid (off + i) h
    if write then
      let ws := (as.zip data).filterMap fun e => e.1.map fun a => MemWrite.bytes a [e.2]
      (unitWrites (f / 16) portUnit ws (updFn h1 f fun x => { x with wrote := true }), ws)
    else
      let h1 := remoteRead (f / 16) ((as.filterMap fun a => a.map (· / 64)).eraseDups.filter fun g => g / 2 ^ 28 ≠ f / 16) m h1
      let m := remoteView h1 (f / 16) portUnit m
      (send (.readData f (as.map fun a => match a with | none => 0 | some a => Memory.read m a)) h1, [])

/-! ### The rows -/

/-- MEM_ALLOC. -/
def execMemAlloc (c : Cmd) (s : State) : Host.Outcome State Fault Refusal := .next (mail memAlloc c s)
/-- MEM_FREE. -/
def execMemFree (c : Cmd) (s : State) : Host.Outcome State Fault Refusal := .next (mail memFree c s)
/-- SURF_CREATE. -/
def execSurfCreate (c : Cmd) (s : State) : Host.Outcome State Fault Refusal := .next (mail surfCreate c s)
/-- SURF_QUERY. -/
def execSurfQuery (c : Cmd) (s : State) : Host.Outcome State Fault Refusal := .next (mail surfQuery c s)
/-- SHARE_JOIN. -/
def execShareJoin (c : Cmd) (s : State) : Host.Outcome State Fault Refusal := .next (mail shareJoin c s)
/-- BAR2_ACCESS. -/
def execBar2Access (fn : Nat) (rid : BitVec 16) (off : BitVec 64) (write : Bool) (len : Nat) (data : List (BitVec 8))
    (s : State) : Host.Outcome State Fault Refusal :=
  .next (act (bar2Access fn rid.toNat off.toNat write len data) s)

end Sys2Proof.Machine
end

