-- ==== Sys2Proof/Machine/Wake.lean ====
section
/-!
DEFINITION. Power states of a die as other chapters see them: which dies answer, and wake events (15 R392-R398).
-/

namespace Sys2Proof.Machine

/-- PWR_STATE.STATE (15 R414). -/
def pwrCode (p : PwrState) : Nat :=
  match p with
  | .run => 0
  | .idle => 1
  | .entering => 2
  | .sleep => 3
  | .deep => 4
  | .exiting => 5
  | .off => 0

/-- Is the die in SLEEP or DEEP, where only its always-on domain answers (15 R398)? -/
def asleep (h : Hub) (d : Nat) : Bool :=
  let p := (getDie h d).pwr.state
  p == .sleep || p == .deep

/-- CLASS, DIE and INSTANCE of a unit ID (17 R440). -/
def unitClass (u : Nat) : Nat := u % 256

/-- The die of a unit ID. -/
def unitDie (u : Nat) : Nat := u / 256 % 256

/-- The instance of a unit ID. -/
def unitInst (u : Nat) : Nat := u / 65536

/-- The engine that a unit is, or whose larder bank it is (17 R440). -/
def unitEngine (u : Nat) : Option Nat :=
  if unitClass u = 1 then some (unitInst u)
  else if unitClass u = 2 && unitInst u < 144 then some (unitInst u / 6)
  else none

/-- Has Survey retired a unit, or the engine that it belongs to (17 R448, R449)? -/
def unitRetired (h : Hub) (unit : Nat) : Bool :=
  let s := (getDie h (unitDie unit)).srv
  (s.units.any fun u => u.unit == unit && u.retired) || (match unitEngine unit with | none => false | some e => bit s.engRetired e)

/-- The power manager of a die changed by `f`. -/
def updPwr (h : Hub) (d : Nat) (f : Pwr → Pwr) : Hub := updDie h d fun x => { x with pwr := f x.pwr }

/-- An event to the integrator context, if there is one. -/
def toIntegrator (code r0 r1 : Nat) (h : Hub) : Hub :=
  match integrator h with
  | none => h
  | some c => postEvent c code r0 r1 h

/-- A die changes its power state: its interrupt source, STATE_TIME and PWR_DIE_STATE (15 R419, R420; 20 R511). -/
def pwrGoes (d : Nat) (p : PwrState) (h : Hub) : Hub :=
  let h := intEvent d 4 (updPwr h d fun x => { x with state := p, stateTime := h.now })
  toIntegrator 0x0982 (d + 256 * pwrCode p + 4096 * (getDie h d).pwr.lastWake) h.now h

/-- A wake event of source `cause` at die `d` (15 R396, R397): latched during entry, starting the exit in SLEEP or DEEP, and
otherwise nothing. -/
def wakeEvent (d cause : Nat) (h : Hub) : Hub :=
  let p := (getDie h d).pwr
  if !dieUp h d || !(bit p.wakeEn cause || cause == 1) || cause > 5 then h
  else if p.state == .entering then
    updPwr h d fun x => { x with entry := x.entry.map fun e => { e with wake := if e.wake.isNone then some cause else e.wake } }
  else if asleep h d then pwrGoes d .exiting (updPwr h d fun x => { x with lastWake := cause + 1 })
  else h

/-- Does some die hold a PWR_STATE that waits for RUN? -/
def runHeld (h : Hub) (p : Pend) : Bool := h.dies.any fun e => e.2.pwr.runCmds.contains p

/-- PWR_STATE commands of a die complete, where no other die has still to wake for them. -/
def runDone (d : Nat) (h : Hub) : Hub :=
  let cs := (getDie h d).pwr.runCmds
  cs.foldl (fun h p => if runHeld h p then h else completeOk p 0 0 h) (updPwr h d fun x => { x with runCmds := [] })

/-- An entry is aborted before its commit point: the die is back in RUN, for those that wait for that too, and PWR_STATE completes with 0x0408 (15
R397, R415).  `kind` and
`index` are those of PWR_REFUSER. -/
def abortEntry (d kind index : Nat) (h : Hub) : Hub :=
  match (getDie h d).pwr.entry with
  | none => h
  | some e =>
    let h := updPwr h d fun x => { x with
      entry := none, aborted := satInc 255 x.aborted, refKind := kind, refReq := e.target, refIndex := index }
    let held (o : Nat) : Bool := h.dies.any fun k => match k.2.pwr.entry with | none => false | some q => q.stops.contains o
    let h := (e.stops.filter fun o => (getOut h o).state == .running && !held o).foldl
      (fun h o => updOut h o fun x => { x with stopNext := false }) h
    let h := runDone d (fbkRecord d 0 0x0002 8 (getDie h d).fbk.enterAt (pwrGoes d .run h))
    match e.cmd with
    | none => h
    | some p =>
      let h := { h with dies := h.dies.map fun (k : Nat × Die) =>
        (k.1, { k.2 with pwr := { k.2.pwr with entry := k.2.pwr.entry.map fun e => { e with cmd := if e.cmd = some p then none else e.cmd } } }) }
      complete p 0x0408 255 (kind + 256 * d + 65536 * index) 0 h

/-- An access of function `f` to a register or doorbell page of die `d`, other than to the blocks of the always-on domain, is a
wake event (15 R396, R398). -/
def accessWakes (d f : Nat) (h : Hub) : Hub := wakeEvent d (if f / 16 = d then 1 else 2) h

end Sys2Proof.Machine
end

