-- ==== Sys2Proof/Machine/Admission.lean ====
section
/-!
DEFINITION. Admission: what a configuration demands of dies, links, engines, share groups and power, and the tests that a commit
must pass (07 R165-R177; 04 R92, R93; 08 R218, R219; 13 R356; 14 R381-R384; 15 R404-R409; 22 R543).

A configuration is a hub whose records are those of the configuration: `overlay` puts a transaction's records in place.  Rates are
exact rationals in MB/s (10^6 bytes per second) and Mcycles/s.
-/

namespace Sys2Proof.Machine

/-! ### Records put in place -/

/-- The engine that a wing is to hold back, which Survey has fenced since, becomes the wing's spare when its test ends (04 R103). -/
def heldFenced (d e : Nat) (s : Srv) : Srv :=
  let on (r : SrvReq) : Bool := unitDie r.unit == d && unitEngine r.unit == some e
  let spare (f : UnitFence) : UnitFence := { f with wasSpare := true }
  { s with
    tests := s.tests.map fun t => if on t.req then { t with fence := spare t.fence } else t
    queue := s.queue.map fun q => if on q then { q with fenced := q.fenced.map spare } else q }

/-- The in-service and spare engines of a die after HOLD is set: a wing holds the highest in-service engine back, or, where the validated
commit has chosen already, the engine of the mask `pick` that its table leaves out (04 R103). -/
def spareWing (d hold : Nat) (pick : Option Nat) (s : Srv) (w : Nat) : Srv :=
  let wing := (List.range 12).map (· + 12 * w)
  let take (e : Nat) : Srv := { s with engIn := s.engIn - 2 ^ e, engSpare := s.engSpare ||| 2 ^ e }
  match wing.find? (bit s.engSpare), bit hold w with
  | some e, false => { s with engSpare := s.engSpare - 2 ^ e, engIn := s.engIn ||| 2 ^ e }
  | none, true =>
    match pick with
    | none => match wing.reverse.find? (bit s.engIn) with | none => s | some e => take e
    | some p => match wing.find? (bit p) with
      | none => s
      | some e => if bit s.engIn e then take e else heldFenced d e s
  | _, _ => s

/-- ENGINE_SPARES applied to a die (04 R103). -/
def putSpares (d hold : Nat) (pick : Option Nat) (h : Hub) : Hub :=
  updDie h d fun x => { x with hold := hold, srv := spareWing d hold pick (spareWing d hold pick x.srv 0) 1 }

/-- The engines that ENGINE_SPARES would hold back on a die as it stands, as a mask (04 R103). -/
def heldMask (h : Hub) (d hold : Nat) : Nat :=
  let s := (getDie h d).srv
  let t := (getDie (putSpares d hold none h) d).srv
  (((List.range 24).filter fun e => bit t.engSpare e && !bit s.engSpare e).map (2 ^ ·)).sum

/-- PWR_FLOOR applied to a die (15 R418). -/
def putFloor (d step : Nat) (h : Hub) : Hub := updDie h d fun x => { x with pwr := { x.pwr with floor := step } }

/-- The records of an output that do not take the mode: an output's first start also sets the default of OUT_STATIC (08 R230). -/
def outRecords (s : OutStage) (x : Output) : Output :=
  { x with
    bandH := s.band.getD x.bandH
    bg := s.bg.getD x.bg
    statFlags := match s.static with | none => x.statFlags | some v => v.1
    statFrames := match s.static with | none => x.statFrames | some v => v.2
    colour := s.colour.getD x.colour
    lutPend := match s.lut with | none => x.lutPend | some l => some l
    dim := { x.dim with
      layout := s.dimLayout.getD x.dim.layout, algo := s.dimAlgo.getD x.dim.algo, tabs := s.dimTabs.getD x.dim.tabs } }

/-- The defaults of OUT_STATIC at the first start of an output (08 R230). -/
def firstStart (x : Output) : Output :=
  if x.started then x
  else { x with started := true, statFlags := 7, statFrames := if x.cls = 0 then 0 else 8 }

/-- The mode of an output's record: unchanged, none for a stop, or the entry that is named now. -/
def stagedMode (h : Hub) (s : OutStage) (x : Output) : Option ModeEntry × Nat × Nat :=
  match s.mode with
  | none => (x.mode, x.bpc, x.enc)
  | some (n, bpc, enc) => if n = 0xFF then (none, x.bpc, x.enc) else (modeOf h n, bpc, enc)

/-- One output's records put in place. -/
def putOutput (h : Hub) (s : OutStage) (primary : Bool) (x : Output) : Output :=
  let m := stagedMode h s x
  let x := if m.1.isSome then firstStart x else x
  let x := outRecords s { x with mode := m.1, bpc := m.2.1, enc := m.2.2 }
  match s.wb with
  | none => x
  | some (p, t) => if primary then { x with wbPeriod := p, wbTarget := t } else x

/-- The records of output `o`, for every member of its clone or span group (08 R209, R210). -/
def putOut (h : Hub) (o : Nat) (s : OutStage) : Hub :=
  (membersOf h o).foldl (fun g m => updOut g m (putOutput h s (m == o))) h

/-- A layer record put in place with its source figures (04 R89). -/
def putLayer (t : Txn) (h : Hub) (e : Nat × LayerRec) : Hub :=
  { h with layers := h.layers.upd e.1 fun l =>
      { l with cur := e.2, fig := match t.figs.find e.1 with | none => l.fig | some f => some f } }

/-- A transaction's records that have not applied put in place, with the schedule tables built for them. -/
def overlay (h : Hub) (t : Txn) : Hub :=
  let left {α : Type} (done : List Nat) (l : Tab α) : Tab α := l.filter fun e => !done.contains e.1
  let h := (left t.doneLayers t.layers).foldl (putLayer t) h
  let h := (left t.doneOuts t.outs).foldl (fun h e => putOut h e.1 e.2) h
  let h := (left t.doneDies t.spares).foldl (fun h e => putSpares e.1 e.2 (t.held.find e.1) h) h
  let h := (left t.doneDies t.floors).foldl (fun h e => putFloor e.1 e.2 h) h
  { h with tables := t.tables.foldl (fun tb e => tb.set e.1 e.2) h.tables }

/-- One form of a layer: its record and its source figures. -/
abbrev Form := LayerRec × Option SrcFig

/-- A configuration, with the second forms of layers that carry a fence of an independent transaction (07 R183). -/
structure View where
  h : Hub
  alt : Tab Form

/-- The committed forms of the layers that a transaction in independent mode fences (07 R183). -/
def altForms (h : Hub) (t : Txn) : Tab Form :=
  if !t.indep then []
  else (t.fences.filter fun e => !t.doneLayers.contains e.1).filterMap fun e => match h.layers.find e.1 with | none => none | some l => some (e.1, (l.cur, l.fig))

/-- The configuration after one more transaction. -/
def View.after (v : View) (t : Txn) : View := { h := overlay v.h t, alt := v.alt ++ altForms v.h t }

/-- Transactions that hold a reservation, in the order of their validation (07 R165). -/
def reserved (h : Hub) : List Txn :=
  ((h.txns.map Prod.snd).filter fun t => t.state == .waiting || t.state == .armed).mergeSort fun a b => a.valSeq ≤ b.valSeq

/-- The committed configuration and those that the pending transactions leave one after another (07 R165, R177). -/
def viewsFrom (v : View) : List Txn → List View
  | [] => [v]
  | t :: r => v :: viewsFrom (v.after t) r

/-- A layer record as a transaction found it. -/
def unputLayer (h : Hub) (e : Nat × LayerRec × Option SrcFig) : Hub :=
  { h with layers := h.layers.upd e.1 fun l => { l with cur := e.2.1, fig := e.2.2 } }

/-- The records of an output as a transaction found them. -/
def unputOut (h : Hub) (e : Nat × OldOut) : Hub :=
  updOut h e.1 fun x => { x with
    mode := e.2.mode, bandH := e.2.bandH, wbPeriod := e.2.wbPeriod, wbTarget := e.2.wbTarget, statFrames := e.2.statFrames
    dim := { x.dim with layout := e.2.layout } }

/-- What a transaction found where it has applied: it counts until its last affected output has applied (07 R177). -/
def before (h : Hub) (t : Txn) : View :=
  let h := t.oldOuts.foldl unputOut (t.oldLayers.foldl unputLayer h)
  { h := { h with tables := t.oldTables.foldl (fun tb e => tb.set e.1 e.2) h.tables }, alt := [] }

/-- The configurations in force and those that transactions which hold a reservation leave, and found where they have applied (07 R177). -/
def viewsOf (h : Hub) (ts : List Txn) : List View :=
  viewsFrom { h := h, alt := [] } ts ++ (ts.filter fun t => !t.applied.isEmpty).map (before h)

/-- All the configurations that hold bandwidth now. -/
def heldViews (h : Hub) : List View := viewsOf h (reserved h)

/-- Those in force or to come without another event: WAITING transactions left out (07 R165). -/
def armedViews (h : Hub) : List View := viewsOf h ((reserved h).filter fun t => t.state == .armed)

/-- The configuration that the commits which hold a reservation from before a transaction leave (07 R165). -/
def viewBefore (h : Hub) (t : Txn) : View :=
  ((reserved h).filter fun u => t.state == .opened || u.valSeq < t.valSeq).foldl View.after { h := h, alt := [] }

/-- The configuration after the commit of a transaction and of those that hold a reservation from before it: a later commit is
admitted against the state that includes them (07 R165). -/
def commitView (h : Hub) (t : Txn) : View := (viewBefore h t).after t

/-! ### Geometry of a layer in a tile (07 R168) -/

/-- A rectangle of logical pixels: first and last column, first and last line. -/
abbrev Rect := Nat × Nat × Nat × Nat

/-- The part of a rectangle that a layer's clipped destination covers in a picture of `w` x `hh`. -/
def coverRect (r : LayerRec) (w hh : Nat) (t : Rect) : Option Rect :=
  match clipTo r w hh with
  | none => none
  | some (cx0, cy0, cx1, cy1) =>
    let x0 := max cx0 t.1
    let x1 := min cx1 t.2.1
    let y0 := max cy0 t.2.2.1
    let y1 := min cy1 t.2.2.2
    if x1 < x0 || y1 < y0 then none else some (x0, x1, y0, y1)

/-- A bank as the cost sees it: assigned or not. -/
def costBank (i : Nat) : Option (List (List Int)) := if i = 0xFF then none else some []

/-- Destination positions of a covered rectangle on both axes: first and last k. -/
def destSpan (r : LayerRec) (t : Rect) : (Nat × Nat) × (Nat × Nat) :=
  let k (v : Nat) (d : Int) : Nat := ((v : Int) - d).toNat
  ((k t.1 r.dstX, k t.2.1 r.dstX), (k t.2.2.1 r.dstY, k t.2.2.2 r.dstY))

/-- ⌈v ÷ 16⌉. -/
def c16 (v : Nat) : Nat := ceilDiv v 16

/-! ### Cycles (07 R174) -/

/-- Is the format A_8 or A_8_C? -/
def isA8 (fmt : Nat) : Bool := baseCode fmt == 8

/-- Cycles of one form of a layer in a covered rectangle, with `len` words of program (07 R174). -/
def formCycles (f : Form) (len : Nat) (t : Rect) : Nat :=
  let r := f.1
  let p := (t.2.1 - t.1 + 1) * (t.2.2.2 - t.2.2.1 + 1)
  let extra := b2n (r.preLut ≠ 0xFF) + b2n r.gamut.isSome
  let early := bit r.scaler 0
  match f.2 with
  | none => 64 + b2n (premulRuns r false true) * c16 p + len * c16 p + c16 p
  | some g =>
    let q := fmtD g.fmt
    let ((kx0, kx1), (ky0, ky1)) := destSpan r t
    let (sw, sh) := rotSize r
    let hb := costBank r.hBank
    let vb := costBank r.vBank
    let (hl, hh) := axisRange hb sw r.dstW kx0 kx1
    let (vl, vh) := axisRange vb sh r.dstH ky0 ky1
    let ns := hh - hl + 1
    let nl := vh - vl + 1
    let u := 1 + b2n (q.sx = 2) + b2n q.ycc + (if early then 0 else extra)
    let v := b2n (premulRuns r (isA8 g.fmt) false) + (if early then extra else 0)
    64 + u * c16 (ns * nl) +
      (if axisSkipped vb sh r.dstH then 0 else c16 (ns * (t.2.2.2 - t.2.2.1 + 1))) +
      (if axisSkipped hb sw r.dstW then 0 else c16 p) + v * c16 p + len * c16 p + c16 p

/-! ### Fetch bytes (07 R168-R172) -/

/-- The source rectangle of a covered rectangle: source columns and lines (07 R168). -/
def sourceRect (r : LayerRec) (t : Rect) : Rect :=
  let ((kx0, kx1), (ky0, ky1)) := destSpan r t
  let (sw, sh) := rotSize r
  let (ul, uh) := axisSource (costBank r.hBank) sw r.dstW kx0 kx1
  let (vl, vh) := axisSource (costBank r.vBank) sh r.dstH ky0 ky1
  let (a0, b0) := unrotate r ul vl
  let (a1, b1) := unrotate r uh vh
  (r.cropX + min a0 a1, r.cropX + max a0 a1, r.cropY + min b0 b1, r.cropY + max b0 b1)

/-- Lines of an interval that are not in the interval of the previous band, where lines are reused (07 R170). -/
def newLines (reuse : Bool) (iv : Nat × Nat) (prev : Option (Nat × Nat)) : Nat :=
  let n := iv.2 + 1 - iv.1
  match prev with
  | none => n
  | some p => if reuse then n - (min iv.2 p.2 + 1 - max iv.1 p.1) else n

/-- Bytes of pixels `a` to `b` of a line, rounded outward to 64-byte boundaries (07 R169). -/
def lineBytes (word a b : Nat) : Nat := (ceilDiv ((b + 1) * word) 64 - a * word / 64) * 64

/-- A range of luma positions as chroma positions, widened and clamped to a plane of `n` positions (07 R169). -/
def chromaRange (sub n a b : Nat) : Nat × Nat := if sub = 2 then (a / 2 - 1, min (b / 2 + 1) (n / 2 - 1)) else (a, b)

/-- The source bytes of one form of a layer in a tile, given what it covered of the previous band in that column (07 R169-R171). -/
def formBytes (r : LayerRec) (g : SrcFig) (t : Rect) (prev : Option Rect) : Nat :=
  let q := fmtD g.fmt
  let s := sourceRect r t
  let p := prev.map (sourceRect r)
  let reuse := !bit r.transform 0
  if q.crated then
    let rows (u : Rect) : Nat × Nat := (u.2.2.1 / 4, u.2.2.2 / 4)
    let n := s.2.1 / 64 - s.1 / 64 + 1
    newLines reuse (rows s) (p.map rows) * ((g.planes.getD 0 (0, 0)).2 + 64 * min g.budget (n * gRaw g.fmt))
  else
    let plane (i : Nat) : Nat :=
      let (sx, sy, word) := if i = 0 then (1, 1, q.bpp) else (q.sx, q.sy, q.word1)
      let (xa, xb) := chromaRange sx g.width s.1 s.2.1
      let ys (u : Rect) : Nat × Nat := chromaRange sy g.height u.2.2.1 u.2.2.2
      lineBytes word xa xb * newLines reuse (ys s) (p.map ys)
    if g.fmt = 0x0009 then plane 0 else ((List.range q.planes).map plane).sum

/-! ### Composing pipes -/

/-- The pipes of a die that compose, each with the logical column of its left edge: an active lone or sync-group output, every
active span member, and the first member of an active clone group on the die (08 R209, R210). -/
def pipesOf (h : Hub) (d : Nat) : List (Nat × Nat) :=
  ((List.range 4).map (· + 4 * d)).filterMap fun o =>
    let x := getOut h o
    match x.mode with
    | none => none
    | some e =>
      if x.grp = 2 then some (o, x.index * e.hActive)
      else if x.grp = 1 && ((membersOf h x.primary).find? fun m => m / 4 == d) ≠ some o then none
      else some (o, 0)

/-- The forms of the layers of a pipe's list that count: those that are enabled. -/
def formsOf (v : View) (o : Nat) : List (Nat × List Form) :=
  (v.h.layers.filter fun e => e.2.out == listOf v.h o).filterMap fun e =>
    let fs := ((e.2.cur, e.2.fig) :: (v.alt.filter fun a => a.1 == e.1).map Prod.snd).filter fun f => f.1.enable
    if fs.isEmpty then none else some (e.1, fs)

/-- A form's source figures, none for a solid layer. -/
def solidForm (f : Form) : Form := if f.1.source = 0 then (f.1, none) else f

/-- Words of the program that a form selects (its slot lies on the layer's die). -/
def progLen (h : Hub) (k : Nat) (r : LayerRec) : Nat :=
  if r.prog = 0xFFFF then 0 else match h.progs.find (k / 1024 * 256 + r.prog) with | none => 0 | some p => p.words.length

/-- Has a pipe zones (09 R237)? -/
def hasZones (x : Output) : Bool := x.dim.layout.mode != 0

/-- The rectangle of tile (b, t) in logical columns. -/
def tileRect (e : ModeEntry) (bh xo b t : Nat) : Rect :=
  (xo + 256 * t, xo + 256 * t + colWidth e t - 1, bh * b, bh * b + bandLines e bh b - 1)

/-- The base cost of tile (b, t) (07 R174). -/
def baseCycles (x : Output) (e : ModeEntry) (b t : Nat) : Nat :=
  let n := colWidth e t * bandLines e x.bandH b
  256 + 2 * c16 n + (if hasZones x then c16 n else 0)

/-- The cache-scan cost of tile (b, t) (08 R219). -/
def cacheCycles (x : Output) (e : ModeEntry) (b t : Nat) : Nat :=
  baseCycles x e b t + 64 + c16 (colWidth e t * bandLines e x.bandH b)

/-- The largest of a list of numbers. -/
def maxOf (l : List Nat) : Nat := l.foldl max 0

/-- The composed cycles of tile (b, t) (07 R174, R183). -/
def tileCycles (v : View) (o xo : Nat) (e : ModeEntry) (b t : Nat) : Nat :=
  let x := getOut v.h o
  let w := logicalW v.h (listOf v.h o) e
  baseCycles x e b t + ((formsOf v o).map fun kf =>
    maxOf (kf.2.map fun f => match coverRect f.1 w e.vActive (tileRect e x.bandH xo b t) with
      | none => 0
      | some rc => formCycles (solidForm f) (progLen v.h kf.1 f.1) rc)).sum

/-- Has an output a cache frame (08 R218)? -/
def hasCache (x : Output) : Bool := x.cls ≠ 0 || x.statFrames ≠ 0

/-- The pitch of a cache frame (08 R218). -/
def cachePitch (e : ModeEntry) : Nat := ceilDiv (8 * e.hActive) 64 * 64

/-- Granules of a cache frame. -/
def cacheNeed (e : ModeEntry) : Nat := ceilDiv (cachePitch e * e.vActive) granBytes

/-- The band time in µs (01 R12), divided by 1.001 while genlock is enabled (08 R213). -/
def bandTime (h : Hub) (o : Nat) (e : ModeEntry) : Rat :=
  let x := getOut h o
  let g := (getOut h (if x.grp = 0 then o else x.primary)).gen.on
  let t : Rat := ((hTotal e * x.bandH * e.pllP : Nat) : Rat) / ((54 * e.pllN : Nat) : Rat)
  if g then t * 1000 / 1001 else t

/-- The frame period in µs. -/
def frameUs (e : ModeEntry) : Rat := ((hTotal e * vTotal e * e.pllP : Nat) : Rat) / ((27 * e.pllN : Nat) : Rat)

/-- Worst-case cycles of column t over the bands: composed, and with the cache scan where the output has a cache frame
(07 R175, 08 R219). -/
def columnCycles (v : View) (o xo : Nat) (e : ModeEntry) (t : Nat) : Nat × Nat :=
  let x := getOut v.h o
  let bs := List.range (bandsOf e x.bandH)
  let c := maxOf (bs.map fun b => tileCycles v o xo e b t)
  (c, if hasCache x then max c (maxOf (bs.map fun b => cacheCycles x e b t)) else c)

/-- Bytes charged to band b from each die, with the engines of the columns (07 R169-R173, R183). -/
def bandFetch (v : View) (o xo : Nat) (e : ModeEntry) (eng : List Nat) (b : Nat) : List (Nat × Nat) :=
  let x := getOut v.h o
  let w := logicalW v.h (listOf v.h o) e
  let cols := List.range (tileCols e)
  let cov (f : Form) (b t : Nat) : Option Rect := coverRect f.1 w e.vActive (tileRect e x.bandH xo b t)
  let one (k d : Nat) (f : Form) : Nat :=
    match (solidForm f).2 with
    | none => 0
    | some g =>
      let src := if g.die ≠ d then 0 else
        (cols.map fun t => match cov f b t with
          | none => 0
          | some rc => formBytes f.1 g rc (if b = 0 then none else cov f (b - 1) t)).sum
      let mine := cols.filter fun t => (cov f b t).isSome
      let first := !mine.isEmpty && (b = 0 || mine.all fun t => (cov f (b - 1) t).isNone)
      let n := (mine.map fun t => eng.getD t (24 + t)).eraseDups.length
      let items :=
        (if d = o / 4 then (if f.1.preLut ≠ 0xFF then 6166 else 0) +
            (if f.1.prog ≠ 0xFFFF then 4 * progLen v.h k f.1 + 64 else 0) else 0) +
        (if g.fmt = 0x0009 && g.die = d then 1024 else 0)
      src + (if first then n * items else 0)
  let prog (k d : Nat) (f : Form) : Nat :=
    -- a solid layer fetches nothing but its program
    if (solidForm f).2.isSome || f.1.prog = 0xFFFF || d ≠ o / 4 then 0
    else
      let mine := cols.filter fun t => (cov f b t).isSome
      if !mine.isEmpty && (b = 0 || mine.all fun t => (cov f (b - 1) t).isNone) then
        (mine.map fun t => eng.getD t (24 + t)).eraseDups.length * (4 * progLen v.h k f.1 + 64)
      else 0
  (List.range 8).map fun d =>
    (d, ((formsOf v o).map fun kf => maxOf (kf.2.map fun f => one kf.1 d f + prog kf.1 d f)).sum)

/-! ### Schedule tables (04 R92, R93) -/

/-- Engines in service on a die. -/
def inService (h : Hub) (d : Nat) : List Nat := (List.range 24).filter (bit (getDie h d).srv.engIn)

/-- Insertion into the order of R93: demand descending, then output, then column. -/
def insertDemand (a : Rat × Nat × Nat) : List (Rat × Nat × Nat) → List (Rat × Nat × Nat)
  | [] => [a]
  | b :: r =>
    if b.1 < a.1 || (b.1 == a.1 && (a.2.1 < b.2.1 || (a.2.1 = b.2.1 && a.2.2 < b.2.2))) then a :: b :: r
    else b :: insertDemand a r

/-- The least loaded engine; ties go to the lowest. -/
def leastLoaded (loads : List (Nat × Rat)) : Option (Nat × Rat) :=
  loads.foldl (fun best e => match best with | none => some e | some b => if e.2 < b.2 then some e else some b) none

/-- One column placed (04 R93). -/
def placeColumn (st : List (Nat × Rat) × Tab (List Nat)) (c : Rat × Nat × Nat) : List (Nat × Rat) × Tab (List Nat) :=
  match leastLoaded st.1 with
  | none => st
  | some (e, _) =>
    (st.1.map fun l => if l.1 = e then (e, l.2 + c.1) else l,
     st.2.upd c.2.1 fun cols => cols.set c.2.2 e)

/-- The schedule table of a die under a configuration (04 R93). -/
def buildTable (v : View) (d : Nat) : Tab (List Nat) :=
  let ps := pipesOf v.h d
  let cells := ps.flatMap fun p =>
    match (getOut v.h p.1).mode with
    | none => []
    | some e => (List.range (tileCols e)).map fun t =>
        (((columnCycles v p.1 p.2 e t).2 : Rat) / bandTime v.h p.1 e, p.1, t)
  let blank : Tab (List Nat) := ps.map fun p =>
    (p.1, match (getOut v.h p.1).mode with | none => [] | some e => List.replicate (tileCols e) 0xFF)
  ((cells.foldl (fun l c => insertDemand c l) []).foldl placeColumn ((inService v.h d).map fun e => (e, 0), blank)).2

/-! ### Figures of the pipes -/

/-- What a pipe demands under a configuration. -/
structure Fig where
  out : Nat
  cls : Nat
  group : Nat
  /-- demand of each column, Mcycles/s (07 R175) -/
  cols : List Rat
  /-- demand of all columns -/
  total : Rat
  /-- F(o, d) in MB/s, by die (07 R173) -/
  fetch : List (Nat × Rat)
  /-- composed fetch from the output's own die, MB/s -/
  home : Rat
  /-- composed cycle demand, Mcycles/s -/
  composed : Rat
  /-- cache write reservation, MB/s (08 R219) -/
  cacheW : Rat
  /-- cache-scan cycle demand, Mcycles/s -/
  cacheK : Rat
  /-- write-back stream 1: target's die, group of its owner, MB/s; the old and the new one where they charge different dies or groups -/
  wb : List (Nat × Nat × Rat)
  /-- zone store reservation, MB/s (09 R242) -/
  zone : Rat
  /-- zones of the die's pool (09 R238, R239) -/
  zones : Nat
  /-- bytes of band buffer (01 R13) -/
  band : Nat
  /-- granules of its cache frame -/
  granules : Nat

/-- Share group of the owner of an output's list; group 0 where it has none (DESIGN CHOICE, log 81). -/
def groupOfOut (h : Hub) (o : Nat) : Nat := match listOwner h (listOf h o) with | none => 0 | some c => (getCtx h c).group

/-- Converted bytes of one band of write-back stream 1: row bytes of the target, or a quarter of a crate row's maximum, for each
line (08 R219). -/
def wbBand (s : Surf) (bh : Nat) : Rat :=
  let f := fmtD s.fmt
  if f.crated then (((s.planes.getD 0 (0, 0)).2 + 64 * s.budget : Nat) : Rat) * bh / 4
  else ((rowBytes f s.width 0 * bh : Nat) : Rat)

/-- Zones that a pipe's die holds for its layout (09 R238, R239). -/
def zoneCount (h : Hub) (o : Nat) : Nat :=
  let x := getOut h o
  if !hasZones x then 0
  else if x.grp = 2 then x.dim.layout.cols / (membersOf h x.primary).length * x.dim.layout.rows
  else x.dim.layout.cols * x.dim.layout.rows

/-- Zone columns of a pipe's own part. -/
def zoneCols (h : Hub) (o : Nat) : Nat :=
  let x := getOut h o
  if x.grp = 2 then x.dim.layout.cols / (membersOf h x.primary).length else x.dim.layout.cols

/-- P_z of a pipe (09 R241). -/
def zonePairs (h : Hub) (o : Nat) (e : ModeEntry) : Nat :=
  let x := getOut h o
  if hasZones x then x.dim.layout.rows * (zoneCols h o + tileCols e - 1) else 0

/-- The largest of a list of rationals that are not negative. -/
def maxRat (l : List Rat) : Rat := l.foldl (fun a b => if a < b then b else a) 0

/-- The sum of a list of rationals. -/
def sumRat (l : List Rat) : Rat := l.foldl (· + ·) 0

/-- The figures of one pipe. -/
def figOf (v : View) (o xo : Nat) (e : ModeEntry) : Fig :=
  let x := getOut v.h o
  let bt := bandTime v.h o e
  let d := o / 4
  let bands := List.range (bandsOf e x.bandH)
  let eng := v.h.tables.get o []
  let perBand := bands.map fun b => (b, bandFetch v o xo e eng b)
  let comp (s : Nat) : Nat := maxOf (perBand.map fun p => ((p.2.find? fun q => q.1 == s).map Prod.snd).getD 0)
  let withCache : Nat := maxOf (perBand.map fun p =>
    max (((p.2.find? fun q => q.1 == d).map Prod.snd).getD 0) (cachePitch e * bandLines e x.bandH p.1))
  let cc := (List.range (tileCols e)).map fun t => columnCycles v o xo e t
  let ks := (List.range (tileCols e)).map fun t => maxOf (bands.map fun b => cacheCycles x e b t)
  let cache := hasCache x
  { out := o, cls := x.cls, group := groupOfOut v.h o
    cols := cc.map fun c => (c.2 : Rat) / bt
    total := sumRat (cc.map fun c => (c.2 : Rat) / bt)
    fetch := (List.range 8).map fun s => (s, ((if cache && s = d then withCache else comp s : Nat) : Rat) / bt)
    home := (comp d : Rat) / bt
    composed := ((cc.map Prod.fst).sum : Rat) / bt
    cacheW := if cache then ((cachePitch e * x.bandH : Nat) : Rat) / bt else 0
    cacheK := if cache then (ks.sum : Rat) / bt else 0
    wb := if x.wbPeriod = 0 || x.grp = 2 then []
      else match entryOf v.h x.wbTarget with
        | none => []
        | some s => [(s.region / 256, (getCtx v.h s.owner).group, wbBand s x.bandH / bt)]
    zone := ((256 * zonePairs v.h o e : Nat) : Rat) / frameUs e
    zones := zoneCount v.h o
    band := bandBytes e x.bandH
    granules := if cache then cacheNeed e else 0 }

/-- The figures of every pipe of a configuration. -/
def figsOf (v : View) : List Fig :=
  (List.range 8).flatMap fun d => (pipesOf v.h d).filterMap fun p =>
    match (getOut v.h p.1).mode with | none => none | some e => some (figOf v p.1 p.2 e)

/-- The larger of two rationals. -/
def maxR (a b : Rat) : Rat := if a < b then b else a

/-- A write-back stream joined to others: the larger where they charge one die and group, otherwise both (07 R177). -/
def joinStream (l : List (Nat × Nat × Rat)) (w : Nat × Nat × Rat) : List (Nat × Nat × Rat) :=
  if l.any fun v => v.1 == w.1 && v.2.1 == w.2.1 then
    l.map fun v => if v.1 = w.1 && v.2.1 = w.2.1 then (v.1, v.2.1, maxR v.2.2 w.2.2) else v
  else l ++ [w]

/-- The larger of the old and new figures of one pipe (07 R177); its columns stand in the figures of each configuration. -/
def Fig.join (a b : Fig) : Fig :=
  { b with
    total := maxR a.total b.total
    fetch := (List.range 8).map fun s =>
      (s, maxR (((a.fetch.find? fun q => q.1 == s).map Prod.snd).getD 0) (((b.fetch.find? fun q => q.1 == s).map Prod.snd).getD 0))
    home := maxR a.home b.home
    composed := maxR a.composed b.composed
    cacheW := maxR a.cacheW b.cacheW
    cacheK := maxR a.cacheK b.cacheK
    wb := b.wb.foldl joinStream a.wb
    zone := maxR a.zone b.zone
    zones := max a.zones b.zones
    band := max a.band b.band
    granules := max a.granules b.granules }

/-- A figure joined into a list. -/
def joinFig (l : List Fig) (f : Fig) : List Fig :=
  if l.any fun g => g.out == f.out then l.map fun g => if g.out = f.out then g.join f else g else l ++ [f]

/-- Load that the columns of pipe `o` put on an engine of its die under one configuration; `prot`: only where it is PROTECTED. -/
def pipeLoad (h : Hub) (fs : List Fig) (o e : Nat) (prot : Bool) : Rat :=
  match fs.find? fun f => f.out == o && (!prot || f.cls == 0) with
  | none => 0
  | some f => sumRat ((f.cols.zipIdx.filter fun c => (h.tables.get o []).getD c.2 0xFF == e).map Prod.fst)

/-- Load of engine `e` of die `d`: each pipe at its largest load over the configurations (07 R177). -/
def engineLoad (per : List (View × List Fig)) (d e : Nat) (prot : Bool) : Rat :=
  sumRat ((List.range 4).map fun p => maxRat (per.map fun v => pipeLoad v.1.h v.2 (4 * d + p) e prot))

/-- The output whose columns alone make up an engine's work, or 0xFF (07 R167). -/
def soleOutput (vs : List View) (d e : Nat) (prot : Bool) : Nat :=
  let os := (vs.flatMap fun v => ((pipesOf v.h d).filter fun p =>
    (v.h.tables.get p.1 []).contains e && (!prot || (getOut v.h p.1).cls == 0)).map Prod.fst).eraseDups
  match os with | [o] => o | _ => 0xFF

/-- What a set of configurations demands, the larger figure of each (07 R177). -/
structure Demand where
  views : List View
  figs : List Fig
  /-- load of each engine, by 24 x die + engine: all work, and PROTECTED work -/
  loads : List (Nat × Rat × Rat)

/-- The demand of configurations. -/
def demandOf (vs : List View) : Demand :=
  let per := vs.map fun v => (v, figsOf v)
  { views := vs
    figs := per.foldl (fun l p => p.2.foldl joinFig l) []
    loads := (List.range 192).map fun k =>
      (k, engineLoad per (k / 24) (k % 24) false, engineLoad per (k / 24) (k % 24) true) }

/-! ### Routes and reservations (14 R383, R384; 13 R356) -/

/-- The link directions that bytes from die s to die t cross, with their part of the bytes (14 R384). -/
def route (part s t : Nat) : List (Nat × Nat × Rat) :=
  if s = t then []
  else if part = 2 then [(s, 0, 1 / 2), (s, 1, 1 / 2)]
  else if part = 4 then [(s, (t + 4 - s) % 4 - 1, 1)]
  else match (t + 8 - s) % 8 with
    | 1 => [(s, 0, 1)]
    | 7 => [(s, 1, 1)]
    | 4 => [(s, 2, 1)]
    | 2 => [(s, 0, 1), ((s + 1) % 8, 0, 1)]
    | 6 => [(s, 1, 1), ((s + 7) % 8, 1, 1)]
    | 3 => [(s, 2, 1), ((s + 4) % 8, 1, 1)]
    | _ => [(s, 2, 1), ((s + 4) % 8, 0, 1)]

/-- A reservation: from die, to die, share group, MB/s. -/
abbrev Resv := Nat × Nat × Nat × Rat

/-- The reservation of a camera stream on a port of die `d` (13 R356). -/
def camResv (d : Nat) (c : CamCfg) : Resv := (d, c.die, c.group, ((c.wLine * 1000 : Nat) : Rat) / (c.lineNs : Rat))

/-- The larger of two reservations where they charge the same dies and group; otherwise both. -/
def joinResv (a b : Resv) : List Resv :=
  if a.1 = b.1 && a.2.1 = b.2.1 && a.2.2.1 = b.2.2.1 then [(a.1, a.2.1, a.2.2.1, maxR a.2.2.2 b.2.2.2)] else [a, b]

/-- The reservations of the camera streams that run. -/
def camResvs (h : Hub) : List Resv :=
  h.ports.flatMap fun p => match p.2.cam, p.2.camNext with
    | some c, none => [camResv (p.1 / 8) c]
    | some c, some n => joinResv (camResv (p.1 / 8) c) (camResv (p.1 / 8) n)
    | none, some n => [camResv (p.1 / 8) n]
    | none, none => []

/-- Fetch of a pipe from a die. -/
def Fig.from (f : Fig) (s : Nat) : Rat := ((f.fetch.find? fun q => q.1 == s).map Prod.snd).getD 0

/-- Reservations of one pipe on die `d`: cache frame, stream 1 and zone store; with the group each charges. -/
def Fig.resvs (f : Fig) (d : Nat) : List (Nat × Rat) :=
  (if f.out / 4 = d then [(f.group, f.cacheW), (f.group, f.zone)] else []) ++
  (f.wb.filter fun w => w.1 == d).map Prod.snd

/-- Bytes on a link direction (07 R173, 08 R219, 13 R356). -/
def linkDemand (h : Hub) (dm : Demand) (cams : List Resv) (d l : Nat) : Rat :=
  let part (s t : Nat) : Rat :=
    sumRat (((route h.pkg.part s t).filter fun q => q.1 == d && q.2.1 == l).map fun q => q.2.2)
  sumRat (dm.figs.map fun f =>
    sumRat ((List.range 8).map fun s => f.from s * part s (f.out / 4)) +
    sumRat (f.wb.map fun w => w.2.2 * part (f.out / 4) w.1)) +
  sumRat (cams.map fun c => c.2.2.2 * part c.1 c.2.1)

/-- Admission bandwidth of a die in MB/s (14 R381). -/
def dieBandwidth (h : Hub) (d : Nat) : Rat :=
  let a : Rat := ((128 * h.pkg.mts : Nat) : Rat) / 10
  if bit h.pkg.ecc d then a * 31 / 32 else a

/-- Demand of test 1. -/
def dieDemand (dm : Demand) (cams : List Resv) (d : Nat) : Rat :=
  64 + sumRat (dm.figs.map fun f => f.from d + sumRat ((f.resvs d).map Prod.snd)) +
    sumRat ((cams.filter fun c => c.2.1 == d).map fun c => c.2.2.2)

/-- Demand of test 5 for a share group. -/
def groupDemand (dm : Demand) (cams : List Resv) (d g : Nat) : Rat :=
  sumRat (dm.figs.map fun f => (if f.group = g then f.from d else 0) +
    sumRat (((f.resvs d).filter fun r => r.1 == g).map Prod.snd)) +
  sumRat ((cams.filter fun c => c.2.1 == d && c.2.2.1 == g).map fun c => c.2.2.2)

/-- Demand of test 6 for a share group. -/
def groupCycles (dm : Demand) (d g : Nat) : Rat :=
  sumRat ((dm.figs.filter fun f => f.out / 4 == d && f.group == g).map Fig.total)

/-! ### Power (15 R404-R409) -/

/-- Engine clock of a step in Mcycles/s (15 R404; 16 R423: 5 GHz ÷ 4, 5, 6, 8). -/
def stepClock (s : Nat) : Rat := match s with | 0 => 1250 | 1 => 1000 | 2 => 5000 / 6 | _ => 625

/-- base(step) in mW. -/
def stepBase (s : Nat) : Rat := match s with | 0 => 3500 | 1 => 3000 | 2 => 2800 | _ => 2600

/-- e_cyc(step) in mW per Mcycle/s. -/
def stepEnergy (s : Nat) : Rat := match s with | 0 => 333 / 1000 | 1 => 260 / 1000 | 2 => 226 / 1000 | _ => 195 / 1000

/-- The port term of the estimate (15 R404). -/
def portsMw (h : Hub) (d : Nat) : Rat :=
  sumRat ((h.ports.filter fun p => p.1 / 8 == d && p.2.kind ≠ 0).map fun p =>
    let k := p.2.kind
    if p.1 % 8 < 2 then 600
    else if p.1 % 8 = 2 then 400
    else 175 * ((b2n (bit k 0 || bit k 2) + b2n (bit k 1 || bit k 2) : Nat) : Rat))

/-- Update divisor of a class at a rung (15 R405). -/
def rungDivisor (rung cls : Nat) : Nat :=
  match cls with
  | 0 => 1
  | 2 => if rung ≥ 1 then 4 else 1
  | _ => if rung ≥ 5 then 4 else if rung = 4 then 3 else if rung = 3 then 2 else 1

/-- Token pool per tick at a rung (15 R411). -/
def rungPool (rung : Nat) : Nat := if rung ≥ 2 then 200000 else 2000000

/-- Clock step at a rung (15 R405). -/
def rungStep (rung : Nat) : Nat := rung - 5

/-- The estimate E of a die in mW at a clock step (15 R404), with every die at the rung that `rungs` gives it: other dies' outputs, whose
fetch and stream 1 also reach its memory, have the divisors of their own dies. -/
def estimateAt (h : Hub) (dm : Demand) (cams : List Resv) (d : Nat) (rungs : Nat → Nat) (step : Nat) : Rat :=
  let mine (f : Fig) : Bool := f.out / 4 == d
  let rungOf (f : Fig) : Nat := rungs (f.out / 4)
  let q (f : Fig) : Rat := ((rungDivisor (rungOf f) f.cls : Nat) : Rat)
  let bytes :=
    64 + sumRat ((cams.filter fun c => c.2.1 == d).map fun c => c.2.2.2) +
    sumRat (dm.figs.map fun f =>
      (if f.cls = 0 then f.from d
       else if mine f then f.home / q f + f.cacheW / q f + f.cacheW * (1 - 1 / q f)
       else f.from d / q f) +
      (if mine f then f.zone else 0) +
      (if rungOf f = 0 then sumRat ((f.wb.filter fun w => w.1 == d).map fun w => w.2.2) else 0))
  let cyc := sumRat ((dm.figs.filter mine).map fun f =>
    if f.cls = 0 then f.total else f.composed / q f + f.cacheK * (1 - 1 / q f))
  stepBase step + portsMw h d + 500 + bytes * 146 / 10000 + stepEnergy step * cyc + (rungPool (rungs d) : Rat) / 2000

/-- The estimate E of a die at a rung of its own, the other dies being at their present ones (15 R404). -/
def estimate (h : Hub) (dm : Demand) (cams : List Resv) (d rung step : Nat) : Rat :=
  estimateAt h dm cams d (fun k => if k = d then rung else (getDie h k).pwr.rung) step

/-- The estimate E that the tests take, which no momentary rung changes: the other dies at rung 0 (15 R409; DESIGN CHOICE, log 81, where the
die's own rung is not 0). -/
def testEstimate (h : Hub) (dm : Demand) (cams : List Resv) (d rung step : Nat) : Rat :=
  estimateAt h dm cams d (fun k => if k = d then rung else 0) step

/-- Does a clock step obey R407 on a die: at or above the floor step, that of every pending commit too, where a PROTECTED output is not
stopped, and at most 0.9 of its clock on every engine in service? -/
def stepAllowed (h : Hub) (dm : Demand) (d s : Nat) : Bool :=
  let prot := dm.figs.any (fun f => f.out / 4 == d && f.cls == 0) ||
    ((List.range 4).any fun p => let x := getOut h (4 * d + p); x.cls == 0 && x.state != .stopped)
  (!prot || (s ≤ (getDie h d).pwr.floor && dm.views.all fun v => s ≤ (getDie v.h d).pwr.floor)) &&
    dm.loads.all fun l => l.1 / 24 ≠ d || l.2.1 ≤ 9 / 10 * stepClock s

/-- The lowest clock that R407 allows, as its step; 0 where none is. -/
def lowestStep (h : Hub) (dm : Demand) (d : Nat) : Nat :=
  if !stepAllowed h dm d 1 then 0 else if !stepAllowed h dm d 2 then 1 else if !stepAllowed h dm d 3 then 2 else 3

/-- The highest available rung (15 R405). -/
def topRung (h : Hub) (dm : Demand) (d : Nat) : Nat := 5 + lowestStep h dm d

/-- E at the highest available rung (15 R409, test 7). -/
def floorEstimate (h : Hub) (dm : Demand) (cams : List Resv) (d : Nat) : Rat :=
  testEstimate h dm cams d (topRung h dm d) (lowestStep h dm d)

/-! ### The tests (07 R176, 15 R409) -/

/-- Results of a failed test (07 R167): demand rounded up, bound rounded down. -/
def testFail (st die out test what : Nat) (demand bound : Rat) : Option (Nat × Nat × Nat) :=
  if demand ≤ bound then none
  else some (st, die + 256 * out + 65536 * test + 2 ^ 24 * what,
    min demand.ceil.toNat 0xFFFFFFFF + 2 ^ 32 * min bound.floor.toNat 0xFFFFFFFF)

/-- Share groups that have contexts, outputs, surfaces or streams: all 32. -/
def groups : List Nat := List.range 32

/-- Tests 1 to 6 of a die, in their order, under the in-service engines and floor of hub `h`. -/
def dieTests (h : Hub) (dm : Demand) (cams : List Resv) (d : Nat) : List (Option (Nat × Nat × Nat)) :=
  let a := dieBandwidth h d
  let fp := stepClock (getDie h d).pwr.floor
  let n : Rat := ((inService h d).length : Nat)
  let mine := dm.loads.filter fun l => l.1 / 24 == d
  [testFail 0x0501 d 0xFF 1 0 (dieDemand dm cams d) (9 / 10 * a)] ++
  (List.range 3).map (fun l => testFail 0x0502 d 0xFF 2 l (linkDemand h dm cams d l) (9 / 10 * 51200)) ++
  mine.map (fun l => testFail 0x0503 d (soleOutput dm.views d (l.1 % 24) false) 3 (l.1 % 24) l.2.1 1125) ++
  mine.map (fun l => testFail 0x0503 d (soleOutput dm.views d (l.1 % 24) true) 4 (l.1 % 24) l.2.2 (9 / 10 * fp)) ++
  groups.map (fun g =>
    testFail 0x0504 d 0xFF 5 g (groupDemand dm cams d g) (9 / 10 * ((shareOf h d g).bw : Rat) / 256 * a)) ++
  groups.map fun g =>
    testFail 0x0504 d 0xFF 6 g (groupCycles dm d g) (9 / 10 * ((shareOf h d g).cycles : Rat) / 256 * n * fp)

/-- Tests 7 and 8 of a die. -/
def powerTests (h : Hub) (dm : Demand) (cams : List Resv) (d : Nat) : List (Option (Nat × Nat × Nat)) :=
  [testFail 0x0505 d 0xFF 7 0 (floorEstimate h dm cams d) (getDie h d).pwr.floorMw,
   testFail 0x0506 d 0xFF 8 0 (testEstimate h dm cams d 0 0) (getDie h d).pwr.limit]

/-- The package test of energy. -/
def packageTest (h : Hub) (dm : Demand) (cams : List Resv) : Option (Nat × Nat × Nat) :=
  testFail 0x0506 0xFF 0xFF 8 0
    (sumRat ((upDies h).map fun d => testEstimate h dm cams d 0 0) + (if h.pkg.part = 8 then 3000 else 2000)) h.pkg.pkgMw

/-- Bytes of a die's band-buffer pool: 96 banks of 64 KiB, but for those that Survey has retired (01 R13, 17 R449). -/
def bandPool (h : Hub) (d : Nat) : Nat := (96 - (getDie h d).srv.bbRetired) * 65536

/-- The first failure of a list of tests. -/
def firstTest (l : List (Option (Nat × Nat × Nat))) : Option (Nat × Nat × Nat) := (l.find? Option.isSome).join

/-- The admission tests of a new configuration `h` with demand `dm`: tests 1 to 6 on each die in ascending order, each affected die
running its power tests after them, and the package test last (07 R176, 15 R409). -/
def admissionTests (h : Hub) (dm : Demand) (cams : List Resv) (aff : List Nat) : Option (Nat × Nat × Nat) :=
  firstTest ((upDies h).flatMap (fun d => dieTests h dm cams d ++ (if aff.contains d then powerTests h dm cams d else [])) ++
    [packageTest h dm cams])

end Sys2Proof.Machine
end

