-- ==== Sys2Proof/Machine/Compose.lean ====
section
/-!
DEFINITION. What an engine composes: the samples of a layer's source, its pixels through the stage list, and a tile (04 R88, R89,
R96; 05 R117-R129; 06 R146-R149; 03 R62), and what a cache frame holds (08 R218, R221).
-/

namespace Sys2Proof.Machine

/-! ### A source surface -/

/-- A surface as a reader sees it: the entry and the crate rows that the reader walks. -/
structure Reader where
  surf : Surf
  rows : Tab (List Crate × Option (Nat × Nat))

/-- A reader of lines y0 to y0 + n - 1. -/
def readerOf (m : List Host.Cell) (h : Hub) (s : Surf) (y0 n : Nat) : Reader := { surf := s, rows := crateRowsOf m h s y0 n }

/-- The YCbCr matrix of a record for a source (05 R122, R141, R142): a built-in one, or the custom one. -/
def yccMat (r : LayerRec) (fmt : Nat) : Mat := if r.csc < 4 then builtInMat r.csc (yccDepth fmt) else r.ycc

/-- The pixel at crop position (a, b) of a record's crop, unpacked and upsampled (05 R117-R120). -/
def unpackedPx (m : List Host.Cell) (h : Hub) (k : Reader) (r : LayerRec) (a b : Nat) : Px :=
  let s := k.surf
  let f := fmtD s.fmt
  if f.ycc then
    let (cb, cr) :=
      if f.sx = 1 then (chromaAt m h s false (r.cropX + a) (r.cropY + b), chromaAt m h s true (r.cropX + a) (r.cropY + b))
      else (chromaUp m h s r false a b, chromaUp m h s r true a b)
    { b := cb, g := lumaAt m h s (r.cropX + a) (r.cropY + b), r := cr, a := 0x4000 }
  else
    let w := pixelWord m h s k.rows (r.cropX + a) (r.cropY + b)
    if s.fmt = 0x0009 then unpackWord 0x0001 (planeNat m h s 1 (4 * w) 4) (pxOf r.const) else unpackWord s.fmt w (pxOf r.const)

/-- A sample of a source through the YCbCr-to-RGB matrix, which YCbCr formats take (05 R122). -/
def yccStage (s : Surf) (r : LayerRec) (p : Px) : Px := if (fmtD s.fmt).ycc then matPx (yccMat r s.fmt) p else p

/-- The pixel at crop position (a, b) of a record's crop, unpacked, upsampled and, for YCbCr, through the matrix (05 R117-R122). -/
def sourcePx (m : List Host.Cell) (h : Hub) (k : Reader) (r : LayerRec) (a b : Nat) : Px := yccStage k.surf r (unpackedPx m h k r a b)

/-! ### A layer of a frame -/

/-- A layer as an engine composes it: the record, whether it is shown in its fill colour, its source, and the objects that the record
selects. -/
structure Prepared where
  key : Nat
  r : LayerRec
  fill : Bool
  src : Option Reader
  hb : Option (List (List Int))
  vb : Option (List (List Int))
  lut : Option Lut
  prog : Option (List (BitVec 32))

/-- A layer of a frame prepared for a rectangle that it covers. -/
def prepare (m : List Host.Cell) (h : Hub) (l : FrameLayer) (rc : Rect) : Prepared :=
  let d := l.key / 1024
  let r := l.lr
  { key := l.key, r := r, fill := l.fill
    src := if r.source = 0 || l.fill then none else (entryOf h r.source).map fun s =>
      let q := sourceRect r rc
      readerOf m h s q.2.2.1 (q.2.2.2 + 1 - q.2.2.1)
    hb := if r.hBank = 0xFF then none else (h.banks.find (d * 16 + r.hBank)).map Bank.horiz
    vb := if r.vBank = 0xFF then none else (h.banks.find (d * 16 + r.vBank)).map Bank.vert
    lut := if r.preLut = 0xFF then none else (h.luts.find (d * 128 + r.preLut)).map LutSlot.lut
    prog := if r.prog = 0xFFFF then none else (h.progs.find (d * 256 + r.prog)).map Prog.words }

/-- The pre-blend LUT and the gamut matrix (05 R121, R123; 04 R96). -/
def colourStages (l : Prepared) (p : Px) : Px :=
  let p := match l.lut with | none => p | some t => lutPx t 1025 4 p
  match l.r.gamut with | none => p | some g => matPx g p

/-- Does any source pixel of the sample range of (x, y) lie in a crate that the walk shows in fill colour (03 R62)? -/
def rangeFails (k : Reader) (r : LayerRec) (x y : Nat) : Bool :=
  if !(fmtD k.surf.fmt).crated then false
  else
    let q := sourceRect r (x, x, y, y)
    (List.range (q.2.2.2 / 4 - q.2.2.1 / 4 + 1)).any fun i => crateFails k.rows (q.2.2.1 / 4 + i) (q.2.1 / 64)

/-- The pixel that a layer brings to its stages 9 and later at logical (x, y): sampled, scaled and coloured; none in fill colour. -/
def contentPx (m : List Host.Cell) (h : Hub) (l : Prepared) (x y : Nat) : Option (Px × Bool × Bool) :=
  if l.fill then none
  else if l.r.source = 0 then some (pxOf l.r.const, false, true)
  else match l.src with
    | none => none
    | some k =>
      if rangeFails k l.r x y then none
      else
        let early := bit l.r.scaler 0
        let (sw, sh) := rotSize l.r
        let raw (u v : Nat) : Px := let (a, b) := unrotate l.r u v; unpackedPx m h k l.r a b
        let samp (u v : Nat) : Px :=
          let p := yccStage k.surf l.r (fetchedPx sw sh l.r.dstW l.r.dstH raw u v)
          if early then p else colourStages l p
        let p := scalePx l.hb l.vb sw sh l.r.dstW l.r.dstH samp ((x : Int) - l.r.dstX).toNat ((y : Int) - l.r.dstY).toNat
        some (if early then colourStages l p else p, isA8 k.surf.fmt, false)

/-- One layer on the picture beneath it at logical (x, y), in the frame with counter `frame` (04 R88, R89, R96). -/
def layerOnto (m : List Host.Cell) (h : Hub) (frame x y : Nat) (d : Px) (l : Prepared) : Px :=
  match contentPx m h l x y with
  | none => srcOver (pxOf l.r.fill) d
  | some (p, a8, solid) =>
    let p := premul l.r a8 solid p
    let p := match l.prog with | none => p | some ws => runProgram ws p d x y l.r frame
    blendPx l.r p d

/-- Layers in ascending ZPOS (04 R88). -/
def byZpos (ls : List FrameLayer) : List FrameLayer := ls.mergeSort fun a b => a.lr.zpos ≤ b.lr.zpos

/-- The background as a pixel (08 R214). -/
def bgPx (x : Output) : Px := { pxOf x.bg with a := 0x4000 }

/-- Left edge of a pipe in its logical picture (08 R210). -/
def leftEdge (h : Hub) (o : Nat) (e : ModeEntry) : Nat := if (getOut h o).grp = 2 then (getOut h o).index * e.hActive else 0

/-- The pixels of tile (b, t) of pipe `o`, row by row (04 R88). -/
def composeTile (m : List Host.Cell) (h : Hub) (o : Nat) (f : Frame) (e : ModeEntry) (b t : Nat) : List (List Px) :=
  let x := getOut h o
  let w := logicalW h (listOf h o) e
  let rect := tileRect e x.bandH (leftEdge h o e) b t
  let ls := (byZpos f.layers).filterMap fun l => (coverRect l.lr w e.vActive rect).map fun rc => (rc, prepare m h l rc)
  (List.range (rect.2.2.2 + 1 - rect.2.2.1)).map fun j => (List.range (rect.2.1 + 1 - rect.1)).map fun i =>
    let px := rect.1 + i
    let py := rect.2.2.1 + j
    (ls.filter fun l => l.1.1 ≤ px && px ≤ l.1.2.1 && l.1.2.2.1 ≤ py && py ≤ l.1.2.2.2).foldl
      (fun d l => layerOnto m h f.clock px py d l.2) (bgPx x)

/-- The failing crate rows that a tile's layers read: layer, cause, crate row, column of the first failing crate (03 R62, R71). -/
def tileFaults (m : List Host.Cell) (h : Hub) (o : Nat) (f : Frame) (e : ModeEntry) (b t : Nat) : List (Nat × Nat × Nat × Nat) :=
  let x := getOut h o
  let w := logicalW h (listOf h o) e
  let rect := tileRect e x.bandH (leftEdge h o e) b t
  f.layers.flatMap fun l => match coverRect l.lr w e.vActive rect with
    | none => []
    | some rc => match (prepare m h l rc).src with
      | none => []
      | some k => k.rows.filterMap fun r => r.2.2.map fun c => (l.key, c.1, r.1, c.2)

/-- The granules of other dies that a tile's layers read. -/
def tileGrans (h : Hub) (o : Nat) (f : Frame) (e : ModeEntry) (b t : Nat) : List Nat :=
  let x := getOut h o
  let w := logicalW h (listOf h o) e
  let rect := tileRect e x.bandH (leftEdge h o e) b t
  f.layers.flatMap fun l => match coverRect l.lr w e.vActive rect with
    | none => []
    | some rc =>
      if l.fill || l.lr.source = 0 then []
      else match entryOf h l.lr.source with
        | none => []
        | some s =>
          let q := sourceRect l.lr rc
          rectGrans h (o / 4) s q.1 q.2.2.1 (q.2.1 + 1 - q.1) (q.2.2.2 + 1 - q.2.2.1)

/-! ### The cache frame (08 R218) -/

/-- Memory address of the pixel (x, y) of an output's cache frame. -/
def cacheAddr (h : Hub) (o : Nat) (e : ModeEntry) (x y : Nat) : Nat :=
  granAddr (o / 4) (getOut h o).cache (y * cachePitch e + 8 * x)

/-- The pixels of tile (b, t) of the cache frame of pipe `o`. -/
def cacheTile (m : List Host.Cell) (h : Hub) (o : Nat) (e : ModeEntry) (b t : Nat) : List (List Px) :=
  let bh := (getOut h o).bandH
  (List.range (bandLines e bh b)).map fun j => (List.range (colWidth e t)).map fun i =>
    pxOf (leNat (Memory.readBytes m (cacheAddr h o e (256 * t + i) (bh * b + j)) 8))

end Sys2Proof.Machine
end

