-- ==== Sys2Proof/Machine/Lanes.lean ====
section
/-!
DEFINITION. Configurable CRCs and the lanes of the check channels as a pipe sends its lines (10 R265, R267, R268, R270).
-/

namespace Sys2Proof.Machine

/-! ### Configurable CRC (10 R265, R267, R268) -/

/-- The low `w` bits of a number in reverse order. -/
def revBits (w v : Nat) : Nat := ((List.range w).map fun i => b2n (bit v i) * 2 ^ (w - 1 - i)).sum

/-- A lane after one bit of its stream. -/
def crcBit (w poly r : Nat) (b : Bool) : Nat :=
  let s := r * 2 % 2 ^ w
  if bit r (w - 1) != b then s ^^^ poly else s

/-- A lane after bytes of its stream. -/
def crcFeed (w poly : Nat) (refin : Bool) (r : Nat) (bs : Bytes) : Nat :=
  bs.foldl (fun r v => (List.range 8).foldl (fun r i => crcBit w poly r (bit v.toNat (if refin then i else 7 - i))) r) r

/-- The value of a lane at the end of a frame. -/
def crcOut (w : Nat) (refout xorout : Bool) (r : Nat) : Nat :=
  let r := if refout then revBits w r else r
  if xorout then r ^^^ (2 ^ w - 1) else r

/-- The configuration of the frame and link channels. -/
def linkCfg : ChkCfg := { flags := 0x1D, width := 32, x := 0, y := 0, w := 65536, h := 65536, poly := 0x04C11DB7, init := 0xFFFFFFFF }

/-- The configuration of a channel in force, if it is enabled. -/
def chanCfg (cfg : Tab ChkCfg) (ch : Nat) : Option ChkCfg := if ch = 16 || ch = 17 then some linkCfg else cfg.find ch

/-- The value that a channel reports for a lane. -/
def chanValue (k : ChkCfg) (r : Nat) : Nat := crcOut k.width (bit k.flags 3) (bit k.flags 4) r

/-- The six bytes of a pixel: red, green and blue words. -/
def chkBytes (p : Nat × Nat × Nat) : Bytes := leBytes 2 p.1 ++ leBytes 2 p.2.1 ++ leBytes 2 p.2.2

/-- Every lane after a line that the pipe sent: its codes and the blended pixels. -/
def feedLine (y : Nat) (packed : List (Nat × Nat × Nat)) (blended : List Px) (c : Chk) : Chk :=
  let chans := (c.cfg.map Prod.fst) ++ [16, 17]
  { c with lanes := chans.foldl (fun t ch => match chanCfg c.cfg ch with
      | none => t
      | some k =>
        if y < k.y || y ≥ k.y + k.h then t
        else
          let bs := if bit k.flags 1
            then ((blended.drop k.x).take k.w).flatMap fun p => chkBytes (p.r, p.g, p.b)
            else ((packed.drop k.x).take k.w).flatMap chkBytes
          t.set ch (crcFeed k.width k.poly (bit k.flags 2) (t.get ch k.init) bs)) c.lanes }

/-- Every lane after the line that the pipe was sending, now sent whole. -/
def lineSentWhole (c : Chk) : Chk := match c.cur with | none => c | some l => { feedLine l.1 l.2.1 l.2.2 c with cur := none }

/-- Every lane after the first `n` pixels of that line, where the port stops sending (10 R270). -/
def linePart (n : Nat) (c : Chk) : Chk :=
  match c.cur with | none => c | some l => { feedLine l.1 (l.2.1.take n) (l.2.2.take n) c with cur := none }

end Sys2Proof.Machine
end

