-- ==== Sys2Proof/Machine/Modulator.lean ====
section
/-!
DEFINITION. The ramp of a display PLL and the modulator that drives its feedback divider while a ramp runs (16 R428-R431).
-/

namespace Sys2Proof.Machine

/-- The spread-spectrum offset `ns` after the ramp's start (16 R429). -/
def spreadAt (p : Pll) (ns : Nat) : Nat :=
  let top := roundDiv (p.n * p.used.2.1 * 2 ^ 24) 10000
  let x := ns * (60 + p.used.2.2.1) % 2000000
  if x ≤ 1000000 then top * x / 1000000 else top * (2000000 - x) / 1000000

/-- The effective divider in reference cycle `k` of a ramp, in units of 2^-24: spread and genlock slew add (16 R429). -/
def nEff (p : Pll) (k : Nat) : Int :=
  ((2 ^ 24 * p.n : Nat) : Int) - (p.frac + ((if p.rampAt.isSome then spreadAt p (k * 1000 / 27) else 0 : Nat) : Int))

/-- A step of the LFSR (16 R430). -/
def lfsrStep (x : Nat) : Nat := if x % 2 = 1 then (x / 2) ^^^ 0xB400 else x / 2

/-- One reference cycle of the modulator (16 R430). -/
def modStep (n : Int) (m : PllMod) : PllMod :=
  let v := n + (m.lfsr % 2 : Nat) + 2 * m.e1 - m.e2
  let q := v / 2 ^ 24
  { m with cycles := m.cycles + 1, e2 := m.e1, e1 := v - q * 2 ^ 24, q := q.toNat, lfsr := lfsrStep m.lfsr }

/-- A number of reference cycles. -/
def runMod (p : Pll) : Nat → PllMod → PllMod
  | 0, m => m
  | k + 1, m => runMod p k (modStep (nEff p m.cycles) m)

/-- Rising edges of REFCLK_VID up to an instant: the ramp's first falls between 18 and 19 ns after its start (16 R428, R429), and
27 follow in 1 µs. -/
def refEdges (start now : Nat) : Nat := if now < start + 18 then 0 else (now - start - 18) * 27 / 1000 + 1

/-- The modulator of a PLL at an instant. -/
def modNow (p : Pll) (now : Nat) : Option PllMod := p.mod.map fun m => runMod p (refEdges m.start now - m.cycles) m

/-- A ramp of a PLL starts, goes on with other settings, or ends: one that starts loads the LFSR (16 R430). -/
def setRamp (on : Bool) (now : Nat) (f : Pll → Pll) (p : Pll) : Pll :=
  let m := (modNow p now).getD { start := now, lfsr := p.used.2.2.2 }
  { f p with ramp := on, mod := if on then some m else none }

end Sys2Proof.Machine
end

