-- ==== Sys2Proof/Machine/PortBase.lean ====
section
/-!
DEFINITION. Ports as outputs use them: which port carries an output, what a port can carry, its state changes and its link
configuration (08 R197, R205; 13 R330, R340, R359, R373).
-/

namespace Sys2Proof.Machine

/-- Port `k` (die * 8 + code). -/
def getPort (h : Hub) (k : Nat) : Port := h.ports.get k {}

/-- The hub with `f` applied to port `k`. -/
def updPort (h : Hub) (k : Nat) (f : Port → Port) : Hub := { h with ports := h.ports.set k (f (getPort h k)) }

/-- Is the code a Traverse port's? -/
def isTv (k : Nat) : Bool := k % 8 ≥ 4

/-- Is the code that of DP_0 or DP_1? -/
def isDp (k : Nat) : Bool := k % 8 < 2

/-- The port to which an output is bound. -/
def outPort (h : Hub) (o : Nat) : Option Nat := if (getOut h o).port = 0xFF then none else some (o / 4 * 8 + (getOut h o).port)

/-- The output bound to a port. -/
def portOut (h : Hub) (k : Nat) : Option Nat :=
  ((List.range 4).map (· + k / 8 * 4)).find? fun o => (getOut h o).port == k % 8

/-- Does a port carry no data or commands because it has no kind (13 R330)? -/
def portOff (p : Port) : Bool := p.kind == 0

/-- STATE code (13 R372). -/
def linkCode (s : LinkState) : Nat :=
  match s with
  | .off => 0
  | .seek => 1
  | .adapt => 2
  | .wait => 3
  | .up => 4
  | .weak => 5
  | .alone => 6
  | .deep => 7
  | .loop => 8
  | .down => 9

/-- Contexts that receive the events of a port (13 R373). -/
def linkListeners (h : Hub) (k : Nat) : List Nat :=
  let own := match portOut h k with | none => none | some o => listOwner h (listOf h o)
  let cam := let c := (getPort h k).camOwner; if c = 0xFFFF then none else some c
  ([integrator h, own, cam].filterMap id).eraseDups.mergeSort

/-- LNK_STATE (13 R373), with the Field book's record of it (22 R540). -/
def linkEvent (k reason : Nat) (h : Hub) : Hub :=
  let r0 := k / 8 + 256 * (k % 8) + 65536 * linkCode (getPort h k).state + 2 ^ 24 * reason
  postEvents (linkListeners h k) 0x0D80 r0 h.now (fbkRecord (k / 8) 6 0x0601 r0 0 h)

/-- A port changes its state (13 R340). -/
def linkGoes (k : Nat) (s : LinkState) (reason : Nat) (h : Hub) : Hub :=
  linkEvent k reason (updPort h k fun p => { p with state := s, stateTime := h.now })

/-- Lane rate code of DP in 10 Mbit/s: 1.62, 2.7, 5.4, 8.1 Gbit/s (13 R366). -/
def dpRate (code : Nat) : Nat := match code with | 1 => 162 | 2 => 270 | 3 => 540 | 4 => 810 | _ => 0

/-- Does a DP configuration carry a mode at `n` bits per channel (08 R197)? -/
def dpFits (e : ModeEntry) (n lanes rate : Nat) : Bool := 27 * e.pllN * 3 * n * 1000 ≤ 776 * lanes * dpRate rate * 10 * e.pllP

/-- Does D-PHY (`c` false) or C-PHY carry a mode with `lanes` at `rate` (08 R197)? -/
def dsiFits (e : ModeEntry) (n : Nat) (c : Bool) (lanes rate : Nat) : Bool :=
  if c then 27 * e.pllN * 3 * n * 70 ≤ 144 * lanes * rate * e.pllP else 27 * e.pllN * 3 * n * 10 ≤ 9 * lanes * rate * e.pllP

/-- Lane rate of a Traverse rate code in Mbit/s. -/
def tvRate (code : Nat) : Nat := 4000 * 2 ^ code

/-- Does a Traverse direction carry a mode (08 R197)? -/
def tvFits (e : ModeEntry) (n code : Nat) : Bool := 27 * e.pllN * 3 * n * 13200 ≤ 95 * 2 * tvRate code * 128 * e.pllP

/-- Bits per channel that a port kind accepts (08 R197). -/
def bpcOk (k n : Nat) : Bool := n == 8 || n == 10 || n == 12 || (n == 6 && k % 8 < 4)

/-- Encodings that a port kind accepts (08 R197). -/
def encOk (k e : Nat) : Bool := e == 0 || (e == 1 && k % 8 ≠ 2)

/-- Does the port's link capacity carry a mode at commit (08 R227, 13 R359)? -/
def portFits (p : Port) (k : Nat) (e : ModeEntry) (n : Nat) : Bool :=
  if isDp k then
    match p.trained with
    | some (l, r) => dpFits e n l r
    | none => dpFits e n (if p.lanes = 0 then 4 else p.lanes) (if p.dpRate = 0 then 4 else p.dpRate)
  else if k % 8 = 2 then dsiFits e n (p.kind = 2) p.lanes p.dsiRate
  else tvFits e n p.rateTx

/-- The mode entry's flag bit for the port's kind: 4 DP, 5 eDP, 6 DSI, 7 Traverse (08 R202). -/
def portKindBit (p : Port) (k : Nat) : Nat := if isDp k then (if p.kind = 2 then 5 else 4) else if k % 8 = 2 then 6 else 7

/-- The DP configurations that a trained maximum and the pinned fields leave, in rising rate and lanes (13 R359). -/
def dpChoices (p : Port) : List (Nat × Nat) :=
  match p.trained with
  | none => []
  | some (l, r) =>
    if p.lanes ≠ 0 && p.dpRate ≠ 0 then [(p.lanes, p.dpRate)]
    else if bit p.options 0 then [(if p.lanes = 0 then l else p.lanes, if p.dpRate = 0 then r else p.dpRate)]
    else
      ([1, 2, 3, 4].filter fun q => if p.dpRate = 0 then q ≤ r else q == p.dpRate).flatMap fun q =>
        ([1, 2, 4].filter fun n => if p.lanes = 0 then n ≤ l else n == p.lanes).map fun n => (n, q)

/-- The configuration that a mode takes on a DP port (13 R359). -/
def dpChoice (p : Port) (e : ModeEntry) (n : Nat) : Option (Nat × Nat) := (dpChoices p).find? fun c => dpFits e n c.1 c.2

/-- Step 4 of a start or mode change: the port retrains where the mode needs another configuration, and self refresh is allowed again after a
PSR error (08 R205; 13 R359, R361). -/
def linkForMode (o : Nat) (h : Hub) : Hub :=
  let x := getOut h o
  match outPort h o, x.mode with
  | some k, some e =>
    let h := if isDp k then updPort h k fun p => { p with psrOff := false } else h
    let p := getPort h k
    if isDp k && p.sink && p.trained.isSome && !portOff p && !unitRetired h (unitId 5 (k / 8) (k % 8)) then
      match dpChoice p e x.bpc with
      | none => linkGoes k .down 1 h
      | some c =>
        if c = p.inUse && p.state == .up then h
        else linkGoes k .seek 1 (updPort h k fun p => { p with training := some c })
    else h
  | _, _ => h

/-- Can the port of an output send a picture now (10 R270; 13 R359, R360)? -/
def portSends (h : Hub) (o : Nat) : Bool :=
  match outPort h o with
  | none => false
  | some k => let p := getPort h k; p.state == .up && p.training.isNone && (!isTv k || bit p.kind 0)

/-- The bytes of a Traverse control block (13 R333, R337): 16 payload bytes from TYPE and the fields at their offsets. -/
def ctlBlock (typ : Nat) (rest : Bytes) : Bytes := (leBytes 1 typ ++ rest ++ leBytes 15 0).take 16

/-- The factory device number of a die (19 R479). -/
def deviceOf (h : Hub) (d : Nat) : Nat := (((getDie h d).atc.words.find 0).getD (Config.device d)).toNat

/-- One lane of a port. -/
def Port.lane (p : Port) (l : Nat) : Lane := if l = 0 then p.lane0 else p.lane1

/-- The port with one lane changed. -/
def Port.updLane (p : Port) (l : Nat) (f : Lane → Lane) : Port :=
  if l = 0 then { p with lane0 := f p.lane0 } else { p with lane1 := f p.lane1 }

/-- A Traverse control block with the data blocks that belong to it leaves a port. -/
def emitBlock (k typ : Nat) (bytes data : Bytes) (h : Hub) : Hub :=
  send (.trv k typ (ctlBlock typ bytes ++ data)) h

/-- `n` training sequences on each lane (13 R337): TRAIN with 15 data blocks of zeros. -/
def trainSend (n k : Nat) (h : Hub) : Hub :=
  let p := getPort h k
  ((List.replicate n [0, 1]).flatten).foldl (fun h l =>
    emitBlock k 0x0F
      (leBytes 1 l ++ leBytes 1 (p.lane l).rx ++ leBytes 1 (p.lane l).fom ++ leBytes 1 p.rateTx ++ leBytes 1 p.kind ++
        leBytes 2 0 ++ leBytes 4 (deviceOf h (k / 8)) ++ leBytes 1 (k % 8) ++ leBytes 1 (k / 8))
      (List.replicate 240 0) h) h

/-- A MARKER on each lane, and the number of the next (13 R337). -/
def markerSend (k : Nat) (h : Hub) : Hub :=
  let p := getPort h k
  [0, 1].foldl (fun h l =>
    emitBlock k 0x1E (leBytes 1 l ++ leBytes 1 (p.lane l).rx ++ leBytes 1 (p.lane l).fom ++ leBytes 4 p.marker) [] h)
    (updPort h k fun p => { p with marker := (p.marker + 1) % 2 ^ 32 })

/-- Payload that falls due in a dozing direction starts its exit, with 8 training sequences (13 R347, R348). -/
def payloadDue (k : Nat) (h : Hub) : Hub :=
  if (getPort h k).txDoze then trainSend 8 k (updPort h k fun p => { p with txDoze := false }) else h

/-- A stream block arrived: the receive direction does not doze (13 R347). -/
def streamHeard (k : Nat) (h : Hub) : Hub :=
  if (getPort h k).rxDoze then updPort h k fun p => { p with rxDoze := false } else h

/-- Is the port a Traverse port that is UP, and so carries its stream (13 R340)? -/
def carries (h : Hub) (k : Nat) : Bool := isTv k && (getPort h k).state == .up

/-- A stream block, with the data blocks that belong to it, leaves a port: it ends a doze, and nothing but the answer to a LOOP request
leaves while the port returns its received blocks (13 R347-R349; log entry 41). -/
def sendBlock (k typ : Nat) (bytes data : Bytes) (h : Hub) : Hub :=
  if (getPort h k).farHeld && typ != 0xB4 then h
  else emitBlock k typ bytes data (updPort (payloadDue k h) k fun p => { p with lastTx := h.now })

/-- VIDEO_OFF for a frame (13 R337, R350). -/
def videoOff (k frame : Nat) (h : Hub) : Hub := sendBlock k 0x3C (leBytes 3 0 ++ leBytes 4 frame) [] h

/-- The idle signal of an output's port at step 1 of a mode change or at a stop (08 R205): the DP idle pattern (kind 0), LP-11 on
DSI (kind 1), VIDEO_OFF on Traverse. -/
def portIdles (o : Nat) (h : Hub) : Hub :=
  match outPort h o with
  | none => h
  | some k =>
    if isTv k then (if carries h k then videoOff k (getOut h o).frameCount h else h)
    else send (.bus k (if isDp k then 0 else 1) []) h

/-- The bit stream of a line of pixels of `n` bits per channel, padded to whole blocks (13 R350): B, then G, then R of each. -/
def lineStream (n : Nat) (px : List (Nat × Nat × Nat)) : Bytes :=
  let v := px.foldr (fun p acc => p.2.2 + 2 ^ n * (p.2.1 + 2 ^ n * (p.1 + 2 ^ n * acc))) 0
  leBytes (16 * ceilDiv (3 * n * px.length) 128) v

/-- VIDEO_FRAME for a frame that a Traverse port is to send (13 R337, R350). -/
def videoFrame (k : Nat) (e : ModeEntry) (bpc enc frame : Nat) (h : Hub) : Hub :=
  sendBlock k 0x4B
    (leBytes 1 0 ++ leBytes 2 1 ++ leBytes 2 e.hActive ++ leBytes 2 e.vActive ++ leBytes 1 bpc ++ leBytes 1 enc ++ leBytes 4 frame)
    (leBytes 2 (hTotal e) ++ leBytes 2 (vTotal e) ++ leBytes 4 (roundDiv (27000 * e.pllN) e.pllP) ++ leBytes 8 0) h

/-- How a DSI port sends line `y`: in its clock lane's mode, too (13 R363). -/
def dsiHow (p : Port) (y : Nat) : Nat :=
  (if bit p.options 1 then (if y = 0 then 2 else 3) else b2n (bit p.options 0)) + 4 * b2n (bit p.options 2)

/-- The 6 ECC bits of a DSI packet header of 24 bits (PRESUMED, log 92: the Hamming code of DSI). -/
def dsiEcc (v : Nat) : Nat :=
  let par (mask : Nat) : Nat := popCount 24 (v &&& mask) % 2
  par 0xF12CB7 + 2 * par 0xF2555B + 4 * par 0x749A6D + 8 * par 0xB8E38E + 16 * par 0xDF03F0 + 32 * par 0xEFFC00

/-- The checksum of a DSI long packet (PRESUMED, log 92: CRC-16 from 0xFFFF, least significant bit first). -/
def dsiSum (bs : Bytes) : Nat :=
  bs.foldl (fun c b => (List.range 8).foldl (fun c i =>
    if bit c 0 != bit b.toNat i then (c / 2) ^^^ 0x8408 else c / 2) c) 0xFFFF

/-- A DSI long packet of data type `t` on virtual channel 0, with its ECC and checksum, and the EoTp after it (13 R363; log 92). -/
def dsiPacket (t : Nat) (bs : Bytes) : Bytes :=
  let head := t + 256 * bs.length
  leBytes 3 head ++ leBytes 1 (dsiEcc head) ++ bs ++ leBytes 2 (dsiSum bs) ++ leBytes 4 0x010F0F08

/-- The data type of a line of `n` bits per channel: 18-bit packed, 24, 30 or 36-bit (13 R363; log 92). -/
def dsiType (n : Nat) : Nat := match n with | 6 => 0x1E | 8 => 0x3E | 10 => 0x0D | _ => 0x1D

/-- The packet of a line on a DSI port: its pixels, R first, after the DCS command in command mode (13 R363; log 92). -/
def dsiLine (p : Port) (y n : Nat) (px : List (Nat × Nat × Nat)) : Bytes :=
  let v := px.foldr (fun p acc => p.1 + 2 ^ n * (p.2.1 + 2 ^ n * (p.2.2 + 2 ^ n * acc))) 0
  let bs := leBytes (ceilDiv (3 * n * px.length) 8) v
  if bit p.options 1 then dsiPacket 0x39 (leBytes 1 (if y = 0 then 0x2C else 0x3C) ++ bs) else dsiPacket (dsiType n) bs

/-- A line of codes leaves the port of an output (08 R215; 13 R350, R363): VIDEO_LINE on Traverse, a packet on DSI. -/
def sendLine (o y frame bpc : Nat) (px : List (Nat × Nat × Nat)) (h : Hub) : Hub :=
  match outPort h o with
  | none => h
  | some k =>
    if isTv k then
      let bs := lineStream bpc px
      sendBlock k 0x5A (leBytes 1 0 ++ leBytes 2 (bs.length / 16) ++ leBytes 2 y ++ leBytes 2 0 ++ leBytes 4 frame) bs h
    else
      let ws := px.map fun p => p.1 + 2 ^ 16 * p.2.1 + 2 ^ 32 * p.2.2
      if isDp k then send (.line o y ws) h
      else send (.dsi k (dsiHow (getPort h k) y) y (dsiLine (getPort h k) y bpc px)) h

/-- A brightness write goes out (Sent.bus kind 5: the level in the sink's bits, and ENABLE) (13 R362). -/
def sendLight (k level en : Nat) (c : Pend) (h : Hub) : Hub :=
  completeOk c 0 0 (send (.bus k 5 (leBytes 2 (level / 2 ^ (16 - (getPort h k).sinkBits)) ++ leBytes 1 en)) h)

/-- A DSI packet goes out (Sent.bus kind 3); a read waits for its response (13 R371). -/
def sendDsi (k : Nat) (bs : Bytes) (read : Bool) (c : Pend) (h : Hub) : Hub :=
  let h := send (.bus k 3 bs) h
  if read then updPort h k fun p => { p with dsiRead := p.dsiRead ++ [c] } else completeOk c 0 0 h

/-- A vertical blank of a port's output starts: what waits for it goes out. -/
def portBlank (k : Nat) (h : Hub) : Hub :=
  let p := getPort h k
  let h := updPort h k fun p => { p with light := [], dsiWait := [] }
  let h := p.light.foldl (fun h w => sendLight k w.1 w.2.1 w.2.2 h) h
  p.dsiWait.foldl (fun h w => sendDsi k w.1 w.2.1 w.2.2 h) h

end Sys2Proof.Machine
end

