-- ==== Sys2Proof/Machine/Pipes.lean ====
section
/-!
DEFINITION. What an apply point does: display PLLs, cache frames, output states, layer lists that change hands, and the records of
armed transactions (04 R89, R100, R112; 07 R178-R183, R189; 08 R199, R200, R205, R206, R208, R218; 09 R253; 16 R425, R438).
-/

namespace Sys2Proof.Machine

/-! ### Instants of the timing generator (08 R205) -/

/-- The instant, `px` pixel clocks after S; a genlock offset shortens or lengthens the clocks from `refPx` on (08 R213). -/
def scanNs (e : ModeEntry) (sc : Scan) (px : Nat) : Nat :=
  sc.s0 + (if sc.rate = 0 then pxNs e (px - sc.refPx)
    else (pxNs e ((px - sc.refPx) * 1000000) : Nat) / (1000000 + sc.rate).toNat)

/-- From pixel clock `px` on, the pixel clock runs with an offset of `ppm`. -/
def setRate (e : ModeEntry) (px : Nat) (ppm : Int) (sc : Scan) : Scan :=
  if sc.rate = ppm then sc else { sc with s0 := scanNs e sc px, refPx := px, rate := ppm }

/-- Pixel clocks from S to the first active line of the present frame. -/
def activePx (e : ModeEntry) (sc : Scan) : Nat := sc.vbPx + sc.blank * hTotal e

/-- Pixel clocks from S to the start of line `y` of the present frame. -/
def linePx (e : ModeEntry) (sc : Scan) (y : Nat) : Nat := activePx e sc + y * hTotal e

/-- Pixel clocks from S to the next start of vertical blank. -/
def nextBlankPx (e : ModeEntry) (sc : Scan) : Nat := activePx e sc + e.vActive * hTotal e

/-- The instant of the next start of vertical blank. -/
def nextBlank (e : ModeEntry) (sc : Scan) : Nat := scanNs e sc (nextBlankPx e sc)

/-- The next latch instant, 250 µs before that (07 R178). -/
def latchAt (e : ModeEntry) (sc : Scan) : Nat := nextBlank e sc - 250000

/-! ### Display PLLs (08 R206; 16 R425, R427) -/

/-- Display PLL 1 or 2 of a clock block; 0 is the root (16 R438). -/
def Clk.pll (c : Clk) (i : Nat) : Pll := match i with | 0 => c.root | 1 => c.disp0 | _ => c.disp1

/-- The clock block with a PLL changed. -/
def Clk.setPll (c : Clk) (i : Nat) (p : Pll) : Clk :=
  match i with
  | 0 => { c with root := p }
  | 1 => { c with disp0 := p }
  | _ => { c with disp1 := p }

/-- PLL `i` of die `d`. -/
def getPll (h : Hub) (d i : Nat) : Pll := (getDie h d).clk.pll i

/-- The Field book's record of a PLL whose LOCKED or BYPASS has changed (22 R540); the last window count is a free value. -/
def pllRecord (d i : Nat) (h : Hub) : Hub :=
  let p := getPll h d i
  let (ix, h) := takeFree h
  fbkRecord d 8 0x0801 (i + 256 * b2n p.locked + 512 * b2n p.bypass) (Config.freeWord ix).toNat h

/-- The hub with `f` applied to a PLL; a change of LOCKED or BYPASS is an event of interrupt source 9 (20 R511). -/
def updPll (d i : Nat) (f : Pll → Pll) (h : Hub) : Hub :=
  let p := getPll h d i
  let q := f p
  let h := updDie h d fun x => { x with clk := x.clk.setPll i q }
  if p.locked = q.locked && p.bypass = q.bypass then h else pllRecord d i (intEvent d 9 h)

/-- Outputs of a die that a display PLL (0 or 1) serves. -/
def pllUsers (h : Hub) (d k : Nat) : List Nat := ((List.range 4).map (· + 4 * d)).filter fun o => (getOut h o).pll == k

/-- Is a display PLL of die `d` programmed to the pixel clock of a mode? -/
def pllRuns (h : Hub) (d k : Nat) (e : ModeEntry) : Bool :=
  let p := getPll h d (k + 1)
  p.p ≠ 0 && p.n * e.pllP == e.pllN * p.p && (p.locked || p.attempts ≠ 0)

/-- May output `o` program a display PLL for a mode: no other output uses it but members of its group that take the same clock? -/
def pllFree (h : Hub) (o k : Nat) (e : ModeEntry) : Bool :=
  (pllUsers h (o / 4) k).all fun u => u == o ||
    ((membersOf h (listOf h o)).contains u && match (getOut h u).mode with | none => false | some m => sameClock m e)

/-- The display PLL that an output takes for a mode: one that already runs the pixel clock for another output, its own where it may
program that, a free one, or one that only STOPPING outputs, whose pipes no longer run, still hold (08 R206). -/
def pickPll (h : Hub) (o : Nat) (e : ModeEntry) : Nat :=
  let d := o / 4
  let shared := [0, 1].find? fun k => (pllUsers h d k).any (· != o) && pllRuns h d k e
  let own := (getOut h o).pll
  let free := [0, 1].find? fun k => pllFree h o k e
  let idle := [0, 1].find? fun k => (pllUsers h d k).all fun u => u == o || (getOut h u).state == .stopping
  match shared with
  | some k => k
  | none => if own < 2 && pllFree h o own e then own else free.getD (idle.getD 0)

/-- The settings of spread and seed of display PLL `k` of die `d`. -/
def pllSettings (h : Hub) (d k : Nat) : Bool × Nat × Nat × Nat :=
  let p := getPll h d (k + 1)
  (p.sscEn, p.spread, p.fmod, p.seed)

/-- The settings that a programming of display PLL `k` for output `o` uses: those of the group primary's PLL (16 R431). -/
def spreadOf (h : Hub) (o k : Nat) : Bool × Nat × Nat × Nat :=
  let x := getOut h o
  if x.grp = 0 || x.primary = o || (getOut h x.primary).pll > 1 then pllSettings h (o / 4) k
  else pllSettings h (x.primary / 4) (getOut h x.primary).pll

/-- The group primary has its PLL: those of the members that were programmed before it, and have not locked, use its settings too (16 R431). -/
def shareSpread (o : Nat) (h : Hub) : Hub :=
  let x := getOut h o
  if x.grp = 0 || x.primary ≠ o then h
  else x.members.foldl (fun h m =>
    let k := (getOut h m).pll
    if k > 1 || (getPll h (m / 4) (k + 1)).locked then h
    else updPll (m / 4) (k + 1) (fun p => { p with used := pllSettings h (o / 4) x.pll }) h) h

/-- A display PLL is programmed, and its outputs are held on the bypass source until it locks (16 R425-R427, R429, R438). -/
def programPll (d k n p : Nat) (use : Bool × Nat × Nat × Nat) (h : Hub) : Hub :=
  updPll d (k + 1) (fun x =>
    { x with
      n := n, p := p, locked := false, bypass := true, ramp := false, frac := 0, rampAt := none, mod := none
      used := use, progAt := h.now, lockAt := 0, attempts := 1 }) h

/-- A display PLL that serves no output is stopped (16 R425). -/
def releasePlls (d : Nat) (h : Hub) : Hub :=
  [0, 1].foldl (fun h k => if (pllUsers h d k).isEmpty && (getPll h d (k + 1)).locked then
    updPll d (k + 1) (fun x => { x with
      locked := false, bypass := true, ramp := false, frac := 0, rampAt := none, mod := none, attempts := 0 }) h else h) h

/-- Step 2 of a start or mode change: the output takes a PLL, which is programmed unless it already runs the pixel clock. -/
def takePll (o : Nat) (e : ModeEntry) (h : Hub) : Hub :=
  let d := o / 4
  let k := pickPll h o e
  let runs := pllRuns h d k e && ((getOut h o).pll == k || (pllUsers h d k).any (· != o))
  let h := if runs then h
    else (pllUsers h d k).foldl (fun h u => updOut h u fun x => if x.state == .stopping then { x with pll := 0xFF } else x) h
  let h := updOut h o fun x => { x with pll := k }
  let h := if runs then h else programPll d k e.pllN e.pllP (spreadOf h o k) h
  releasePlls d (shareSpread o h)

/-! ### Cache frames (08 R218) -/

/-- Granules of the cache frame that an output needs: one frame for each member die of a clone group. -/
def cacheWant (h : Hub) (o : Nat) : Nat :=
  let x := getOut h o
  let second := x.grp == 1 && (membersOf h x.primary).find? (fun m => m / 4 == o / 4) ≠ some o
  match x.mode with | none => 0 | some e => if hasCache x && !second then cacheNeed e else 0

/-- The output's cache frame as its class, static record and mode need it. -/
def settleCache (o : Nat) (h : Hub) : Hub :=
  let x := getOut h o
  let need := cacheWant h o
  if x.cache.length = need then h
  else
    let h := updOut h o fun x => { x with cache := [], cacheFull := false }
    match freeGranules h (o / 4) need with
    | none => h
    | some g => updOut h o fun x => { x with cache := g }

/-! ### What applies at a boundary (07 R178-R183) -/

/-- Layers of output `o` whose staged records apply at a boundary with latch instant `l`. -/
def readyLayers (h : Hub) (t : Txn) (o l : Nat) : List Nat :=
  (t.layers.map Prod.fst).filter fun k =>
    !t.doneLayers.contains k && (match h.layers.find k with | none => false | some x => x.out == o) &&
      (!t.indep || match t.fences.find k with
        | none => true
        | some f => match f.signalled with | none => false | some s => s ≤ l)

/-- Layers of output `o` whose staged records have neither applied nor been discarded. -/
def leftLayers (h : Hub) (t : Txn) (o : Nat) : List Nat :=
  (t.layers.map Prod.fst).filter fun k =>
    !t.doneLayers.contains k && (match h.layers.find k with | none => false | some x => x.out == o)

/-- Are a transaction's records of output `o` itself, or of the engine set or floor of its dies, still to apply there? -/
def leftOut (h : Hub) (t : Txn) (o : Nat) : Bool :=
  !t.doneOuts.contains o && (t.outs.has o || (membersOf h o).any fun m => t.spares.has (m / 4) || t.floors.has (m / 4))

/-- Has a transaction a record that applies to `o` at a boundary with latch instant `l`? -/
def catches (h : Hub) (t : Txn) (o l : Nat) : Bool :=
  t.state == .armed && t.armedAt ≤ l && t.todo.contains o && (!(readyLayers h t o l).isEmpty || leftOut h t o)

/-- ARMED transactions in the order in which they became so (07 R179). -/
def armedTxns (h : Hub) : List (Nat × Txn) := (h.txns.filter fun e => e.2.state == .armed).mergeSort fun a b => a.2.armSeq ≤ b.2.armSeq

/-- Transactions that catch the boundary of `o` (its primary's) with latch instant `l`. -/
def caughtBy (h : Hub) (o l : Nat) : List Txn := ((armedTxns h).filter fun e => catches h e.2 (listOf h o) l).map Prod.snd

/-- The record that a layer will have after the boundary. -/
def recAt (h : Hub) (o l k : Nat) (x : Layer) : LayerRec :=
  (caughtBy h o l).foldl (fun r t => if (readyLayers h t (listOf h o) l).contains k then t.layers.get k r else r) x.cur

/-- Is a layer shown whole in its fill colour: its owner has ended, or the check of its surface fails (04 R89, 03 R65, R66)? -/
def layerFills (h : Hub) (o : Nat) (x : Layer) (r : LayerRec) : Bool :=
  x.ended || (r.source ≠ 0 && match listOwner h (listOf h o) with
    | none => true
    | some c => !mayUse h r.source c 0 || (match surfOf h r.source with | none => true | some s => !hasRole s.fmt 0))

/-- The layers of an output's list, with whether each is shown in its fill colour with the record that `r` gives it. -/
def fillsWith (h : Hub) (o : Nat) (r : Nat → Layer → LayerRec) : List (Nat × Bool) :=
  (h.layers.filter fun e => e.2.out == listOf h o).map fun e => (e.1, layerFills h o e.2 (r e.1 e.2))

/-- The layers of an output's list as latch instant `l` finds them, with whether each will be shown in its fill colour. -/
def latchFills (h : Hub) (o l : Nat) : List (Nat × Bool) := fillsWith h o (recAt h o l)

/-- What the latch instant `l` of an output finds of its layers, with what stands should its boundary apply nothing (03 R65, 07 R180). -/
def latchLayers (o l : Nat) (h : Hub) : Hub :=
  updOut h o fun x => { x with fills := latchFills h o l, fillsOld := fillsWith h o fun _ y => y.cur }

/-- Between A and S the first boundary's latch instant is A: the layers of an output that begins its mode now, as A finds them (07 R178). -/
def latchStart (h : Hub) (o : Nat) : Hub :=
  let x := getOut h o
  if (x.state == .starting || x.state == .changing) && x.aTime == h.now then latchLayers o h.now h else h

/-! ### Group decisions (07 R180) -/

/-- The output whose Keeper decides for the group of `o`: its primary, or `o` itself. -/
def groupHead (h : Hub) (o : Nat) : Nat := let x := getOut h o; if x.grp = 0 then o else x.primary

/-- Has every die of a group that is still there confirmed the primary's decision (07 R180)?  Once the group's apply point has begun,
what it was then stands for every member.  While a Keeper is halted, the pipes of its die stay on their last schedule table (22 R550):
nothing applies there. -/
def groupConfirmed (h : Hub) (o : Nat) : Bool :=
  let p := getOut h (groupHead h o)
  if (getOut h o).grp = 0 then !halted h (o / 4)
  else match p.verdict with
    | some v => v.1
    | none =>
      let dies := ((p.members.map (· / 4)).filter (dieUp h)).eraseDups
      !dies.any (halted h) && (dies.length ≤ 1 || dies.all p.decided.contains)

/-- A decision of a group begins at the latch instant `l`, with the primary's own die, unless it has begun with another member's latch of
the same boundary, or that boundary has its outcome (07 R180). -/
def openDecision (o l : Nat) (h : Hub) : Hub :=
  let p := groupHead h o
  updOut h p fun x =>
    let past := match x.verdict with | some v => decide (v.2 < l) | none => x.decided.isEmpty || decide (x.openAt + 1000 < l)
    if past then { x with verdict := none, decided := [p / 4], openAt := l } else x

/-- The apply point `t` of a group begins: the decision stands, unless it did already; the members' instants agree within 1 µs (08 R207). -/
def fixVerdict (o t : Nat) (h : Hub) : Hub :=
  let p := groupHead h o
  let h := match (getOut h p).verdict with
    | some v => if v.2 + 1000 < t then openDecision o (t - 250000) h else h
    | none => h
  let v := groupConfirmed h o
  updOut h p fun x => { x with verdict := x.verdict.or (some (v, t)) }

/-- Where no member of a group runs, the first boundary of all is S, whose latch instant is A: the decision begins there (07 R178, R180). -/
def openStart (o : Nat) (h : Hub) : Hub :=
  let x := getOut h o
  if x.grp = 0 || (getOut h x.primary).members.any fun m => (getOut h m).state == .running then h
  else updOut h x.primary fun y => { y with verdict := none, decided := [x.primary / 4], openAt := h.now }

/-! ### Banks of the band-buffer pool (01 R13, 17 R447, R449) -/

/-- `n` banks: those that are held and good, and free ones for the rest, as far as there are any. -/
def fillBanks : Nat → List (Option Nat) → List Nat → List (Option Nat)
  | 0, _, _ => []
  | n + 1, some k :: t, fr => some k :: fillBanks n t fr
  | n + 1, cur, [] => none :: fillBanks n cur.tail []
  | n + 1, cur, k :: fr => some k :: fillBanks n cur.tail fr

/-- Banks for the four bands of an output; a clone group's pipes on one die share the first one's. -/
def banksNeed (h : Hub) (o : Nat) : Nat :=
  if homePipe h o ≠ o then 0 else match (getOut h o).mode with | none => 0 | some e => bandBytes e (getOut h o).bandH / 65536

/-- At a start of vertical blank a running output's slots take the banks that its mode and band height need, free ones for any that have been
retired (04 R100; 17 R449).  DESIGN CHOICE (log 84): the lowest free ones. -/
def settleBanks (o : Nat) (h : Hub) : Hub :=
  let d := o / 4
  let good (k : Nat) : Bool := !unitRetired h (unitId 2 d k)
  let taken := ((List.range 4).map (· + 4 * d)).flatMap fun m => (getOut h m).banks
  let fr := ((List.range 96).map (· + 144)).filter fun k => good k && !taken.contains (some k)
  if (getOut h o).state != .running then h
  else updOut h o fun x => { x with banks := fillBanks (banksNeed h o) (x.banks.map fun b => b.filter good) fr }

/-- Does an output lack a bank of the slot that holds band `b` (17 R450)? -/
def lacksBank (x : Output) (b : Nat) : Bool :=
  let n := x.banks.length
  let s := b % 4
  ((x.banks.take (ceilDiv ((s + 1) * n) 4)).drop (s * n / 4)).contains none

/-! ### Output states (08 R200, R205) -/

/-- STATE code (08 R233). -/
def outCode (s : OutState) : Nat :=
  match s with
  | .stopped => 0
  | .starting => 1
  | .running => 2
  | .changing => 3
  | .stopping => 4

/-- OUT_STATE to the list owner (08 R235). -/
def outEvent (o : Nat) (h : Hub) : Hub :=
  match listOwner h (listOf h o) with
  | none => h
  | some c => postEvent c 0x0480 (o + 256 * outCode (getOut h o).state) h.now h

/-! ### Rungs of the power ladder (15 R405, R412) -/

/-- A new divisor of an output, from its first apply point on; it is a change under R220, and the list owner receives PWR_RATE
(15 R412, R420). -/
def newDivisor (rung : Nat) (o : Nat) (h : Hub) : Hub :=
  let x := getOut h o
  let q := rungDivisor rung x.cls
  if x.state == .stopped || x.state == .stopping || x.qNext.getD x.q = q then h
  else
    let h := updOut h o fun x => { x with qNext := some q, changed := true }
    match listOwner h (listOf h o) with
    | none => h
    | some c => postEvent c 0x0980 (o + 256 * q + 65536 * rung) (x.frameCount + 1) h

/-- A die moves to a rung: RUNG_TIME, the interrupt source, the Field book's record and the outputs' divisors (15 R405, R419; 20 R511;
22 R540). -/
def rungGoes (d r : Nat) (h : Hub) : Hub :=
  let p := (getDie h d).pwr
  if p.rung = r then h
  else
    let h := intEvent d 4 (updPwr h d fun x => { x with rung := r, rungTime := h.now, below := 0 })
    let h := fbkRecord d 0 0x0003 (r + 16 * p.step) p.budget h
    ((List.range 4).map (· + 4 * d)).foldl (fun h o => newDivisor r o h) h

/-- Tiles in progress of an output are dropped by the drain (01 R14). -/
def dropTiles (o : Nat) (h : Hub) : Hub := { h with engines := h.engines.filter fun e => e.2.out != o }

/-- Values of the frame that ends, for its check result (10 R269): flags, number and lanes; nothing where no frame ran. -/
def frameFlags (f : Frame) : Nat :=
  b2n f.invalidMode + 2 * b2n (!f.missing.isEmpty) + 4 * b2n f.onlyBands.isSome + 8 * b2n f.notSent + 16 * b2n f.preset +
    64 * b2n f.truncated

/-- The values of a frame go to be made final (10 R269). -/
def endLanes (f : Frame) (c : Chk) : Chk := { c with
  cur := none, ended := some { flags := frameFlags f, num := f.num, lanes := c.lanes, cfg := c.cfg }, lanes := [] }

/-- Pixels of the line in progress that have been sent by `now`. -/
def sentPixels (e : ModeEntry) (sc : Scan) (now : Nat) : Nat :=
  let start := scanNs e sc (linePx e sc (sc.line - 1))
  min e.hActive ((now - start) * (27 * e.pllN) / (e.pllP * 1000))

/-- The port stops sending the frame in progress at `now` (10 R270): before its first line the frame is not sent; within its active
lines it is cut short, and its values cover the pixels sent; after the last pixel it is whole. -/
def truncateFrame (now : Nat) (x : Output) : Output :=
  match x.frame, x.scan, x.mode with
  | some f, some sc, some e =>
    if f.truncated || f.notSent then x
    else if sc.line = 0 then { x with frame := some { f with notSent := true } }
    else if sc.line ≥ e.vActive && decide (sentPixels e sc now = e.hActive) then x
    else
      let f := { f with truncated := true }
      { x with frame := some f, chk := endLanes f (linePart (sentPixels e sc now) x.chk) }
  | _, _, _ => x

/-- The frame in progress on a port's output is cut short, where it is being sent. -/
def cutFrame (k : Nat) (h : Hub) : Hub := match portOut h k with | none => h | some o => updOut h o (truncateFrame h.now)

/-- The frame in progress ends: its lanes go to be made final, unless the port has cut it short, and its statistics become those of
the last frame (09 R242, 10 R269; 04 R99). -/
def endFrame (x : Output) : Output :=
  match x.frame with
  | none => x
  | some f =>
    { x with
      frame := none, bands := [], wbRows := []
      chk := if f.truncated then { x.chk with lanes := [], cur := none } else endLanes f (lineSentWhole x.chk)
      dim := { x.dim with last := x.dim.acc, acc := [], hold := !f.missing.isEmpty, settle := x.dim.settle - 1 } }

/-- A mode begins to be replaced or stopped at A: the drain empties the output and its port sends its idle signal. -/
def drainOut (o : Nat) (h : Hub) : Hub :=
  portIdles o (dropTiles o (updOut h o fun x =>
    { endFrame (truncateFrame h.now x) with scan := none, bands := [], undPosted := false, pllLost := false }))

/-- One output starts, or changes its mode, at A (08 R205 steps 1, 2 and 4).  DESIGN CHOICE (log 81): one that is still STOPPING keeps its
resources and goes to STARTING, without the event of STOPPED. -/
def beginMode (o : Nat) (h : Hub) : Hub :=
  let x := getOut h o
  match x.mode with
  | none => h
  | some e =>
    let run := x.state == .running
    let h := if run then drainOut o h else h
    let h := updOut h o fun x => { x with
      state := if run then .changing else .starting, aTime := h.now, psr := false, cacheFull := x.boot && x.cacheFull
      staticCount := if run then x.staticCount else 0, frame := none, relMode := none }
    let h := match outPort h o with | none => h | some k => updPort h k fun p => { p with ulps := false }
    latchStart (openStart o (linkForMode o (takePll o e (settleCache o h)))) o

/-- One output, which ran mode `old`, stops at the apply point of a stop (08 R200). -/
def beginStop (o : Nat) (old : Option ModeEntry) (h : Hub) : Hub :=
  let x := getOut h o
  if x.state == .stopped || x.state == .stopping then updOut h o fun x => { x with mode := none }
  else
    let h := drainOut o h
    updOut h o fun y => { y with
      state := .stopping, mode := none, relMode := old, aTime := h.now, psr := false, staticCount := 0 }

/-- The mode that output `o` has from its boundary with latch instant `l` on (07 R179). -/
def modeAt (h : Hub) (o l : Nat) : Option ModeEntry :=
  (caughtBy h o l).foldl (fun m t =>
    if t.doneOuts.contains (listOf h o) then m
    else match t.outs.find (listOf h o) with
      | none => m
      | some s => if s.mode.isSome then (stagedMode h s (getOut h o)).1 else m) (getOut h o).mode

/-- A new mode whose records a blanked output takes at S replaces the target of its PLL, which is on bypass (16 R434). -/
def retarget (o : Nat) (h : Hub) : Hub :=
  let x := getOut h o
  match modeAt h o x.aTime with
  | none => h
  | some e =>
    if x.pll > 1 || !pllFree h o x.pll e || pllRuns h (o / 4) x.pll e then h
    else programPll (o / 4) x.pll e.pllN e.pllP (spreadOf h o x.pll) h

/-- A running output is blanked: its port sends its idle signal, its frame is cut short, and it waits for its PLL and a new S (08 R200,
16 R432). -/
def blankOut (o : Nat) (h : Hub) : Hub :=
  if (getOut h o).state != .running then h
  else
    let h := drainOut o h
    let h := updOut h o fun x => { x with
      state := .changing, aTime := h.now, psr := false, cacheFull := x.boot && x.cacheFull, gen := { x.gen with ppm := 0 } }
    outEvent o (retarget o (latchStart (openStart o h) o))

/-- The next line start of a running output at or after now. -/
def nextLineStart (e : ModeEntry) (sc : Scan) (now : Nat) : Nat :=
  if sc.line = 0 then
    scanNs e sc (sc.vbPx + (((List.range (sc.blank + 1)).find? fun n => scanNs e sc (sc.vbPx + n * hTotal e) ≥ now).getD sc.blank) * hTotal e)
  else scanNs e sc (linePx e sc sc.line)

/-- An output whose display PLL has lost lock reaches its next line start. -/
def settleLoss (o : Nat) (h : Hub) : Hub :=
  let x := getOut h o
  if !x.pllLost then h
  else
    let h := updOut h o fun x => { x with pllLost := false }
    match x.mode, x.scan with
    | some e, some sc => blankOut o (at_ (nextLineStart e sc h.now) h)
    | _, _ => h

/-- The display PLL of a running output loses lock: in a vertical blank, whose lines no row starts, it goes to CHANGING at the next line
start at once (log 83); within the active lines, with the row of that line start. -/
def losePll (o : Nat) (h : Hub) : Hub :=
  let x := getOut h o
  if x.state != .running then h
  else
    let h := updOut h o fun x => { x with pllLost := true }
    if (x.scan.map Scan.line).getD 0 = 0 then settleLoss o h else h

/-- A STOPPING output's resources have been released (08 R200). -/
def outStopped (o : Nat) (h : Hub) : Hub :=
  let h := updOut h o fun x => { x with
    state := .stopped, pll := 0xFF, cache := [], cacheFull := false, cols := [], tabAt := [], scan := none, bands := [], frame := none
    banks := [], relMode := none
    q := 1, qNext := none, staticCount := 0, boot := false, stopNext := false
    dim := { x.dim with layout := {}, acc := [], last := [], filt := [], levels := [], bz := [], hist := [], settle := 0, steps := [] } }
  outEvent o (releasePlls (o / 4) { h with tables := h.tables.del o })

/-! ### Lists that change hands (08 R199, 04 R112) -/

/-- Every layer slot of an output's list is freed. -/
def freeList (o : Nat) (h : Hub) : Hub := sweepObjects { h with layers := h.layers.filter fun e => e.2.out != o }

/-- At an apply point, an owner named by OUT_CONFIG takes the list; the change of owner is one of the output's records (08 R208; log
entry 34). -/
def takeList (o : Nat) (h : Hub) : Hub :=
  match (getOut h o).newOwner with
  | none => h
  | some c =>
    let h := updOut (freeList o h) o fun x => { x with owner := some c, newOwner := none, changed := true }
    if (getOut h o).state == .stopped then h
    else (membersOf h o).foldl (fun h m => updOut h m fun x => { x with flipTime := h.now }) h

/-! ### The end of transactions (07 R162, R163, R189) -/

/-- A transaction ends: its slot is free with the next generation, and what only it selected is released. -/
def endTxn (k : Nat) (h : Hub) : Hub :=
  let g := h.txnGens.get k 1
  sweepObjects { h with txns := h.txns.del k, txnGens := h.txnGens.set k (if g ≥ 0xFFFF then 1 else g + 1) }

/-- A transaction ends, and its commit completes. -/
def closeTxn (k st r0 r1 : Nat) (h : Hub) : Hub :=
  match h.txns.find k with
  | none => h
  | some t =>
    let h := endTxn k h
    match t.commit with
    | none => h
    | some p => complete p st 255 r0 r1 h

/-- An ARMED transaction with nothing left to apply ends (07 R183, R189). -/
def finishTxn (k : Nat) (h : Hub) : Hub :=
  match h.txns.find k with
  | none => h
  | some t =>
    if t.state ≠ .armed || !t.todo.isEmpty then h
    else if t.discard ≠ 0 then closeTxn k t.discard t.applied.length 0 h
    else closeTxn k 0 t.applied.length t.lastApply h

/-! ### What a transaction changes where it applies (07 R178-R183) -/

/-- The frame counter of the first frame that shows a change (07 R189, 15 R412); `inc`: the counter steps at or before it; without that step
the present frame is composed anew.  The frame after a boundary is composed whatever its number where no whole picture stands in the cache
frame, as after the start of a mode (`anew`). -/
def firstFrame (x : Output) (inc anew : Bool) : Nat :=
  let v := x.frameCount + b2n inc
  let q := x.qNext.getD x.q
  if q ≤ 1 || !inc || anew || !x.cacheFull || x.cache.isEmpty then v else ceilDiv v q * q

/-- The new dimming records make the next frame the first after a change (09 R253). -/
def dimChanged (s : OutStage) : Bool := s.dimLayout.isSome || s.dimAlgo.isSome || s.dimTabs.isSome

/-- An output's dimming begins anew (09 R253). -/
def dimReset (x : Output) : Output :=
  if x.dim.layout.mode = 0 then
    { x with dim := { x.dim with settle := 0, flat := false, filt := [], levels := [], bz := [], hist := [], steps := [] } }
  else { x with dim := { x.dim with settle := 3, flat := true } }

/-- Does a staged OUT_MODE change what the output runs (08 R200)? -/
def modeChanges (h : Hub) (s : OutStage) (x : Output) : Bool :=
  s.mode.isSome && !(stagedMode h s x == (x.mode, x.bpc, x.enc))

/-- The staged records of output `o` take effect, for every member of its clone or span group (08 R209, R210); `inc`: its frame counter
steps at or before the frame that begins there (08 R222, R229). -/
def applyOut (o : Nat) (s : OutStage) (inc : Bool) (h : Hub) : Hub :=
  let ms := membersOf h o
  let chg := modeChanges h s (getOut h o)
  let stop := chg && (stagedMode h s (getOut h o)).1.isNone
  let old := (getOut h o).mode
  let h := putOut h o s
  let h := ms.foldl (fun h m => updOut h m fun x =>
    let x := if dimChanged s then dimReset x else x
    if s.wb.isSome then { x with wbSince := x.frameCount + b2n inc, wbDone := false, wbRows := [] } else x) h
  if stop then ms.foldl (fun h m => beginStop m old h) h
  else
    let h := ms.foldl (fun h m => settleCache m h) h
    if chg then ms.foldl (fun h m => beginMode m h) h else h

/-- The records of a die take effect, with the first output of the die that applies (07 R177; log entry 17). -/
def applyDie (d : Nat) (t : Txn) (h : Hub) : Hub :=
  if t.doneDies.contains d then h
  else
    let h := match t.spares.find d with | none => h | some v => putSpares d v (t.held.find d) h
    match t.floors.find d with | none => h | some v => putFloor d v h

/-- The columns that a transaction's schedule table gives output `m` come into force. -/
def setTable (t : Txn) (m : Nat) (h : Hub) : Hub :=
  { h with tables := match t.tables.find m with | none => h.tables.del m | some v => h.tables.set m v }

/-- The schedule table that a transaction built for die `d` takes effect: for the members of `o`'s group on the die, which apply now, and
with the first output of the die that applies for those that the transaction does not affect (04 R92, R100, R111); `o` is none where
no output of the die waits for a boundary. -/
def applyTable (d : Nat) (o : Option Nat) (t : Txn) (h : Hub) : Hub :=
  let first := !t.doneDies.contains d
  let mine (m : Nat) : Bool := o == some (listOf h m)
  let ms := ((List.range 4).map (· + 4 * d)).filter fun m => mine m || (first && !t.todo.contains (listOf h m))
  let h := ms.foldl (fun h m => setTable t m h) h
  let h := (ms.filter mine).foldl (fun h m => updOut h m fun x => { x with tabAt := h.tables.get m [] }) h
  if first then updDie h d fun x => { x with schedGen := (x.schedGen + 1) % 2 ^ 32 } else h

/-- Commits validated earlier that have not applied take a table built on what a later one has changed on a die (log entry 17). -/
def retable (d seq : Nat) (h : Hub) : Hub :=
  { h with txns := h.txns.map fun e =>
      if (e.2.state == .waiting || e.2.state == .armed) && e.2.valSeq < seq && e.2.tables.any (fun q => q.1 / 4 == d) then
        (e.1, { e.2 with tables := (e.2.tables.filter fun q => q.1 / 4 != d) ++ buildTable (commitView h e.2) d })
      else e }

/-- The record of an output that a transaction is about to change, for the figures of R177. -/
def oldOut (x : Output) : OldOut :=
  { mode := x.mode, bandH := x.bandH, wbPeriod := x.wbPeriod, wbTarget := x.wbTarget, statFrames := x.statFrames, layout := x.dim.layout }

/-- A transaction with what it is about to change at output `o`, the layers `ls` and the tables of its dies among it, kept as it is now (07
R177). -/
def keepOld (h : Hub) (o : Nat) (ls : List Nat) (t : Txn) : Txn :=
  let ms := (membersOf h o).filter fun m => !t.oldOuts.has m
  let onDies := ((membersOf h o).flatMap fun m => (List.range 4).map (· + m / 4 * 4)).filter fun m => !t.oldTables.has m
  { t with
    oldOuts := ms.foldl (fun l m => l.set m (oldOut (getOut h m))) t.oldOuts
    oldTables := onDies.foldl (fun l m => l.set m (h.tables.get m [])) t.oldTables
    oldLayers := ls.foldl (fun l k => match h.layers.find k with | none => l | some x => l.set k (x.cur, x.fig)) t.oldLayers }

/-- A transaction applies to output `o` at now, with what its latch instant `l` caught (07 R178-R183, R189).  FLIP_TIME moves where a
record of the output changes (08 R208).  DESIGN CHOICE (log 81): a clone or span group counts, and is reported, as its primary alone. -/
def applyTxn (k o l : Nat) (inc : Bool) (h : Hub) : Hub :=
  match h.txns.find k with
  | none => h
  | some t =>
    let ls := readyLayers h t o l
    let ms := membersOf h o
    let dies := (ms.map (· / 4)).eraseDups
    let anew := !t.doneOuts.contains o && match t.outs.find o with | none => false | some s => modeChanges h s (getOut h o)
    let num := firstFrame (getOut h o) inc anew
    let flips := !ls.isEmpty || (!t.doneOuts.contains o && t.outs.has o)
    let t := keepOld h o ls t
    let h := ((t.layers.filter fun e => ls.contains e.1)).foldl (putLayer t) h
    let h := dies.foldl (fun h d => applyDie d t h) h
    let h := if t.applied.contains o then h else dies.foldl (fun h d => applyTable d (some o) t h) h
    let h := if flips then ms.foldl (fun h m => updOut h m fun x => { x with boot := false, flipTime := h.now }) h else h
    let h := if t.doneOuts.contains o then h else match t.outs.find o with | none => h | some s => applyOut o s inc h
    let t := { t with
      doneLayers := ls ++ t.doneLayers, doneOuts := o :: t.doneOuts, doneDies := dies ++ t.doneDies
      applied := if t.applied.contains o then t.applied else o :: t.applied
      lastApply := h.now }
    let t := { t with todo := if (leftLayers h t o).isEmpty then t.todo.filter (· != o) else t.todo }
    let h := dies.foldl (fun h d => retable d t.valSeq h) { h with txns := h.txns.upd k fun _ => t }
    let h := ms.foldl latchStart h
    let h := fbkRecord (o / 4) 2 0x0201 (txnHandle h k) (o + 256 * (num % 2 ^ 56)) h
    let h := if t.events then postEvent t.owner 0x0380 (txnHandle h k) (o + 256 * (num % 2 ^ 56)) h else h
    finishTxn k (sweepObjects h)

/-- Every transaction that caught the boundary applies to output `o` (07 R178, R179). -/
def applyCaught (o l : Nat) (inc : Bool) (h : Hub) : Hub :=
  if !groupConfirmed h o then h
  else ((armedTxns h).filter fun e => catches h e.2 o l).foldl (fun h e => applyTxn e.1 o l inc h) h

/-! ### Becoming ARMED (07 R163, R177, R178) -/

/-- Outputs that a transaction affects (07 R166): those it stages records of, those of the layers it stages records of, and the active ones
of a die whose engine set or floor step it stages (log entry 17), a member of a clone or span group as its primary. -/
def affectedOuts (h : Hub) (t : Txn) : List Nat :=
  let ls := t.layers.filterMap fun e => (h.layers.find e.1).map fun l => l.out
  let ds := (t.spares.map Prod.fst ++ t.floors.map Prod.fst).flatMap fun d =>
    ((((List.range 4).map (· + 4 * d)).filter fun o => (getOut h o).mode.isSome).map (listOf h))
  (List.range 32).filter fun o => (t.outs.map Prod.fst ++ ls ++ ds).contains o

/-- Is the output scanning or about to scan, so that its records wait for a boundary (07 R178)? -/
def scans (h : Hub) (o : Nat) : Bool :=
  let s := (getOut h o).state
  s == .running || s == .changing || s == .starting

/-- CORE_VID code of a clock step (21 R524). -/
def stepVid (s : Nat) : Nat := match s with | 0 => 25 | 1 => 15 | 2 => 10 | _ => 5

/-- The core voltage ramps to that of step `s` from instant `now`, one code in every microsecond, and `hold` ns longer. -/
def rampTo (s now hold : Nat) (p : Pwr) : Pwr :=
  { p with volt := s, vid := stepVid s, rampEnd := now + 1000 * (max (stepVid s) p.vid - min (stepVid s) p.vid) + hold }

/-- R407: the clock of die `d` is raised to the lowest step that the configurations allow, its voltage first, and its rung falls to match.
DESIGN CHOICE (log 81): the ramp and the switches of a raise, which take at most 60 µs, are over within the step that makes it. -/
def meetClock (dm : Demand) (h : Hub) (d : Nat) : Hub :=
  let p := (getDie h d).pwr
  let ok (s : Nat) : Bool := stepAllowed h dm d s
  if ok p.step then
    if ok (p.stepTo.getD p.step) then h
    else rungGoes d (min p.rung (5 + p.step)) (updPwr h d fun x => { x with stepTo := none })
  else
    let s := lowestStep h dm d
    rungGoes d (min p.rung (5 + s)) (updPwr h d fun x => rampTo s h.now 0 { x with step := s, stepTo := none })

/-- A validated configuration is in force or to come: every die's clock meets it (15 R407, R418). -/
def raiseClock (h : Hub) : Hub := (upDies h).foldl (meetClock (demandOf (armedViews h))) h

/-- What an ARMED transaction may apply now of outputs that do not scan applies at once: all that waits for no fence, and in independent mode
a fenced record once its fence has signalled (07 R178, R183). -/
def applyIdle (k : Nat) (h : Hub) : Hub :=
  match h.txns.find k with
  | none => h
  | some t =>
    if t.state ≠ .armed then h
    else (t.todo.filter fun o => !scans h o && catches h t o h.now).foldl (fun h o => applyTxn k o h.now true h) h

/-- A transaction becomes ARMED: the clock meets its configuration, what it stages of outputs that do not scan applies at once, and records of a die on which none of
its outputs waits do too (07 R177, R178). -/
def armTxn (k : Nat) (h : Hub) : Hub :=
  match h.txns.find k with
  | none => h
  | some t =>
    let todo := affectedOuts h t
    let t := { t with state := .armed, armedAt := h.now, armSeq := h.armCount, todo := todo, lastApply := h.now }
    let h := raiseClock { h with txns := h.txns.upd k fun _ => t, armCount := h.armCount + 1 }
    let waits := (todo.filter (scans h)).flatMap fun o => (membersOf h o).map (· / 4)
    let free := ((t.spares.map Prod.fst ++ t.floors.map Prod.fst).eraseDups).filter fun d => !waits.contains d
    let h := free.foldl (fun h d => retable d t.valSeq (applyTable d none t (applyDie d t h))) h
    let h := { h with txns := h.txns.upd k fun t => { t with doneDies := free ++ t.doneDies } }
    let h := todo.foldl (fun h o => (membersOf h o).foldl latchStart h) h
    finishTxn k (applyIdle k h)

/-! ### Fences (07 R181-R184) -/

/-- A WAITING transaction whose fences have all signalled becomes ARMED (07 R182). -/
def armIfReady (k : Nat) (h : Hub) : Hub :=
  match h.txns.find k with
  | none => h
  | some t => if t.state == .waiting && t.fences.all (fun e => e.2.signalled.isSome) then armTxn k h else h

/-- A timeline is signalled: its value rises, and the fences that it reaches count as signalled (07 R181-R183). -/
def signalTl (tl v : Nat) (h : Hub) : Hub :=
  match h.tls.find tl with
  | none => h
  | some x =>
    if v ≤ x.value then h
    else
      let h := { h with tls := h.tls.set tl { x with value := v } }
      let h := { h with txns := h.txns.map fun (e : Nat × Txn) =>
        if e.2.state == TxnState.waiting || e.2.state == TxnState.armed then
          (e.1, { e.2 with fences := e.2.fences.map fun (f : Nat × Fence) =>
            if f.2.tl % 8192 = tl && f.2.value ≤ v && f.2.signalled.isNone && !e.2.doneLayers.contains f.1
            then (f.1, { f.2 with signalled := some h.now }) else f })
        else e }
      (h.txns.map Prod.fst).foldl (fun h k => applyIdle k (armIfReady k h)) h

/-- The fences of transaction `k` for which `p` holds and that have not signalled fail with status `st`: in atomic mode it rolls
back; in independent mode their records are discarded (07 R183, R184). -/
def failFences (k st : Nat) (p : Fence → Bool) (h : Hub) : Hub :=
  match h.txns.find k with
  | none => h
  | some t =>
    let bad := ((t.fences.filter fun f => f.2.signalled.isNone && p f.2 && !t.doneLayers.contains f.1 &&
      (t.state == .waiting || t.layers.has f.1)).map Prod.fst)
    if bad.isEmpty then h
    else if t.state == .waiting then closeTxn k st 0 0 h
    else if t.state ≠ .armed then h
    else
      let t := { t with
        layers := t.layers.filter fun e => !bad.contains e.1
        doneLayers := bad ++ t.doneLayers, discard := if t.discard = 0 then st else t.discard }
      let t := { t with todo := t.todo.filter fun o => !(leftLayers h t o).isEmpty || leftOut h t o }
      finishTxn k (sweepObjects { h with txns := h.txns.upd k fun _ => t })

/-- The fences of every transaction for which `p` holds (of the owner, too) fail. -/
def failAllFences (st : Nat) (p : Txn → Fence → Bool) (h : Hub) : Hub :=
  h.txns.foldl (fun h e => failFences e.1 st (p e.2) h) h

end Sys2Proof.Machine
end

