-- ==== Sys2Proof/Machine/Check.lean ====
section
/-!
DEFINITION. Check values: configurable CRCs, lanes, results, and the commands and events of the 0x06xx range (10 R265-R285).
-/

namespace Sys2Proof.Machine

/-! ### Lane operations (10 R276) -/

/-- A lane operation ends with a status. -/
def endOp (st : Nat) (r1 : Nat) (h : Hub) (p : LaneOp) : Hub := match p.pend with | none => h | some q => complete q st 255 0 r1 h

/-- The lane operations of an output for which `p` holds end with a status; the others stay. -/
def dropOps (o st : Nat) (p : LaneOp → Bool) (h : Hub) : Hub :=
  let ops := (getOut h o).chk.ops
  let h := updOut h o fun x => { x with chk := { x.chk with ops := ops.filter fun q => !p q } }
  (ops.filter p).foldl (endOp st 0) h

/-- Lane operations go without a completion (10 R278). -/
def forgetOps (o : Nat) (p : LaneOp → Bool) (h : Hub) : Hub :=
  let ops := (getOut h o).chk.ops
  let h := updOut h o fun x => { x with chk := { x.chk with ops := ops.filter fun q => !p q } }
  (ops.filter p).foldl (fun h q => match q.pend with
    | none => h
    | some c => updCtx h c.ctx fun x => if x.epoch = c.epoch then { x with resv := x.resv - 1 } else x) h

/-- Does an operation concern the frame in progress, while its pixels are sent? -/
def opOfFrame (x : Output) (p : LaneOp) : Bool :=
  match x.frame with | none => false | some f => p.frame == f.num && !f.notSent && !f.truncated

/-- The captures after the last pixel of the line that was sent last, for the channels in `chs`. -/
def captureOps (o : Nat) (chs : Nat → Bool) (h : Hub) : Hub :=
  let h := updOut h o fun x => { x with chk := lineSentWhole x.chk }
  let x := getOut h o
  match x.scan with
  | none => h
  | some sc =>
    let due (p : LaneOp) : Bool := opOfFrame x p && !p.write && p.y + 1 == sc.line && chs p.ch
    let h := updOut h o fun x => { x with chk := { x.chk with ops := x.chk.ops.filter fun p => !due p } }
    (x.chk.ops.filter due).foldl (fun h p =>
      endOp 0 (x.chk.lanes.get p.ch (match chanCfg x.chk.cfg p.ch with | none => 0 | some k => k.init)) h p) h

/-- The presets at the start of the line that starts next, for the channels in `chs`. -/
def presetOps (o : Nat) (chs : Nat → Bool) (h : Hub) : Hub :=
  let x := getOut h o
  match x.scan with
  | none => h
  | some sc =>
    let due (p : LaneOp) : Bool := opOfFrame x p && p.write && p.y == sc.line && chs p.ch
    let ps := x.chk.ops.filter due
    let h := updOut h o fun x => { x with
      frame := x.frame.map fun f => if ps.isEmpty then f else { f with preset := true }
      chk := { x.chk with
        ops := x.chk.ops.filter fun p => !due p
        lanes := ps.foldl (fun t p => match chanCfg x.chk.cfg p.ch with
          | none => t
          | some k => t.set p.ch (p.value % 2 ^ k.width)) x.chk.lanes } }
    ps.foldl (endOp 0 0) h

/-- CHK_LANE_CAPTURE: the last pixel of a line has been sent. -/
def laneCapture (o ch : Nat) (h : Hub) : Hub :=
  let x := getOut h o
  match x.mode, x.scan with
  | some e, some sc =>
    if sc.line = 0 || !x.chk.ops.any (fun p => p.ch == ch && !p.write && p.y + 1 == sc.line && opOfFrame x p) then h
    else captureOps o (· == ch) (at_ (scanNs e sc (linePx e sc (sc.line - 1) + e.hActive)) h)
  | _, _ => h

/-- CHK_LANE_PRESET: a line is about to start; the values of the line before it are complete (10 R276). -/
def lanePreset (o ch : Nat) (h : Hub) : Hub :=
  let x := getOut h o
  match x.mode, x.scan with
  | some e, some sc =>
    if !x.chk.ops.any (fun p => p.ch == ch && p.write && p.y == sc.line && opOfFrame x p) then h
    else presetOps o (· == ch) (at_ (scanNs e sc (linePx e sc sc.line)) (captureOps o (fun _ => true) h))
  | _, _ => h

/-! ### Configurations (10 R278) -/

/-- Configurations accepted before latch instant `l` take effect for the frame that starts now; they discard the expected values and
lane writes of their channels for it and later frames. -/
def takeChkCfg (o l : Nat) (h : Hub) : Hub :=
  let x := getOut h o
  let now := x.chk.next.filter fun e => e.2.2 < l
  let n := x.frameCount
  let hit (ch f : Nat) : Bool := now.any (fun e => e.1 == ch) && n ≤ f
  let h := updOut h o fun x => { x with chk := { x.chk with
    cfg := now.foldl (fun t e => match e.2.1 with | none => t.del e.1 | some k => t.set e.1 k) x.chk.cfg
    next := x.chk.next.filter fun e => !(e.2.2 < l)
    expect := x.chk.expect.filter fun e => !hit e.1 e.2.1 } }
  dropOps o 0x0411 (fun p => p.write && hit p.ch p.frame) h

/-- Does a rectangle lie inside an active area? -/
def rectInside (k : ChkCfg) (e : ModeEntry) : Bool := k.x + k.w ≤ e.hActive && k.y + k.h ≤ e.vActive

/-- At S, a rectangle that no longer lies inside the active area is disabled. -/
def fitChkCfg (e : ModeEntry) (c : Chk) : Chk := { c with cfg := c.cfg.filter fun k => rectInside k.2 e }

/-! ### Results (10 R269-R274) -/

/-- A unit of the die of an output: its pipe, an engine, or the PHY of its port. -/
def pipeUnit (o : Nat) : Nat := unitId 7 (o / 4) (o % 4)

/-- DETAIL of a missing band (17 R441). -/
def bandDetail (o band frame : Nat) : Nat := band % 65536 + 65536 * o + 2 ^ 24 * (frame % 2 ^ 40)

/-- Engines that compose the columns which a rectangle touches, in ascending order. -/
def rectEngines (h : Hub) (o : Nat) (k : ChkCfg) : List Nat :=
  let cols := (getOut h (homePipe h o)).cols
  let es := ((List.range ((k.x + k.w - 1) / 256 - k.x / 256 + 1)).map fun i => cols.getD (k.x / 256 + i) 24).filter (· < 24)
  (List.range 24).filter es.contains

/-! ### Commands (10 R277-R284) -/

/-- The expected values and lane operations of an output go at once when its grant moves or its holder ends (10 R278). -/
def dropGrant (o : Nat) (new : Option Nat) (h : Hub) : Hub :=
  let h := forgetOps o (fun _ => true) h
  updOut h o fun x => { x with chk := { x.chk with holder := new, expect := [] } }

/-- CHK_GRANT (10 R280). -/
def chkGrant : Spec :=
  { op := 0x0600, level := 2, locks := true, rsv := [(17, 1), (20, 44)]
    checks := fun c _ h =>
      let v := arg16 c 18
      outCks h 16 (arg8 c 16) ++
      (if v = 0xFFFF then [] else
        ctxCks h 18 v true ++ [ckd (homeDie v) 0x0301 18 (v ≤ 4095 && (getCtx h v).state != .unassigned && levelOf h v = 0)])
    run := fun c _ _ h =>
      let o := arg8 c 16
      let new := if arg16 c 18 = 0xFFFF then none else some (arg16 c 18)
      okRes (if (getOut h o).chk.holder = new then h else dropGrant o new h) }

/-- The holder of an output's grant (10 R277). -/
def holds (h : Hub) (o c : Nat) : Bool := (getOut h o).chk.holder == some c

/-- Has the latch instant of an output's next apply point passed?  Between A and S of a start or a mode change it has, being A (07
R178). -/
def latchPassed (h : Hub) (o : Nat) : Bool :=
  let x := getOut h o
  x.state == .starting || x.state == .changing || match x.mode, x.scan with
    | some e, some sc => x.state == .running && (sc.latched || decide (latchAt e sc ≤ h.now))
    | _, _ => false

/-- Do the records that the latch point of a running output's next boundary fixed start, change or stop its mode, or does the hub stop it or
its display PLL lose lock, so that its frame counter does not step there (08 R200, R208)? -/
def boundaryEnds (h : Hub) (o : Nat) : Bool :=
  let x := getOut h o
  let p := listOf h o
  x.state == .running && (x.pllLost || ((membersOf h p).any fun m => (getOut h m).stopNext) || match x.mode, x.scan with
    | some e, some sc => (armedTxns h).any fun t => catches h t.2 p (latchAt e sc) && !t.2.doneOuts.contains p &&
        (match t.2.outs.find p with | none => false | some s => modeChanges h s (getOut h p))
    | _, _ => false)

/-- FRAME_COUNT of the first frame that a configuration accepted now governs (10 R278).  Where the next boundary changes the mode, its
latch instant has passed and the boundary at S, whose latch instant is A, is still to come, the frame from S is that first one. -/
def chkFirst (h : Hub) (o : Nat) : Nat :=
  (getOut h o).frameCount + 1 + b2n (latchPassed h o && !boundaryEnds h o)

/-- The latch instant of the boundary that comes next: of the next start of vertical blank, or A where S comes. -/
def nextLatch (h : Hub) (o : Nat) : Nat :=
  let x := getOut h o
  match x.state, x.mode, x.scan with
  | .running, some e, some sc => latchAt e sc
  | _, _, _ => x.aTime

/-- The waiting configurations with one more: it takes the place of an earlier one of its channel that no latch point has fixed. -/
def queueCfg (late : Bool) (ch : Nat) (k : Option ChkCfg) (t latch : Nat) (l : List (Nat × Option ChkCfg × Nat)) :
    List (Nat × Option ChkCfg × Nat) :=
  (l.filter fun e => e.1 != ch || (late && e.2.2 < latch)) ++ [(ch, k, t)]

/-- The configuration that CHK_CONFIG carries. -/
def chkArgs (c : Cmd) : ChkCfg :=
  { flags := arg8 c 18, width := arg8 c 19, x := arg16 c 20, y := arg16 c 22, w := arg16 c 24, h := arg16 c 26, poly := arg64 c 32
    init := arg64 c 40 }

/-- CHK_CONFIG (10 R281, R286). -/
def chkConfig : Spec :=
  { op := 0x0601, level := 1, rsv := [(28, 4), (48, 16)]
    checks := fun c _ h =>
      let o := arg8 c 16
      let k := chkArgs c
      outCks h 16 o ++
      [ckd (o / 4) 0x0303 16 (o < 32 && !holds h o c.ctx), ck 0x0103 18 (k.flags ≥ 64), ck 0x0202 17 (arg8 c 17 > 17),
       ck 0x0201 17 (arg8 c 17 = 16 || arg8 c 17 = 17)] ++
      (if !bit k.flags 0 then
        [ck 0x0103 19 (k.width ≠ 0), ck 0x0103 20 (k.x ≠ 0), ck 0x0103 22 (k.y ≠ 0), ck 0x0103 24 (k.w ≠ 0),
         ck 0x0103 26 (k.h ≠ 0), ck 0x0103 32 (k.poly ≠ 0), ck 0x0103 40 (k.init ≠ 0)]
       else
        [ck 0x0201 19 (k.width < 8 || k.width > 64), ck 0x0204 24 (k.w = 0), ck 0x0204 26 (k.h = 0),
         ck 0x0201 32 (k.poly % 2 = 0 || k.poly ≥ 2 ^ k.width), ck 0x0201 40 (k.init ≥ 2 ^ k.width),
         ckd (o / 4) 0x0204 255 (holds h o c.ctx && match (getOut h o).mode with | none => false | some e => !rectInside k e)])
    run := fun c p _ h =>
      let o := arg8 c 16
      let ch := arg8 c 17
      let n := chkFirst h o
      let k := chkArgs c
      let gone := (getOut h o).chk.expect.countP fun e => e.1 == ch && n ≤ e.2.1
      let new := if bit k.flags 0 then some k else none
      let latch := nextLatch h o
      okRes (updOut h o fun x => { x with chk := { x.chk with
        next := queueCfg (latchPassed h o) ch new p.time latch x.chk.next } }) gone n }

/-- The checks that the commands on a running output share (10 R279). -/
def chkCks (h : Hub) (c : Cmd) (may : Nat → Bool) : List Ck :=
  let o := arg8 c 16
  outCks h 16 o ++ [ckd (o / 4) 0x0303 16 (o < 32 && !may o), ckd (o / 4) 0x0405 16 (o < 32 && (getOut h o).state == .stopped)]

/-- CHK_EXPECT (10 R272, R273, R282). -/
def chkExpect : Spec :=
  { op := 0x0602, level := 1, rsv := [(18, 6), (40, 24)]
    checks := fun c _ h =>
      let o := arg8 c 16
      let ch := arg8 c 17
      let n := (getOut h o).frameCount
      let k := (getOut h o).chk.cfg.find ch
      chkCks h c (holds h · c.ctx) ++
      [ck 0x0202 17 (ch > 17), ck 0x0201 17 (ch = 16 || ch = 17), ckd (o / 4) 0x0404 17 (ch < 16 && o < 32 && k.isNone),
       ckd (o / 4) 0x0201 24 (holds h o c.ctx && (arg64 c 24 < n || arg64 c 24 > n + 4)),
       ckd (o / 4) 0x0201 32 (holds h o c.ctx && match k with | none => false | some k => arg64 c 32 ≥ 2 ^ k.width)]
    run := fun c _ _ h =>
      let ch := arg8 c 17
      let f := arg64 c 24
      okRes (updOut h (arg8 c 16) fun x => { x with chk := { x.chk with
        expect := (x.chk.expect.filter fun e => !(e.1 == ch && e.2.1 == f)) ++ [(ch, f, arg64 c 32)] } }) }

/-- May the context read an output's results and lanes (10 R277)? -/
def mayRead (h : Hub) (c o : Nat) : Bool := holds h o c || levelOf h c == 2

/-- The block of CHK_READ. -/
def chkBlock (h : Hub) (o : Nat) : Bytes :=
  let k := (getOut h o).chk
  let r := k.res
  leBytes 1 o ++ leBytes 1 0 ++ leBytes 2 r.flags ++ leBytes 2 r.compared ++ leBytes 2 r.mismatched ++ leBytes 8 r.frame ++
  leBytes 8 r.time ++ leBytes 4 k.mismatches ++ leBytes 4 k.linkMismatches ++
  ((List.range 16).flatMap fun c => leBytes 8 (r.region.getD c 0)) ++ leBytes 8 r.frameValue ++ leBytes 8 r.linkValue ++
  leBytes 2 (((List.range 16).map fun c => b2n (k.cfg.has c) * 2 ^ c).sum) ++ leBytes 78 0

/-- CHK_READ (10 R284). -/
def chkRead : Spec :=
  { op := 0x0603, level := 1, rsv := [(17, 7), (32, 32)]
    checks := fun c _ h => bufCk c 24 :: chkCks h c (mayRead h c.ctx)
    run := fun c _ _ h => okRes (ctxWrite c.ctx (arg64 c 24) (chkBlock h (arg8 c 16)) h) 256 }

/-- CHK_LANE (10 R276, R283). -/
def chkLane : Spec :=
  { op := 0x0604, level := 1, rsv := [(19, 1), (22, 2), (40, 24)]
    checks := fun c _ h =>
      let o := arg8 c 16
      let ch := arg8 c 17
      let w := arg8 c 18 = 1
      let n := (getOut h o).frameCount
      let may := if w then holds h o c.ctx else mayRead h c.ctx o
      chkCks h c (fun o => if w then holds h o c.ctx else mayRead h c.ctx o) ++
      [ck 0x0106 18 (arg8 c 18 > 1), ck 0x0202 17 (ch > 17), ck 0x0201 17 (w && (ch = 16 || ch = 17)),
       ckd (o / 4) 0x0404 17 (ch < 16 && o < 32 && !(getOut h o).chk.cfg.has ch),
       ckd (o / 4) 0x0201 20 (may && match (getOut h o).mode with | none => false | some e => arg16 c 20 ≥ e.vActive),
       ckd (o / 4) 0x0201 24 (may && (arg64 c 24 < n || arg64 c 24 > n + 4)), ck 0x0103 32 (!w && arg64 c 32 ≠ 0)]
    run := fun c p _ h =>
      laterRes (updOut h (arg8 c 16) fun x => { x with chk := { x.chk with ops := x.chk.ops ++
        [{ ch := arg8 c 17, write := arg8 c 18 = 1, y := arg16 c 20, frame := arg64 c 24, value := arg64 c 32, pend := some p }] } }) }

/-! ### The rows -/

/-- CHK_GRANT. -/
def execChkGrant (c : Cmd) (s : State) : Host.Outcome State Fault Refusal := .next (mail chkGrant c s)
/-- CHK_CONFIG. -/
def execChkConfig (c : Cmd) (s : State) : Host.Outcome State Fault Refusal := .next (mail chkConfig c s)
/-- CHK_EXPECT. -/
def execChkExpect (c : Cmd) (s : State) : Host.Outcome State Fault Refusal := .next (mail chkExpect c s)
/-- CHK_READ. -/
def execChkRead (c : Cmd) (s : State) : Host.Outcome State Fault Refusal := .next (mail chkRead c s)
/-- CHK_LANE. -/
def execChkLane (c : Cmd) (s : State) : Host.Outcome State Fault Refusal := .next (mail chkLane c s)
/-- CHK_LANE_CAPTURE. -/
def execChkLaneCapture (out ch : Nat) (s : State) : Host.Outcome State Fault Refusal := .next (onHub (laneCapture out ch) s)
/-- CHK_LANE_PRESET. -/
def execChkLanePreset (out ch : Nat) (s : State) : Host.Outcome State Fault Refusal := .next (onHub (lanePreset out ch) s)

end Sys2Proof.Machine
end

