-- ==== Sys2Proof/Machine/Commit.lean ====
section
/-!
DEFINITION. The checks of a commit in the order of 07 R166, and the step that a commit makes when they pass (07 R163-R167, R177,
R189; 04 R87; 05 R136; 06 R154; 08 R206, R210, R211, R217, R218, R227; 09 R237-R241, R258; 15 R407).
-/

namespace Sys2Proof.Machine

/-! ### The configuration that a commit would leave -/

/-- The figures that a layer's cost takes from its source surface (04 R89). -/
def figOfSurf (s : Surf) : SrcFig :=
  { fmt := s.fmt, width := s.width, height := s.height, budget := s.budget, planes := s.planes, die := s.region / 256 }

/-- The source figures of the staged layers, as the surfaces stand now (04 R89). -/
def commitFigs (h : Hub) (t : Txn) : Tab SrcFig :=
  t.layers.filterMap fun e => if e.2.source = 0 then none else (surfOf h e.2.source).map fun s => (e.1, figOfSurf s)

/-- Dies on which a commit changes the configuration: those of the affected outputs' pipes, and those whose records it stages. -/
def affectedDies (h : Hub) (t : Txn) : List Nat :=
  let ds := (affectedOuts h t).flatMap (fun o => (membersOf h o).map (· / 4)) ++ t.spares.map Prod.fst ++ t.floors.map Prod.fst
  (List.range 8).filter ds.contains

/-- The transaction with its source figures, the engines that its spares hold back, and the schedule tables built for its dies (04 R89, R93,
R103). -/
def planTxn (h : Hub) (t : Txn) : Txn :=
  let t := { t with figs := commitFigs h t, tables := [], held := [] }
  let g := (viewBefore h t).h
  let t := { t with held := t.spares.map fun (e : Nat × Nat) => (e.1, heldMask g e.1 e.2) }
  { t with tables := (affectedDies h t).flatMap (buildTable (commitView h t)) }

/-- What the commit would make the package hold: everything held now, and the new configuration (07 R165, R177). -/
def commitDemand (h : Hub) (t : Txn) : Demand := demandOf (heldViews h ++ [commitView h t])

/-! ### Checks on layers (07 R166 orders 2, 3, 5, 6) -/

/-- RESULT0 of a refused commit that names a layer or an output (07 R167). -/
def commitR0 (layer out : Nat) : Nat := layer + 65536 * out

/-- A check of a commit that names a layer of output `o`, or 0xFFFF. -/
def cck (st layer out : Nat) (bad : Bool) : Ck := { st := st, off := 255, bad := bad, r0 := commitR0 layer out }

/-- The layer that repeats the ZPOS of an earlier one (04 R87, 07 R183). -/
def repeatedZ (l : List (Nat × List Form)) : Option Nat :=
  (l.zipIdx.find? fun e => (l.take e.2).any fun p => p.2.any fun f => e.1.2.any fun g => f.1.zpos == g.1.zpos).map fun e => e.1.1

/-- The greatest overlap depth of layers, each given by the clipped rectangles of its forms (04 R84, R87; 07 R183). -/
def overlapDepth (ls : List (List (Nat × Nat × Nat × Nat))) : Nat :=
  if ls.length ≤ 16 then ls.length
  else
    let rs := ls.flatten
    let covers (r : Nat × Nat × Nat × Nat) (x y : Nat) : Bool := r.1 ≤ x && x ≤ r.2.2.1 && r.2.1 ≤ y && y ≤ r.2.2.2
    maxOf (rs.flatMap fun a => rs.map fun b => ls.countP fun l => l.any fun r => covers r a.1 b.2.1)

/-- Order 2 and 3 of R166 for the list of output `o`. -/
def listCks (v : View) (o : Nat) : List Ck :=
  let fs := formsOf v o
  let rects := match (getOut v.h o).mode with
    | none => []
    | some e => (fs.map fun kf => kf.2.filterMap fun f => clipTo f.1 (logicalW v.h o e) e.vActive).filter (! ·.isEmpty)
  [cck 0x0108 ((repeatedZ fs).getD 0xFFFF) o (repeatedZ fs).isSome, cck 0x020A 0xFFFF o (fs.length > 64 || overlapDepth rects > 16)]

/-- Order 5: the sources of enabled layers whose SOURCE the transaction stages. -/
def commitSourceCks (h : Hub) (t : Txn) : List Ck :=
  (t.layers.filter fun e => t.geom.contains e.1 && e.2.enable && e.2.source ≠ 0).flatMap fun e =>
    (handleCks h 255 e.2.source ++ [rightCk h 255 e.2.source t.owner 0]).map fun k =>
      { k with die := none, r0 := commitR0 e.1 (((layerOf h e.1).map Layer.out).getD 0xFF) }

/-- Order 5 for write-back targets that the transaction stages (03 R69, 08 R229). -/
def commitTargetCks (h : Hub) (t : Txn) : List Ck :=
  t.outs.flatMap fun e => match e.2.wb with
    | none => []
    | some (p, v) =>
      if p = 0 then []
      else (handleCks h 255 v ++ [rightCk h 255 v t.owner 1,
        ck 0x0205 255 (match surfOf h v with | none => false | some s => mayUse h v t.owner 1 && !hasRole s.fmt 3)]).map fun k =>
          { k with die := none, r0 := commitR0 0xFFFF e.1 }

/-- Order 6: the objects that staged records select. -/
def commitObjectCks (h : Hub) (t : Txn) : List Ck :=
  t.layers.flatMap fun e =>
    let d := e.1 / 1024
    let o := ((layerOf h e.1).map Layer.out).getD 0xFF
    let bank (i : Nat) : Bool := i ≠ 0xFF && !(match h.banks.find (d * 16 + i) with | none => false | some b => b.owner == t.owner)
    [cck 0x0404 e.1 o (bank e.2.hBank), cck 0x0404 e.1 o (bank e.2.vBank),
     cck 0x0404 e.1 o (e.2.preLut ≠ 0xFF &&
       !(match h.luts.find (d * 128 + e.2.preLut) with | none => false | some b => b.owner == t.owner)),
     cck 0x0404 e.1 o (e.2.prog ≠ 0xFFFF &&
       !(match h.progs.find (d * 256 + e.2.prog) with | none => false | some b => b.owner == t.owner))]

/-! ### Checks on outputs (orders 4, 5 and 7) -/

/-- The mode that a commit leaves an output in a sync group with, against every running member (08 R211).  DEDUCED (log 81): its failure
is reported at MODE, as R211 has it, where R167 gives every refused commit ERR_OFFSET 0xFF. -/
def syncBad (h g : Hub) (o : Nat) (e : ModeEntry) : Bool :=
  let x := getOut h o
  x.grp == 3 && ((getOut h x.primary).members.any fun m =>
    m ≠ o && (getOut h m).state == .running && match (getOut g m).mode with | none => false | some f => !samePeriod e f)

/-- t_dim in ns (09 R243). -/
def tDim (h : Hub) (o : Nat) (e : ModeEntry) : Nat :=
  let several := composed (getOut h o) && decide ((((membersOf h (listOf h o)).map (· / 4)).eraseDups).length > 1)
  40000 + 10 * zonePairs h o e + if several then 10000 else 0

/-- COLS of a span group's layout is a multiple of the member count (09 R239). -/
def spanColsCk (g : Hub) (o : Nat) : Ck :=
  let x := getOut g o
  cck 0x0201 0xFFFF o (x.dim.layout.mode ≠ 0 && x.grp == 2 && x.dim.layout.cols % (membersOf g o).length ≠ 0)

/-- The dimming layout against the mode that the commit leaves (09 R237, R239, R243, R255, R258). -/
def layoutCks (g : Hub) (o : Nat) (e : ModeEntry) : List Ck :=
  let x := getOut g o
  let l := x.dim.layout
  if l.mode = 0 then []
  else
    let off := signed 16 l.txOffset
    [cck 0x0204 0xFFFF o (logicalW g o e < 8 * l.cols || e.vActive < 8 * l.rows),
     spanColsCk g o,
     cck 0x0201 0xFFFF o (off < -(vBlank e : Int) || off ≥ (e.vActive : Int)),
     cck 0x0207 0xFFFF o (pxNum e (vBlank e * hTotal e) < tDim g o e * pxDen e),
     cck 0x0207 0xFFFF o (pxNum e (((vBlank e : Int) + off).toNat * hTotal e) < tDim g o e * pxDen e)]

/-- Write-back stream 1 against the picture that the commit leaves (08 R217). -/
def writebackCks (v : View) (o : Nat) (e : ModeEntry) : List Ck :=
  let x := getOut v.h o
  if x.wbPeriod = 0 || x.grp = 2 then []
  else
    let w := logicalW v.h o e
    [cck 0x0204 0xFFFF o (match surfOf v.h x.wbTarget, listOwner v.h (listOf v.h o) with
      | some s, some c => mayUse v.h x.wbTarget c 1 && (s.width ≠ w || s.height ≠ e.vActive)
      | _, _ => false),
     cck 0x0403 0xFFFF o ((formsOf v o).any fun kf => kf.2.any fun f => f.1.source == x.wbTarget)]

/-- The checks of one affected output, primary of its group. -/
def outputCks (h : Hub) (v : View) (t : Txn) (o : Nat) : List Ck :=
  let s := outIn t o
  match (getOut v.h o).mode with
  | none => if s.dimLayout.isSome then [spanColsCk v.h o] else []
  | some e =>
    let x := getOut v.h o
    let genlock := (getOut v.h (if x.grp = 0 then o else x.primary)).gen.on
    [cck 0x0207 0xFFFF o (!blankOk e x.bandH genlock)] ++
    (if s.mode.isNone then []
     else
      [{ cck 0x0201 0xFFFF o (syncBad h v.h o e) with off := 17 },
       cck 0x0204 0xFFFF o (x.grp == 2 && logicalW v.h o e > 16384)] ++
      (membersOf h o).flatMap fun m => match outPort v.h m with
        | none => [cck 0x0209 0xFFFF o true]
        | some k =>
          [cck 0x0209 0xFFFF o (!portFits (getPort h k) k e x.bpc || !modeAllows e (portKindBit (getPort h k) k)),
           cck 0x0205 0xFFFF o (!bpcOk k x.bpc || !encOk k x.enc)]) ++
    (if s.mode.isSome || s.dimLayout.isSome then layoutCks v.h o e else []) ++
    (if s.mode.isSome || s.wb.isSome || t.layers.any (fun l => ((layerOf h l.1).map Layer.out) == some o) then
      writebackCks v o e else [])

/-! ### Resources (order 7) -/

/-- The figures of one die's pipes. -/
def dieFigs (dm : Demand) (d : Nat) : List Fig := dm.figs.filter fun f => f.out / 4 == d

/-- Granules that a die's cache frames and regions would hold (08 R218). -/
def granulesNeed (h : Hub) (dm : Demand) (d : Nat) : Nat :=
  ((h.regions.filter fun e => e.1 / 256 == d).map fun e => e.2.granules.length).sum +
  (((List.range 4).map (· + 4 * d)).map fun o =>
    max (getOut h o).cache.length (maxOf (((dieFigs dm d).filter fun f => f.out == o).map Fig.granules))).sum

/-- The lowest output of a die whose cache frame would grow, or 0xFF: the output named where the die's LP5X has no room (07 R167;
log entry 34). -/
def growingCache (h : Hub) (dm : Demand) (d : Nat) : Nat :=
  (((List.range 4).map (· + 4 * d)).find? fun o =>
    (getOut h o).cache.length < maxOf (((dieFigs dm d).filter fun f => f.out == o).map Fig.granules)).getD 0xFF

/-- The pixel clocks of a die's outputs under all configurations, without repeats (08 R206). -/
def pixelClocks (dm : Demand) (d : Nat) : List ModeEntry :=
  (dm.views.flatMap fun v => ((List.range 4).map (· + 4 * d)).filterMap fun o => (getOut v.h o).mode).foldl
    (fun l e => if l.any (sameClock e) then l else e :: l) []

/-- A STOPPING output with the mode whose band buffer it still holds (08 R200); of the members of a clone group on a die, which share
it, the first (08 R209). -/
def stopping (h : Hub) (d : Nat) : List (Nat × ModeEntry) :=
  ((List.range 4).map (· + 4 * d)).filterMap fun o =>
    let x := getOut h o
    match x.mode, x.relMode with
    | none, some e => if x.state == .stopping && homePipe h o == o then some (o, e) else none
    | _, _ => none

/-- Bytes of band buffer that a die's pipes would hold (01 R13). -/
def bandNeed (h : Hub) (dm : Demand) (d : Nat) : Nat :=
  ((dieFigs dm d).map Fig.band).sum + ((stopping h d).map fun p =>
    if (dieFigs dm d).any (fun f => f.out == p.1) then 0 else bandBytes p.2 (getOut h p.1).bandH).sum

/-- Zones that a die's outputs would hold, each at its largest count, with a mode or without (09 R238); of the members of a clone group on a
die, the first. -/
def zoneNeed (dm : Demand) (d : Nat) : Nat :=
  (((List.range 4).map (· + 4 * d)).map fun o =>
    maxOf (dm.views.map fun v => if homePipe v.h o == o then zoneCount v.h o else 0)).sum

/-- Zone columns of a picture `w` wide with `n` of them that pixels x0 to x1 touch (09 R237). -/
def zonesTouched (w n x0 x1 : Nat) : Nat := ((x1 + 1) * n - 1) / w + 1 - ((x0 + 1) * n - 1) / w

/-- Pairs of a zone and a tile column that one engine keeps for a pipe under a configuration (09 R241). -/
def enginePairs (v : View) (p : Nat × Nat) (e : Nat) : Nat :=
  let x := getOut v.h p.1
  match x.mode with
  | none => 0
  | some m =>
    if !hasZones x then 0
    else
      let w := logicalW v.h (listOf v.h p.1) m
      x.dim.layout.rows * (((v.h.tables.get p.1 []).zipIdx.filter fun c => c.1 == e).map fun c =>
        zonesTouched w x.dim.layout.cols (p.2 + 256 * c.2) (p.2 + 256 * c.2 + colWidth m c.2 - 1)).sum

/-- Does an engine of die `d` keep more pairs than its larder holds, each output at its largest figure (07 R177, 09 R241)? -/
def pairsBad (dm : Demand) (d : Nat) : Bool :=
  (List.range 24).any fun e =>
    (((List.range 4).map (· + 4 * d)).map fun o =>
      maxOf (dm.views.map fun v => match (pipesOf v.h d).find? fun p => p.1 == o with
        | none => 0 | some p => enginePairs v p e)).sum > 1024

/-- The copies that the groups of affected outputs need on other dies, for every record of their lists after the commit (05 R136): kind (0
bank, 1 LUT, 2 program), die, original. -/
def copiesNeeded (h : Hub) (t : Txn) : List (Nat × Nat × Nat) :=
  let v := (commitView h t).h
  let outs := affectedOuts h t
  ((v.layers.filter fun e => outs.contains e.2.out).flatMap fun e =>
    let d := e.1 / 1024
    let r := e.2.cur
    let objs :=
      ((if r.hBank = 0xFF then [] else [(0, d * 16 + r.hBank)]) ++ (if r.vBank = 0xFF then [] else [(0, d * 16 + r.vBank)]) ++
       (if r.preLut = 0xFF then [] else [(1, d * 128 + r.preLut)]) ++ if r.prog = 0xFFFF then [] else [(2, d * 256 + r.prog)])
    let dies := ((membersOf h e.2.out).map (· / 4)).filter (· != d)
    dies.eraseDups.flatMap fun k => objs.map fun o => (o.1, k, o.2)).eraseDups

/-- One copy made on a die, or the status that its lack of room draws (05 R132, R136; 06 R153, R154). -/
def makeCopy (h : Hub) (c : Nat × Nat × Nat) : Nat × Hub :=
  let (kind, d, orig) := c
  match kind with
  | 0 =>
    match h.banks.find orig with
    | none => (0, h)
    | some b =>
      if h.banks.any fun e => e.1 / 16 == d && e.2.copyOf == some orig then (0, h)
      else if (h.banks.filter fun e => e.1 / 16 == d && e.2.group == b.group).length ≥ 8 then (0x0607, h)
      else match firstNat (fun k => !h.banks.has k) 16 (d * 16) with
        | none => (0x0607, h)
        | some k => (0, { h with banks := h.banks.set k { b with copyOf := some orig } })
  | 1 =>
    match h.luts.find orig with
    | none => (0, h)
    | some b =>
      if h.luts.any fun e => e.1 / 128 == d && e.2.copyOf == some orig then (0, h)
      else if (h.luts.filter fun e => e.1 / 128 == d && e.2.group == b.group).length ≥ 64 then (0x060B, h)
      else match firstNat (fun k => !h.luts.has k) 128 (d * 128) with
        | none => (0x060B, h)
        | some k => (0, { h with luts := h.luts.set k { b with copyOf := some orig } })
  | _ =>
    match h.progs.find orig with
    | none => (0, h)
    | some b =>
      if h.progs.any fun e => e.1 / 256 == d && e.2.copyOf == some orig then (0, h)
      else if (h.progs.filter fun e => e.1 / 256 == d && e.2.group == b.group).length ≥ 128 then (0x0606, h)
      else match firstNat (fun k => !h.progs.has k) 256 (d * 256) with
        | none => (0x0606, h)
        | some k => (0, { h with progs := h.progs.set k { b with copyOf := some orig } })

/-- All copies made, or the status of the first that finds no room. -/
def makeCopies (h : Hub) (t : Txn) : Nat × Hub :=
  (copiesNeeded h t).foldl (fun r c => if r.1 ≠ 0 then r else makeCopy r.2 c) (0, h)

/-- Order 7 and the pairs of order 8. -/
def resourceCks (h : Hub) (t : Txn) (dm : Demand) : List Ck :=
  let dies := affectedDies h t
  let any (p : Nat → Bool) : Bool := dies.any p
  let copies := (makeCopies h t).1
  [cck 0x0602 0xFFFF 0xFF (any fun d => bandNeed h dm d > bandPool h d),
   cck copies 0xFFFF 0xFF (copies ≠ 0),
   cck 0x0605 0xFFFF 0xFF (any fun d => zoneNeed dm d > 16384),
   match dies.find? fun d => granulesNeed h dm d > poolSize h d with
   | none => cck 0x060B 0xFFFF 0xFF false
   | some d => cck 0x060B 0xFFFF (growingCache h dm d) true,
   cck 0x0604 0xFFFF 0xFF (any fun d => (pixelClocks dm d).length > 2),
   cck 0x0605 0xFFFF 0xFF (any (pairsBad dm))]

/-! ### All checks of a commit (07 R166) -/

/-- The timeline that a handle names (07 R193). -/
def tlOf (h : Hub) (v : Nat) : Option (Nat × Timeline) :=
  if v = 0 || bits v 13 3 ≠ 0 then none
  else match h.tls.find (v % 8192) with
    | none => none
    | some x => if x.gen = v / 65536 then some (v % 8192, x) else none

/-- Order 9. -/
def fenceCks (h : Hub) (t : Txn) : List Ck :=
  cck 0x0905 0xFFFF 0xFF (t.fences.length > 64) ::
  t.fences.map fun f => cck 0x0902 f.1 (((layerOf h f.1).map Layer.out).getD 0xFF) (tlOf h f.2.tl).isNone

/-- The checks of orders 2 to 9. -/
def commitCks (h : Hub) (t : Txn) : List Ck :=
  let t := planTxn h t
  let v := commitView h t
  let dm := commitDemand h t
  let outs := affectedOuts h t
  outs.flatMap (listCks v) ++ outs.flatMap (outputCks h v t) ++ commitSourceCks h t ++ commitTargetCks h t ++ commitObjectCks h t ++ resourceCks h t dm ++
  (match admissionTests v.h dm (camResvs h) (affectedDies h t) with
   | none => []
   | some (st, r0, r1) => [{ st := st, off := 255, bad := true, r0 := r0, r1 := r1 }]) ++
  fenceCks h t

/-! ### The step of a commit -/

/-- Does a timeline's value reach a fence? -/
def fenceReached (h : Hub) (f : Fence) : Bool := match tlOf h f.tl with | none => false | some x => f.value ≤ x.2.value

/-- A commit whose checks have passed: it holds its reservation, and waits for its fences or is ARMED (07 R163, R165, R182-R184). -/
def commitTxn (k : Nat) (p : Pend) (h : Hub) : Hub :=
  match h.txns.find k with
  | none => h
  | some t =>
    let t := planTxn h t
    let h := (makeCopies h t).2
    let ms := if t.timeoutMs = 0 then 100 else t.timeoutMs
    let fs := t.fences.map fun e => if fenceReached h e.2 then (e.1, { e.2 with signalled := some h.now }) else e
    let wait := !t.indep && fs.any fun e => e.2.signalled.isNone
    let t := { t with
      state := if wait then .waiting else .validating, commit := some p, timeout := p.time + ms * 1000000, fences := fs
      valSeq := h.valCount }
    let h := { h with txns := h.txns.upd k fun _ => t, valCount := h.valCount + 1 }
    if wait then h else armTxn k h

end Sys2Proof.Machine
end

