-- ==== Sys2Proof/Machine/Dim.lean ====
section
/-!
DEFINITION. Local dimming: statistics, the dimming step, compensation, zone packets, and the commands of the 0x05xx range
(09 R237-R262).
-/

namespace Sys2Proof.Machine

/-! ### Statistics (09 R237, R240) -/

/-- A zone's statistics with one more pixel. -/
def ZoneStat.add (z : ZoneStat) (p : Px) : ZoneStat :=
  let v := maxOf [p.r, p.g, p.b]
  let k := min (v / 1024) 15
  { max := maxOf [z.max, v], sum := z.sum + v, count := z.count + 1, bins := z.bins.set k (z.bins.getD k 0 + 1) }

/-- The index of the zone of `n` over `w` pixels that holds pixel `x` (09 R237). -/
def zoneIx (n w x : Nat) : Nat := ((x + 1) * n - 1) / w

/-- The zone that holds (x, y) of a picture of `w` x `hh`. -/
def zoneAt (l : DimLayout) (w hh x y : Nat) : Nat := zoneIx l.rows hh y * l.cols + zoneIx l.cols w x

/-- Statistics with the pixels of a tile whose first pixel lies at (x0, y0) of the picture. -/
def addTile (l : DimLayout) (w hh x0 y0 : Nat) (rows : List (List Px)) (acc : Tab ZoneStat) : Tab ZoneStat :=
  rows.zipIdx.foldl (fun acc r => r.1.zipIdx.foldl (fun acc p =>
    let z := zoneAt l w hh (x0 + p.2) (y0 + r.2)
    acc.set z ((acc.get z {}).add p.1)) acc) acc

/-- MEAN of a zone. -/
def ZoneStat.mean (z : ZoneStat) : Nat := if z.count = 0 then 0 else (z.sum + z.count / 2) / z.count

/-! ### The dimming step (09 R243-R249) -/

/-- The target level of a zone (09 R244). -/
def targetOf (t : DimTabs) (z : ZoneStat) : Nat :=
  let ax (v : Nat) : Nat × Nat := let x := min v 0x4000; if x / 512 = 32 then (31, 512) else (x / 512, x % 512)
  let (m, fm) := ax z.max
  let (n, fn) := ax z.mean
  let e (i j : Nat) : Nat := t.e.getD (33 * i + j) 0
  (e m n * (512 - fm) * (512 - fn) + e (m + 1) n * fm * (512 - fn) + e m (n + 1) * (512 - fm) * fn +
    e (m + 1) (n + 1) * fm * fn + 2 ^ 17) / 2 ^ 18

/-- The output-wide histogram H (09 R246). -/
def histOf (st : List ZoneStat) (npx : Nat) : List Nat :=
  (List.range 16).map fun k => ((st.map fun z => z.bins.getD k 0).sum * 65536 + npx / 2) / npx

/-- D (09 R246). -/
def histDist (a b : List Nat) : Nat :=
  ((List.range 16).map fun k => max (a.getD k 0) (b.getD k 0) - min (a.getD k 0) (b.getD k 0)).sum

/-- The filter state after one step (09 R245). -/
def filterState (a : DimAlgo) (s g : Nat) : Nat :=
  let c : Nat := if g > s then a.rise else a.fall
  ((s : Int) + (((g : Int) - s) * c + 0x4000) / 32768).toNat

/-- The level of a filter state (09 R245). -/
def stateLevel (s : Nat) : Nat := min ((s + 128) / 256) 4095

/-- An index held within `n` places. -/
def heldIx (n : Nat) (i : Int) : Nat := (min (max i 0) ((n : Int) - 1)).toNat

/-- The neighbours of a zone in a grid, itself among them. -/
def around (cols rows z : Nat) : List Nat :=
  let c := z % cols
  let r := z / cols
  ((List.range 3).flatMap fun j => (List.range 3).map fun i => (r + j, c + i)).filterMap fun p =>
    if 1 ≤ p.1 && p.1 ≤ rows && 1 ≤ p.2 && p.2 ≤ cols then some ((p.1 - 1) * cols + (p.2 - 1)) else none

/-- The levels sent, from the filtered ones (09 R247). -/
def sentLevels (l : DimLayout) (a : DimAlgo) (ls : List Nat) : List Nat :=
  ls.zipIdx.map fun e =>
    let v := if a.clamp then
        max e.1 (maxOf (((around l.cols l.rows e.2).filter (· != e.2)).map fun z => ls.getD z 0 - a.delta))
      else e.1
    max a.lvlMin (min v a.lvlMax)

/-- The backlight estimates (09 R248). -/
def backlight (l : DimLayout) (t : DimTabs) (levels : List Nat) : List Nat :=
  let lw := levels.map fun v => (v * 16384 + 2047) / 4095
  (List.range levels.length).map fun z =>
    let r := z / l.cols
    let c := z % l.cols
    (((List.range 9).flatMap fun b => (List.range 9).map fun a =>
      t.k.getD (9 * b + a) 0 *
        lw.getD (heldIx l.rows ((r + b : Nat) - 4 : Int) * l.cols + heldIx l.cols ((c + a : Nat) - 4 : Int)) 0).sum
      + 32768) / 65536

/-- The dimming of frame 1 after a change: every zone at LEVEL_MAX (09 R253). -/
def dimFirst (d : Dim) : Dim :=
  let levels := List.replicate (d.layout.cols * d.layout.rows) d.algo.lvlMax
  { d with levels := levels, bz := backlight d.layout d.tabs levels, flat := true, pktFlags := 9, pktSent := false }

/-- One step on complete statistics (09 R244-R248, R253): frame 2 sets s to g, and only from frame 4 on does the scene-cut test
decide.  `all` are the zones whose histogram decides, over `npx` pixels. -/
def dimNormal (d : Dim) (st all : List ZoneStat) (npx : Nat) : Dim :=
  let hist := histOf all npx
  let dist := histDist hist d.hist
  let cut := d.settle = 0 && d.algo.thresh ≠ 0 && decide (dist ≥ d.algo.thresh)
  let jump := cut || d.settle == 2
  let filt := st.zipIdx.map fun z =>
    let g := 256 * targetOf d.tabs z.1
    filterState d.algo (if jump then g else d.filt.getD z.2 0) g
  let levels := sentLevels d.layout d.algo (filt.map stateLevel)
  { d with
    filt := filt, levels := levels, bz := backlight d.layout d.tabs levels, hist := hist, dist := dist, flat := false
    cuts := if cut then satInc 0xFFFFFFFF d.cuts else d.cuts
    pktFlags := if d.settle > 0 then 1 else 2 * b2n cut, pktSent := false }

/-- A step after a frame with a missing band (09 R249). -/
def dimHold (d : Dim) : Dim :=
  { d with flat := false, holds := satInc 0xFFFFFFFF d.holds, pktFlags := 4 + b2n (d.settle > 0), pktSent := false }

/-- The members whose statistics make an output's layout: all of a span group, otherwise the pipe that composes for it. -/
def statPipes (h : Hub) (o : Nat) : List Nat := if (getOut h o).grp = 2 then membersOf h (getOut h o).primary else [homePipe h o]

/-- Statistics of the last frame of some pipes for every zone of an output's layout. -/
def statsOf (h : Hub) (o : Nat) (ps : List Nat) : List ZoneStat :=
  let l := (getOut h o).dim.layout
  let tabs := ps.map fun m => (getOut h m).dim.last
  (List.range (l.cols * l.rows)).map fun z => (tabs.findSome? fun t => t.find z).getD {}

/-- Statistics of the last frame for every zone of an output's layout. -/
def zoneStats (h : Hub) (o : Nat) : List ZoneStat := statsOf h o (statPipes h o)

/-- The zones whose histogram decides a scene cut, and how often the picture is counted in them: those of every member of a clone group
(09 R246), each of which composes the whole picture. -/
def cutStats (h : Hub) (o : Nat) : List ZoneStat × Nat :=
  if (getOut h o).grp = 1 then
    let ms := membersOf h (getOut h o).primary
    (ms.flatMap fun m => statsOf h o [homePipe h m], ms.length)
  else (zoneStats h o, 1)

/-- The pipes whose missing bands make a step hold: those whose statistics it uses, which for a clone group are those of every member, so
that all decide the same way (09 R246, R249; DEDUCED, log 81). -/
def holdPipes (h : Hub) (o : Nat) : List Nat :=
  if (getOut h o).grp = 1 then (membersOf h (getOut h o).primary).map (homePipe h) else statPipes h o

/-- The dimming step of an output, which begins when the drain ends; it ends within t_dim of the start of vertical blank, at an
instant that the manual leaves open (09 R243).  While the Keeper is halted the packets carry HOLD (22 R550). -/
def dimStep (o : Nat) (h : Hub) : Hub :=
  let x := getOut h o
  match x.mode with
  | none => h
  | some e =>
    if !hasZones x then h
    else
      let st := zoneStats h o
      let hold := (holdPipes h o).any fun m => (getOut h m).dim.hold
      let d := if (getDie h (o / 4)).kdbg.halted.isSome then dimHold x.dim
        else if x.dim.settle = 3 then dimFirst x.dim
        else if hold then dimHold x.dim
        else dimNormal x.dim st (cutStats h o).1 ((cutStats h o).2 * (logicalW h (listOf h o) e * e.vActive))
      let (i, h) := takeFree h
      let len := (Config.freeWord i).toNat % (tDim h o e - 20000 + 1)
      let stop := h.now + len
      updOut (fbkRecord (o / 4) 9 0x0901 o len h) o fun x => { x with dim := { d with
        frame := x.frameCount, stepEnd := stop
        steps := ({ frame := x.frameCount, stats := st, levels := d.levels } :: d.steps).take 2 } }

/-! ### Compensation (09 R250) -/

/-- The position of a pixel among `n` zones over `w` pixels: the zone index before it and 8 fraction bits. -/
def zonePos (n w x : Nat) : Int × Nat :=
  let u : Int := (((2 * x + 1) * n * 32768 + w / 2) / w : Nat) - 32768
  (u / 65536, (u / 256 % 256).toNat)

/-- The backlight at (x, y) of a picture of `w` x `hh`. -/
def lightAt (d : Dim) (w hh x y : Nat) : Nat :=
  let l := d.layout
  let (i, fx) := zonePos l.cols w x
  let (j, fy) := zonePos l.rows hh y
  let b (r c : Int) : Nat := d.bz.getD (heldIx l.rows r * l.cols + heldIx l.cols c) 0
  (b j i * (256 - fx) * (256 - fy) + b j (i + 1) * fx * (256 - fy) + b (j + 1) i * (256 - fx) * fy +
    b (j + 1) (i + 1) * fx * fy + 32768) / 65536

/-- The dimming compensation of a pixel. -/
def compensate (d : Dim) (w hh x y : Nat) (p : Px) : Px :=
  if d.layout.mode ≠ 2 || d.flat then p
  else
    let b := lightAt d w hh x y
    let gain := if b = 0 then d.algo.gainMax else min ((2 ^ 28 + b / 2) / b) d.algo.gainMax
    p.rgb fun v => mulU v gain

/-! ### Zone packets (09 R254-R256) -/

/-- CRC-16 with polynomial 0x1021, most significant bit first. -/
def crc16 (init : Nat) (bs : Bytes) : Nat :=
  bs.foldl (fun c b => (List.range 8).foldl (fun c i =>
    let top := bit c 15 != bit b.toNat (7 - i)
    let c := c * 2 % 65536
    if top then c ^^^ 0x1021 else c) c) init

/-- First logical zone column of a pipe. -/
def zoneCol0 (h : Hub) (o : Nat) : Nat := let x := getOut h o; if x.grp = 2 then x.index * zoneCols h o else 0

/-- The zone packet of an output's frame. -/
def zonePacket (h : Hub) (o : Nat) : Bytes :=
  let x := getOut h o
  let l := x.dim.layout
  let n := zoneCols h o
  let c0 := zoneCol0 h o
  let body := leBytes 2 0xA55A ++ leBytes 1 1 ++ leBytes 1 x.dim.pktFlags ++ leBytes 1 o ++ leBytes 1 0 ++ leBytes 2 n ++
    leBytes 2 l.rows ++ leBytes 2 c0 ++ leBytes 4 x.dim.frame ++
    ((List.range l.rows).flatMap fun r => (List.range n).flatMap fun c => leBytes 2 (x.dim.levels.getD (r * l.cols + c0 + c) 0))
  body ++ leBytes 2 (crc16 0xFFFF body)

/-- Pixel clocks from S to the line start at which the packet starts (09 R255). -/
def packetPx (x : Output) (e : ModeEntry) (sc : Scan) : Nat :=
  let off := signed 16 x.dim.layout.txOffset
  if off < 0 then sc.vbPx + ((vBlank e : Int) + off).toNat * hTotal e else activePx e sc + off.toNat * hTotal e

/-- The bits of D1 and D0 at the clock edges of a packet's bytes (09 R256). -/
def zsEdges (bs : Bytes) : List (Bool × Bool) :=
  bs.flatMap fun b => [7, 5, 3, 1].map fun i => (bit b.toNat i, bit b.toNat (i - 1))

/-- Blocks that a Traverse direction sends in `ns` nanoseconds on its two lanes, less the MARKER and FILLER blocks that each lane has to send
(13 R333, R336). -/
def blocksIn (rate ns : Nat) : Nat := ns * (2 * tvRate rate) / 132000 * 4079 / 4096

/-- The period of the zone-stream clock in nanoseconds: FAB divided by 40, 20 or 10 for ZS_RATE 0, 1 or 2 (16 R424). -/
def zsPeriod (rate : Nat) : Nat := match rate with | 0 => 40 | 1 => 20 | _ => 10

/-- The next segment of an in-band zone packet: as much as fits before the next VIDEO_LINE, which is due `ns` nanoseconds after now, beside the
line that goes out now, if one does (`line`).  The lane blocks that happen to fall into the gap take up to two blocks more or less (DEDUCED, log
41); without a bound all that is left goes (13 R337, R351). -/
def zoneGap (o : Nat) (bound : Option (Nat × Bool)) (h : Hub) : Hub :=
  let x := getOut h o
  match x.dim.inBand, outPort h o, x.mode with
  | some (bs, at_), some k, some e =>
    let left := ceilDiv (bs.length - at_) 16
    let (i, h) := takeFree h
    let n := match bound with
      | none => left
      | some (ns, line) =>
        let own := if line then 1 + ceilDiv (3 * x.bpc * e.hActive) 128 else 0
        min left (blocksIn (getPort h k).rateTx ns - own - 1 - (Config.freeWord i).toNat % 3)
    let data := ((bs.drop at_) ++ leBytes 15 0).take (16 * n)
    if n = 0 then h
    else
      let h := updOut h o fun x => { x with dim := { x.dim with
        inBand := if at_ + 16 * n ≥ bs.length then none else some (bs, at_ + 16 * n) } }
      if carries h k then sendBlock k 0x69 (leBytes 1 0 ++ leBytes 2 n ++ leBytes 4 at_ ++ leBytes 4 bs.length) data h else h
  | _, _, _ => h

/-- The zone packet of the frame starts on the zone-stream port, and in-band on a Traverse port that is UP (09 R255). -/
def sendPacket (o : Nat) (h : Hub) : Hub :=
  let x := getOut h o
  match x.mode, x.scan with
  | some e, some sc =>
    if x.state != .running || x.dim.layout.mode ≠ 2 || !sc.drained || x.dim.pktSent then h
    else
      let h := at_ (scanNs e sc (packetPx x e sc)) h
      let zs := bit x.dim.layout.delivery 0
      let inb := bit x.dim.layout.delivery 1 && portSends h o
      let h := if zs then send (.zone o (zsPeriod x.dim.layout.zsRate) (zsEdges (zonePacket h o))) h else h
      let h := if inb then
          let h := zoneGap o none h
          let next := if packetPx x e sc < activePx e sc then activePx e sc else packetPx x e sc + hTotal e
          let gap := scanNs e sc next - scanNs e sc (packetPx x e sc)
          zoneGap o (some (gap, next ≠ activePx e sc)) (updOut h o fun x => { x with dim := { x.dim with inBand := some (zonePacket h o, 0) } })
        else h
      updOut h o fun x => { x with dim := { x.dim with
        pktSent := true, packets := if zs || inb then satInc 0xFFFFFFFF x.dim.packets else x.dim.packets } }
  | _, _ => h

/-! ### Commands (09 R257-R262) -/

/-- DIM_LAYOUT (09 R258). -/
def dimLayoutCmd : Spec :=
  staging 0x0500 0 false [(26, 38)]
    (fun c _ h =>
      let o := arg8 c 16
      let cols := arg16 c 20
      let rows := arg16 c 22
      let mine := listOwner h (listOf h o) == some c.ctx
      stageOutCks h c true OutStage.dimPart ++ [ck 0x0106 17 (arg8 c 17 > 2), ck 0x0103 18 (arg8 c 18 ≥ 4)] ++
      (if arg8 c 17 = 0 then
        [ck 0x0103 18 (arg8 c 18 ≠ 0), ck 0x0103 19 (arg8 c 19 ≠ 0), ck 0x0103 20 (cols ≠ 0), ck 0x0103 22 (rows ≠ 0),
         ck 0x0103 24 (arg16 c 24 ≠ 0)]
       else
        [ck 0x0106 19 (arg8 c 19 > 2), ck 0x0201 18 (arg8 c 17 = 2 && arg8 c 18 = 0), ck 0x0201 20 (cols = 0 || cols > 256),
         ck 0x0201 22 (rows = 0 || rows > 256), ck 0x0201 255 (cols * rows > 16384),
         ck 0x0205 18 (mine && bit (arg8 c 18) 1 && ((getOut h o).port < 4 || (getOut h o).port = 0xFF))] ++
        match (getOut h o).mode with
        | none => []
        | some e => [ck 0x0204 20 (mine && logicalW h o e < 8 * cols), ck 0x0204 22 (mine && e.vActive < 8 * rows)]))
    fun c h => stageOut h c (arg8 c 16) fun s => { s with
      dimLayout := some { mode := arg8 c 17, delivery := arg8 c 18, zsRate := arg8 c 19, cols := arg16 c 20, rows := arg16 c 22,
                          txOffset := arg16 c 24 } }

/-- DIM_ALGO (09 R259). -/
def dimAlgoCmd : Spec :=
  staging 0x0501 0 false [(18, 2), (36, 28)]
    (fun c _ h =>
      stageOutCks h c true OutStage.dimPart ++
      [ck 0x0103 17 (arg8 c 17 ≥ 2), ck 0x0201 20 (arg16 c 20 = 0 || arg16 c 20 > 0x8000),
       ck 0x0201 22 (arg16 c 22 = 0 || arg16 c 22 > 0x8000), ck 0x0201 24 (arg16 c 24 > 4095), ck 0x0201 26 (arg16 c 26 > 4095),
       ck 0x0201 28 (arg16 c 28 > 4095 || arg16 c 28 < arg16 c 26), ck 0x0201 30 (arg16 c 30 < 0x4000),
       ck 0x0201 32 (arg32 c 32 > 131072)])
    fun c h => stageOut h c (arg8 c 16) fun s => { s with
      dimAlgo := some { clamp := bit (arg8 c 17) 0, rise := arg16 c 20, fall := arg16 c 22, delta := arg16 c 24,
                        lvlMin := arg16 c 26, lvlMax := arg16 c 28, gainMax := arg16 c 30, thresh := arg32 c 32 } }

/-- The tables of a DIM_TABLES block (09 R260). -/
def dimTabsOf (c : Cmd) : DimTabs := { e := blkWords c 16 1089, k := words32 ((c.block.drop 2208).take 324) }

/-- DIM_TABLES (09 R260). -/
def dimTablesCmd : Spec :=
  { op := 0x0502, txn := .stage, block := some fun n => n == 2532, rsv := [(33, 31)]
    checks := fun c _ h =>
      let t := dimTabsOf c
      let badE := t.e.findIdx? (· > 4095)
      let badK := t.k.findIdx? (· > 65536)
      stageOutCks h c true OutStage.dimPart 32 ++
      [rsvCk c 0 16, rsvCk c 2194 14,
       ck 0x0201 (blkOff (16 + 2 * badE.getD 0)) badE.isSome, ck 0x0201 (blkOff (2208 + 4 * badK.getD 0)) badK.isSome,
       ck 0x0201 255 (t.k.sum ≠ 65536)]
    run := fun c _ _ h => okRes (stageOut h c (arg8 c 32) fun s => { s with dimTabs := some (dimTabsOf c) }) }

/-- May a context query the dimming of an output (09 R257)? -/
def mayDim (h : Hub) (o c : Nat) : Bool := levelOf h c ≥ 1 || listOwner h (listOf h o) == some c

/-- The checks of a dimming query on its output (09 R257). -/
def dimQueryCks (h : Hub) (c : Cmd) : List Ck :=
  let o := arg8 c 16
  bufCk c 24 :: outCks h 16 o ++
  [ckd (o / 4) 0x0302 16 (o < 32 && !mayDim h o c.ctx),
   ckd (o / 4) 0x0403 16 (o < 32 && nonPrimary h o), ckd (o / 4) 0x0405 16 (o < 32 && (getOut h o).state == .stopped)]

/-- The block of DIM_QUERY (09 R261). -/
def dimBlock (h : Hub) (o : Nat) : Bytes :=
  let x := getOut h o
  let d := x.dim
  leBytes 1 o ++ leBytes 1 d.layout.mode ++ leBytes 1 d.settle ++ leBytes 1 0 ++ leBytes 2 d.layout.cols ++
  leBytes 2 d.layout.rows ++ leBytes 4 (match x.mode with | none => 0 | some e => zonePairs h o e) ++
  leBytes 4 (match x.mode with | none => 0 | some e => tDim h o e) ++ leBytes 8 d.frame ++ leBytes 4 d.dist ++
  leBytes 4 d.cuts ++ leBytes 4 d.holds ++ leBytes 4 d.packets ++ leBytes 8 d.stepEnd ++ leBytes 16 0

/-- DIM_QUERY (09 R261). -/
def dimQuery : Spec :=
  { op := 0x0508, rsv := [(17, 7), (32, 32)]
    checks := fun c _ h => dimQueryCks h c
    run := fun c _ _ h => okRes (ctxWrite c.ctx (arg64 c 24) (dimBlock h (arg8 c 16)) h) 64 }

/-- Bytes per zone of WHAT (09 R262). -/
def whatSize (w : Nat) : Nat := match w with | 0 => 2 | 1 => 4 | _ => 32

/-- The content of one zone (09 R262). -/
def zoneContent (w : Nat) (s : DimStep) (z : Nat) : Bytes :=
  let st := s.stats.getD z {}
  match w with
  | 0 => leBytes 2 (s.levels.getD z 0)
  | 1 => leBytes 2 st.max ++ leBytes 2 st.mean
  | _ => st.bins.flatMap fun n => leBytes 2 (min (n * 65536 / st.count) 0xFFFF)

/-- `n` free bytes. -/
def freeBytes (n : Nat) (h : Hub) : Bytes × Hub :=
  ((List.range n).map fun i => Config.freeByte (h.freeIx + i), { h with freeIx := h.freeIx + n })

/-- DIM_READ (09 R262): of the two steps whose data the zone store keeps, the older; before any step, bytes that the manual leaves
open. -/
def dimRead : Spec :=
  { op := 0x0509, rsv := [(18, 2), (36, 28)]
    checks := fun c _ h =>
      let l := (getOut h (arg8 c 16)).dim.layout
      dimQueryCks h c ++
      [ck 0x0106 17 (arg8 c 17 > 2), ck 0x0201 22 (arg16 c 22 = 0),
       ck 0x0202 255 (l.mode ≠ 0 && mayDim h (arg8 c 16) c.ctx && arg16 c 20 + arg16 c 22 > l.cols * l.rows),
       ck 0x0104 32 (arg32 c 32 ≠ arg16 c 22 * whatSize (arg8 c 17)), ck 0x0404 16 (arg8 c 16 < 32 && l.mode = 0)]
    run := fun c _ _ h =>
      let n := arg32 c 32
      match (getOut h (arg8 c 16)).dim.steps.getLast? with
      | none =>
        let (bs, h) := freeBytes n h
        okRes (ctxWrite c.ctx (arg64 c 24) bs h) n
      | some s =>
        okRes (ctxWrite c.ctx (arg64 c 24)
          ((List.range (arg16 c 22)).flatMap fun i => zoneContent (arg8 c 17) s (arg16 c 20 + i)) h) n }

/-! ### The rows -/

/-- DIM_LAYOUT. -/
def execDimLayout (c : Cmd) (s : State) : Host.Outcome State Fault Refusal := .next (mail dimLayoutCmd c s)
/-- DIM_ALGO. -/
def execDimAlgo (c : Cmd) (s : State) : Host.Outcome State Fault Refusal := .next (mail dimAlgoCmd c s)
/-- DIM_TABLES. -/
def execDimTables (c : Cmd) (s : State) : Host.Outcome State Fault Refusal := .next (mail dimTablesCmd c s)
/-- DIM_QUERY. -/
def execDimQuery (c : Cmd) (s : State) : Host.Outcome State Fault Refusal := .next (mail dimQuery c s)
/-- DIM_READ. -/
def execDimRead (c : Cmd) (s : State) : Host.Outcome State Fault Refusal := .next (mail dimRead c s)
/-- ZONE_PACKET_TRANSMIT. -/
def execZonePacketTransmit (out : Nat) (s : State) : Host.Outcome State Fault Refusal := .next (onHub (sendPacket out) s)

end Sys2Proof.Machine
end

