-- ==== Sys2Proof/Machine/Outputs.lean ====
section
/-!
DEFINITION. Output commands of the 0x04xx range (08 R196-R199, R209-R213, R225-R233); MODE_WRITE stands in Machine/Attic.lean.
-/

namespace Sys2Proof.Machine

/-! ### OUT_CONFIG -/

/-- Does an open transaction of context `c` stage a record of output `o` or of its layers (08 R199)? -/
def stagedBefore (h : Hub) (c o : Nat) : Bool :=
  h.txns.any fun e => e.2.owner == c && (stagesOut e.2 o ||
    (e.2.layers.map Prod.fst ++ e.2.fences.map Prod.fst).any fun k => ((layerOf h k).map Layer.out) == some o)

/-- The codes of PORT (08 R197). -/
def portCode (p : Nat) : Bool := p == 0xFF || p == 0 || p == 1 || p == 2 || (4 ≤ p && p ≤ 7)

/-- May an output be bound to the port (13 R331)? -/
def portBindable (h : Hub) (d p : Nat) : Bool :=
  let q := getPort h (d * 8 + p)
  p == 0xFF || (!portOff q && (p < 4 || bit q.kind 0))

/-- The checks of OUT_CONFIG on the output `o` (08 R198, R199, R226; 13 R331). -/
def configCks (h : Hub) (c : Cmd) (o : Nat) : List Ck :=
  let x := getOut h o
  let fl := arg8 c 19
  let port := arg8 c 17
  let cls := arg8 c 18
  let own := arg16 c 20
  let busy := x.state != .stopped
  let newOwn := if bit fl 2 then (if own > 4095 then none else some own) else x.owner
  let newCls := if bit fl 1 then cls else x.cls
  [ckd (o / 4) 0x0403 16 (nonPrimary h o),
   ckd (o / 4) 0x040B 17 (bit fl 0 && port ≠ 0xFF && ((List.range 4).any fun p => o / 4 * 4 + p ≠ o && (getOut h (o / 4 * 4 + p)).port == port)),
   ckd (o / 4) 0x0403 17 (bit fl 0 && portCode port && !portBindable h (o / 4) port),
   ckd (o / 4) 0x0406 17 (bit fl 0 && busy && port ≠ x.port),
   ckd (o / 4) 0x0406 18 (bit fl 1 && busy && cls ≠ x.cls),
   ckd (match newOwn with | none => o / 4 | some k => homeDie k) 0x0301 (if bit fl 2 then 20 else 18) (newCls = 0 && match newOwn with
     | none => false
     | some k => (getCtx h k).state != .unassigned && levelOf h k = 0),
   ckd (o / 4) 0x0407 20 (bit fl 2 && match x.owner with | none => false | some k => k ≠ own && stagedBefore h k o)]

/-- What OUT_CONFIG sets.  DESIGN CHOICE (log 81): naming the present owner cancels a change of owner that is pending. -/
def outConfigRun (c : Cmd) (h : Hub) : Hub :=
  let o := arg8 c 16
  let fl := arg8 c 19
  let own := arg16 c 20
  let h := updOut h o fun x => { x with
    port := if bit fl 0 then arg8 c 17 else x.port
    cls := if bit fl 1 then arg8 c 18 else x.cls }
  if !bit fl 2 then h
  else if (getOut h o).owner = some own then updOut h o fun x => { x with newOwner := none }
  else
    let h := updOut h o fun x => { x with newOwner := some own }
    if (getOut h o).state == .stopped then takeList o h else h

/-- OUT_CONFIG (08 R226). -/
def outConfig : Spec :=
  { op := 0x0400, level := 2, locks := true, rsv := [(22, 42)]
    checks := fun c _ h =>
      let o := arg8 c 16
      let fl := arg8 c 19
      [ck 0x0103 19 (fl ≥ 8), ck 0x0103 17 (!bit fl 0 && arg8 c 17 ≠ 0), ck 0x0103 18 (!bit fl 1 && arg8 c 18 ≠ 0),
       ck 0x0103 20 (!bit fl 2 && arg16 c 20 ≠ 0), ck 0x0106 17 (bit fl 0 && !portCode (arg8 c 17)),
       ck 0x0106 18 (bit fl 1 && arg8 c 18 > 2)] ++
      outCks h 16 o ++ (if bit fl 2 then ctxCks h 20 (arg16 c 20) true else []) ++
      (if o < 32 then configCks h c o else [])
    run := fun c _ _ h => okRes (outConfigRun c h) }

/-! ### Staged records of outputs -/

/-- OUT_MODE (08 R227). -/
def outMode : Spec :=
  staging 0x0401 0 false [(20, 44)]
    (fun c _ h =>
      let o := arg8 c 16
      let m := arg8 c 17
      let mine := o < 32 && listOwner h (listOf h o) == some c.ctx
      stageOutCks h c true (fun s => s.mode.isSome) ++
      (if m = 0xFF then [ck 0x0103 18 (arg8 c 18 ≠ 0), ck 0x0103 19 (arg8 c 19 ≠ 0)]
       else
        [ck 0x0106 19 (arg8 c 19 > 1), ck 0x0404 17 (modeOf h m).isNone] ++
        (if !mine then []
         else match outPort h o with
          | none => [ckd (o / 4) 0x0403 16 true]
          | some k =>
            [ckd (o / 4) 0x0209 17 (match modeOf h m with | none => false | some e => !modeAllows e (portKindBit (getPort h k) k)),
             ckd (o / 4) 0x0205 18 (!bpcOk k (arg8 c 18)), ckd (o / 4) 0x0205 19 (arg8 c 19 ≤ 1 && !encOk k (arg8 c 19))])))
    fun c h => stageOut h c (arg8 c 16) fun s => { s with mode := some (arg8 c 17, arg8 c 18, arg8 c 19) }

/-- OUT_BACKGROUND (08 R228). -/
def outBackground : Spec :=
  staging 0x0402 0 false [(17, 7), (32, 32)]
    (fun c _ h =>
      let v := arg64 c 24
      stageOutCks h c true (fun s => s.bg.isSome) ++
      [ck 0x0201 24 (bits v 0 16 > 0x4000 || bits v 16 16 > 0x4000 || bits v 32 16 > 0x4000 || bits v 48 16 ≠ 0x4000)])
    fun c h => stageOut h c (arg8 c 16) fun s => { s with bg := some (arg64 c 24) }

/-- The mode that a transaction leaves an output with, as far as it stands now. -/
def modeAfter (h : Hub) (c : Cmd) (o : Nat) : Option ModeEntry :=
  match stagedTxn h c with
  | none => (getOut h o).mode
  | some t => (stagedMode h (outIn t o) (getOut h o)).1

/-- The checks of a write-back target (08 R217, R229). -/
def targetCks (h : Hub) (c : Cmd) (o : Nat) : List Ck :=
  let v := arg32 c 20
  handleCks h 20 v ++ [rightCk h 20 v c.ctx 1] ++
  match surfOf h v with
  | none => []
  | some s =>
    if !mayUse h v c.ctx 1 then []
    else
      [ckd (v % 65536 / 8192) 0x0205 20 (!hasRole s.fmt 3), ckd (v % 65536 / 8192) 0x0201 20 ((fmtD s.fmt).crated && s.budget ≠ rawMax s.fmt s.width),
       ckd (v % 65536 / 8192) 0x0204 20 (match modeAfter h c o with
        | none => false
        | some e => s.width ≠ logicalW h o e || s.height ≠ e.vActive)]

/-- OUT_WRITEBACK (08 R217, R229). -/
def outWriteback : Spec :=
  staging 0x0403 0 false [(18, 2), (24, 40)]
    (fun c _ h =>
      let o := arg8 c 16
      stageOutCks h c true (fun s => s.wb.isSome) ++
      (if arg8 c 17 = 0 then [ck 0x0103 20 (arg32 c 20 ≠ 0)]
       else ckd (o / 4) 0x0201 17 (o < 32 && (getOut h o).grp == 2) :: targetCks h c o))
    fun c h => stageOut h c (arg8 c 16) fun s => { s with wb := some (arg8 c 17, arg32 c 20) }

/-- OUT_STATIC (08 R230). -/
def outStatic : Spec :=
  staging 0x0404 0 false [(20, 44)]
    (fun c _ h =>
      let k := arg16 c 18
      stageOutCks h c true (fun s => s.static.isSome) ++ [ck 0x0103 17 (arg8 c 17 ≥ 8), ck 0x0201 18 (k ≠ 0 && (k < 2 || k > 255))])
    fun c h => stageOut h c (arg8 c 16) fun s => { s with static := some (arg8 c 17, arg16 c 18) }

/-! ### OUT_GROUP (08 R209-R212, R231) -/

/-- The outputs that OUT_GROUP names. -/
def groupArgs (c : Cmd) : List Nat := (List.range (min (arg8 c 17) 16)).map fun i => arg8 c (20 + i)

/-- Is COUNT within the range of KIND? -/
def groupCount (kind n : Nat) : Bool :=
  match kind with
  | 0 => n == 1
  | 3 => 2 ≤ n && n ≤ 16
  | _ => 2 ≤ n && n ≤ 4

/-- The checks of one member of a group to be formed; `may`: the issuer is the integrator. -/
def memberCks (h : Hub) (may : Bool) (kind : Nat) (ms : List Nat) (i o : Nat) : List Ck :=
  outCks h (20 + i) o ++
  (if o ≥ 32 then []
   else
    let x := getOut h o
    [ck 0x0108 (20 + i) ((ms.take i).contains o), ckd (o / 4) 0x040B (20 + i) (x.grp ≠ 0), ckd (o / 4) 0x0406 (20 + i) (x.state != .stopped),
     ckd (o / 4) 0x0403 (20 + i) (x.port = 0xFF || (i > 0 && h.layers.any fun e => e.2.out == o)),
     ckd (o / 4) 0x0201 (20 + i) (may && kind < 3 && i > 0 && x.cls ≠ (getOut h (ms.headD 0)).cls)])

/-- What a member of a clone or span group takes from its primary: the band height and the records of the picture (08 R209, R212;
log entry 18). -/
def takeRecords (p x : Output) : Output :=
  { x with
    own := some (x.owner, x.bandH), owner := none, newOwner := none
    bandH := p.bandH, bg := p.bg, statFrames := p.statFrames, statFlags := p.statFlags, colour := p.colour, lutPend := p.lutPend
    lutAct := p.lutAct, dim := p.dim, mode := p.mode, bpc := p.bpc, enc := p.enc }

/-- Peers of a primary's layers on the other dies of its group (04 R90).  DESIGN CHOICE (log 81): on a die without a free slot the layer takes
none, since OUT_GROUP has no status for that. -/
def makePeers (o : Nat) (h : Hub) : Hub :=
  let dies := (((membersOf h o).map (· / 4)).filter (· != o / 4)).eraseDups
  (h.layers.filter fun e => e.2.out == o).foldl (fun h e =>
    let ps := dies.filterMap fun d => firstNat (fun k => !h.layers.has k && !h.layers.any fun e => e.2.peers.contains k) 1024 (d * 1024)
    { h with layers := h.layers.upd e.1 fun l => { l with peers := ps } }) h

/-- A group is formed. -/
def formGroup (kind : Nat) (ms : List Nat) (h : Hub) : Hub :=
  let p := ms.headD 0
  let h := ms.zipIdx.foldl (fun h m => updOut h m.1 fun x =>
    let x := if kind < 3 && m.2 > 0 then takeRecords (getOut h p) x else x
    { x with grp := kind, primary := p, index := m.2, members := if m.2 = 0 then ms else [] }) h
  if kind < 3 then makePeers p h else h

/-- A member leaves its group, the primary or another: it takes back its own owner and its default records (08 R212). -/
def leaveGroup (x : Output) : Output :=
  let x := { x with grp := 0, primary := 0xFF, index := 0, members := [], decided := [], verdict := none }
  let d : Output := {}
  { x with
    own := none, owner := (match x.own with | none => x.owner | some q => q.1), bandH := d.bandH, bg := d.bg
    wbPeriod := 0, wbTarget := 0, statFrames := if x.cls = 0 then 0 else 8
    statFlags := 7, colour := d.colour, lutPend := none, lutAct := none, dim := {}, mode := none }

/-- OUT_GROUP (08 R212, R231). -/
def outGroup : Spec :=
  { op := 0x0408, level := 2, locks := true, rsv := [(18, 2), (36, 28)]
    checks := fun c _ h =>
      let kind := arg8 c 16
      let n := arg8 c 17
      let ms := groupArgs c
      [ck 0x0106 16 (kind > 3), ck 0x0201 17 (kind ≤ 3 && !groupCount kind n)] ++
      ((List.range 16).filter (n ≤ ·)).map (fun i => ck 0x0103 (20 + i) (arg8 c (20 + i) ≠ 0)) ++
      (if kind > 3 || !groupCount kind n then []
       else if kind = 0 then
        let p := arg8 c 20
        outCks h 20 p ++
        ckd (p / 4) 0x0404 20 (p < 32 && ((getOut h p).grp = 0 || (getOut h p).primary ≠ p)) ::
          if p < 32 then (getOut h p).members.map fun m => ckd (m / 4) 0x0406 20 ((getOut h m).state != .stopped) else []
       else ms.zipIdx.flatMap fun m => memberCks h (levelOf h c.ctx == 2) kind ms m.2 m.1)
    run := fun c _ _ h =>
      if arg8 c 16 = 0 then
        let p := arg8 c 20
        let h := (getOut h p).members.foldl (fun h m => updOut h m leaveGroup) h
        okRes (sweepObjects { h with layers := h.layers.map fun e => if e.2.out = p then (e.1, { e.2 with peers := [] }) else e })
      else okRes (formGroup (arg8 c 16) (groupArgs c) h) }

/-! ### OUT_GENLOCK (08 R213, R232) -/

/-- A pad of a die. -/
def getPad (h : Hub) (d n : Nat) : Pad := (getDie h d).pmx.pads.get n {}

/-- Has the die a pad set to EXT_VSYNC (21 R526)? -/
def hasExtVsync (h : Hub) (d : Nat) : Bool := (List.range 24).any fun n => (getPad h d n).active == 8

/-- GENLOCK changes its state (08 R233, R235). -/
def genlockGoes (o s : Nat) (h : Hub) : Hub :=
  if (getOut h o).gen.state = s then h
  else
    let h := updOut h o fun x => { x with gen := { x.gen with state := s } }
    match listOwner h (listOf h o) with
    | none => h
    | some c => postEvent c 0x0483 (o + 256 * s) h.now h

/-- OUT_GENLOCK (08 R232). -/
def outGenlock : Spec :=
  { op := 0x0409, level := 2, locks := true, rsv := [(19, 1), (24, 40)]
    checks := fun c _ h =>
      let o := arg8 c 16
      let x := getOut h o
      [ck 0x0201 17 (arg8 c 17 > 1), ck 0x0201 18 (arg8 c 18 > 1)] ++ outCks h 16 o ++
      (if o ≥ 32 then []
       else
        [ckd (o / 4) 0x0403 16 (x.grp ≠ 0 && x.primary ≠ o), ckd (o / 4) 0x0404 16 (!hasExtVsync h (o / 4)),
         ckd (o / 4) 0x0201 20 (levelOf h c.ctx == 2 && match x.mode with | none => false | some e => (argI32 c 20).natAbs ≥ framePeriod e)])
    run := fun c _ _ h =>
      let o := arg8 c 16
      let on := arg8 c 17 = 1
      let h := updOut h o fun x => { x with gen := { x.gen with
        on := on, edge := arg8 c 18, offset := argI32 c 20, good := 0, lastEdge := h.now } }
      okRes (genlockGoes o (if on then 1 else 0) h) }

/-! ### OUT_QUERY (08 R233) -/

/-- SOURCE of OUT_QUERY. -/
def outSource (x : Output) : Nat := if x.psr then 3 else match x.frame with | none => 0 | some f => f.source

/-- The block of OUT_QUERY. -/
def outBlock (h : Hub) (o : Nat) : Bytes :=
  let x := getOut h o
  let g := (getOut h (if x.grp = 0 then o else x.primary)).gen
  leBytes 1 o ++ leBytes 1 (outCode x.state) ++ leBytes 1 (outSource x) ++ leBytes 1 x.port ++
  leBytes 1 (match x.mode with | none => 0xFF | some e => e.num) ++ leBytes 1 x.cls ++
  leBytes 2 ((listOwner h (listOf h o)).getD 0xFFFF) ++ leBytes 8 x.frameCount ++ leBytes 8 x.flipTime ++ leBytes 8 x.frameTime ++
  leBytes 4 x.undBands ++ leBytes 4 x.undLines ++ leBytes 2 x.staticCount ++ leBytes 1 (x.grp + 4 * x.index) ++
  leBytes 1 x.primary ++ leBytes 1 x.pll ++ leBytes 1 g.state ++ leBytes 1 x.q ++ leBytes 1 0 ++
  leBytes 4 x.cache.length ++ leBytes 12 0

/-- OUT_QUERY (08 R233). -/
def outQuery : Spec :=
  { op := 0x0410, rsv := [(17, 7), (32, 32)]
    checks := fun c _ h =>
      let o := arg8 c 16
      bufCk c 24 :: outCks h 16 o ++
      [ckd (o / 4) 0x0302 16 (o < 32 && !(levelOf h c.ctx ≥ 1 || listOwner h (listOf h o) == some c.ctx)),
       ckd (o / 4) 0x0403 16 (o < 32 && nonPrimary h o)]
    run := fun c _ _ h => okRes (ctxWrite c.ctx (arg64 c 24) (outBlock h (arg8 c 16)) h) 64 }

/-! ### The rows -/

/-- OUT_CONFIG. -/
def execOutConfig (c : Cmd) (s : State) : Host.Outcome State Fault Refusal := .next (mail outConfig c s)
/-- OUT_MODE. -/
def execOutMode (c : Cmd) (s : State) : Host.Outcome State Fault Refusal := .next (mail outMode c s)
/-- OUT_BACKGROUND. -/
def execOutBackground (c : Cmd) (s : State) : Host.Outcome State Fault Refusal := .next (mail outBackground c s)
/-- OUT_WRITEBACK. -/
def execOutWriteback (c : Cmd) (s : State) : Host.Outcome State Fault Refusal := .next (mail outWriteback c s)
/-- OUT_STATIC. -/
def execOutStatic (c : Cmd) (s : State) : Host.Outcome State Fault Refusal := .next (mail outStatic c s)
/-- OUT_GROUP. -/
def execOutGroup (c : Cmd) (s : State) : Host.Outcome State Fault Refusal := .next (mail outGroup c s)
/-- OUT_GENLOCK. -/
def execOutGenlock (c : Cmd) (s : State) : Host.Outcome State Fault Refusal := .next (mail outGenlock c s)
/-- OUT_QUERY. -/
def execOutQuery (c : Cmd) (s : State) : Host.Outcome State Fault Refusal := .next (mail outQuery c s)

end Sys2Proof.Machine
end

