-- ==== Sys2Proof/Machine/Chain.lean ====
section
/-!
DEFINITION. The chain of packages: TIME and MGMT blocks, enumeration, chain time, broadcasts and barriers (13 R337, R353; 18
R465-R471, R477).

The bytes that a row carries are those of its control block from byte 4 on, with its data blocks after them: message bytes 0
and up (R465) or T_TX, sequence and data block (R337).
-/

namespace Sys2Proof.Machine

/-- A number in the bytes of a message. -/
def msgN (data : Bytes) (i size : Nat) : Nat := leNat ((data.drop i).take size)

/-- Does the port carry the CHAIN role, and is it UP? -/
def chainUp (h : Hub) (k : Nat) : Bool := carries h k && bit (getPort h k).kind 2

/-- A message of a stream block with its bytes: 12 in the control block, and the rest in data blocks (13 R337). -/
def sendMessage (k typ msg : Nat) (bytes : Bytes) (h : Hub) : Hub :=
  let rest := bytes.drop 12
  let n := ceilDiv rest.length 16
  sendBlock k typ (leBytes 1 msg ++ leBytes 2 n ++ (bytes.take 12)) ((rest ++ leBytes 15 0).take (16 * n)) h

/-- An MGMT message (18 R465). -/
def sendMgmt (k msg : Nat) (bytes : Bytes) (h : Hub) : Hub := sendMessage k 0x87 msg bytes h

/-- The chain offset at instant `t`: what is set, and as much of the correction as 1 ns per µs has made by then (18 R468). -/
def Chain.ofsBy (c : Chain) (t : Nat) : Int :=
  let n : Int := ((t - c.ofsAt) / 1000 : Nat)
  if c.todo ≥ 0 then c.ofs + min c.todo n else c.ofs - min (-c.todo) n

/-- The chain offset now. -/
def chainOfs (h : Hub) : Int := h.chain.ofsBy h.now

/-- Chain time (18 R468), 64 bits. -/
def chainTime (h : Hub) : Nat := unsigned 64 ((h.now : Int) + chainOfs h)

/-- SYS_CHAIN (18 R477). -/
def chainEvent (reason : Nat) (h : Hub) : Hub :=
  let c := h.chain
  toIntegrator 0x0081 (c.pos + 4 * c.len + 32 * b2n c.aligned + 256 * reason) h.now h

/-- The instant, in package time, at which chain time is `t`, as the offset and its correction stand (18 R471). -/
def chainInstant (h : Hub) (t : Nat) : Nat :=
  (List.range 4).foldl (fun x _ => unsigned 64 ((t : Int) - h.chain.ofsBy x)) h.now

/-- The downstream CHAIN port: the one that is not on the upstream side (18 R465). -/
def downPort (h : Hub) : Option Nat :=
  ((h.ports.map Prod.fst).filter fun k => isTv k && bit (getPort h k).kind 2).find? fun k => h.chain.upSide ≠ some k

/-- ENUM_REQ leaves on the downstream port (18 R465, R466). -/
def sendEnum (k : Nat) (h : Hub) : Hub :=
  let c := h.chain
  let dev := if c.head then deviceOf h h.pkg.principal else c.headDev
  sendMgmt k 1 (leBytes 4 (c.pos + 1) ++ leBytes 4 dev ++ leBytes 8 (chainTime h))
    { h with chain := { c with asking := true, askAt := h.now } }

/-- The packages that a package reaches where the chain ends after `n` positions: of one cut off from the head, those from itself on (18 R467). -/
def Chain.reach (c : Chain) (n : Nat) : Nat := if c.up.isNone && !c.head then n - c.pos else n

/-- A length of the chain becomes known: recorded, and passed upward (18 R466). -/
def chainLength (len : Nat) (h : Hub) : Hub :=
  let c := h.chain
  let h := { h with chain := { c with len := c.reach len } }
  let h := if c.len = c.reach len then h else chainEvent 1 h
  match c.up with
  | none => h
  | some k => if chainUp h k then sendMgmt k 4 (leBytes 1 len) h else h

/-- An enumerated package, or the head, enumerates onward: over its downstream port where that answers, or as the last package
(18 R466). -/
def enumOnward (h : Hub) : Hub :=
  let c := h.chain
  if !ready h || !(c.head || c.enumerated) || c.down.isSome then h
  else match downPort h with
    | none => if c.head then h else chainLength (c.pos + 1) h
    | some k =>
      match (getPort h k).state with
      | .up => sendEnum k h
      | .alone => if c.head then h else chainLength (c.pos + 1) h
      | _ => h

/-- A CHAIN port leaves UP (18 R467). -/
def chainBreak (k : Nat) (h : Hub) : Hub :=
  let c := h.chain
  if c.down = some k then
    let h := { h with chain := { c with down := none, asking := false, len := c.reach (c.pos + 1) } }
    let h := chainEvent 3 h
    match c.up with
    | none => h
    | some u => if chainUp h u then sendMgmt u 4 (leBytes 1 (c.pos + 1)) h else h
  else if c.up = some k then
    chainEvent 4 { h with chain := { c with up := none, aligned := false, good := 0, len := max 1 (c.len - c.pos) } }
  else { h with chain := { c with asking := if downPort h = some k then false else c.asking } }

/-- An enumerated package enumerates onward again: its downstream package is asked again, or its length is told again (18 R466). -/
def enumAgain (h : Hub) : Hub :=
  match h.chain.down with
  | none => enumOnward h
  | some d => if chainUp h d then sendEnum d h else h

/-- ENUM_REQ: a package receives an enumeration request (18 R466).  One that repeats the position that the package has is acknowledged
and passed on again, and changes nothing else. -/
def enumReq (k : Nat) (data : Bytes) (h : Hub) : Hub :=
  let c := h.chain
  let pos := msgN data 0 1
  let ack (h : Hub) : Hub :=
    sendMgmt k 2 (leBytes 1 pos ++ leBytes 1 h.pkg.part ++ leBytes 2 h.pkg.sitesUp ++ leBytes 4 (deviceOf h h.pkg.principal)) h
  if !chainUp h k || !ready h then h
  else
    let h := streamHeard k h
    if c.head then sendMgmt k 3 (leBytes 1 2) h
    else if pos ≥ 4 then sendMgmt k 3 (leBytes 1 1) h
    else if c.enumerated && c.up = some k && c.pos = pos then enumAgain (ack h)
    else
      let h := { h with chain := { c with
        pos := pos, headDev := msgN data 4 4, enumerated := true, up := some k, upSide := some k, set := false, aligned := false, good := 0
        down := none, asking := false } }
      enumOnward (chainEvent 1 (ack h))

/-- ENUM_REQ_RETRY: 1 ms after the last request, without an answer (18 R466). -/
def enumRetry (k : Nat) (h : Hub) : Hub :=
  if chainUp h k && ready h && h.chain.asking && downPort h = some k then
    sendEnum k (at_ (h.chain.askAt + 1000000) h)
  else h

/-- ENUM_ACK: the package downstream has taken its position (18 R466). -/
def enumAck (k : Nat) (h : Hub) : Hub :=
  if !chainUp h k || !h.chain.asking || downPort h ≠ some k then h
  else { streamHeard k h with chain := { h.chain with asking := false, down := some k } }

/-- ENUM_REJECT: the fault record, the event, and the package is the last (18 R466). -/
def enumReject (k : Nat) (data : Bytes) (h : Hub) : Hub :=
  if !chainUp h k || !h.chain.asking || downPort h ≠ some k then h
  else
    let h := { streamHeard k h with chain := { h.chain with asking := false } }
    let u := unitId 5 (k / 8) (k % 8)
    let (n, h) := takeFree h
    let h := faultReport (k / 8) 0x0703 u u (Config.freeWord n).toNat h
    let h := chainEvent (if msgN data 0 1 = 1 then 6 else 5) h
    if h.chain.head then h else chainLength (h.chain.pos + 1) h

/-- CHAIN_END from downstream (18 R466). -/
def chainEnd (k : Nat) (data : Bytes) (h : Hub) : Hub :=
  let len := msgN data 0 1
  if !chainUp h k || h.chain.down ≠ some k || len = 0 || len > 4 then h else chainLength len (streamHeard k h)

/-- CHAIN_ENUM_TIMEOUT: 60 ms after the package became ready (18 R467). -/
def chainEnumTimeout (h : Hub) : Hub :=
  let c := h.chain
  if !ready h || c.down.isSome || (c.enumerated && !c.head) then h
  else chainEvent 2 { at_ (h.pkg.readyAt + 60000000) h with chain := { c with pos := 0, len := 1 } }

/-! ### Chain time (13 R353, 18 R468) -/

/-- TIME_REQUEST_SEND: the upstream end's request, 1 ms after its last one. -/
def timeSend (k : Nat) (h : Hub) : Hub :=
  let p := getPort h k
  if !chainUp h k || h.chain.down ≠ some k then h
  else
    let h := at_ (p.timeReq + 1000000) h
    sendBlock k 0x96 (leBytes 3 0 ++ leBytes 8 (chainTime h) ++ leBytes 4 p.timeSeq) []
      (updPort h k fun p => { p with timeReq := h.now, timeSeq := (p.timeSeq + 1) % 2 ^ 32 })

/-- TIME_REQUEST: the downstream end replies. -/
def timeRequest (k : Nat) (data : Bytes) (h : Hub) : Hub :=
  if !chainUp h k || h.chain.up ≠ some k then h
  else
    let h := streamHeard k h
    let t := chainTime h
    sendBlock k 0x96 (leBytes 1 1 ++ leBytes 2 1 ++ leBytes 8 t ++ leBytes 4 (msgN data 8 4))
      (leBytes 8 t ++ leBytes 8 (msgN data 0 8)) h

/-- TIME_REPLY: the upstream end computes θ and sends TIME_OFS; an odd sum is halved to one of its neighbours (log entry 2). -/
def timeReply (k : Nat) (data : Bytes) (h : Hub) : Hub :=
  if !chainUp h k || h.chain.down ≠ some k then h
  else
    let h := streamHeard k h
    let i (j : Nat) : Int := signed 64 (msgN data j 8)
    let t4 : Int := signed 64 (chainTime h)
    let sum := (i 12 - i 20) + (i 0 - t4)
    let (n, h) := takeFree h
    let up : Int := if sum % 2 ≠ 0 && Config.freeBit n then 1 else 0
    sendMgmt k 5 (leBytes 8 (unsigned 64 (sum / 2 + up)) ++ leBytes 4 (msgN data 8 4)) h

/-- TIME_OFS: the downstream package corrects its offset (18 R468).  No message says whether an upstream neighbour other than the
head is aligned: that is a free bit. -/
def timeOfs (k : Nat) (data : Bytes) (h : Hub) : Hub :=
  if !chainUp h k || h.chain.up ≠ some k then h
  else
    let h := streamHeard k h
    let θ := signed 64 (msgN data 0 8)
    let now := chainOfs h
    let c := h.chain
    let good := if θ.natAbs ≤ 6 then min 16 (c.good + 1) else 0
    let (n, h) := takeFree h
    let above := c.pos = 1 || Config.freeBit n
    { h with chain := { c with
      ofs := if c.set then now else now - θ, todo := if c.set then -θ else 0, ofsAt := h.now, set := true
      good := good, aligned := c.aligned || (good = 16 && above) } }

/-! ### Broadcasts and barriers (18 R465, R470, R471) -/

/-- KPR_SNAP_STATE of the principal changes (18 R471, R476; 20 R511). -/
def snapGoes (state reason : Nat) (h : Hub) : Hub :=
  let p := h.pkg.principal
  let old := (getDie h p).kpr.snapState
  let h := updDie h p fun x => { x with kpr := { x.kpr with snapState := state, snapReason := reason } }
  if old = state then h else intEvent p 8 h

/-- A snapshot of chain scope is armed at an instant in chain time. -/
def armChain (t : Nat) (h : Hub) : Hub :=
  snapGoes 1 0 (updDie h h.pkg.principal fun x => { x with kpr := { x.kpr with armed := some (t, 2) } })

/-- BCAST from upstream, passed on downstream: kind 2 arms a snapshot; kind 1 is a barrier, acknowledged by the last package. -/
def bcast (k : Nat) (data : Bytes) (h : Hub) : Hub :=
  if !chainUp h k || h.chain.up ≠ some k then h
  else
    let h := streamHeard k h
    let kind := msgN data 0 1
    let num := msgN data 1 1
    if kind ≠ 1 && kind ≠ 2 then h
    else
      let h := if kind = 2 then armChain (msgN data 8 8) h else { h with chain := { h.chain with barrier := some num } }
      match h.chain.down with
      | some d => sendMgmt d 6 (data.take 16) h
      | none =>
        if kind = 2 then h
        else sendMgmt k 7 (leBytes 1 0 ++ leBytes 1 num) { h with chain := { h.chain with barrier := none } }

/-- BARRIER_ACK from downstream, passed upstream; it ends the barrier that the package waits for. -/
def barrierAck (k : Nat) (data : Bytes) (h : Hub) : Hub :=
  let num := msgN data 1 1
  if !chainUp h k || h.chain.down ≠ some k || h.chain.barrier ≠ some num then h
  else
    let h := { streamHeard k h with chain := { h.chain with barrier := none } }
    match h.chain.up with
    | none => h
    | some u => if chainUp h u then sendMgmt u 7 (leBytes 1 0 ++ leBytes 1 num) h else h

/-! ### The rows -/

/-- ENUM_REQ. -/
def execEnumReq (port : Nat) (data : List (BitVec 8)) (s : State) : Host.Outcome State Fault Refusal := .next (onHub (enumReq port data) s)
/-- ENUM_REQ_RETRY. -/
def execEnumReqRetry (port : Nat) (s : State) : Host.Outcome State Fault Refusal := .next (onHub (enumRetry port) s)
/-- ENUM_ACK. -/
def execEnumAck (port : Nat) (_data : List (BitVec 8)) (s : State) : Host.Outcome State Fault Refusal := .next (onHub (enumAck port) s)
/-- ENUM_REJECT. -/
def execEnumReject (port : Nat) (data : List (BitVec 8)) (s : State) : Host.Outcome State Fault Refusal := .next (onHub (enumReject port data) s)
/-- CHAIN_END. -/
def execChainEnd (port : Nat) (data : List (BitVec 8)) (s : State) : Host.Outcome State Fault Refusal := .next (onHub (chainEnd port data) s)
/-- CHAIN_ENUM_TIMEOUT. -/
def execChainEnumTimeout (s : State) : Host.Outcome State Fault Refusal := .next (onHub chainEnumTimeout s)
/-- TIME_REQUEST_SEND. -/
def execTimeRequestSend (port : Nat) (s : State) : Host.Outcome State Fault Refusal := .next (onHub (timeSend port) s)
/-- TIME_REQUEST. -/
def execTimeRequest (port : Nat) (data : List (BitVec 8)) (s : State) : Host.Outcome State Fault Refusal := .next (onHub (timeRequest port data) s)
/-- TIME_REPLY. -/
def execTimeReply (port : Nat) (data : List (BitVec 8)) (s : State) : Host.Outcome State Fault Refusal := .next (onHub (timeReply port data) s)
/-- TIME_OFS. -/
def execTimeOfs (port : Nat) (data : List (BitVec 8)) (s : State) : Host.Outcome State Fault Refusal := .next (onHub (timeOfs port data) s)
/-- BCAST. -/
def execBcast (port : Nat) (data : List (BitVec 8)) (s : State) : Host.Outcome State Fault Refusal := .next (onHub (bcast port data) s)
/-- BARRIER_ACK. -/
def execBarrierAck (port : Nat) (data : List (BitVec 8)) (s : State) : Host.Outcome State Fault Refusal := .next (onHub (barrierAck port data) s)

end Sys2Proof.Machine
end

