-- ==== Sys2Proof/Machine/Transactions.lean ====
section
/-!
DEFINITION. Transactions and timelines: the commands of the 0x03xx range, the fence timeout and the group decision (07 R162-R164,
R180-R193, R555).
-/

namespace Sys2Proof.Machine

/-! ### Transactions -/

/-- The lowest free transaction slot of a die (log entry 10). -/
def freeTxn (h : Hub) (d : Nat) : Option Nat := firstNat (fun k => !h.txns.has k) 256 (d * 256)

/-- TXN_BEGIN (07 R188). -/
def txnBegin : Spec :=
  { op := 0x0300, rsv := [(18, 2), (24, 40)]
    checks := fun c _ h =>
      [ck 0x0106 16 (arg8 c 16 > 1), ck 0x0103 17 (arg8 c 17 > 1), ck 0x0201 20 (arg32 c 20 > 10000),
       ck 0x0608 255 ((h.txns.countP fun e => e.2.owner == c.ctx) ≥ 16 || (freeTxn h (homeDie c.ctx)).isNone)]
    run := fun c _ _ h =>
      match freeTxn h (homeDie c.ctx) with
      | none => failRes h 0x0608 255
      | some k =>
        let t : Txn := { owner := c.ctx, indep := arg8 c 16 = 1, events := bit (arg8 c 17) 0, timeoutMs := arg32 c 20 }
        let h := { h with txns := h.txns.set k t }
        okRes h (txnHandle h k) }

/-- Has a transaction staged nothing? -/
def stagesNothing (t : Txn) : Bool := t.layers.isEmpty && t.fences.isEmpty && t.outs.isEmpty && t.spares.isEmpty && t.floors.isEmpty

/-- TXN_COMMIT (07 R163-R167, R189). -/
def txnCommit : Spec :=
  { op := 0x0301, txn := .acts, rsv := [(17, 47)], listed := true
    checks := fun c _ h =>
      ck 0x0103 16 (arg8 c 16 > 1) ::
      match txnOf h c.ctx c.txn.toNat with
      | none => []
      | some (_, t) => if t.state ≠ .opened then [ck 0x0402 8 true] else commitCks h t
    run := fun c p _ h =>
      let h := bar2Visible c.ctx h
      match txnOf h c.ctx c.txn.toNat with
      | none => failRes h 0x0401 8
      | some (k, t) =>
        if bit (arg8 c 16) 0 then okRes h
        else if stagesNothing t then okRes (endTxn k h)
        else laterRes (commitTxn k p h) }

/-- TXN_CANCEL (07 R164, R190). -/
def txnCancel : Spec :=
  { op := 0x0302, txn := .acts, rsv := [(16, 48)]
    checks := fun c _ h =>
      match txnOf h c.ctx c.txn.toNat with
      | none => []
      | some (_, t) => [ck 0x0402 8 (t.state == .validating || t.state == .armed)]
    run := fun c _ _ h =>
      match txnOf h c.ctx c.txn.toNat with
      | none => failRes h 0x0401 8
      | some (k, _) => okRes (closeTxn k 0x0411 0 0 h) }

/-- The state code of TXN_QUERY (07 R191). -/
def txnCode (s : TxnState) : Nat :=
  match s with
  | .opened => 0
  | .validating => 1
  | .waiting => 2
  | .armed => 3

/-- RESULT0 of TXN_QUERY (07 R191; nothing applies before the commit, log entry 34). -/
def txnImage (h : Hub) (t : Txn) : Nat :=
  let sig := t.fences.countP fun f => f.2.signalled.isSome || fenceReached h f.2
  let left := if t.state == .opened then 0 else if t.state == .armed then t.todo.length else (affectedOuts h t).length
  txnCode t.state + 8 * b2n t.indep + 256 * (t.fences.length % 256) + 65536 * (sig % 256) + 2 ^ 24 * left

/-- TXN_QUERY (07 R191). -/
def txnQuery : Spec :=
  { op := 0x0303, txn := .acts, rsv := [(16, 48)]
    run := fun c _ _ h =>
      match txnOf h c.ctx c.txn.toNat with
      | none => failRes h 0x0401 8
      | some (_, t) => okRes h (txnImage h t) t.timeout }

/-! ### Timelines -/

/-- The checks of a timeline field (07 R193). -/
def tlCks (h : Hub) (off v : Nat) : List Ck :=
  if v = 0 then [ck 0x0404 off true]
  else if bits v 13 3 ≠ 0 then [ck 0x0202 off true]
  else
    let d := bits v 10 3
    dieCk h off d ::
    (if !dieUp h d then []
     else match h.tls.find (v % 8192) with
      | none => [ckd d 0x0404 off true]
      | some x => [ckd d 0x0304 off (x.gen ≠ v / 65536)])

/-- Only the owner of a timeline (07 R193). -/
def tlOwnerCk (h : Hub) (off v c : Nat) : Ck :=
  ckd (bits v 10 3) 0x0302 off (match tlOf h v with | none => false | some x => x.2.owner ≠ c)

/-- Is the context the owner of a timeline or a holder of a wait grant? -/
def tlMay (x : Timeline) (c : Nat) : Bool := x.owner == c || x.grants.contains c

/-- The owner of a timeline, or a holder of a wait grant (07 R192, R193). -/
def tlMayCk (h : Hub) (off v c : Nat) : Ck :=
  ckd (bits v 10 3) 0x0303 off (match tlOf h v with | none => false | some x => !tlMay x.2 c)

/-- LAYER_FENCE (07 R181, R185, R192): the layer has a staged record then, that of its committed one where nothing else stages it (04 R82). -/
def layerFence : Spec :=
  staging 0x0308 0 false [(18, 2), (32, 32)]
    (fun c _ h =>
      let v := arg16 c 16
      let tl := arg32 c 20
      let mine := match layerOf h v with | none => false | some l => ownsLayer h l c.ctx
      stageLayerCks h c 16 v ++
      (if tl = 0 then [] else tlCks h 20 tl ++ [tlMayCk h 20 tl c.ctx]) ++
      [ck 0x0201 16 (mine && (stagedRec h c v).live)])
    fun c h =>
      let v := arg16 c 16
      updStaged (stageLayer h c v id) c fun t =>
        { t with fences := if arg32 c 20 = 0 then t.fences.del v else t.fences.set v { tl := arg32 c 20, value := arg64 c 24 } }

/-- The timeline slot of a die that TL_CREATE takes: one never used, or the one that has been free longest (07 R193, 03 R52). -/
def freeTl (h : Hub) (d : Nat) : Option Nat :=
  match firstNat (fun k => !h.tls.has k && !h.tlGens.has k) 1024 (d * 1024) with
  | some k => some k
  | none => h.tlFreed.find? fun k => k / 1024 == d && h.tlGens.get k 1 < 0xFFFF

/-- TL_CREATE (07 R193). -/
def tlCreate : Spec :=
  { op := 0x0310, rsv := [(17, 7), (32, 32)]
    checks := fun c _ h =>
      [dieCk h 16 (arg8 c 16),
       ck 0x0608 255 ((h.tls.countP fun e => e.2.owner == c.ctx) ≥ 64),
       ckd (arg8 c 16) 0x0608 255 ((arg8 c 16 < 8 && (freeTl h (arg8 c 16)).isNone))]
    run := fun c _ _ h =>
      match freeTl h (arg8 c 16) with
      | none => failRes h 0x0608 255
      | some k =>
        let g := h.tlGens.get k 1
        okRes { h with
          tls := h.tls.set k { owner := c.ctx, value := arg64 c 24, gen := g }
          tlFreed := h.tlFreed.filter (· != k) } (k + 65536 * g) }

/-- TL_SIGNAL (07 R181, R193). -/
def tlSignal : Spec :=
  { op := 0x0311, rsv := [(20, 4), (32, 32)]
    checks := fun c _ h =>
      tlCks h 16 (arg32 c 16) ++
      [tlOwnerCk h 16 (arg32 c 16) c.ctx,
       ck 0x0201 24 (match tlOf h (arg32 c 16) with
        | none => false
        | some x => x.2.owner == c.ctx && arg64 c 24 < x.2.value)]
    run := fun c _ _ h => okRes (signalTl (arg32 c 16 % 8192) (arg64 c 24) (bar2Visible c.ctx h)) }

/-- A timeline goes: the fences on it fail with a status, and its slot is free with the next generation (07 R184, R193). -/
def dropTl (k st : Nat) (h : Hub) : Hub :=
  match h.tls.find k with
  | none => h
  | some x =>
    let h := failAllFences st (fun _ f => f.tl == k + 65536 * x.gen) h
    { h with tls := h.tls.del k, tlGens := h.tlGens.set k (x.gen + 1), tlFreed := h.tlFreed ++ [k] }

/-- TL_DESTROY (07 R184, R193). -/
def tlDestroy : Spec :=
  { op := 0x0312, rsv := [(20, 44)]
    checks := fun c _ h => tlCks h 16 (arg32 c 16) ++ [tlOwnerCk h 16 (arg32 c 16) c.ctx]
    run := fun c _ _ h => okRes (dropTl (arg32 c 16 % 8192) 0x0903 h) }

/-- A wait grant is taken from a grantee: its WAITING transactions with a fence on the timeline that has not signalled end as for a
destroy, and it is told (07 R193, R555). -/
def loseWait (v g : Nat) (h : Hub) : Hub :=
  let hit := h.txns.filter fun e => e.2.owner == g && e.2.state == .waiting &&
    e.2.fences.any fun f => f.2.tl == v && f.2.signalled.isNone
  let h := hit.foldl (fun h e => closeTxn e.1 0x0903 0 0 h) h
  postEvent g 0x0381 v hit.length h

/-- TL_GRANT (07 R193). -/
def tlGrant : Spec :=
  { op := 0x0313, rsv := [(23, 41)]
    checks := fun c _ h =>
      let v := arg32 c 16
      let g := arg16 c 20
      let wait := arg8 c 22 = 1
      [ck 0x0106 22 (arg8 c 22 > 1)] ++ tlCks h 16 v ++ [tlOwnerCk h 16 v c.ctx] ++ ctxCks h 20 g wait ++
      [ck 0x040E 20 (wait && g = c.ctx),
       ckd (v % 8192 / 1024) 0x0201 20 (match tlOf h v with
        | none => false
        | some x => wait && x.2.owner == c.ctx && !x.2.grants.contains g && x.2.grants.length ≥ 8)]
    run := fun c _ _ h =>
      let v := arg32 c 16
      let g := arg16 c 20
      match tlOf h v with
      | none => failRes h 0x0404 16
      | some (k, x) =>
        if arg8 c 22 = 1 then
          okRes { h with tls := h.tls.set k { x with grants := if x.grants.contains g then x.grants else x.grants ++ [g] } }
        else if x.grants.contains g then
          okRes (loseWait v g { h with tls := h.tls.set k { x with grants := x.grants.filter (· != g) } })
        else okRes h }

/-- TL_QUERY (07 R193). -/
def tlQuery : Spec :=
  { op := 0x0314, rsv := [(20, 44)]
    checks := fun c _ h => tlCks h 16 (arg32 c 16) ++ [tlMayCk h 16 (arg32 c 16) c.ctx]
    run := fun c _ _ h =>
      match tlOf h (arg32 c 16) with
      | none => failRes h 0x0404 16
      | some (_, x) => okRes h 0 x.value }

/-! ### Timeout and group decision -/

/-- The timeout of transaction `k` comes (07 R184): fences that have not signalled fail. -/
def fenceTimeout (k : Nat) (h : Hub) : Hub :=
  match h.txns.find k with
  | none => h
  | some t =>
    if (t.state == .waiting || t.state == .armed) && t.fences.any fun f => f.2.signalled.isNone && !t.doneLayers.contains f.1 then
      failFences k 0x0901 (fun _ => true) (at_ t.timeout h)
    else h

/-- Die `d` confirms the decision of output `o`'s group for the next boundary (07 R180); a halted Keeper answers nothing (22 R550).  In a stretched blank, whose boundary a change may
re-open, the decision for that begins with the first confirmation. -/
def groupDecision (o d : Nat) (h : Hub) : Hub :=
  let x := getOut h o
  let p := x.primary
  let h := if x.grp ≠ 0 && !halted h d && (getOut h p).verdict.isSome && (getOut h p).scan.any (fun sc => sc.stretched && sc.line == 0) then
      openDecision o (h.now + 1) h
    else h
  if x.grp = 0 || !dieUp h d || halted h d || (getOut h p).verdict.isSome || !((getOut h p).members.any fun m => m / 4 == d) then h
  else updOut h p fun y => { y with decided := if y.decided.contains d then y.decided else d :: y.decided }

/-! ### The rows -/

/-- TXN_BEGIN. -/
def execTxnBegin (c : Cmd) (s : State) : Host.Outcome State Fault Refusal := .next (mail txnBegin c s)
/-- TXN_COMMIT. -/
def execTxnCommit (c : Cmd) (s : State) : Host.Outcome State Fault Refusal := .next (mail txnCommit c s)
/-- TXN_CANCEL. -/
def execTxnCancel (c : Cmd) (s : State) : Host.Outcome State Fault Refusal := .next (mail txnCancel c s)
/-- TXN_QUERY. -/
def execTxnQuery (c : Cmd) (s : State) : Host.Outcome State Fault Refusal := .next (mail txnQuery c s)
/-- LAYER_FENCE. -/
def execLayerFence (c : Cmd) (s : State) : Host.Outcome State Fault Refusal := .next (mail layerFence c s)
/-- TL_CREATE. -/
def execTlCreate (c : Cmd) (s : State) : Host.Outcome State Fault Refusal := .next (mail tlCreate c s)
/-- TL_SIGNAL. -/
def execTlSignal (c : Cmd) (s : State) : Host.Outcome State Fault Refusal := .next (mail tlSignal c s)
/-- TL_DESTROY. -/
def execTlDestroy (c : Cmd) (s : State) : Host.Outcome State Fault Refusal := .next (mail tlDestroy c s)
/-- TL_GRANT. -/
def execTlGrant (c : Cmd) (s : State) : Host.Outcome State Fault Refusal := .next (mail tlGrant c s)
/-- TL_QUERY. -/
def execTlQuery (c : Cmd) (s : State) : Host.Outcome State Fault Refusal := .next (mail tlQuery c s)
/-- FENCE_TIMEOUT. -/
def execFenceTimeout (txn : Nat) (s : State) : Host.Outcome State Fault Refusal := .next (onHub (fenceTimeout txn) s)
/-- GROUP_DECISION. -/
def execGroupDecision (out die : Nat) (s : State) : Host.Outcome State Fault Refusal := .next (onHub (groupDecision out die) s)

end Sys2Proof.Machine
end

