-- ==== Sys2Proof/Machine/Traverse.lean ====
section
/-!
DEFINITION. Traverse ports on their own account: training, the figure of merit, dozing, far-end loops asked for by the partner, the
back channel and camera input (13 R339-R349, R352, R354-R357).
-/

namespace Sys2Proof.Machine

/-! ### Training (13 R339-R342) -/

/-- The receive lanes of a port have no lock, and so no figure of merit (13 R345). -/
def Port.unlocked (p : Port) : Port :=
  { p with lane0 := { p.lane0 with rx := 0, fom := 0, adapting := false }, lane1 := { p.lane1 with rx := 0, fom := 0, adapting := false } }

/-- A port (re)starts its training: T0 is now, its lanes have lost lock, and both transmit lanes send training sequences. -/
def enterSeek (k reason : Nat) (h : Hub) : Hub :=
  let h := updPort h k fun p => { p.unlocked with t0 := h.now, lockAt := 0, txDoze := false, rxDoze := false }
  trainSend 1 k (linkGoes k .seek reason h)

/-- CAM_FAULT (13 R373). -/
def camFault (k cause frame : Nat) (h : Hub) : Hub :=
  let h := updPort h k fun p => { p with camFaults := (p.camFaults + 1) % 2 ^ 32 }
  postEvents (linkListeners h k) 0x0D81 (k / 8 + 256 * (k % 8) + 65536 * cause) frame h

/-- The camera frame in progress ends incomplete (13 R355); one of which every line has been received has ended complete. -/
def camIncomplete (k : Nat) (h : Hub) : Hub :=
  match (getPort h k).camFrame with
  | none => h
  | some f =>
    if f.full then h
    else
      let h := updPort h k fun p => { p with camFrame := none }
      if f.ignored then h else camFault k 2 f.k h

/-- What leaving UP does beside the change of state: the frame that is being sent is cut short, the camera frame in progress is incomplete,
and the chain breaks there (10 R270, R275; 13 R357; 18 R467). -/
def leaveUp (k : Nat) (h : Hub) : Hub :=
  let h := updPort (cutFrame k h) k fun p => { p with farHeld := false, rxDoze := false, txDoze := false }
  let h := camIncomplete k h
  if bit (getPort h k).kind 2 then chainBreak k h else h

/-- LANE_BLOCK_LOCK. -/
def blockLock (k l : Nat) (h : Hub) : Hub :=
  if (getPort h k).state != .seek || !isTv k then h
  else
    let h := updPort h k fun p => p.updLane l fun x => { x with rx := max x.rx 2 }
    let p := getPort h k
    if p.lane0.rx < 2 || p.lane1.rx < 2 then h
    else linkGoes k .adapt 1 (updPort h k fun p => { p with
      lockAt := h.now, lane0 := { p.lane0 with adapting := true }, lane1 := { p.lane1 with adapting := true } })

/-- A DFE tap that a value of 8 bits gives, within its range (13 R344). -/
def dfeTap (v : Nat) : Int := max (-31) (min 31 (signed 8 v))

/-- The best of the CTLE codes tried from 0 up: code, FOM and taps; the lowest code on a tie (13 R344). -/
def bestCode (l : List (Nat × Nat)) : Nat × Nat × Nat :=
  l.zipIdx.foldl (fun b t => if t.2 = 0 || t.1.1 > b.2.1 then (t.2, t.1.1, t.1.2) else b) (0, 0, 0)

/-- A lane after an adaptation: the code that it keeps with its taps, unless LNK_EQ has fixed them, and its figure of merit, with which
it is ADAPTED from FOM_MIN on (13 R339). -/
def adaptedLane (fomMin : Nat) (b : Nat × Nat × Nat) (x : Lane) : Lane :=
  let x := { x with fom := b.2.1, rx := if b.2.1 ≥ fomMin then 3 else 2, adapting := false }
  if x.fixed then x else { x with ctle := b.1, dfe := (List.range 4).map fun i => dfeTap (bits b.2.2 (8 * i) 8) }

/-- Where both lanes of a port in ADAPT are ADAPTED, the port reports it, in a training sequence of each lane, and waits for its partner (13
R339, R340). -/
def reportAdapted (k : Nat) (h : Hub) : Hub :=
  let p := getPort h k
  if p.state == .adapt && p.lane0.rx = 3 && p.lane1.rx = 3 then trainSend 1 k (linkGoes k .wait 1 h) else h

/-- LANE_ADAPTED: lane `l` has tried the CTLE codes from 0 up; `tries` holds the FOM and the taps that it reached at each.  The port
reports ADAPTED when both lanes have. -/
def laneAdapted (k l : Nat) (tries : List (Nat × Nat)) (h : Hub) : Hub :=
  let p := getPort h k
  let b := bestCode tries
  if !isTv k then h
  else if p.state == .adapt then
    if (p.lane l).rx < 2 then h else reportAdapted k (updPort h k fun p => p.updLane l (adaptedLane p.fomMin b))
  else if p.state == .up && (p.lane l).adapting then
    updPort h k fun p => p.updLane l fun x => { adaptedLane p.fomMin b x with stale := 4 }
  else h

/-- ADAPT_TIMEOUT. -/
def adaptTimeout (k : Nat) (h : Hub) : Hub :=
  let p := getPort h k
  if p.state != .adapt then h else linkGoes k .weak 4 (at_ (p.lockAt + 10000000) h)

/-- STATUS of the back channel, on entry to UP (`entry`) and on a change (13 R352); the manual does not say what of the hub's own end it
reports (log entry 2). -/
def sendStatus (k : Nat) (entry : Bool) (h : Hub) : Hub :=
  let (n, h) := takeFree h
  let v := Config.freeByte n &&& 7
  if carries h k && (entry || v.toNat ≠ (getPort h k).status) then
    sendMessage k 0x78 1 [v] (updPort h k fun p => { p with status := v.toNat })
  else h

/-- LNK_POWER with STATE 0 completes when its port is UP (13 R365). -/
def wakeDone (k : Nat) (h : Hub) : Hub :=
  (getPort h k).wakeCmds.foldl (fun h p => completeOk p 0 0 h) (updPort h k fun x => { x with wakeCmds := [] })

/-- PARTNER_ADAPTED: the partner has reported ADAPTED 16 times on each lane.  `data`: bytes 1 to 15 of its last TRAIN block on lane
0, then of that on lane 1. -/
def partnerAdapted (k : Nat) (data : Bytes) (h : Hub) : Hub :=
  if (getPort h k).state != .wait || !isTv k then h
  else
    let h := updPort h k fun p => { p with
      partnerId := msgN data 7 4, partner := [msgN data 11 1, msgN data 12 1, msgN data 4 1]
      lane0 := { p.lane0 with partnerFom := msgN data 2 1, stale := 4 }
      lane1 := { p.lane1 with partnerFom := msgN data 17 1, stale := 4 } }
    let h := linkGoes k .up 1 h
    let h := wakeDone k (sendStatus k true (markerSend k h))
    if bit (getPort h k).kind 2 then
      enumOnward (if (getDie h (k / 8)).pwr.state == .entering then abortEntry (k / 8) 4 (k % 8 + 256 * (k / 8)) h else h)
    else h

/-- TRAINING_TIMEOUT: 20 ms from T0; `heard`: the partner's indications were read. -/
def trainingTimeout (k : Nat) (heard : Bool) (h : Hub) : Hub :=
  let p := getPort h k
  if !(p.state == .seek || p.state == .adapt || p.state == .wait) || !isTv k then h
  else
    let h := at_ (p.t0 + 20000000) h
    if heard then linkGoes k .weak 4 h
    else
      let h := trainSend 1 k (linkGoes k .alone 3 (updPort h k Port.unlocked))
      if bit p.kind 2 then enumOnward h else h

/-- SIGNAL_DETECT: on a lane of a port in ALONE or DEEP; in DEEP on a sleeping die it is a wake event (13 R340, 15 R396).  In UP it
ends a doze of the receive direction. -/
def signalDetect (k : Nat) (h : Hub) : Hub :=
  let p := getPort h k
  if !isTv k then h
  else match p.state with
    | .alone => enterSeek k 1 h
    | .deep =>
      if asleep h (k / 8) || (getDie h (k / 8)).pwr.state == .entering then wakeEvent (k / 8) 4 h
      else if (getDie h (k / 8)).pwr.state == .exiting then h
      else enterSeek k 1 h
    | .up => streamHeard k h
    | _ => h

/-- WEAK_RETRY. -/
def weakRetry (k : Nat) (h : Hub) : Hub :=
  let p := getPort h k
  if p.state != .weak then h else enterSeek k 1 (at_ (p.stateTime + 100000000) h)

/-- ALONE_BURST: at the start of the next period of 100 ms counted from the entry to ALONE. -/
def aloneBurst (k : Nat) (h : Hub) : Hub :=
  let p := getPort h k
  if p.state != .alone || !isTv k then h
  else trainSend 1 k (at_ (p.stateTime + 100000000 * ((h.now - p.stateTime) / 100000000 + 1)) h)

/-- LINK_LOSS.  `why`: 0 block lock lost, 1 two markers missing, 2 the partner below ADAPTED, 3 elastic overflow, 4 electrical idle;
missing markers and electrical idle are no loss after a DOZE (13 R340, R348). -/
def linkLoss (k why : Nat) (h : Hub) : Hub :=
  let p := getPort h k
  if !carries h k || why > 4 || ((why = 1 || why = 4) && p.rxDoze) then h
  else
    let u := unitId 5 (k / 8) (k % 8)
    let h := updPort h k fun p => { p with retrains := satInc (2 ^ 32 - 1) p.retrains }
    faultReport (k / 8) 0x0703 u u 2 (enterSeek k 2 (leaveUp k h))

/-! ### Figure of merit and equaliser (13 R344-R346) -/

/-- FOM of the margins above and below (13 R345). -/
def fomOf (above below : Nat) : Nat := min (4 * (above + below)) 255

/-- A tap moved by at most 1 towards a value (13 R344). -/
def tapStep (old new : Int) : Int := if old < new then old + 1 else if new < old then old - 1 else old

/-- FOM_WINDOW_END: the largest agreeing offsets above and below, and the taps towards which continuous adaptation moves.  In ADAPT, a lane whose
adaptation has ended below FOM_MIN is ADAPTED once a window reaches it (13 R339). -/
def fomWindow (k l above below : Nat) (dfe : BitVec 32) (h : Hub) : Hub :=
  let p := getPort h k
  if !isTv k || p.rxDoze || (p.lane l).rx < 2 || above > 32 || below > 32 then h
  else
    let cont := p.state == .up && bit p.options 2
    reportAdapted k <| updPort h k fun p => p.updLane l fun x => { x with
      fom := fomOf above below, stale := x.stale - 1
      rx := if p.state == .adapt && !x.adapting && decide (fomOf above below ≥ p.fomMin) then 3 else x.rx
      dfe := if cont && !x.fixed then x.dfe.mapIdx fun i t => tapStep t (dfeTap (bits dfe.toNat (8 * i) 8)) else x.dfe }

/-! ### Dozing (13 R347, R348) and far-end loops (13 R349) -/

/-- Does a running output use the port? -/
def portBusy (h : Hub) (k : Nat) : Bool := match portOut h k with | none => false | some o => (getOut h o).state != .stopped

/-- Does a camera stream run on the port? -/
def camRuns (p : Port) : Bool := p.cam.isSome || p.camNext.isSome

/-- DOZE_ENTRY: the transmit direction has had nothing but FILLER to send for DOZE_IDLE, and carries no output video, no camera stream and
no received blocks back; it ends with 4 DOZE blocks on each lane (13 R347, R349). -/
def dozeEntry (k : Nat) (h : Hub) : Hub :=
  let p := getPort h k
  if !carries h k || p.txDoze || !bit p.options 0 || portBusy h k || camRuns p || p.farHeld then h
  else
    let h := updPort (at_ (p.lastTx + 1000 * p.dozeIdle) h) k fun p => { p with txDoze := true }
    (List.range 8).foldl (fun h _ => emitBlock k 0xA5 (List.replicate 15 0xA5) [] h) h

/-- DOZE_EXIT. -/
def dozeExit (k : Nat) (h : Hub) : Hub := if carries h k then payloadDue k h else h

/-- DOZE_RECEIVED. -/
def dozeReceived (k : Nat) (h : Hub) : Hub := if carries h k then updPort h k fun p => { p with rxDoze := true } else h

/-- A LOOP block leaves the port: 0 request, 1 release, 2 accept, 3 refuse (13 R337). -/
def sendLoop (k code : Nat) (h : Hub) : Hub := sendBlock k 0xB4 (leBytes 1 code) [] h

/-- LOOP_REQUEST: accepted only with FAR_LOOP_OK on a port that carries no output and no camera stream. -/
def loopRequest (k : Nat) (h : Hub) : Hub :=
  if !carries h k then h
  else
    let h := streamHeard k h
    let p := getPort h k
    if bit p.options 1 && (portOut h k).isNone && !camRuns p then
      updPort (sendLoop k 2 h) k fun p => { p with farHeld := true }
    else sendLoop k 3 h

/-- LOOP_RELEASE. -/
def loopRelease (k : Nat) (h : Hub) : Hub :=
  if carries h k then updPort (streamHeard k h) k fun p => { p with farHeld := false } else h

/-! ### Camera input (13 R354-R357) -/

/-- The surface into which frame `f` of a stream goes. -/
def camTarget (h : Hub) (c : CamCfg) (k : Nat) : Option Surf := surfOf h (c.targets.getD (k % c.targets.length) 0)

/-- Lines of every plane of a surface: plane and line. -/
def planeLineCount (s : Surf) : Nat := ((List.range (fmtD s.fmt).planes).map fun p =>
  if (fmtD s.fmt).crated then (if p = 0 then s.height else 0) else planeLines (fmtD s.fmt) s.height p).sum

/-- Planes that a camera sends for a format: the uncrated counterpart's. -/
def camPlanes (fmt : Nat) : Nat := if (fmtD fmt).crated then 1 else (fmtD fmt).planes

/-- CAMERA_FRAME_COMPLETE: every line of the frame has been received, and its writes are visible package-wide. -/
def camComplete (k : Nat) (h : Hub) : Hub :=
  let p := getPort h k
  match p.camFrame, p.cam with
  | some f, some c =>
    if !f.full then h
    else
      let h := broadcast (updPort h k fun p => { p with camFrame := none, camFrames := (p.camFrames + 1) % 2 ^ 32 })
      match tlOf h c.tl with
      | none => h
      | some (t, x) => signalTl t (max x.value ((c.base + f.k + 1) % 2 ^ 64)) h
  | _, _ => h

/-- CAMERA_VIDEO_FRAME: `data` holds bytes 4 and up of the block: H_ACTIVE, V_ACTIVE, FORMAT, FRAME.  The previous frame ends, a
configuration that waits takes effect, and frame k begins. -/
def camVideoFrame (k : Nat) (data : Bytes) (h : Hub) : Hub :=
  let p := getPort h k
  if !carries h k || !bit p.kind 1 || !camRuns p then h
  else
    let h := camIncomplete k (camComplete k (streamHeard k h))
    let h := updPort h k fun p => match p.camNext with
      | none => p
      | some c => { p with cam := some c, camNext := none, camK := 0 }
    let p := getPort h k
    match p.cam with
    | none => h
    | some c =>
      let n := p.camK
      let fits := match camTarget h c n with
        | none => false
        | some s => msgN data 0 2 = s.width && msgN data 2 2 = s.height && msgN data 4 2 = s.fmt
      let h := updPort h k fun p => { p with camK := n + 1, camFrame := some { k := n, ignored := !fits } }
      if fits then h else camFault k 1 n h

/-- The four lines of a crate row, once they are all there. -/
def camCrateRow (h : Hub) (s : Surf) (row : Nat) (rows : Tab Bytes) : Option (List MemWrite) :=
  let lines := (List.range (min 4 (s.height - 4 * row))).map fun j => rows.find (4 * row + j)
  let b := (fmtD s.fmt).bpp
  if lines.all Option.isSome then
    some (writeCrateRow h s row fun x j => leNat ((((lines.getD j none).getD []).drop (b * x)).take b))
  else none

/-- CAMERA_VIDEO_LINE: `data` holds bytes 1 to 15 of the block (PLANE, LEN, LINE, FRAME at 1, 2-3, 4-5, 8-11), then its data blocks.
A line that lost blocks, or found no room in the input buffer, comes with fewer. -/
def camVideoLine (k : Nat) (data : Bytes) (h : Hub) : Eff :=
  let p := getPort h k
  match p.camFrame, p.cam with
  | some f, some c =>
    if !carries h k || f.ignored then (h, [])
    else
      let h := streamHeard k h
      match camTarget h c f.k with
      | none => (h, [])
      | some s =>
        let q := fmtD s.fmt
        let plane := msgN data 0 1
        let len := msgN data 1 2
        let line := msgN data 3 2
        let n := rowBytes q s.width plane
        let bad := plane ≥ camPlanes s.fmt || line ≥ planeLines q s.height plane || len ≠ ceilDiv n 16 ||
          data.length ≠ 15 + 16 * len
        if f.full then (h, [])
        else if bad then (updPort h k fun p => { p with camFrame := some { f with bad := true } }, [])
        else if f.got.contains (plane, line) then (h, [])
        else
          let bs := (data.drop 15).take n
          let got := (plane, line) :: f.got
          let f := { f with got := got, full := !f.bad && decide (got.length = planeLineCount s) }
          if !q.crated then
            let ws := planeWrite h s plane (line * (s.planes.getD plane (0, 0)).2) bs
            (writesTouched ws (updPort h k fun p => { p with camFrame := some f }), ws)
          else
            let rows := f.rows.set line bs
            match camCrateRow h s (line / 4) rows with
            | none => (updPort h k fun p => { p with camFrame := some { f with rows := rows } }, [])
            | some ws =>
              let rows : Tab Bytes := rows.filter fun e => e.1 / 4 ≠ line / 4
              (writesTouched ws (updPort h k fun p => { p with camFrame := some { f with rows := rows } }), ws)
  | _, _ => (h, [])

/-- A camera stream stops (13 R357), a frame whose lines are all there being complete: without an event, or with CAM_FAULT cause 3 where a target was lost. -/
def camStop (k : Nat) (lost : Bool) (h : Hub) : Hub :=
  let p := getPort h k
  let n := match p.camFrame with | none => p.camK | some f => f.k
  let h := camComplete k h
  let h := updPort h k fun p => { p with cam := none, camNext := none, camFrame := none, camK := 0 }
  if lost then camFault k 3 n h else h

/-! ### The back channel (13 R352) -/

/-- BACK_STATUS: STATUS from the partner. -/
def backStatus (k : Nat) (data : Bytes) (h : Hub) : Hub :=
  if carries h k then updPort (streamHeard k h) k fun p => { p with partnerStatus := msgN data 0 1 } else h

/-- Does some pad of a die carry function `f` (21 R526)? -/
def padCarries (h : Hub) (d f : Nat) : Bool := (getDie h d).pmx.pads.any fun e => e.2.active == f

/-- Have both wires of one of a die's I2C or I3C controllers pads (21 R526)?  DESIGN CHOICE (log 51): any of them is the local bus. -/
def busOnPads (h : Hub) (d : Nat) : Bool := [2, 4, 6].any fun f => padCarries h d f && padCarries h d (f + 1)

/-- I2C_REQ: the hub carries out the transfer on its local bus (Sent.bus kind 4) and answers; what the bus answers is free (log
entry 2).  A controller without pads sees its idle value, and answers a bus error (21 R526). -/
def i2cReq (k : Nat) (data : Bytes) (h : Hub) : Hub :=
  if !carries h k then h
  else if !busOnPads h (k / 8) then sendMessage k 0x78 3 (leBytes 1 (msgN data 0 1) ++ leBytes 1 3 ++ leBytes 6 0) (streamHeard k h)
  else
    let h := streamHeard k h
    let wlen := msgN data 2 1
    let rlen := min 32 (msgN data 3 1)
    let h := send (.bus k 4 ((data.take 5) ++ (data.drop 8).take wlen)) h
    let n := h.freeIx
    let h := { h with freeIx := n + 3 + rlen }
    let res := (Config.freeByte n).toNat % 4
    let idx := if res = 1 || res = 2 then (Config.freeByte (n + 1)).toNat else 0
    let got := if res = 0 then rlen else (Config.freeByte (n + 2)).toNat % (rlen + 1)
    sendMessage k 0x78 3
      (leBytes 1 (msgN data 0 1) ++ leBytes 1 res ++ leBytes 1 idx ++ leBytes 1 got ++ leBytes 4 0 ++
        (List.range got).map fun i => Config.freeByte (n + 3 + i)) h

/-- The first I2C transfer that waits goes out. -/
def sendI2c (k : Nat) (h : Hub) : Hub :=
  match (getPort h k).i2c with
  | [] => h
  | r :: _ => sendMessage k 0x78 2 r.msg h

/-- I2C_RSP: the response to the outstanding request completes its LNK_I2C (13 R370). -/
def i2cRsp (k : Nat) (data : Bytes) (h : Hub) : Hub :=
  if !carries h k then h
  else
    let h := streamHeard k h
    match (getPort h k).i2c with
    | [] => h
    | r :: rest =>
      if msgN data 0 1 ≠ r.id then h
      else
        let got := msgN data 3 1
        let h := updPort h k fun p => { p with i2c := rest }
        let bs := (data.drop 8).take got
        let h := if bs.isEmpty || (getCtx h r.cmd.ctx).epoch ≠ r.cmd.epoch then h else ctxWrite r.cmd.ctx r.buf bs h
        sendI2c k (completeOk r.cmd (msgN data 1 1 + 256 * msgN data 2 1 + 65536 * got) 0 h)

/-! ### The rows -/

/-- LANE_BLOCK_LOCK. -/
def execLaneBlockLock (port lane : Nat) (s : State) : Host.Outcome State Fault Refusal := .next (onHub (blockLock port lane) s)
/-- LANE_ADAPTED. -/
def execLaneAdapted (port lane : Nat) (foms : List (BitVec 8)) (dfes : List (BitVec 32)) (s : State) : Host.Outcome State Fault Refusal :=
  .next (onHub (laneAdapted port lane (((foms.zip dfes).take 16).map fun t => (t.1.toNat, t.2.toNat))) s)
/-- ADAPT_TIMEOUT. -/
def execAdaptTimeout (port : Nat) (s : State) : Host.Outcome State Fault Refusal := .next (onHub (adaptTimeout port) s)
/-- PARTNER_ADAPTED. -/
def execPartnerAdapted (port : Nat) (data : List (BitVec 8)) (s : State) : Host.Outcome State Fault Refusal :=
  .next (onHub (partnerAdapted port data) s)
/-- TRAINING_TIMEOUT. -/
def execTrainingTimeout (port : Nat) (heard : Bool) (s : State) : Host.Outcome State Fault Refusal :=
  .next (onHub (trainingTimeout port heard) s)
/-- SIGNAL_DETECT. -/
def execSignalDetect (port _lane : Nat) (s : State) : Host.Outcome State Fault Refusal := .next (onHub (signalDetect port) s)
/-- WEAK_RETRY. -/
def execWeakRetry (port : Nat) (s : State) : Host.Outcome State Fault Refusal := .next (onHub (weakRetry port) s)
/-- ALONE_BURST. -/
def execAloneBurst (port : Nat) (s : State) : Host.Outcome State Fault Refusal := .next (onHub (aloneBurst port) s)
/-- LINK_LOSS. -/
def execLinkLoss (port reason : Nat) (s : State) : Host.Outcome State Fault Refusal := .next (onHub (linkLoss port reason) s)
/-- FOM_WINDOW_END. -/
def execFomWindowEnd (port lane above below : Nat) (dfe : BitVec 32) (s : State) : Host.Outcome State Fault Refusal :=
  .next (onHub (fomWindow port lane above below dfe) s)
/-- DOZE_ENTRY. -/
def execDozeEntry (port : Nat) (s : State) : Host.Outcome State Fault Refusal := .next (onHub (dozeEntry port) s)
/-- DOZE_EXIT. -/
def execDozeExit (port : Nat) (s : State) : Host.Outcome State Fault Refusal := .next (onHub (dozeExit port) s)
/-- DOZE_RECEIVED. -/
def execDozeReceived (port : Nat) (s : State) : Host.Outcome State Fault Refusal := .next (onHub (dozeReceived port) s)
/-- LOOP_REQUEST. -/
def execLoopRequest (port : Nat) (s : State) : Host.Outcome State Fault Refusal := .next (onHub (loopRequest port) s)
/-- LOOP_RELEASE. -/
def execLoopRelease (port : Nat) (s : State) : Host.Outcome State Fault Refusal := .next (onHub (loopRelease port) s)
/-- CAMERA_VIDEO_FRAME. -/
def execCameraVideoFrame (port : Nat) (data : List (BitVec 8)) (s : State) : Host.Outcome State Fault Refusal :=
  .next (onHub (camVideoFrame port data) s)
/-- CAMERA_VIDEO_LINE. -/
def execCameraVideoLine (port : Nat) (data : List (BitVec 8)) (s : State) : Host.Outcome State Fault Refusal :=
  .next (act (fun _ h => camVideoLine port data h) s)
/-- CAMERA_FRAME_COMPLETE. -/
def execCameraFrameComplete (port : Nat) (s : State) : Host.Outcome State Fault Refusal := .next (onHub (camComplete port) s)
/-- BACK_STATUS. -/
def execBackStatus (port : Nat) (data : List (BitVec 8)) (s : State) : Host.Outcome State Fault Refusal := .next (onHub (backStatus port data) s)
/-- I2C_REQ. -/
def execI2cReq (port : Nat) (data : List (BitVec 8)) (s : State) : Host.Outcome State Fault Refusal := .next (onHub (i2cReq port data) s)
/-- I2C_RSP. -/
def execI2cRsp (port : Nat) (data : List (BitVec 8)) (s : State) : Host.Outcome State Fault Refusal := .next (onHub (i2cRsp port data) s)

end Sys2Proof.Machine
end

