-- ==== Sys2Proof/Machine/Boundary.lean ====
section
/-!
DEFINITION. The frame boundary of an output: latch instant, start of vertical blank, drain, the start of a mode, stretched blanks,
self refresh, and genlock (01 R14; 04 R89, R99, R100; 07 R178-R180; 08 R200, R205, R208, R213, R220-R224; 15 R412, R413).
-/

namespace Sys2Proof.Machine

/-! ### The latch instant (07 R178, 08 R220, 03 R65) -/

/-- Does an enabled layer keep its output from being static: it is LIVE, or its program reads V3 (08 R220)? -/
def neverStatic (h : Hub) (k : Nat) (r : LayerRec) : Bool :=
  r.enable && (r.live || (r.prog ≠ 0xFFFF &&
    match h.progs.find (k / 1024 * 256 + r.prog) with | none => false | some p => p.words.any readsV3))

/-- The latch instant of an output's next boundary. -/
def latch (o : Nat) (h : Hub) : Hub :=
  let x := getOut h o
  match x.mode, x.scan with
  | some e, some sc =>
    if x.state != .running || sc.latched then h
    else
      let l := latchAt e sc
      let h := latchLayers o l (openDecision o l (at_ l h))
      let live := h.layers.any fun k => k.2.out == listOf h o && neverStatic h k.1 (recAt h o l k.1 k.2)
      let chg := x.changed || !(caughtBy h o l).isEmpty || live
      updOut h o fun x => { x with
        staticCount := if chg then 0 else satInc 65535 x.staticCount
        cacheStale := x.cacheStale || chg
        tabAt := h.tables.get o [], changed := false, dirty := [], dirtyAt := x.dirty
        scan := x.scan.map fun s => { s with latched := true } }
  | _, _ => h

/-! ### The new frame (04 R100, 08 R221-R224, R229) -/

/-- Where the coming frame of an output comes from (0 composed, 1 static, 2 rate-reduced), and whether it is written into the cache
frame (08 R221, R224).  A change that the cache frame does not show yet waits for the first composed frame (15 R412). -/
def frameSource (x : Output) : Nat × Bool :=
  let k := x.statFrames
  let static := k ≠ 0 && decide (x.staticCount ≥ k)
  if x.boot then (1, false)
  else if x.cache.isEmpty then (0, false)
  else if static && x.staticCount > k && x.cacheFull && !x.cacheStale then (1, false)
  else if x.q > 1 && x.frameCount % x.q ≠ 0 && x.cacheFull then (2, false)
  else (0, static || x.q > 1)

/-- Is stream 1 held by the power manager (15 R413)? -/
def streamHeld (h : Hub) (o : Nat) : Bool := (getDie h (o / 4)).pwr.rung ≥ 1

/-- May stream 1 of an output write its target: the list owner's handle, its WRITE right and the role (03 R66, R69)? -/
def targetHolds (h : Hub) (o : Nat) : Bool :=
  let v := (getOut h o).wbTarget
  match listOwner h (listOf h o), surfOf h v with
  | some c, some s => bit (rightsOf s c) 1 && hasRole s.fmt 3
  | _, _ => false

/-- Does stream 1 write the coming frame (03 R69; 08 R217, R229; 15 R413)?  A span group has no stream 1. -/
def streamTakes (h : Hub) (o : Nat) : Bool :=
  let x := getOut h o
  x.wbPeriod ≠ 0 && x.grp ≠ 2 && !streamHeld h o && targetHolds h o &&
    (if x.wbPeriod = 0xFF then !x.wbDone else x.wbSince ≤ x.frameCount && (x.frameCount - x.wbSince) % x.wbPeriod == 0)

/-- Can the sink at an output's port follow a stretched blank (13 R361)? -/
def portStretch (h : Hub) (o : Nat) (e : ModeEntry) : Bool :=
  match outPort h o with
  | none => false
  | some k => let p := getPort h k; bit e.flags 2 && isDp k && bit (getOut h o).statFlags 0 && p.sink && bit p.sinkCaps 0

/-- May the vertical blank before a cache-scanned frame of an output be stretched (08 R222, 13 R361)?  The members of a clone or span
group, which scan in step (08 R207), all stretch it or none does; those of a sync group, whose pictures differ and whose frame periods stay
equal (08 R211), never do (DEDUCED, log 81). -/
def mayStretch (h : Hub) (o : Nat) (e : ModeEntry) : Bool :=
  (getOut h o).grp ≠ 3 && (membersOf h (listOf h o)).all fun m => portStretch h m e

/-- The members of a clone or span group that run end a stretch that one of them does not share (08 R207). -/
def levelBlanks (ms : List Nat) (h : Hub) : Hub :=
  if ms.all fun m => (getOut h m).scan.any Scan.stretched then h
  else ms.foldl (fun h m => updOut h m fun x => match x.mode with
    | none => x
    | some e => { x with scan := x.scan.map fun sc => { sc with stretched := false, blank := if sc.stretched then vBlank e else sc.blank } }) h

/-- The source of the coming frame of an output; a second member of a clone group on a die shows what the first composes or scans there
(08 R209). -/
def sourceOf (h : Hub) (o : Nat) : Nat × Bool :=
  if homePipe h o = o then frameSource (getOut h o)
  else match (getOut h (homePipe h o)).frame with | none => (0, false) | some f => (f.source, false)

/-- May an output enter self refresh (08 R223, 13 R361)? -/
def mayRefresh (h : Hub) (o : Nat) (e : ModeEntry) : Bool :=
  match outPort h o with
  | none => false
  | some k =>
    let p := getPort h k
    bit e.flags 3 && isDp k && p.kind == 2 && bit (getOut h o).statFlags 1 && p.sink && (bit p.sinkCaps 1 || bit p.sinkCaps 2) && !p.psrOff

/-- Bands that a record's clipped destination touches. -/
def recBands (h : Hub) (o : Nat) (e : ModeEntry) (r : LayerRec) : List Nat :=
  match (if r.enable then clipOf h r (listOf h o) e else none) with
  | none => []
  | some c => let bh := (getOut h o).bandH; (List.range (c.2.2.2 / bh - c.2.1 / bh + 1)).map (· + c.2.1 / bh)

/-- The bands to send when self refresh ends with selective update: those of the old and new destinations of changed layers; none
(the whole frame) where no layer accounts for the change (08 R223). -/
def updateBands (h : Hub) (o : Nat) (e : ModeEntry) (old new : List FrameLayer) : Option (List Nat) :=
  let keys := ((old ++ new).map FrameLayer.key).eraseDups
  let ks := keys.filter fun k => (getOut h o).dirtyAt.contains k || old.find? (·.key == k) != new.find? (·.key == k)
  let bs := ((old ++ new).filter fun l => ks.contains l.key).flatMap fun l => recBands h o e l.lr
  if bs.isEmpty then none else some bs.eraseDups

/-- Does selective update apply to an output (08 R223, 13 R361)? -/
def selective (h : Hub) (o : Nat) : Bool :=
  match outPort h o with | none => false | some k => bit (getOut h o).statFlags 2 && bit (getPort h k).sinkCaps 2

/-- The layers that a frame of an output composes. -/
def frameLayers (h : Hub) (o : Nat) : List FrameLayer :=
  (h.layers.filter fun k => k.2.out == listOf h o && k.2.cur.enable).map fun k =>
    { key := k.1, lr := k.2.cur, fig := k.2.fig
      fill := k.2.ended || ((getOut h (listOf h o)).fills.find? (·.1 == k.1)).any Prod.snd }

/-- The frame that starts at the present start of vertical blank (04 R100); on Traverse one that no VIDEO_FRAME opens is not sent (13
R350).  `old` are the layers of the frame before it. -/
def newFrame (o : Nat) (e : ModeEntry) (old : List FrameLayer) (h : Hub) : Hub :=
  let x := getOut h o
  let src := sourceOf h o
  let ls := frameLayers h o
  let stays := x.psr && src.1 ≠ 0
  let f : Frame :=
    { num := x.frameCount, clock := ((x.frameCount : Int) + x.skew).toNat % 2 ^ 64, layers := ls, source := src.1, toCache := src.2, toTarget := streamTakes h o
      onlyBands := if x.psr && !stays && selective h o then updateBands h o e old ls else none
      invalidMode := match x.scan with | none => false | some sc => sc.frames ≤ 2
      notSent := match outPort h o with | none => false | some k => isTv k && !portSends h o }
  let stretch := src.1 ≠ 0 && mayStretch h o e
  let h := updOut h o fun x => { x with
    frame := some f, bands := [], wbRows := [], undPosted := false, psr := stays, cols := x.tabAt
    cacheFull := if src.1 = 0 then false else x.cacheFull
    cacheStale := src.1 ≠ 0 && x.cacheStale
    wbDone := x.wbDone || (x.wbPeriod == 0xFF && f.toTarget), lutAct := x.lutPend
    scan := x.scan.map fun s => { s with stretched := stretch, blank := if stretch then vBlank e + (e.vTotalMax - vTotal e) else vBlank e } }
  match outPort h o with
  | none => h
  | some k =>
    if !isTv k then
      -- the Adaptive-Sync SDP of the frame (Sent.bus kind 6), where Adaptive-Sync runs (13 R361)
      if isDp k && portSends h o && mayStretch h o e then send (.bus k 6 (leBytes 8 x.frameCount)) h else h
    else if portSends h o then videoFrame k e x.bpc x.enc x.frameCount h
    else if carries h k then videoOff k x.frameCount h
    else h

/-! ### The end of a frame's composition (03 R71, 04 R109) -/

/-- Failing crate rows that a layer's frame shows in fill colour: (cause, row, first failing column), one for each row. -/
def layerFaults (f : Frame) (k : Nat) : List (Nat × Nat × Nat) :=
  let all := ((f.faults.filter fun e => e.1 == k).map fun e => e.2).mergeSort fun a b => a.2.1 < b.2.1 || (a.2.1 == b.2.1 && a.2.2 ≤ b.2.2)
  all.foldl (fun acc e => if acc.any fun q => q.2.1 == e.2.1 then acc else acc ++ [e]) []

/-- Crates of a failing row, from its first failing one on, that lie within the crop's crate columns. -/
def cratesShown (r : LayerRec) (c : Nat) : Nat :=
  let lo := max c (r.cropX / 64)
  let hi := (r.cropX + r.cropW - 1) / 64
  hi + 1 - lo

/-- A layer's counters at the end of a composed frame, and its SURF_FETCH_FAULT.  DESIGN CHOICE (log 81): the walk of a crate row goes on
to its last column, so that a failing crate right of the crop's last crate column is the first one where no other fails. -/
def settleLayer (o : Nat) (f : Frame) (h : Hub) (l : FrameLayer) : Hub :=
  let fs := layerFaults f l.key
  let first := fs.headD (0, 0, 0)
  let extra := (fs.map fun e => cratesShown l.lr e.2.2).sum -
    (if !fs.isEmpty && l.lr.cropX / 64 ≤ first.2.2 && first.2.2 ≤ (l.lr.cropX + l.lr.cropW - 1) / 64 then 1 else 0)
  let h := { h with layers := h.layers.upd l.key fun x => { x with
    shown := satInc (2 ^ 64 - 1) x.shown, lastFrame := f.num, inFill := l.fill
    fillFrames := if l.fill then satInc 0xFFFFFFFF x.fillFrames else x.fillFrames
    fetchFaults := satAdd 0xFFFFFFFF x.fetchFaults extra } }
  match fs, listOwner h o with
  | _ :: _, some c => postEvent c 0x0181 l.lr.source (first.1 + 256 * o + 2 ^ 16 * first.2.1 + 2 ^ 32 * first.2.2) h
  | _, _ => h

/-- The counters and events of a frame's layers, once for each composed frame of an output's list; a layer that the frame did not show was
not in fill colour in it (04 R109). -/
def settleFrame (p : Nat) (h : Hub) : Hub :=
  match (getOut h p).frame with
  | none => h
  | some f =>
    if f.settled || f.source ≠ 0 then h
    else
      let h := { h with layers := h.layers.map fun (e : Nat × Layer) =>
        if e.2.out = p && !f.layers.any (fun l => l.key == e.1) then (e.1, { e.2 with inFill := false }) else e }
      f.layers.foldl (settleLayer p f) (updOut h p fun x => { x with frame := some { f with settled := true } })

/-! ### The start of vertical blank (01 R14, 07 R178, 08 R208) -/

/-- What ends with the last active line: lane captures, the frame with what its layers still have to report (03 R71), its tiles and its
bands. -/
def closeFrame (o : Nat) (h : Hub) : Hub := dropTiles o (updOut (settleFrame o (captureOps o (fun _ => true) h)) o endFrame)

/-- The divider of an output's display PLL takes a genlock offset of `v` ppm (16 R429). -/
def offsetPll (v : Int) (h : Hub) (m : Nat) : Hub :=
  let k := (getOut h m).pll
  if k > 1 then h
  else updPll (m / 4) (k + 1) (fun p =>
    setRamp (v ≠ 0 || p.rampAt.isSome) h.now (fun p => { p with frac := -roundAway ((p.n : Int) * v * 2 ^ 24) 1000000 }) p) h

/-- The genlock offset of a group's pixel clocks: the divider offset of every display PLL (08 R213, 16 R429). -/
def setPpm (o : Nat) (v : Int) (h : Hub) : Hub :=
  let h := updOut h o fun x => { x with gen := { x.gen with ppm := v } }
  (if (getOut h o).grp = 0 then [o] else (getOut h o).members).foldl (offsetPll v) h

/-- One frame of the return from a genlock offset, in FREEWHEEL or once genlock is off: 50 ppm per frame (08 R213). -/
def wheelStep (o : Nat) (h : Hub) : Hub :=
  let g := (getOut h o).gen
  if groupHead h o ≠ o || !(g.state = 3 || g.state = 0) || g.ppm = 0 then h
  else setPpm o (if g.ppm > 0 then max 0 (g.ppm - 50) else min 0 (g.ppm + 50)) h

/-- A running output that has applied its boundary starts its next frame. -/
def beginFrame (o l : Nat) (old : List FrameLayer) (h : Hub) : Hub :=
  let x := getOut h o
  match x.mode with
  | none => h
  | some e =>
    if x.state != .running || x.scan.isNone then h
    else
      let h := updOut h o fun x => { x with
        frameCount := (x.frameCount + 1) % 2 ^ 64, q := x.qNext.getD x.q, qNext := none
        scan := x.scan.map fun s => { s with frames := s.frames + 1 } }
      let h := newFrame o e old (takeChkCfg o l h)
      wheelStep o h

/-- The Field book's record of a start of vertical blank (22 R540). -/
def blankRecord (o : Nat) (h : Hub) : Hub := fbkRecord (o / 4) 3 0x0301 o (getOut h o).frameCount h

/-- Is the output at the end of its last active line? -/
def atBlank (x : Output) : Bool :=
  match x.mode, x.scan with | some e, some sc => x.state == .running && sc.line == e.vActive | _, _ => false

/-- The offset of an output's pixel clock from the start of vertical blank at `t` on: that of its group, which the primary fixes for all of
them where it has opened the same blank already (08 R207, R213). -/
def boundaryPpm (h : Hub) (o t : Nat) : Int :=
  let p := getOut h (groupHead h o)
  match p.scan with
  | some sc => if groupHead h o ≠ o && t ≤ sc.drainAt + 1000 then p.gen.rate else p.gen.ppm
  | none => p.gen.ppm

/-- The vertical blank of an output opens: its frame ends and its timing generator moves on. -/
def openBlank (o : Nat) (h : Hub) : Hub :=
  let x := getOut h o
  match x.mode, x.scan with
  | some e, some sc =>
    let h := closeFrame o (at_ (nextBlank e sc) (latch o h))
    let ppm := boundaryPpm h o h.now
    let h := if groupHead h o = o then updOut h o fun x => { x with gen := { x.gen with rate := ppm } } else h
    let h := updOut h o fun x => { x with scan := some { setRate e (nextBlankPx e sc) ppm sc with
      vbPx := nextBlankPx e sc, blank := vBlank e, line := 0, drainAt := nextBlank e sc, drained := false, latched := false
      reopened := false, stretched := false } }
    match outPort h o with | none => h | some k => portBlank k h
  | _, _ => h

/-- Where a group did not confirm the decision, what the latch found of its layers is that of the records in force. -/
def recheckFills (o : Nat) (h : Hub) : Hub :=
  if groupConfirmed h o then h else updOut h o fun x => { x with fills := x.fillsOld }

/-- At an apply point, outputs that the hub itself stops stop, with the members of their clone or span group. -/
def stopAtBoundary (ms : List Nat) (h : Hub) : Hub :=
  if ms.any fun m => (getOut h m).stopNext then ms.foldl (fun h m => beginStop m (getOut h m).mode h) h else h

/-- The start of vertical blank of an output and of the members of its clone or span group, which share it (08 R209, R210): the
drain begins, and what the latch instant caught applies.  An output whose display PLL has lost lock goes to CHANGING instead. -/
def vblankStart (o : Nat) (h : Hub) : Hub :=
  let h := (membersOf h (listOf h o)).foldl (fun h m => settleLoss m h) h
  if !atBlank (getOut h o) then h
  else
    let p := listOf h o
    let ms := (membersOf h p).filter fun m => atBlank (getOut h m)
    let l := match (getOut h p).mode, (getOut h p).scan with | some e, some sc => latchAt e sc | _, _ => h.now
    let olds := ms.map fun m => (m, ((getOut h m).frame.map Frame.layers).getD [])
    let h := ms.foldl (fun h m => openBlank m (emptyBuffer (m / 4) h)) h
    let h := fixVerdict o h.now h
    let h := if ms.contains p then applyCaught p l true (takeList p (recheckFills p h)) else h
    let h := ms.foldl (fun h m => settleBanks m h) (stopAtBoundary ms h)
    levelBlanks (ms.filter fun m => (getOut h m).state == .running) (olds.foldl (fun h e => blankRecord e.1 (beginFrame e.1 l e.2 h)) h)

/-- The drain ends 20 µs after it began, and the dimming step begins, except at a re-opened boundary (01 R14, 09 R243, R252). -/
def drainComplete (o : Nat) (h : Hub) : Hub :=
  let x := getOut h o
  match x.scan with
  | none => h
  | some sc =>
    if x.state != .running || sc.drained then h
    else
      let h := updOut (at_ (sc.drainAt + 20000) h) o fun x => { x with scan := some { sc with drained := true } }
      if !sc.reopened then dimStep o h
      else updOut h o fun x => if hasZones x && x.dim.settle == 3 then { x with dim := { dimFirst x.dim with frame := x.frameCount } } else x

/-! ### The start of a mode (08 R200, R205) -/

/-- Outputs that reach S together: the members of the group that are starting or changing, or the output alone. -/
def startGroup (h : Hub) (o : Nat) : List Nat :=
  let x := getOut h o
  let ms := if x.grp = 0 then [o] else (getOut h x.primary).members
  ms.filter fun m => (getOut h m).state == .starting || (getOut h m).state == .changing

/-- Have steps 3 and 4 ended for an output: its PLL is locked, and its port has ended its training? -/
def startReady (h : Hub) (o : Nat) : Bool :=
  let x := getOut h o
  x.pll < 2 && (getPll h (o / 4) (x.pll + 1)).locked &&
    (match outPort h o with | none => true | some k => (getPort h k).training.isNone)

/-- The first apply point of a running output at or after an instant. -/
def blankFrom (e : ModeEntry) (sc : Scan) (t : Nat) : Nat :=
  if t ≤ scanNs e sc sc.vbPx then scanNs e sc sc.vbPx
  else if t ≤ nextBlank e sc then nextBlank e sc
  else
    let n := (t - nextBlank e sc) / framePeriod e
    let ts := (List.range 3).map fun i => scanNs e sc (nextBlankPx e sc + (n + i) * (hTotal e * vTotal e))
    (ts.find? fun v => t ≤ v).getD t

/-- S of the outputs that start together, which are ready at `t`: the group's next apply point where a member runs already, or else the
next whole microsecond (08 R205, R207, R211). -/
def startAt (h : Hub) (o t : Nat) : Nat :=
  let x := getOut h o
  let ms := if x.grp = 0 then [] else (getOut h x.primary).members
  match ms.findSome? fun m => match (getOut h m).state, (getOut h m).mode, (getOut h m).scan with
    | .running, some e, some sc => some (blankFrom e sc t)
    | _, _, _ => none with
  | some v => v
  | none => ceilDiv t 1000 * 1000

/-- The instant at which they have ended. -/
def startTime (h : Hub) (o : Nat) : Nat :=
  let x := getOut h o
  let link := match outPort h o with | none => 0 | some k => if isDp k && (getPort h k).sink then (getPort h k).stateTime else 0
  maxOf [x.aTime, (getPll h (o / 4) (x.pll + 1)).lockAt, link]

/-- The spread-spectrum ramp of an output's PLL starts with the first S after its programming (16 R429). -/
def startRamp (o t : Nat) (h : Hub) : Hub :=
  let k := (getOut h o).pll
  if k > 1 then h
  else updPll (o / 4) (k + 1) (fun p =>
    if p.used.1 && p.rampAt.isNone then setRamp true t (fun p => { p with rampAt := some t }) p else p) h

/-- An output starts its mode at S (08 R205 step 5, R208; 09 R253; 10 R278). -/
def startOut (o t : Nat) (e : ModeEntry) (h : Hub) : Hub :=
  let p := listOf h o
  let y := getOut h p
  let ppm := boundaryPpm h o t
  let count := if y.state == .running && y.scan.map Scan.s0 == some t then y.frameCount else y.frameCount + 1
  let h := updOut h o fun x =>
    let x := if hasZones x then dimReset x else x
    { x with
      state := .running, frameCount := (x.frameCount + 1) % 2 ^ 64, skew := (count : Int) - (x.frameCount + 1 : Nat)
      q := rungDivisor (getDie h (o / 4)).pwr.rung x.cls, qNext := none
      dirtyAt := []
      scan := some { s0 := t, rate := ppm, vbPx := 0, blank := vBlank e, line := 0, drainAt := t
                     frames := 1 } }
  let h := if groupHead h o = o then updOut h o fun x => { x with gen := { x.gen with rate := ppm } } else h
  let h := takeChkCfg o (getOut h o).aTime (offsetPll ppm (startRamp o t (emptyBuffer (o / 4) h)) o)
  let h := newFrame o e [] (updOut (settleBanks o h) o fun x => { x with chk := fitChkCfg e x.chk })
  let h := match outPort h o with | none => h | some k => portBlank k h
  outEvent o (blankRecord o h)

/-- STATUS goes to the partner of an output's Traverse port where the output's start or stop has changed it (13 R352). -/
def statusAgain (h : Hub) (o : Nat) : Hub := match outPort h o with | none => h | some k => sendStatus k false h

/-- MODE_START: the instant S of the outputs that start together; transactions that were ARMED by A apply there (07 R178). -/
def modeStart (o : Nat) (h : Hub) : Hub :=
  let x := getOut h o
  let h := (if x.grp = 0 then [o] else (getOut h x.primary).members).foldl (fun h m => settleLoss m h) h
  let ms := startGroup h o
  if !ms.contains o || !ms.all (startReady h) then h
  else
    let t := startAt h o (maxOf (ms.map (startTime h)))
    let h := at_ t h
    let h := fixVerdict o t h
    let h := (ms.filter fun m => listOf h m == m).foldl (fun h m =>
      applyCaught m (getOut h m).aTime true (takeList m (recheckFills m h))) h
    if !(ms.filter fun m => (getOut h m).mode.isSome).all (startReady h) then h
    else
    let h := ms.foldl (fun h m => match (getOut h m).mode with
      | none => h
      | some e => if (getOut h m).state == .starting || (getOut h m).state == .changing then startOut m t e h else h) h
    let h := ms.foldl statusAgain h
    let h := levelBlanks ((membersOf h (listOf h o)).filter fun m => ms.contains m && (getOut h m).state == .running) h
    let g := groupHead h o
    if (getOut h g).gen.on then
      genlockGoes g 1 (updOut h g fun x => { x with gen := { x.gen with good := 0, lastEdge := h.now } })
    else h

/-- OUTPUT_STOPPED: the resources of a STOPPING output have been released; lane operations that can no longer be met end, what waited
at its port for a vertical blank goes out, and DSI enters ULPS (13 R362, R363, R371). -/
def outputStopped (o : Nat) (h : Hub) : Hub :=
  if (getOut h o).state != .stopping then h
  else
    let h := statusAgain (dropOps o 0x0405 (fun _ => true) (outStopped o h)) o
    match outPort h o with
    | none => h
    | some k => updPort (portBlank k h) k fun p => { p with ulps := k % 8 = 2 && !portOff p }

/-! ### Stretched blanks and self refresh (08 R222, R223) -/

/-- Lines of the present blank that have begun by now. -/
def blankLines (e : ModeEntry) (sc : Scan) (now : Nat) : Nat :=
  ((List.range (e.vTotalMax + 1)).find? fun n => scanNs e sc (sc.vbPx + n * hTotal e) ≥ now).getD (e.vTotalMax + 1)

/-- Is a change under R220 at hand, or a transaction ARMED that has not applied? -/
def changeAtHand (h : Hub) (o : Nat) : Bool :=
  (getOut h o).changed || (armedTxns h).any fun e => catches h e.2 (listOf h o) h.now

/-- The frame in progress is composed instead of scanned from the cache frame. -/
def composed' (x : Output) (f : Frame) : Frame := { f with source := 0, toCache := x.q > 1 && f.num % x.q == 0 }

/-- What was gathered of a cache-scanned frame that is given up goes: its tiles, bands, statistics and write-back rows (09 R240, R241). -/
def dropFrame (m : Nat) (h : Hub) : Hub :=
  dropTiles m (updOut h m fun x => { x with bands := [], wbRows := [], cacheFull := false, dim := { x.dim with acc := [] } })

/-- The stretch of an output's blank ends at the normal length, and its frame is composed normally. -/
def endStretch (m : Nat) (h : Hub) : Hub :=
  updOut (dropFrame m h) m fun x => match x.mode with
    | none => x
    | some e => { x with
        frame := x.frame.map (composed' x), scan := x.scan.map fun sc => { sc with stretched := false, blank := vBlank e } }

/-- The boundary of an output re-opens at T0, `n` lines after its start of vertical blank: a drain, and the rest of the blank. -/
def reopenBlank (n t0 m : Nat) (h : Hub) : Hub :=
  let h := updOut (dropFrame m h) m fun x => match x.mode with
    | none => x
    | some e => { x with
        scan := x.scan.map fun sc => { sc with
          stretched := false, reopened := true, drained := false, drainAt := t0
          blank := n + x.bandH + ceilDiv (20000 * pxDen e) (pxNum e (hTotal e)) } }
  updOut (latchLayers m t0 h) m fun x => { x with
    tabAt := h.tables.get m [], dirtyAt := x.dirty, changed := true, cacheStale := false
    wbDone := x.wbDone && !(x.wbPeriod == 0xFF && x.frame.any Frame.toTarget) }

/-- The frame that follows T0, with the records that have applied there; the change that re-opened the boundary counts at the next latch
instant (08 R220-R223). -/
def reopenFrame (old : List FrameLayer) (m : Nat) (h : Hub) : Hub :=
  let x := getOut h m
  match x.mode, x.frame with
  | some e, some f =>
    if x.state != .running then h
    else
      let ls := frameLayers h m
      let f := { composed' x f with
        layers := ls, toTarget := streamTakes h m
        onlyBands := if x.psr && selective h m then updateBands h m e old ls else f.onlyBands }
      updOut h m fun x => { x with
        frame := some f, psr := false, cols := x.tabAt, lutAct := x.lutPend
        wbDone := x.wbDone || (x.wbPeriod == 0xFF && f.toTarget) }
  | _, _ => h

/-- STRETCH_REOPEN: a change during a stretched blank of an output and of the members of its clone or span group, which scan in step,
ends the stretch at the normal length, or re-opens the boundary at the next line start T0. -/
def stretchReopen (o : Nat) (h : Hub) : Hub :=
  let x := getOut h o
  match x.mode, x.scan with
  | some e, some sc =>
    if x.state != .running || !sc.stretched || sc.line ≠ 0 || !changeAtHand h o then h
    else
      let p := listOf h o
      let ms := (membersOf h p).filter fun m => (getOut h m).state == .running && (getOut h m).scan.any Scan.stretched
      if h.now < scanNs e sc (sc.vbPx + vBlank e * hTotal e) then ms.foldl (fun h m => endStretch m h) h
      else
        let n := blankLines e sc h.now
        let t0 := scanNs e sc (sc.vbPx + n * hTotal e)
        let olds := ms.map fun m => (m, ((getOut h m).frame.map Frame.layers).getD [])
        let h := ms.foldl (fun h m => reopenBlank n t0 m h) (at_ t0 h)
        let h := fixVerdict o t0 h
        let h := if ms.contains p then applyCaught p t0 false (takeList p (recheckFills p h)) else h
        olds.foldl (fun h e => reopenFrame e.2 e.1 h) (ms.foldl (fun h m => settleBanks m h) (stopAtBoundary ms h))
  | _, _ => h

/-- PSR_ENTRY: the first cache-scanned frame has been sent whole. -/
def psrEntry (o : Nat) (h : Hub) : Hub :=
  let x := getOut h o
  match x.mode, x.scan, x.frame with
  | some e, some sc, some f =>
    if x.state == .running && !x.psr && sc.line == e.vActive && f.source ≠ 0 && !f.notSent && !f.truncated && mayRefresh h o e then
      updOut h o fun x => { x with psr := true }
    else h
  | _, _, _ => h

/-! ### Genlock (08 R213) -/

/-- Is genlock suspended by a mode change in the group? -/
def genSuspended (h : Hub) (o : Nat) : Bool := !(startGroup h o).isEmpty

/-- EXT_VSYNC_EDGE: the phase error of an edge, the slew within its bounds (its choice within them is left open), and the state. -/
def vsyncEdge (o : Nat) (h : Hub) : Hub :=
  let x := getOut h o
  let g := x.gen
  match x.mode, x.scan with
  | some e, some sc =>
    if groupHead h o ≠ o || !g.on || x.state != .running || genSuspended h o || !hasExtVsync h (o / 4) then h
    else
      let t : Int := (h.now : Int) + g.offset
      let a := (t - (scanNs e sc sc.vbPx : Int)).natAbs
      let b := (t - (nextBlank e sc : Int)).natAbs
      let err := min a b
      let line := pxNs e (hTotal e)
      let good := if err ≤ line then g.good + 1 else 0
      let (i, h) := takeFree h
      let step : Int := ((Config.freeWord i).toNat % 101 : Nat) - 50
      let h := setPpm o (max (-1000) (min 1000 (g.ppm + step))) h
      let h := updOut h o fun x => { x with gen := { x.gen with good := good, lastEdge := h.now } }
      if g.state = 2 then (if err ≥ 4 * line then genlockGoes o 1 (updOut h o fun x => { x with gen := { x.gen with good := 0 } }) else h)
      else genlockGoes o (if good ≥ 16 then 2 else 1) h
  | _, _ => h

/-- GENLOCK_FREEWHEEL: four nominal frame periods without an edge. -/
def freewheel (o : Nat) (h : Hub) : Hub :=
  let x := getOut h o
  match x.mode with
  | none => h
  | some e =>
    if groupHead h o ≠ o || !x.gen.on || x.state != .running || !(x.gen.state = 1 || x.gen.state = 2) || genSuspended h o then h
    else genlockGoes o 3 (updOut (at_ (x.gen.lastEdge + 4 * framePeriod e) h) o fun x => { x with gen := { x.gen with good := 0 } })

/-! ### The rows -/

/-- VBLANK_START. -/
def execVblankStart (out : Nat) (s : State) : Host.Outcome State Fault Refusal := .next (onHub (vblankStart out) s)
/-- DRAIN_COMPLETE. -/
def execDrainComplete (out : Nat) (s : State) : Host.Outcome State Fault Refusal := .next (onHub (drainComplete out) s)
/-- LATCH_INSTANT. -/
def execLatchInstant (out : Nat) (s : State) : Host.Outcome State Fault Refusal := .next (onHub (latch out) s)
/-- OUTPUT_STOPPED. -/
def execOutputStopped (out : Nat) (s : State) : Host.Outcome State Fault Refusal := .next (onHub (outputStopped out) s)
/-- MODE_START. -/
def execModeStart (out : Nat) (s : State) : Host.Outcome State Fault Refusal := .next (onHub (modeStart out) s)
/-- STRETCH_REOPEN. -/
def execStretchReopen (out : Nat) (s : State) : Host.Outcome State Fault Refusal := .next (onHub (stretchReopen out) s)
/-- PSR_ENTRY. -/
def execPsrEntry (out : Nat) (s : State) : Host.Outcome State Fault Refusal := .next (onHub (psrEntry out) s)
/-- EXT_VSYNC_EDGE. -/
def execExtVsyncEdge (out : Nat) (s : State) : Host.Outcome State Fault Refusal := .next (onHub (vsyncEdge out) s)
/-- GENLOCK_FREEWHEEL. -/
def execGenlockFreewheel (out : Nat) (s : State) : Host.Outcome State Fault Refusal := .next (onHub (freewheel out) s)

end Sys2Proof.Machine
end

