-- ==== Sys2Proof/Machine/Plotter.lean ====
section
/-!
DEFINITION. The Plotter: its jobs, their pixels and their cost, the energy tokens that they draw, and the commands of the 0x07xx range
(11 R287-R303, 15 R411).
-/

namespace Sys2Proof.Machine

/-! ### Energy tokens (11 R299, 12 R315, 15 R411) -/

/-- The share group of a context's work as it stands. -/
def groupOf (h : Hub) (c : Nat) : Nat := (getCtx h c).group

/-- Does the bucket of a context's share group on die `d` hold `n` tokens? -/
def hasTokens (h : Hub) (d c n : Nat) : Bool := decide ((getDie h d).pwr.bucket.get (groupOf h c) 0 ≥ n)

/-- `n` tokens are drawn from the bucket of a context's share group. -/
def drawTokens (d c n : Nat) (h : Hub) : Hub :=
  let g := groupOf h c
  updPwr h d fun x => { x with bucket := x.bucket.set g (x.bucket.get g 0 - n) }

/-- The next slice of a charge: at most 4096 cycles. -/
def sliceOf (total drawn : Nat) : Nat := min 4096 (total - drawn)

/-! ### Rectangles and pixels of a job (11 R289-R295) -/

/-- A job's record as the layer stages read one: the crop is the source rectangle. -/
def jobRec (j : Job) : LayerRec :=
  { transform := j.transform, cropX := j.srcRect.getD 0 0, cropY := j.srcRect.getD 1 0, cropW := j.srcRect.getD 2 0
    cropH := j.srcRect.getD 3 0, csc := j.csc, const := j.colour, blend := j.blend, planeAlpha := j.alpha }

/-- Does the rectangle X, Y, W, H hold the pixel (x, y)? -/
def rectHas (r : List Nat) (x y : Nat) : Bool :=
  decide (r.getD 0 0 ≤ x) && decide (x < r.getD 0 0 + r.getD 2 0) && decide (r.getD 1 0 ≤ y) && decide (y < r.getD 1 0 + r.getD 3 0)

/-- Does a job write the destination pixel (x, y) (11 R289)? -/
def jobCovers (j : Job) (x y : Nat) : Bool := rectHas j.dstRect x y && (j.clips.isEmpty || j.clips.any fun r => rectHas r x y)

/-- The pixels that a job writes on a destination line, left to right. -/
def jobXs (j : Job) (y : Nat) : List Nat :=
  ((List.range (j.dstRect.getD 2 0)).map (· + j.dstRect.getD 0 0)).filter fun x => jobCovers j x y

/-- The source position, in the surface, of a destination pixel (11 R289, 04 R83). -/
def jobSource (j : Job) (x y : Nat) : Nat × Nat :=
  let q := unrotate (jobRec j) (x - j.dstRect.getD 0 0) (y - j.dstRect.getD 1 0)
  (j.srcRect.getD 0 0 + q.1, j.srcRect.getD 1 0 + q.2)

/-- Does a COPY move stored values unchanged (11 R291)? -/
def rawPath (j : Job) (ds ss : Surf) : Bool := j.op == 2 && baseCode ds.fmt == baseCode ss.fmt

/-- A pixel packed into a destination layout: each field rounded without dither, alpha too, and XRGB with 0xFF (11 R291). -/
def packWord (code : Nat) (p : Px) : Nat :=
  match baseCode code with
  | 0x02 => quant 8 p.b + 2 ^ 8 * quant 8 p.g + 2 ^ 16 * quant 8 p.r + 2 ^ 24 * 255
  | 0x03 => quant 8 p.r + 2 ^ 8 * quant 8 p.g + 2 ^ 16 * quant 8 p.b + 2 ^ 24 * quant 8 p.a
  | 0x04 => quant 10 p.b + 2 ^ 10 * quant 10 p.g + 2 ^ 20 * quant 10 p.r + 2 ^ 30 * quant 2 p.a
  | 0x05 => quant 10 p.r + 2 ^ 10 * quant 10 p.g + 2 ^ 20 * quant 10 p.b + 2 ^ 30 * quant 2 p.a
  | 0x06 => quant 5 p.b + 2 ^ 5 * quant 6 p.g + 2 ^ 11 * quant 5 p.r
  | 0x07 => toHalf p.a + 2 ^ 16 * toHalf p.b + 2 ^ 32 * toHalf p.g + 2 ^ 48 * toHalf p.r
  | 0x08 => quant 8 p.a
  | _ => quant 8 p.b + 2 ^ 8 * quant 8 p.g + 2 ^ 16 * quant 8 p.r + 2 ^ 24 * quant 8 p.a

/-- The word of a pixel with 0 in every channel, in which pixels of a failing source crate enter a job (11 R294). -/
def zeroPx : Px := { b := 0, g := 0, r := 0, a := 0 }

/-- The source pixel of a converted job at (x, y) of the destination (11 R291, R294). -/
def jobPixel (m : List Host.Cell) (h : Hub) (j : Job) (k : Reader) (x y : Nat) : Px :=
  let q := jobSource j x y
  if crateFails k.rows (q.2 / 4) (q.1 / 64) then zeroPx
  else sourcePx m h k (jobRec j) (q.1 - j.srcRect.getD 0 0) (q.2 - j.srcRect.getD 1 0)

/-- The word that a job writes at (x, y), where the destination held `old` (11 R291, R292, R294). -/
def jobWord (m : List Host.Cell) (h : Hub) (j : Job) (ds : Surf) (src : Option Reader) (x y old : Nat) : Nat :=
  match src with
  | none => packWord ds.fmt (pxOf j.colour)
  | some k =>
    if rawPath j ds k.surf then
      let q := jobSource j x y
      pixelWord m h k.surf k.rows q.1 q.2
    else
      let s := jobPixel m h j k x y
      if j.op = 3 then
        let r := jobRec j
        packWord ds.fmt (blendPx r (premul r (isA8 k.surf.fmt) false s) (unpackWord ds.fmt old zeroPx))
      else packWord ds.fmt s

/-- Failing source crates that the pixels `xs` of destination line `y` read (11 R294). -/
def badSources (j : Job) (src : Option Reader) (xs : List Nat) (y : Nat) : List (Nat × Nat × Nat) :=
  match src with
  | none => []
  | some k => ((xs.map fun x => jobSource j x y).filter fun q => crateFails k.rows (q.2 / 4) (q.1 / 64)).map fun q => (0, q.2 / 4, q.1 / 64)

/-! ### Overlap and order (11 R295) -/

/-- Do two byte ranges intersect? -/
def rangesMeet (a b : Nat × Nat) : Bool := a.1 < b.1 + b.2 && b.1 < a.1 + a.2

/-- Do a job's rectangles overlap? -/
def jobOverlaps (j : Job) (ds ss : Surf) : Bool :=
  let a := rectBytes ds (j.dstRect.getD 0 0) (j.dstRect.getD 1 0) (j.dstRect.getD 2 0) (j.dstRect.getD 3 0)
  let b := rectBytes ss (j.srcRect.getD 0 0) (j.srcRect.getD 1 0) (j.srcRect.getD 2 0) (j.srcRect.getD 3 0)
  ds.region == ss.region && a.any fun r => b.any (rangesMeet r)

/-- Does the job process lines in descending order? -/
def jobDescends (j : Job) (ds : Surf) (ss : Option Surf) : Bool :=
  match ss with
  | none => false
  | some s => jobOverlaps j ds s && decide (j.srcRect.getD 1 0 ≤ j.dstRect.getD 1 0)

/-- What a job processes, in order: destination lines, or crate rows of a crated destination (11 R293, R295). -/
def jobSteps (j : Job) (ds : Surf) (ss : Option Surf) : List Nat :=
  let y := j.dstRect.getD 1 0
  let n := j.dstRect.getD 3 0
  if (fmtD ds.fmt).crated then (List.range ((y + n - 1) / 4 - y / 4 + 1)).map (· + y / 4)
  else
    let l := (List.range n).map (· + y)
    if jobDescends j ds ss then l.reverse else l

/-- Destination lines of a step. -/
def stepLines (j : Job) (ds : Surf) (k : Nat) : List Nat :=
  if (fmtD ds.fmt).crated then
    ((List.range 4).map (· + 4 * k)).filter fun y => decide (j.dstRect.getD 1 0 ≤ y) && decide (y < j.dstRect.getD 1 0 + j.dstRect.getD 3 0)
  else [k]

/-- Pixels that a step writes. -/
def stepPixels (j : Job) (ds : Surf) (k : Nat) : Nat := ((stepLines j ds k).map fun y => (jobXs j y).length).sum

/-- Pixels that a step counts in its cost: the pixels written, or every pixel of a re-encoded crate row (11 R298). -/
def stepCost (j : Job) (ds : Surf) (k : Nat) : Nat :=
  let n := stepPixels j ds k
  if (fmtD ds.fmt).crated then (if n = 0 then 0 else ds.width * min 4 (ds.height - 4 * k)) else n

/-- Cycles of a job up to the end of the steps `ks` (11 R298). -/
def costOf (j : Job) (ds : Surf) (ks : List Nat) : Nat :=
  500 + 16 * j.clips.length + ceilDiv (ks.map (stepCost j ds)).sum (if j.op = 1 then 4 else 2)

/-! ### A step of a job -/

/-- Writes one after the other, those to one 64-byte granule together: granule, pixels and writes (11 R299). -/
def byGranule : List (Nat × List MemWrite) → List (Nat × Nat × List MemWrite)
  | [] => []
  | (g, w) :: t => match byGranule t with
    | (g', n, ws) :: r => if g' = g then (g, n + 1, w ++ ws) :: r else (g, 1, w) :: (g', n, ws) :: r
    | [] => [(g, 1, w)]

/-- Does the job work right to left within a line (11 R295)? -/
def jobLeftward (j : Job) (ds : Surf) (ss : Option Surf) : Bool :=
  match ss with
  | none => false
  | some s => jobOverlaps j ds s && decide (j.srcRect.getD 0 0 < j.dstRect.getD 0 0)

/-- The writes of a line of an uncrated destination in processing order, with the failing source crates; every pixel of the line is read
before one is written. -/
def lineWrites (m : List Host.Cell) (h : Hub) (j : Job) (ds : Surf) (src : Option Reader) (y : Nat) :
    List (Nat × Nat × List MemWrite) × List (Nat × Nat × Nat) :=
  let xs := jobXs j y
  let bpp := (fmtD ds.fmt).bpp
  let at' (x : Nat) : Nat := y * (ds.planes.getD 0 (0, 0)).2 + x * bpp
  let order := if jobLeftward j ds (src.map (·.surf)) then xs.reverse else xs
  (byGranule (order.map fun x =>
      (at' x / 64, planeWrite h ds 0 (at' x) (leBytes bpp (jobWord m h j ds src x y (planeNat m h ds 0 (at' x) bpp))))),
   badSources j src xs y)

/-- Failing destination crates of a crate row that a job reads: those with a pixel that it keeps, and for BLEND those that it writes
(11 R293, R294). -/
def badDests (j : Job) (ds : Surf) (rows : Tab (List Crate × Option (Nat × Nat))) (k : Nat) : List (Nat × Nat × Nat) :=
  let lines := min 4 (ds.height - 4 * k)
  ((List.range (crateCols ds.width)).filter fun c => crateFails rows k c &&
      ((j.op == 3 && (List.range 256).any fun i => jobCovers j (64 * c + i % 64) (4 * k + i / 64)) ||
        (List.range (64 * lines)).any fun i => decide (64 * c + i % 64 < ds.width) && !jobCovers j (64 * c + i % 64) (4 * k + i / 64))).map
    fun c => (1, k, c)

/-- The writes of a re-encoded crate row and the failing crates met (11 R293, R294). -/
def rowWrites (m : List Host.Cell) (h : Hub) (j : Job) (ds : Surf) (src : Option Reader) (k : Nat) :
    List MemWrite × List (Nat × Nat × Nat) :=
  let rows := crateRowsOf m h ds (4 * k) (min 4 (ds.height - 4 * k))
  let word (x l : Nat) : Nat :=
    let old := pixelWord m h ds rows x (4 * k + l)
    if jobCovers j x (4 * k + l) then jobWord m h j ds src x (4 * k + l) old else old
  (writeCrateRow h ds k word,
   badDests j ds rows k ++ (stepLines j ds k).flatMap fun y => badSources j src (jobXs j y) y)

/-- The source surface of a job as a reader sees it now. -/
def jobReader (m : List Host.Cell) (h : Hub) (j : Job) (ss : Option Surf) : Option Reader :=
  ss.map fun s => readerOf m h s (j.srcRect.getD 1 0) (j.srcRect.getD 3 0)

/-- Pixels of writes. -/
def unitPixels (us : List (Nat × Nat × List MemWrite)) : Nat := (us.map fun u => u.2.1).sum

/-- The writes of a crate row in units, each with its share of the row's `n` pixels of cost: the granules of its crates, and last the header
row (11 R299, R300). -/
def rowUnits (ds : Surf) (n : Nat) (ws : List MemWrite) : List (Nat × Nat × List MemWrite) :=
  let head := 16 + 8 * crateCols ds.width
  let g := (ws.length - head) / 64
  ((List.range g).map fun i => (i, n * (i + 1) / g - n * i / g, (ws.drop (head + 64 * i)).take 64)) ++
    [(g, if g = 0 then n else 0, ws.take head)]

/-- What a step writes, in units of which each is written whole, and the failing crates met: the granules of a line, or those of a crate row
and its header row. -/
def stepUnits (m : List Host.Cell) (h : Hub) (j : Job) (ds : Surf) (ss : Option Surf) (k : Nat) :
    List (Nat × Nat × List MemWrite) × List (Nat × Nat × Nat) :=
  let src := jobReader m h j ss
  if stepPixels j ds k = 0 then ([], [])
  else if (fmtD ds.fmt).crated then
    let r := rowWrites m h j ds src k
    (rowUnits ds (stepCost j ds k) r.1, r.2)
  else lineWrites m h j ds src k

/-- The units at the front of `us` up to the 64-byte boundary that follows pixel `n`, and the rest. -/
def splitUnits (n : Nat) : List (Nat × Nat × List MemWrite) → List (Nat × Nat × List MemWrite) × List (Nat × Nat × List MemWrite)
  | [] => ([], [])
  | u :: t => if n = 0 then ([], u :: t) else let r := splitUnits (n - u.2.1) t; (u :: r.1, r.2)

/-- Pixels beyond the steps `past` that the cycles drawn pay for (11 R298, R299). -/
def paidPixels (j : Job) (ds : Surf) (past : List Nat) : Nat :=
  (j.drawn - (500 + 16 * j.clips.length)) * (if j.op = 1 then 4 else 2) - (past.map (stepCost j ds)).sum

/-- The steps `ks`, those at the front of them that the cycles drawn pay for, run one after the other on memory; `past` are the steps
before them.  A line or a crate row paid for in part is read whole, and written up to the next 64-byte boundary; the header row of a crate row is
written with its end (log entry 37). -/
def runSteps (h : Hub) (ds : Surf) (ss : Option Surf) : List Nat → List Nat → List Host.Cell → Job → Job × List MemWrite
  | [], _, _, j => (j, [])
  | k :: t, past, m, j =>
    let all := decide (costOf j ds (past ++ [k]) ≤ j.drawn)
    if !all && paidPixels j ds past = 0 then (j, [])
    else
      let w := if j.line.isEmpty then stepUnits m h j ds ss k else (j.line, [])
      let was := stepCost j ds k - unitPixels w.1
      let (now, left) := if all then (w.1, []) else splitUnits (paidPixels j ds past - was) w.1
      let ws := now.flatMap fun u => u.2.2
      let j1 : Job := { j with
        line := left
        pixels := satAdd 0xFFFFFFFF j.pixels (if !(fmtD ds.fmt).crated then unitPixels now else if left.isEmpty then stepPixels j ds k else 0)
        bad := (j.bad ++ w.2).eraseDups
        done := if left.isEmpty then j.done + 1 else j.done }
      if all then
        let r := runSteps h ds ss t (past ++ [k]) (ws.foldl Memory.apply m) j1
        (r.1, ws ++ r.2)
      else (j1, ws)

/-- The steps that cycles drawn up to now let the job begin. -/
def paidSteps (j : Job) (ds : Surf) : List Nat → List Nat → List Nat
  | [], _ => []
  | k :: t, past =>
    if costOf j ds (past ++ [k]) ≤ j.drawn then k :: paidSteps j ds t (past ++ [k])
    else if paidPixels j ds past = 0 then [] else [k]

/-- The granules of other dies that a step reads: the source rectangle of its lines, with the neighbours that upsampling reads. -/
def stepGrans (h : Hub) (d : Nat) (j : Job) (ds : Surf) (ss : Option Surf) (k : Nat) : List Nat :=
  match ss, stepLines j ds k with
  | some s, y :: t =>
    let x0 := j.dstRect.getD 0 0
    let a := jobSource j x0 y
    let b := jobSource j (x0 + j.dstRect.getD 2 0 - 1) (t.getLastD y)
    let lo (p q : Nat) : Nat := min p q - 2
    rectGrans h d s (lo a.1 b.1) (lo a.2 b.2) (min s.width (max a.1 b.1 + 3) - lo a.1 b.1) (min s.height (max a.2 b.2 + 3) - lo a.2 b.2)
  | _, _ => []

/-- The surfaces of a job: destination, and source of a COPY or BLEND. -/
def jobSurfs (h : Hub) (j : Job) : Option (Surf × Option Surf) :=
  match entryOf h j.dst with
  | none => none
  | some ds => some (ds, if j.op = 1 then none else entryOf h j.src)

/-- Steps and whole cost of a job. -/
def jobPlan (h : Hub) (j : Job) : List Nat × Nat :=
  match jobSurfs h j with
  | none => ([], 0)
  | some (ds, ss) => (jobSteps j ds ss, costOf j ds (jobSteps j ds ss))

/-- Cycles of a context's jobs on a die since its OPEN (11 R302). -/
def chargeJob (d : Nat) (p : Pend) (n : Nat) (h : Hub) : Hub :=
  updDie h d fun x => { x with plt := { x.plt with
    charged := x.plt.charged.set p.ctx (p.epoch, match x.plt.charged.find p.ctx with
      | some (e, k) => if e = p.epoch then satAdd (2 ^ 64 - 1) k n else n
      | none => n) } }

/-- The running job of a die draws its next slice and runs what it pays for (11 R299); nothing where the bucket is empty. -/
def runSlice (d : Nat) (m : List Host.Cell) (h : Hub) : Eff :=
  match (getDie h d).plt.jobs with
  | [] => (h, [])
  | j :: rest =>
    match jobSurfs h j with
    | none => (h, [])
    | some (ds, ss) =>
      let (steps, cost) := jobPlan h j
      let n := sliceOf cost j.drawn
      if n = 0 || !hasTokens h d j.pend.ctx n then (h, [])
      else
        let j := { j with drawn := j.drawn + n }
        let ks := paidSteps j ds (steps.drop j.done) (steps.take j.done)
        let h := remoteRead d (ks.flatMap (stepGrans h d j ds ss)) m (chargeJob d j.pend n (drawTokens d j.pend.ctx n h))
        let r := runSteps h ds ss (steps.drop j.done) (steps.take j.done) (remoteView h d 0 m) j
        let h := updDie h d fun x => { x with plt := { x.plt with jobs := r.1 :: rest } }
        (writesTouched r.2 h, r.2)

/-- The index of the job that starts next: in acceptance order the first that is the oldest of its context on the die and whose first
slice its group's bucket holds (11 R287, R299). -/
def nextJob (h : Hub) (d : Nat) : Option Nat :=
  let js := (getDie h d).plt.jobs
  (List.range js.length).find? fun i =>
    match js[i]? with
    | none => false
    | some j => !((js.take i).any fun k => k.pend.ctx == j.pend.ctx) && hasTokens h d j.pend.ctx (sliceOf (jobPlan h j).2 0)

/-- Does the Plotter of a die run jobs: the die is up and awake (15 R394)? -/
def plotterRuns (h : Hub) (d : Nat) : Bool := dieUp h d && awake h d

/-- PLOTTER_JOB_START. -/
def jobStart (d : Nat) (m : List Host.Cell) (h : Hub) : Eff :=
  let x := (getDie h d).plt
  if !plotterRuns h d || x.busy then (h, [])
  else match nextJob h d with
    | none => (h, [])
    | some i =>
      let js := ((x.jobs[i]?).map fun j => [j]).getD [] ++ x.jobs.eraseIdx i
      runSlice d m (updDie h d fun y => { y with plt := { y.plt with jobs := js, busy := true } })

/-- PLOTTER_SLICE_RESUME. -/
def jobResume (d : Nat) (m : List Host.Cell) (h : Hub) : Eff :=
  if plotterRuns h d && (getDie h d).plt.busy then runSlice d m h else (h, [])

/-! ### Watermark, completion and stop (11 R296, R297, R300) -/

/-- Are the written pixels of the lines up to WM_LINE all written? -/
def markReached (h : Hub) (j : Job) : Bool :=
  match jobSurfs h j with
  | none => false
  | some (ds, ss) =>
    let steps := jobSteps j ds ss
    ((steps.drop j.done).all fun k => (stepLines j ds k).all fun y => decide (y > j.wmLine))

/-- The event of a watermark. -/
def postMark (j : Job) (h : Hub) : Hub := postEvent j.pend.ctx 0x0780 j.dst (j.wmLine + 2 ^ 32 * j.pend.tag) h

/-- PLT_WATERMARK. -/
def pltMark (d : Nat) (h : Hub) : Hub :=
  match (getDie h d).plt.jobs with
  | [] => h
  | j :: rest =>
    if plotterRuns h d && (getDie h d).plt.busy && bit j.flags 0 && !j.marked && markReached h j then
      postMark j (broadcast (updDie h d fun x => { x with plt := { x.plt with jobs := { j with marked := true } :: rest } }))
    else h

/-- Destination lines completed in full, in processing order (11 R296). -/
def linesDone (h : Hub) (j : Job) : Nat :=
  match jobSurfs h j with
  | none => 0
  | some (ds, ss) => (((jobSteps j ds ss).take j.done).map fun k => (stepLines j ds k).length).sum

/-- A job ends with a status and the results of R296. -/
def endJob (st : Nat) (j : Job) (h : Hub) : Hub :=
  complete j.pend st 255 (min 0xFFFF (linesDone h j) + 65536 * min 0xFFFF j.bad.length)
    (min 0xFFFFFFFF j.pixels + 2 ^ 32 * min 0xFFFFFFFF j.drawn) h

/-- PLOTTER_JOB_COMPLETE. -/
def jobComplete (d : Nat) (h : Hub) : Hub :=
  match (getDie h d).plt.jobs with
  | [] => h
  | j :: rest =>
    let plan := jobPlan h j
    if !plotterRuns h d || !(getDie h d).plt.busy || j.drawn < plan.2 || j.done < plan.1.length then h
    else
      let h := broadcast h
      let h := if bit j.flags 0 && !j.marked then postMark j h else h
      let h := updDie h d fun x => { x with plt := { x.plt with jobs := rest, busy := false } }
      let h := endJob 0 j h
      if bit j.flags 1 then (match tlOf h j.tl with | none => h | some (k, _) => signalTl k j.value h) else h

/-- The writes of the line in progress when a job stops: pixel by pixel, or for a crate row granule by granule under its old header,
written or not (11 R300).  The free bits are numbered from `ix`; with them the pixels written. -/
def stopWrites (m : List Host.Cell) (h : Hub) (j : Job) (ix : Nat) : List MemWrite × Nat :=
  match jobSurfs h j with
  | none => ([], 0)
  | some (ds, ss) =>
    match (jobSteps j ds ss)[j.done]? with
    | none => ([], 0)
    | some k =>
      let us := if j.line.isEmpty then (stepUnits m h j ds ss k).1 else j.line
      if (fmtD ds.fmt).crated then
        (((us.dropLast.zipIdx.filter fun e => Config.freeBit (ix + e.2)).map fun e => e.1.2.2).flatten, 0)
      else
        let bpp := (fmtD ds.fmt).bpp
        let ps := ((us.flatMap fun u => u.2.2).zipIdx.filter fun e => Config.freeBit (ix + e.2 / bpp)).map Prod.fst
        (ps, ps.length / bpp)

/-- A running job stops early: what it leaves of the line in progress, and the job with the pixels counted. -/
def stopRunning (m : List Host.Cell) (h : Hub) (j : Job) : Job × Hub × List MemWrite :=
  let w := stopWrites m h j h.freeIx
  ({ j with pixels := satAdd 0xFFFFFFFF j.pixels w.2 }, writesTouched w.1 { h with freeIx := h.freeIx + 2 ^ 20 }, w.1)

/-- The jobs of die `d` for which `p` gives a status stop with it (11 R300): the running one at its next 64-byte boundary, and a queued
one before it writes anything.  Their completions wait until what was written is visible (11 R296, 14 R387). -/
def stopJobs (d : Nat) (p : Job → Option Nat) (m : List Host.Cell) (h : Hub) : Eff :=
  let x := (getDie h d).plt
  let head : Option (Job × Hub × List MemWrite) :=
    match x.jobs with
    | j :: _ => if x.busy && (p j).isSome then some (stopRunning (remoteView h d 0 m) h j) else none
    | [] => none
  let (js, h, ws) := match head, x.jobs with
    | some (j, h', w), _ :: t => (j :: t, h', w)
    | _, l => (l, h, [])
  let h := if js.any fun j => (p j).isSome then broadcast h else h
  let h := updDie h d fun y => { y with plt := { y.plt with jobs := js.filter fun j => (p j).isNone, busy := x.busy && head.isNone } }
  (js.foldl (fun h j => match p j with | none => h | some st => endJob st j h) h, ws)

/-- The jobs of every die in the list for which `p` gives a status stop with it. -/
def stopJobsOn (ds : List Nat) (p : Job → Option Nat) (m : List Host.Cell) (h : Hub) : Eff :=
  match ds with
  | [] => (h, [])
  | d :: t =>
    let r := stopJobs d p m h
    let q := stopJobsOn t p (r.2.foldl Memory.apply m) r.1
    (q.1, r.2 ++ q.2)

/-- A read of the running job of die `d` meets an uncorrectable memory error: nothing of the line that was being read is written
(11 R300). -/
def jobFails (d : Nat) (m : List Host.Cell) (h : Hub) : Eff :=
  match (getDie h d).plt.jobs with
  | [] => (h, [])
  | j :: rest =>
    if !(getDie h d).plt.busy then (h, [])
    else
      let (j, h, ws) := if j.line.isEmpty then (j, h, []) else stopRunning (remoteView h d 0 m) h j
      (endJob 0x0701 j (updDie (broadcast h) d fun x => { x with plt := { x.plt with jobs := rest, busy := false } }), ws)

/-! ### Commands (11 R288, R290, R301, R302) -/

/-- The job of a PLT_JOB's block. -/
def jobOf (c : Cmd) (p : Pend) : Job :=
  { pend := p, op := blk8 c 0, transform := blk8 c 1, blend := blk8 c 2, flags := blk8 c 3, csc := blk8 c 5
    dst := blkN c 8 4, src := blkN c 12 4, srcRect := blkWords c 16 4, dstRect := blkWords c 24 4, colour := blkN c 32 8
    alpha := blkN c 40 2, wmLine := blkN c 48 2, tl := blkN c 56 4, value := blkN c 64 8
    clips := (List.range (blk8 c 4)).map fun i => blkWords c (128 + 8 * i) 4 }

/-- Is a channel of a 64-bit colour above 1.0? -/
def colourOver (v : Nat) : Bool := (List.range 4).any fun i => decide (bits v (16 * i) 16 > 0x4000)

/-- A rectangle of the block from byte `o` lies inside a surface, and is not empty (11 R290). -/
def rectCks (o : Nat) (r : List Nat) (s : Surf) : List Ck :=
  let x := r.getD 0 0
  let y := r.getD 1 0
  let w := r.getD 2 0
  let hh := r.getD 3 0
  [ck 0x0204 (blkOff o) (x ≥ s.width), ck 0x0204 (blkOff (o + 4)) (x < s.width && (w = 0 || x + w > s.width)),
   ck 0x0204 (blkOff (o + 2)) (y ≥ s.height), ck 0x0204 (blkOff (o + 6)) (y < s.height && (hh = 0 || y + hh > s.height))]

/-- The checks that compare a job with its source surface (11 R290). -/
def jobSourceCks (c : Cmd) (j : Job) (s : Surf) : List Ck :=
  let f := fmtD s.fmt
  rectCks 16 j.srcRect s ++
  [ck 0x0103 (blkOff 5) (!f.ycc && j.csc ≠ 0),
   ck 0x0103 (blkOff 32) (!isA8 s.fmt && j.colour ≠ 0),
   ck 0x0204 (blkOff 16) (f.sx = 2 && blkN c 16 2 % 2 = 1), ck 0x0204 (blkOff 20) (f.sx = 2 && blkN c 20 2 % 2 = 1),
   ck 0x0204 (blkOff 18) (f.sy = 2 && blkN c 18 2 % 2 = 1), ck 0x0204 (blkOff 22) (f.sy = 2 && blkN c 22 2 % 2 = 1),
   ck 0x0205 (blkOff 12) (!hasRole s.fmt 1)]

/-- The checks that compare a job with its destination surface (11 R290). -/
def jobDestCks (j : Job) (s : Surf) : List Ck :=
  let f := fmtD s.fmt
  rectCks 24 j.dstRect s ++ (j.clips.zipIdx.flatMap fun r => rectCks (128 + 8 * r.2) r.1 s) ++
  [ck 0x0201 (blkOff 8) (f.crated && s.budget ≠ rawMax s.fmt s.width),
   ck 0x020B (blkOff 8) (f.crated && (s.planes.getD 1 (0, 0)).2 < crateRows s.height * s.budget),
   ck 0x0205 (blkOff 8) (!hasRole s.fmt 2)]

/-- The overlap rule (11 R295). -/
def overlapCks (j : Job) (ds ss : Surf) : List Ck :=
  let o := jobOverlaps j ds ss
  [ck 0x0204 (blkOff 1) (o && j.transform ≠ 0), ck 0x0204 (blkOff 8) (o && (fmtD ds.fmt).crated),
   ck 0x0204 (blkOff 12) (o && j.dst ≠ j.src)]

/-- The checks of the sizes in a job block, which need no surface: width and height of every used rectangle from 1 to 16,384 (R303), and the
destination's size equal to the rotated source's (11 R290). -/
def jobSizeCks (j : Job) : List Ck :=
  let sz := rotSize (jobRec j)
  let bad (n : Nat) : Bool := n = 0 || n > 16384
  let one (o : Nat) (r : List Nat) : List Ck := [ck 0x0204 (blkOff (o + 4)) (bad (r.getD 2 0)), ck 0x0204 (blkOff (o + 6)) (bad (r.getD 3 0))]
  one 24 j.dstRect ++ (j.clips.zipIdx.flatMap fun r => if r.2 < 16 then one (128 + 8 * r.2) r.1 else []) ++
  if j.op = 2 || j.op = 3 then
    one 16 j.srcRect ++ [ck 0x0204 (blkOff 28) (sz.1 ≠ j.dstRect.getD 2 0), ck 0x0204 (blkOff 30) (sz.2 ≠ j.dstRect.getD 3 0)]
  else []

/-- The checks of a job block's own fields (11 R288, R290).  DESIGN CHOICE (log 81): a CSC above 3, or a COLOUR above its range, of a COPY or
BLEND whose source makes it an unused field is reported as both, and 02 R38 ranks them. -/
def jobFieldCks (c : Cmd) (j : Job) : List Ck :=
  let fill := j.op = 1
  let n := blk8 c 4
  [ck 0x0106 (blkOff 0) (j.op = 0 || j.op > 3),
   ck 0x0103 (blkOff 1) (fill && j.transform ≠ 0), ck 0x0106 (blkOff 1) (!fill && j.transform > 7),
   ck 0x0103 (blkOff 2) (j.op ≠ 3 && j.blend ≠ 0), ck 0x0106 (blkOff 2) (j.op = 3 && !(([0, 1, 3, 4] : List Nat).contains j.blend)),
   ck 0x0103 (blkOff 3) (j.flags > 3), ck 0x0201 (blkOff 4) (n > 16), ck 0x0103 (blkOff 5) (fill && j.csc ≠ 0), ck 0x0106 (blkOff 5) (!fill && j.csc > 3),
   rsvCk c 6 2, ck 0x0103 (blkOff 12) (fill && j.src ≠ 0),
   ck 0x0201 (blkOff 32) (colourOver j.colour),
   ck 0x0201 (blkOff 40) (j.op = 3 && j.alpha > 0x4000), ck 0x0103 (blkOff 40) (j.op ≠ 3 && j.alpha ≠ 0),
   rsvCk c 42 6, ck 0x0103 (blkOff 48) (!bit j.flags 0 && j.wmLine ≠ 0),
   ck 0x0201 (blkOff 48) (bit j.flags 0 &&
     (j.wmLine < j.dstRect.getD 1 0 || j.wmLine ≥ j.dstRect.getD 1 0 + j.dstRect.getD 3 0)),
   rsvCk c 50 6, ck 0x0103 (blkOff 56) (!bit j.flags 1 && j.tl ≠ 0),
   rsvCk c 60 4, rsvCk c 72 56] ++
  ((List.range 4).map fun i => ck 0x0103 (blkOff (16 + 2 * i)) (fill && blkN c (16 + 2 * i) 2 ≠ 0)) ++
  ((List.range 16).map fun i => ck 0x0103 (blkOff (128 + 8 * i)) (i ≥ n && !blkZero c (128 + 8 * i) 8)) ++ jobSizeCks j

/-- The checks of PLT_JOB (11 R290). -/
def jobCks (c : Cmd) (h : Hub) : List Ck :=
  let j := jobOf c (pendOf 0x0700 c 0 h)
  let two := j.op = 2 || j.op = 3
  let ds := if mayUse h j.dst c.ctx 1 then surfOf h j.dst else none
  let ss := if two && mayUse h j.src c.ctx 0 then surfOf h j.src else none
  let on (v : Nat) (l : List Ck) : List Ck := l.map fun q => { q with die := some (handleDie v) }
  jobFieldCks c j ++ handleCks h (blkOff 8) j.dst ++ (if two then handleCks h (blkOff 12) j.src else []) ++
  (if bit j.flags 1 then tlCks h (blkOff 56) j.tl ++ [tlOwnerCk h (blkOff 56) j.tl c.ctx] else []) ++
  [rightCk h (blkOff 8) j.dst c.ctx 1] ++ (if two then [rightCk h (blkOff 12) j.src c.ctx 0] else []) ++
  (match ds with | none => [] | some s => on j.dst (jobDestCks j s)) ++
  (match ss with | none => [] | some s => on j.src (jobSourceCks c j s)) ++
  (match ds, ss with | some d, some s => on j.dst (overlapCks j d s) | _, _ => [])

/-- PLT_JOB (11 R287, R288). -/
def pltJob : Spec :=
  { op := 0x0700, block := some fun n => n == 256, rsv := [(32, 32)]
    waits := fun c h =>
      let js := (getDie h (blkN c 8 4 % 65536 / 8192)).plt.jobs
      decide (js.length ≥ 256) || decide ((js.countP fun j => j.pend.ctx == c.ctx) ≥ 64)
    checks := fun c _ h => jobCks c h
    run := fun c p _ h =>
      let j := jobOf c p
      laterRes (updDie (bar2Visible c.ctx h) (handleDie j.dst) fun x => { x with plt := { x.plt with jobs := x.plt.jobs ++ [j] } }) }

/-- The DIE field of PLT_ABORT: a die site, or 0xFF. -/
def abortDies (h : Hub) (v : Nat) : List Nat := if v = 0xFF then upDies h else [v]

/-- PLT_ABORT (11 R302). -/
def pltAbort : Spec :=
  { op := 0x0701, rsv := [(17, 47)]
    checks := fun c _ h =>
      if arg8 c 16 = 0xFF then (upDies h).map fun d => ckd d 0x0408 16 (!awake h d) else [dieCk h 16 (arg8 c 16)]
    run := fun c _ m h =>
      let ds := abortDies h (arg8 c 16)
      let n := (ds.map fun d => (getDie h d).plt.jobs.countP fun j => j.pend.ctx == c.ctx).sum
      let r := stopJobsOn ds (fun j => if j.pend.ctx = c.ctx then some 0x0411 else none) m h
      okRes r.1 n 0 r.2 }

/-- PLT_QUERY (11 R302). -/
def pltQuery : Spec :=
  { op := 0x0702, rsv := [(17, 47)]
    checks := fun c _ h => [dieCk h 16 (arg8 c 16)]
    run := fun c _ _ h =>
      let x := (getDie h (arg8 c 16)).plt
      okRes h (x.jobs.countP fun j => j.pend.ctx == c.ctx)
        (match x.charged.find c.ctx with
         | some (e, k) => if e = (getCtx h c.ctx).epoch then k else 0
         | none => 0) }

/-! ### The rows -/

/-- PLT_JOB. -/
def execPltJob (c : Cmd) (s : State) : Host.Outcome State Fault Refusal := .next (mail pltJob c s)
/-- PLT_ABORT. -/
def execPltAbort (c : Cmd) (s : State) : Host.Outcome State Fault Refusal := .next (mail pltAbort c s)
/-- PLT_QUERY. -/
def execPltQuery (c : Cmd) (s : State) : Host.Outcome State Fault Refusal := .next (mail pltQuery c s)
/-- PLOTTER_JOB_START. -/
def execPlotterJobStart (die : Nat) (s : State) : Host.Outcome State Fault Refusal := .next (act (jobStart die) s)
/-- PLOTTER_JOB_COMPLETE. -/
def execPlotterJobComplete (die : Nat) (s : State) : Host.Outcome State Fault Refusal := .next (onHub (jobComplete die) s)
/-- PLT_WATERMARK. -/
def execPltWatermark (die : Nat) (s : State) : Host.Outcome State Fault Refusal := .next (onHub (pltMark die) s)
/-- PLOTTER_SLICE_RESUME. -/
def execPlotterSliceResume (die : Nat) (s : State) : Host.Outcome State Fault Refusal := .next (act (jobResume die) s)

end Sys2Proof.Machine
end

