-- ==== Sys2Proof/Machine/Doorbell.lean ====
section
/-!
DEFINITION. Doorbell pages, but for DBL_CTRL (Machine/Teardown.lean), with coalesced interrupts and the watchdog's warning
(02 R28-R33, R42, R554).
-/

namespace Sys2Proof.Machine

/-- BAR0 offset at which a function reaches byte `off` of the doorbell page of a context (20 R497, R498), if it does. -/
def pageOffset (f c off : Nat) : Option Nat :=
  if f % 16 = 0 then some (0x02000000 + c * 0x1000 + off)
  else if homeDie c = f / 16 then some (0x00200000 + c % 512 * 0x1000 + off)
  else none

/-- Does the page of context `c` answer function `f` (02 R29)? -/
def pageAnswers (h : Hub) (f c : Nat) : Bool := (getCtx h c).state != .unassigned && ctxFn h c == f

/-- An access of function `f` to byte `off` of the page of context `c`: only a wake event where the home die sleeps (15
R398), refused and reported where the page does not answer (02 R29), and otherwise `act`. -/
def pageAccess (c f off : Nat) (act : Hub → Hub) (h : Hub) : Hub :=
  if !ready h || !(getFn h f).enabled || bit h.pkg.perst (f / 16) then h
  else match pageOffset f c off with
    | none => h
    | some a =>
      if asleep h (homeDie c) then accessWakes (homeDie c) f h
      else if !pageAnswers h f c then accessFault f a h
      else act (accessWakes (homeDie c) f h)

/-- BAD_DOORBELL counts an ignored index or control write (02 R29). -/
def badDoorbell (c : Nat) (h : Hub) : Hub := updCtx h c fun x => { x with badDoorbell := satInc 255 x.badDoorbell }

/-- A write of DBL_SQ_TAIL is honoured (02 R29, R33). -/
def tailHonoured (x : Ctx) (t : Nat) : Bool :=
  let n := sqSize x
  x.state == .opened && t < n && decide ((t + n - x.sqHead) % n ≥ (x.sqTail + n - x.sqHead) % n)

/-- DBL_SQ_TAIL written (02 R29, R33); every write while OPEN restarts the watchdog (02 R553). -/
def sqTailWrite (c t : Nat) (h : Hub) : Hub :=
  let h := updCtx h c fun x => if x.state == .opened then { x with wdogAt := h.now, warned := false } else x
  if tailHonoured (getCtx h c) t then updCtx h c fun x => { x with sqTail := t } else badDoorbell c h

/-- A write of DBL_CQ_HEAD is honoured (02 R29, R33). -/
def headHonoured (x : Ctx) (v : Nat) : Bool :=
  let n := cqSize x
  x.state == .opened && v < n && decide ((v + n - x.cqHead) % n ≤ (x.cqTail + n - x.cqHead) % n)

/-- DBL_CQ_HEAD written (02 R29, R33). -/
def cqHeadWrite (c v : Nat) (h : Hub) : Hub :=
  if headHonoured (getCtx h c) v then updCtx h c fun x => { x with cqHead := v } else badDoorbell c h

/-- An access of a forbidden size or alignment is counted (20 R502, R511). -/
def accSizeError (d : Nat) (h : Hub) : Hub :=
  intEvent d 12 (updDie h d fun x => { x with regs := { x.regs with accSize := satInc 255 x.regs.accSize } })

/-- Is an access 32 or 64 bits wide and aligned to its width (20 R502)? -/
def accessOk (off size : Nat) : Bool := (size == 4 || size == 8) && off % size == 0

/-- A 64-bit register after a write of `size` bytes at byte `half` (0 or 4) of it (20 R502). -/
def regHalf (old : Nat) (half size v : Nat) : Nat :=
  if size = 8 then v % 2 ^ 64
  else if half = 0 then old / 2 ^ 32 * 2 ^ 32 + v % 2 ^ 32
  else old % 2 ^ 32 + v % 2 ^ 32 * 2 ^ 32

/-- A base address without its reserved bits [11:0]. -/
def baseBits (v : Nat) : BitVec 64 := BitVec.ofNat 64 (v / 4096 * 4096)

/-- DBL_SQ_BASE, DBL_CQ_BASE or DBL_RING_CFG written (02 R29, R30). -/
def ringConfigWrite (c off size v : Nat) (h : Hub) : Hub :=
  if off < 0x20 || off > 0x37 then h
  else if !accessOk off size then accSizeError (homeDie c) h
  else
    let x := getCtx h c
    if off ≥ 0x34 then h
    else if x.state == .opened || x.state == .closing then
      setCtx h c { x with writeWhileOpen := satInc 255 x.writeWhileOpen }
    else if off ≥ 0x30 then setCtx h c { x with cfg := BitVec.ofNat 32 v &&& 0xFFFF7FFF }
    else if off ≥ 0x28 then setCtx h c { x with cqBase := baseBits (regHalf x.cqBase.toNat (off - 0x28) size v) }
    else setCtx h c { x with sqBase := baseBits (regHalf x.sqBase.toNat (off - 0x20) size v) }

/-- DBL_STATUS.STATE code. -/
def ctxCode (s : CtxState) : Nat :=
  match s with
  | .unassigned => 0
  | .closed => 1
  | .opened => 2
  | .closing => 3
  | .faulted => 4

/-- The 32-bit register at byte `off` (a multiple of 4) of a doorbell page (02 R29). -/
def pageRead (h : Hub) (c off : Nat) : Nat :=
  let x := getCtx h c
  match off with
  | 0x00 => x.sqTail
  | 0x08 => x.cqHead
  | 0x10 => x.sqHead
  | 0x18 => x.cqTail
  | 0x20 => x.sqBase.toNat % 2 ^ 32
  | 0x24 => x.sqBase.toNat / 2 ^ 32
  | 0x28 => x.cqBase.toNat % 2 ^ 32
  | 0x2C => x.cqBase.toNat / 2 ^ 32
  | 0x30 => x.cfg.toNat
  | 0x40 => ctxCode x.state + 16 * x.reason + 256 * x.level + 1024 * b2n h.pkg.lock
  | 0x48 => x.badDoorbell + 256 * x.lostEvents + 65536 * x.writeWhileOpen
  | _ => 0

/-- An access that a page may refuse (02 R29): a refused read answers 0.  Where the page answers, a read answers the register
and a write of an unnamed value has no meaning of its own. -/
def refusedAccess (c f off : Nat) (write : Bool) (h : Hub) : Hub :=
  if portEarly h f && !write then send (.refusal f 1) h
  else if !ready h || !(getFn h f).enabled || (pageOffset f c off).isNone then h
  else
    let answers := pageAnswers h f c && !asleep h (homeDie c)
    let h1 := pageAccess c f off id h
    if write then h1
    else send (.readData f (leBytes 4 (if answers then pageRead h c (off / 4 * 4) else 0))) h1

/-- DBL_CTRL.OPEN: the check that fails first, or 0 (02 R31). -/
def openReason (h : Hub) (c : Nat) : Nat :=
  let x := getCtx h c
  let cfg := x.cfg.toNat
  let sq := bits cfg 0 4
  let cq := bits cfg 4 4
  let a := x.sqBase.toNat
  let b := x.cqBase.toNat
  if !(4 ≤ sq && sq ≤ 12 && 4 ≤ cq && cq ≤ 12) then 1
  else if a = 0 || b = 0 || (a < b + 32 * 2 ^ cq && b < a + 64 * 2 ^ sq) then 2
  else if bit cfg 14 && bits cfg 8 6 ≥ (getFn h (ctxFn h c)).msixSize then 3
  else if !(getFn h (ctxFn h c)).master then 4
  else 0

/-- DBL_CTRL.OPEN on a page that answers (02 R26, R30, R31). -/
def openCtx (c : Nat) (h : Hub) : Hub :=
  let x := getCtx h c
  if x.state ≠ .closed then badDoorbell c h
  else
    let r := openReason h c
    if r ≠ 0 then setCtx h c { x with reason := r }
    else
      setCtx h c
        { x with
          state := .opened, reason := 0, sqTail := 0, cqHead := 0, sqHead := 0, cqTail := 0
          sqBaseL := x.sqBase, cqBaseL := x.cqBase, cfgL := x.cfg, phase := true, resv := 0, held := none
          evMask := 0x3FFF, evSeq := 0, evLost := false, wdog := 0, warned := false, coal := 0
          epoch := x.epoch + 1, last := [] }

/-! ### Timers of a context -/

/-- COAL_TIME has passed since the first entry that no message announces (02 R42). -/
def coalesceTimeout (c : Nat) (h : Hub) : Hub :=
  let x := getCtx h c
  let cfg := x.cfgL.toNat
  if mayPost x && bit cfg 14 && x.coal > 0 && bits cfg 24 8 > 0 then
    let h := at_ (x.coalAt + 4000 * bits cfg 24 8) h
    let h := setCtx h c { x with coal := 0 }
    markMessage c h (msix (ctxFn h c) (bits cfg 8 6) h)
  else h

/-- Half the watchdog period has passed without a restart (02 R553, R554). -/
def watchdogWarn (c : Nat) (h : Hub) : Hub :=
  let x := getCtx h c
  if x.state == .opened && x.wdog > 0 && !x.warned then
    let h := at_ (x.wdogAt + 500000 * x.wdog) h
    postEvent c 0x0080 x.wdog (x.wdogAt + 1000000 * x.wdog) (setCtx h c { x with warned := true })
  else h

/-! ### The rows -/

/-- DBL_SQ_TAIL_WRITE. -/
def execDblSqTailWrite (ctx fn : Nat) (value : BitVec 32) (s : State) : Host.Outcome State Fault Refusal :=
  .next (onHub (pageAccess ctx fn 0 (sqTailWrite ctx (value.toNat % 65536))) s)
/-- DBL_CQ_HEAD_WRITE. -/
def execDblCqHeadWrite (ctx fn : Nat) (value : BitVec 32) (s : State) : Host.Outcome State Fault Refusal :=
  .next (onHub (pageAccess ctx fn 8 (cqHeadWrite ctx (value.toNat % 65536))) s)
/-- DBL_RING_CONFIG_WRITE. -/
def execDblRingConfigWrite (ctx fn off size : Nat) (value : BitVec 64) (s : State) : Host.Outcome State Fault Refusal :=
  .next (onHub (pageAccess ctx fn off (ringConfigWrite ctx off size value.toNat)) s)
/-- DOORBELL_ACCESS_REFUSED. -/
def execDoorbellAccessRefused (ctx fn off : Nat) (write : Bool) (s : State) : Host.Outcome State Fault Refusal :=
  .next (onHub (refusedAccess ctx fn off write) s)
/-- MSIX_COALESCE_TIMEOUT. -/
def execMsixCoalesceTimeout (ctx : Nat) (s : State) : Host.Outcome State Fault Refusal :=
  .next (onHub (coalesceTimeout ctx) s)
/-- WATCHDOG_WARN. -/
def execWatchdogWarn (ctx : Nat) (s : State) : Host.Outcome State Fault Refusal := .next (onHub (watchdogWarn ctx) s)

end Sys2Proof.Machine
end

