-- ==== Sys2Proof/Machine/RegBase.lean ====
section
/-!
DEFINITION. Which accesses reach the register space of a die (20 R496-R503), and words of a 64-bit register.
-/

namespace Sys2Proof.Machine

/-- Does an access of function `fn` reach the register space of die `d`: a physical function that hosts have, whose die's link is not
in reset, and a die in service (20 R498, R501; 21 R525)? -/
def regReaches (h : Hub) (fn d : Nat) : Bool :=
  ready h && fn % 16 == 0 && decide (fn < 128) && (getFn h fn).enabled && dieUp h (fn / 16) && !bit h.pkg.perst (fn / 16) && dieUp h d

/-- An access of function `fn` to offset `off` of the register space of die `d`, that only the integrator's physical function may make:
a wake event where the die sleeps and the block is not in the always-on domain (`aon`), reported where another function makes it, and
otherwise `f` (15 R398, 20 R500). -/
def regGate (fn d off : Nat) (aon : Bool) (f : Hub → Eff) (h : Hub) : Eff :=
  if !regReaches h fn d then (h, [])
  else if asleep h d && !aon then (accessWakes d fn h, [])
  else
    let h := if aon then h else accessWakes d fn h
    if fn ≠ integratorFn h then (accessFault fn (d * 0x100000 + off) h, []) else f h

/-- The same for an access that touches no memory. -/
def regGateHub (fn d off : Nat) (aon : Bool) (f : Hub → Hub) (h : Hub) : Hub := (regGate fn d off aon (fun h => (f h, [])) h).1

/-- The low or the high word of a 64-bit register replaced. -/
def setHalf (old : Nat) (high : Bool) (v : Nat) : Nat := if high then old % 2 ^ 32 + v % 2 ^ 32 * 2 ^ 32 else old / 2 ^ 32 * 2 ^ 32 + v % 2 ^ 32

end Sys2Proof.Machine
end

