-- ==== Sys2Proof/Machine/Dma.lean ====
section
/-!
DEFINITION. The DMA engine: client channels with their descriptors, records and charge, the commands of the 0x08xx range, and the
privileged channels (12 R304-R329).
-/

namespace Sys2Proof.Machine

/-! ### Descriptors (12 R306-R310) -/

/-- The descriptor of 32 bytes, with a sequence number (12 R306). -/
def descOf (bs : Bytes) (seq : Nat) : DmaDesc :=
  let f (i n : Nat) : Nat := leNat ((bs.drop i).take n)
  { op := f 0 1, flags := f 1 1, planes := f 2 1, dst := f 4 4, dstOff := f 8 4, len := f 12 4, source := f 16 8, value := f 24 8, seq := seq }

/-- Destination plane. -/
def DmaDesc.dstPlane (d : DmaDesc) : Nat := bits d.planes 0 2

/-- Source plane. -/
def DmaDesc.srcPlane (d : DmaDesc) : Nat := bits d.planes 4 2

/-- Source handle of COPY and COMPARE. -/
def DmaDesc.src (d : DmaDesc) : Nat := d.source % 2 ^ 32

/-- Source offset of COPY and COMPARE. -/
def DmaDesc.srcOff (d : DmaDesc) : Nat := d.source / 2 ^ 32

/-- Has the descriptor a source surface? -/
def DmaDesc.hasSrc (d : DmaDesc) : Bool := d.op == 1 || d.op == 3

/-- The right that a descriptor needs on its destination: bit 0 READ, bit 1 WRITE (12 R307). -/
def DmaDesc.dstRight (d : DmaDesc) : Nat := if d.op = 3 then 0 else 1

/-- Does the descriptor name the surface of handle `v`? -/
def DmaDesc.uses (d : DmaDesc) (v : Nat) : Bool := d.dst == v || (d.hasSrc && d.src == v)

/-- A range of a plane of a surface lies inside it. -/
def inPlane (s : Surf) (p off len : Nat) : Bool :=
  decide (p < (fmtD s.fmt).planes) && decide (off + len ≤ planeSize s.fmt s.height p (s.planes.getD p (0, 0)).2)

/-- The check at a descriptor's start: 0, or the status of its record (12 R310). -/
def descStart (h : Hub) (c : Nat) (d : DmaDesc) : Nat :=
  match surfOf h d.dst, (if d.hasSrc then surfOf h d.src else surfOf h d.dst) with
  | some ds, some ss =>
    if !bit (rightsOf ds c) d.dstRight || (d.hasSrc && !bit (rightsOf ss c) 0) then 0x0303
    else if !inPlane ds d.dstPlane d.dstOff d.len || (d.hasSrc && !inPlane ss d.srcPlane d.srcOff d.len) then 0x020B
    else 0
  | _, _ => 0x0304

/-- Does a COPY go in descending address order (12 R309)? -/
def descDescends (d : DmaDesc) (ds ss : Surf) : Bool :=
  let a := regionPos ds d.dstPlane d.dstOff
  let b := regionPos ss d.srcPlane d.srcOff
  d.op == 1 && ds.region == ss.region && rangesMeet (a, d.len) (b, d.len) && decide (a > b)

/-- Cycles of a descriptor for its first `n` bytes in copy direction (12 R308, R315). -/
def descCost (d : DmaDesc) (down : Bool) (n : Nat) : Nat :=
  let at' (off : Nat) : Nat := if down then off + d.len - n else off
  100 + 4 * (granules64 (at' d.dstOff) n + if d.hasSrc then granules64 (at' d.srcOff) n else 0)

/-- Bytes of the next chunk, up to the next granule boundary of the destination, where `n` bytes are done. -/
def chunkLen (d : DmaDesc) (down : Bool) (n : Nat) : Nat :=
  if down then min ((d.dstOff + d.len - n - 1) % 64 + 1) (d.len - n) else min (64 - (d.dstOff + n) % 64) (d.len - n)

/-- The byte of a descriptor's pattern for plane offset `a` (12 R307). -/
def patternByte (v a : Nat) : Byte := BitVec.ofNat 8 (v / 256 ^ (a % 8))

/-- One chunk of `k` bytes after the first `n`: its writes, and the first difference of a COMPARE. -/
def chunkRun (m : List Host.Cell) (h : Hub) (d : DmaDesc) (ds ss : Surf) (down : Bool) (n k : Nat) : List MemWrite × Option Nat :=
  let o := if down then d.len - n - k else n
  let src := planeRead m h ss d.srcPlane (d.srcOff + o) k
  match d.op with
  | 1 => (planeWrite h ds d.dstPlane (d.dstOff + o) src, none)
  | 2 => (planeWrite h ds d.dstPlane (d.dstOff + o) ((List.range k).map fun i => patternByte d.source (d.dstOff + o + i)), none)
  | _ => ([], ((planeRead m h ds d.dstPlane (d.dstOff + o) k).zip src).findIdx? (fun e => e.1 != e.2) |>.map (· + o))

/-- Chunks that the cycles drawn pay for, at most as many as the fuel. -/
def chunksRun (h : Hub) (d : DmaDesc) (ds ss : Surf) (down : Bool) : Nat → List Host.Cell → DmaRun → DmaRun × List MemWrite
  | 0, _, r => (r, [])
  | fuel + 1, m, r =>
    let k := chunkLen d down r.moved
    if k = 0 || r.diff.isSome || descCost d down (r.moved + k) > r.drawn then (r, [])
    else
      let w := chunkRun m h d ds ss down r.moved k
      let q := chunksRun h d ds ss down fuel (w.1.foldl Memory.apply m) { r with moved := r.moved + k, diff := w.2 }
      (q.1, w.1 ++ q.2)

/-- Bytes that a descriptor processes in all: a COMPARE stops with the granule of its first difference (12 R307). -/
def descEnd (m : List Host.Cell) (h : Hub) (d : DmaDesc) (ds ss : Surf) (r : DmaRun) : Nat :=
  if d.op ≠ 3 then d.len
  else if r.diff.isSome then r.moved
  else
    match firstNat (fun i => planeRead m h ds d.dstPlane (d.dstOff + i) 1 != planeRead m h ss d.srcPlane (d.srcOff + i) 1)
        (d.len - r.moved) r.moved with
    | none => d.len
    | some i => min d.len ((d.dstOff + i) / 64 * 64 + 64 - d.dstOff)

/-- How far the cycles drawn let a descriptor come from byte `n` on, in at most as many chunks as the fuel. -/
def paidBytes (d : DmaDesc) (down : Bool) (drawn : Nat) : Nat → Nat → Nat
  | 0, n => n
  | fuel + 1, n =>
    let k := chunkLen d down n
    if k = 0 || descCost d down (n + k) > drawn then n else paidBytes d down drawn fuel (n + k)

/-- The granules that bytes `n` to `n2 - 1` of a descriptor read, in copy direction (12 R319). -/
def descReads (h : Hub) (d : DmaDesc) (ds ss : Surf) (down : Bool) (n n2 : Nat) : List Nat :=
  let o := if down then d.len - n2 else n
  (if d.hasSrc then regionGrans h ss.region [(regionPos ss d.srcPlane (d.srcOff + o), n2 - n)] else []) ++
    if d.op = 3 then regionGrans h ds.region [(regionPos ds d.dstPlane (d.dstOff + o), n2 - n)] else []

/-- The granules of other dies that bytes `n` to `n2 - 1` of a descriptor read, in copy direction. -/
def descGrans (h : Hub) (die : Nat) (d : DmaDesc) (ds ss : Surf) (down : Bool) (n n2 : Nat) : List Nat :=
  let o := if down then d.len - n2 else n
  (if d.hasSrc then planeGrans h die ss d.srcPlane (d.srcOff + o) (n2 - n) else []) ++
    if d.op = 3 then planeGrans h die ds d.dstPlane (d.dstOff + o) (n2 - n) else []

/-! ### Channels (12 R304, R305, R311-R319) -/

/-- Client channel `k` changed. -/
def updChan (h : Hub) (k : Nat) (f : DmaChan → DmaChan) : Hub := { h with dma := h.dma.upd k f }

/-- The surfaces of a descriptor; a FILL has its destination in both places. -/
def descSurfs (h : Hub) (d : DmaDesc) : Option (Surf × Surf) :=
  match entryOf h d.dst, (if d.hasSrc then entryOf h d.src else entryOf h d.dst) with
  | some a, some b => some (a, b)
  | _, _ => none

/-- Entries of a channel's completion queue. -/
def DmaChan.size (x : DmaChan) : Nat := 2 ^ x.cqLog

/-- The 32 bytes of a record (12 R317). -/
def recordBytes (st op cflags seq moved mism time : Nat) : Bytes :=
  leBytes 2 st ++ leBytes 1 op ++ leBytes 1 cflags ++ leBytes 4 seq ++ leBytes 4 moved ++ leBytes 4 mism ++ leBytes 8 time ++ leBytes 8 0

/-- A descriptor ends: its record, its event, and its signal (12 R313, R316-R318, R328).  Records are written as completions are (02
R27), and none once a record write has failed. -/
def descEnds (k st moved : Nat) (diff : Option Nat) (d : DmaDesc) (h : Hub) : Hub :=
  match h.dma.find k with
  | none => h
  | some x =>
    let sig := st == 0 && bit d.flags 2
    let may := mayPost (getCtx h x.owner) && !x.dead
    let mm := if st = 0 then diff else none
    let h :=
      if !may then h
      else
        let a := (x.base + 32 * x.tail) % 2 ^ 64
        let fl := b2n x.phase + 2 * b2n mm.isSome + 4 * b2n sig
        let bs := recordBytes st d.op fl d.seq (if d.op = 3 then 0 else moved) (mm.getD 0xFFFFFFFF) h.now
        let w : HostWrite :=
          { addr := a, before := hostRead (ctxFn h x.owner) a h bs.length, data := bs, cqTail := x.tail, phase := x.phase }
        let h := hostWrite (ctxFn h x.owner) a bs h
        let t := (x.tail + 1) % x.size
        let h := updChan h k fun x => { x with tail := t, phase := if t = 0 then !x.phase else x.phase, last := w :: x.last }
        if bit d.flags 1 then postEvent x.owner 0x0880 k (d.seq + 2 ^ 32 * st + 2 ^ 48 * x.tail) h else h
    if sig then (match tlOf h x.tl with | none => h | some (t, _) => signalTl t d.value h) else h

/-- The channel's descriptors stop with a status: the running one at its boundary, and the queued ones after it, in order (12 R319).  The
completion of a BARRIER descriptor waits until the writes before it are visible (12 R312). -/
def stopChan (k st : Nat) (h : Hub) : Hub :=
  match h.dma.find k with
  | none => h
  | some x =>
    let h := updChan h k fun x => { x with queue := [], run := none }
    let h := if x.queue.any fun q => bit q.flags 0 then broadcast h else h
    (x.queue.zipIdx).foldl (fun h e =>
      descEnds k st (if e.2 = 0 then (match x.run with | none => 0 | some r => r.moved) else 0) none e.1 h) h

/-- A read of granule `g` by client channel `k` meets an uncorrectable error: the running descriptor stops before any write of the granule,
where it has not read it yet (12 R319; log 87). -/
def chanFails (k g : Nat) (h : Hub) : Hub :=
  match h.dma.find k with
  | none => h
  | some x =>
    match x.queue, x.run with
    | d :: _, some r =>
      match descSurfs h d with
      | none => h
      | some (ds, ss) => if (descReads h d ds ss (descDescends d ds ss) r.moved d.len).contains g then stopChan k 0x0701 h else h
    | _, _ => h

/-- Is channel `k` running a descriptor that uses the surface of handle `v`? -/
def chanUses (x : DmaChan) (v : Nat) : Bool := x.run.isSome && (match x.queue with | [] => false | d :: _ => d.uses v)

/-- A record write has failed (12 R318): no records, the event, and no submits until DMA_FREE. -/
def queueFault (k : Nat) (h : Hub) : Hub :=
  match h.dma.find k with
  | none => h
  | some x =>
    let seq := match x.queue with | [] => 0 | d :: _ => d.seq
    postEvent x.owner 0x0881 k seq (updChan h k fun x => { x with queue := [], run := none, dead := true, last := [] })

/-- The running descriptor of channel `k` draws its next slice and runs what it pays for (12 R315); nothing where the bucket is empty. -/
def chanSlice (k : Nat) (m : List Host.Cell) (h : Hub) : Eff :=
  match h.dma.find k with
  | none => (h, [])
  | some x =>
    match x.queue, x.run with
    | d :: _, some r =>
      match descSurfs h d with
      | none => (h, [])
      | some (ds, ss) =>
        let down := descDescends d ds ss
        let n := sliceOf (descCost d down (descEnd (remoteView h (k / 32) (dmaUnit (k % 32)) m) h d ds ss r)) r.drawn
        if n = 0 || !hasTokens h (k / 32) x.owner n then (h, [])
        else
          let r := { r with drawn := r.drawn + n }
          let h := drawTokens (k / 32) x.owner n h
          let h := remoteRead (k / 32) (descGrans h (k / 32) d ds ss down r.moved (paidBytes d down r.drawn 1100 r.moved)) m h
          let q := chunksRun h d ds ss down 1100 (remoteView h (k / 32) (dmaUnit (k % 32)) m) r
          let h := updChan h k fun x => { x with run := some q.1, charged := satAdd (2 ^ 64 - 1) x.charged n }
          (unitWrites (k / 32) (dmaUnit (k % 32)) q.2 h, q.2)
    | _, _ => (h, [])

/-- DMA_DESCRIPTOR_START. -/
def descriptorStart (k : Nat) (m : List Host.Cell) (h : Hub) : Eff :=
  match h.dma.find k with
  | none => (h, [])
  | some x =>
    match x.queue with
    | [] => (h, [])
    | d :: t =>
      if x.run.isSome || !plotterRuns h (k / 32) then (h, [])
      else
        let st := descStart h x.owner d
        if st ≠ 0 then
          let h := if bit d.flags 0 then broadcast h else h
          (descEnds k st 0 none d (updChan h k fun x => { x with queue := t }), [])
        else chanSlice k m (updChan h k fun x => { x with run := some {} })

/-- DMA_SLICE_RESUME. -/
def descriptorResume (k : Nat) (m : List Host.Cell) (h : Hub) : Eff := if plotterRuns h (k / 32) then chanSlice k m h else (h, [])

/-- DMA_DESCRIPTOR_COMPLETE: every byte has been processed and paid for (12 R312, R313). -/
def descriptorComplete (k : Nat) (h : Hub) : Hub :=
  match h.dma.find k with
  | none => h
  | some x =>
    match x.queue, x.run with
    | d :: t, some r =>
      if (r.moved = d.len || r.diff.isSome) && dieUp h (k / 32) then
        let h := if bit d.flags 0 || bit d.flags 2 then broadcast h else h
        descEnds k 0 r.moved r.diff d (updChan h k fun x => { x with queue := t, run := none })
      else h
    | _, _ => h

/-! ### Commands (12 R324-R327) -/

/-- Client channels of a die. -/
def chansOf (h : Hub) (d : Nat) : Tab DmaChan := h.dma.filter fun e => e.1 / 32 == d

/-- The lowest free client channel of a die (log entry 10), within the limit of the context's share group (12 R305). -/
def freeChan (h : Hub) (c d : Nat) : Option Nat :=
  if ((chansOf h d).countP fun e => e.2.group == groupOf h c) ≥ 14 then none
  else firstNat (fun k => !h.dma.has k) 28 (d * 32 + 4)

/-- DMA_ALLOC (12 R325). -/
def dmaAlloc : Spec :=
  { op := 0x0800, rsv := [(32, 32)]
    checks := fun c _ h =>
      let tl := arg32 c 20
      [dieCk h 16 (arg8 c 16), ck 0x0201 17 (arg8 c 17 < 4 || arg8 c 17 > 12), ck 0x0201 18 (arg16 c 18 = 0 || arg16 c 18 > 256),
       ck 0x0105 24 (arg64 c 24 = 0 || arg64 c 24 % 4096 ≠ 0)] ++
      (if tl = 0 then [] else tlCks h 20 tl ++ [tlOwnerCk h 20 tl c.ctx]) ++
      [ckd (arg8 c 16) 0x0609 255 (arg8 c 16 < 8 && (freeChan h c.ctx (arg8 c 16)).isNone)]
    run := fun c _ _ h =>
      match freeChan h c.ctx (arg8 c 16) with
      | none => failRes h 0x0609 255
      | some k =>
        let x : DmaChan :=
          { owner := c.ctx, group := groupOf h c.ctx, cqLog := arg8 c 17, rate := arg16 c 18, tl := arg32 c 20, base := arg64 c 24 }
        okRes { h with dma := h.dma.set k x } k }

/-- The checks of a CHANNEL field (12 R305, R324). -/
def chanCks (h : Hub) (c off k : Nat) : List Ck :=
  [dieCk h off (k / 32), ck 0x0202 off (k % 32 < 4),
   ckd (k / 32) 0x0404 off (k % 32 ≥ 4 && (h.dma.find k).isNone),
   ckd (k / 32) 0x0302 off (match h.dma.find k with | none => false | some x => x.owner ≠ c)]

/-- The channel that a command names and its context owns. -/
def ownChan (h : Hub) (c k : Nat) : Option DmaChan := match h.dma.find k with | none => none | some x => if x.owner = c then some x else none

/-- DMA_FREE (12 R327). -/
def dmaFree : Spec :=
  { op := 0x0801, rsv := [(17, 47)]
    checks := fun c _ h =>
      chanCks h c.ctx 16 (arg8 c 16) ++
      [ckd (arg8 c 16 / 32) 0x0403 16 (match ownChan h c.ctx (arg8 c 16) with | none => false | some x => !x.queue.isEmpty)]
    run := fun c _ _ h => okRes { h with dma := h.dma.del (arg8 c 16) } }

/-- CHANNEL, COUNT and CQ_HEAD of a submit (12 R326). -/
def submitArgs (c : Cmd) : Nat × Nat × Nat :=
  if isIndirect c.flags.toNat then (arg8 c 32, arg8 c 33, arg16 c 34) else (arg8 c 16, arg8 c 17, arg16 c 18)

/-- The descriptors of a submit. -/
def submitDescs (c : Cmd) : List Bytes :=
  if isIndirect c.flags.toNat then (List.range (arg8 c 33)).map fun i => (c.block.drop (32 * i)).take 32 else [argBytes c 32 32]

/-- The checks of one descriptor at acceptance (12 R306, R310): `off` gives the offset reported for a byte of it. -/
def descCks (h : Hub) (c : Nat) (x : Option DmaChan) (off : Nat → Nat) (bs : Bytes) : List Ck :=
  let d := descOf bs 0
  let tl := match x with | none => 0 | some x => x.tl
  let plane (v p : Nat) (r : Nat) : Bool :=
    mayUse h v c r && (match surfOf h v with | none => false | some s => decide (p ≥ (fmtD s.fmt).planes))
  [ck 0x0106 (off 0) (d.op = 0 || d.op > 3), ck 0x0103 (off 1) (d.flags > 7),
   ck 0x0103 (off 2) (bits d.planes 2 2 ≠ 0 || bits d.planes 6 2 ≠ 0 || (d.op = 2 && d.srcPlane ≠ 0)),
   ck 0x0103 (off 3) ((bs.drop 3).headD 0 ≠ 0), ck 0x0201 (off 12) (d.len = 0),
   ck 0x0103 (off 24) (!bit d.flags 2 && d.value ≠ 0), ck 0x0201 (off 1) (bit d.flags 2 && x.isSome && tl = 0)] ++
  handleCks h (off 4) d.dst ++ (if d.hasSrc then handleCks h (off 16) d.src else []) ++
  [rightCk h (off 4) d.dst c d.dstRight] ++ (if d.hasSrc then [rightCk h (off 16) d.src c 0] else []) ++
  [ckd (handleDie d.dst) 0x0201 (off 2) (plane d.dst d.dstPlane d.dstRight),
   ckd (handleDie (if d.hasSrc then d.src else d.dst)) 0x0201 (off 2) (d.hasSrc && plane d.src d.srcPlane 0)] ++
  (if bit d.flags 2 && tl ≠ 0 then tlCks h (off 1) tl else [])

/-- The checks of DMA_SUBMIT (12 R310, R318, R324, R326); RESULT0 holds the index of the failing descriptor. -/
def submitCks (c : Cmd) (h : Hub) : List Ck :=
  let ind := isIndirect c.flags.toNat
  let (k, n, hd) := submitArgs c
  let o := if ind then 32 else 16
  let x := ownChan h c.ctx k
  chanCks h c.ctx o k ++
  [ck 0x0201 (o + 1) (if ind then n = 0 || n > 64 else n ≠ 1),
   ck 0x0107 24 (ind && arg32 c 24 ≠ 32 * n),
   ckd (k / 32) 0x0201 (o + 2) (match x with
     | none => false
     | some x => hd ≥ x.size || (hd + x.size - x.head) % x.size > (x.tail + x.size - x.head) % x.size),
   (if ind then ck 0x0103 (firstSet 36 (argBytes c 36 28)) (argN c 36 28 ≠ 0)
    else ck 0x0103 (firstSet 20 (argBytes c 20 12)) (argN c 20 12 ≠ 0))] ++
  (submitDescs c).zipIdx.flatMap fun e =>
    (descCks h c.ctx x (fun b => if ind then blkOff (32 * e.2 + b) else 32 + b) e.1).map fun (q : Ck) => { q with r0 := e.2 }

/-- Has the channel room for the descriptors of a submit (12 R318)? -/
def submitRoom (x : DmaChan) (n hd : Nat) : Bool :=
  decide ((x.tail + x.size - hd) % x.size + x.queue.length + n ≤ x.size - 1) && decide (x.queue.length + n ≤ 64)

/-- The status codes of R45 but OK. -/
def statusCodes : List Nat :=
  ([(0x0101, 9), (0x0201, 11), (0x0301, 9), (0x0401, 14), (0x0410, 2), (0x0501, 6), (0x0601, 12), (0x0701, 7), (0x0801, 4), (0x0901, 5)] :
    List (Nat × Nat)).flatMap fun e => (List.range e.2).map (· + e.1)

/-- DMA_SUBMIT (12 R318, R326). -/
def dmaSubmit : Spec :=
  { op := 0x0802, block := some fun n => n % 32 == 0, direct := true
    waits := fun c h =>
      let (k, n, hd) := submitArgs c
      match ownChan h c.ctx k with
      | none => false
      | some x => !x.dead && decide (hd < x.size) && (firstFail false (submitCks c h)).isNone && !submitRoom x n hd
    checks := fun c _ h => submitCks c h
    run := fun c _ _ h =>
      let (k, n, hd) := submitArgs c
      match ownChan h c.ctx k with
      | none => failRes h 0x0302 16
      | some x =>
        if x.dead then
          let (ix, h) := takeFree h
          failRes h (statusCodes.getD ((Config.freeWord ix).toNat % statusCodes.length) 0x0404) (if isIndirect c.flags.toNat then 32 else 16)
        else
          let ds := (submitDescs c).zipIdx.map fun e => descOf e.1 ((x.seq + e.2) % 2 ^ 32)
          okRes (updChan (bar2Visible c.ctx h) k fun x => { x with head := hd, queue := x.queue ++ ds, seq := (x.seq + n) % 2 ^ 32 }) x.seq }

/-- DMA_ABORT (12 R327). -/
def dmaAbort : Spec :=
  { op := 0x0803, rsv := [(17, 47)]
    checks := fun c _ h => chanCks h c.ctx 16 (arg8 c 16)
    run := fun c _ _ h =>
      let n := match h.dma.find (arg8 c 16) with | none => 0 | some x => x.queue.length
      okRes (stopChan (arg8 c 16) 0x0411 h) n }

/-- DMA_QUERY (12 R327). -/
def dmaQuery : Spec :=
  { op := 0x0804, rsv := [(17, 47)]
    checks := fun c _ h => chanCks h c.ctx 16 (arg8 c 16)
    run := fun c _ _ h =>
      match h.dma.find (arg8 c 16) with
      | none => failRes h 0x0404 16
      | some x => okRes h (x.queue.length + 65536 * x.tail) x.charged }

/-! ### Privileged channels (12 R320-R323) -/

/-- Registers of privileged channel `ch` of die `d`. -/
def getPriv (h : Hub) (d ch : Nat) : PrivDma := (getDie h d).priv.get ch {}

/-- Those registers changed. -/
def updPriv (h : Hub) (d ch : Nat) (f : PrivDma → PrivDma) : Hub := updDie h d fun x => { x with priv := x.priv.set ch (f (x.priv.get ch {})) }

/-- An operation ends: results, BUSY, DONE and its interrupt source (12 R322). -/
def privEnds (d ch st moved mism : Nat) (h : Hub) : Hub :=
  intEvent d ch (updPriv h d ch fun x => { x with busy := none, last := st, bytes := moved, mismatch := mism, done := (x.done + 1) % 65536 })

/-- The check of a latched operation: 0 or the status with which it ends (12 R322).  An address is used where the operation uses it. -/
def privCheck (h : Hub) (src dst len op : Nat) : Nat :=
  let as := if op = 2 then [dst] else [src, dst]
  if op = 0 then 0x0106
  else if len = 0 then 0x0201
  else if as.any fun a => !dieUp h (a / 2 ^ 34) then 0x0203
  else if as.any fun a => decide (a % 2 ^ 34 + len > usableBytes h (a / 2 ^ 34)) then 0x020B
  else 0

/-- The first `n` bytes, in copy direction, of a latched operation: its writes and, for COMPARE, the first difference. -/
def privRun (m : List Host.Cell) (src dst len op pattern n : Nat) : List MemWrite × Option Nat :=
  let down := op == 1 && rangesMeet (dst, len) (src, len) && decide (dst > src)
  let o := if down then len - n else 0
  let at' (i : Nat) : Nat := o + i
  match op with
  | 1 => ((List.range n).map fun i => .bytes (dst + at' i) [Memory.read m (src + at' i)], none)
  | 2 => ((List.range n).map fun i => .bytes (dst + i) [patternByte pattern (dst % 2 ^ 34 + i)], none)
  | _ => ([], firstNat (fun i => Memory.read m (dst + i) != Memory.read m (src + i)) n 0)

/-! #### The system area (12 R322, 14 R380)

The manual gives its objects no addresses (log entry 39): a privileged operation reads free bytes there, and what it writes there changes
free entries of the die's LUT slots, programs, zone store and Field book ring. -/

/-- Does a range of bytes of one die reach its system area? -/
def reachesSystem (h : Hub) (a n : Nat) : Bool := decide (a % 2 ^ 34 + n > systemStart h (a / 2 ^ 34))

/-- LP5X as a privileged operation reads `n` bytes from address `a` of it. -/
def systemView (a n : Nat) (m : List Host.Cell) (h : Hub) : List Host.Cell × Hub :=
  if reachesSystem h a n then
    let i := systemStart h (a / 2 ^ 34) - a % 2 ^ 34
    ((List.range (n - i)).foldl (fun m k => Memory.write m (a + i + k) (Config.freeByte (h.freeIx + k))) m,
      { h with freeIx := h.freeIx + (n - i) })
  else (m, h)

/-- Numbers of `w` bits that a write may have changed: each stays or is free. -/
def mayChange (ix w : Nat) (l : List Nat) : List Nat :=
  l.zipIdx.map fun e => if Config.freeBit (ix + e.2) then (Config.freeWord (ix + e.2)).toNat % 2 ^ w else e.1

/-- A zone's statistics that a write may have changed. -/
def statMayChange (ix : Nat) (z : ZoneStat) : ZoneStat :=
  match mayChange ix 64 (z.max :: z.sum :: z.count :: z.bins) with
  | a :: b :: c :: l => { max := a, sum := b, count := c, bins := l }
  | _ => z

/-- The zone store's share of an output that a write may have changed. -/
def zonesMayChange (ix : Nat) (x : Dim) : Dim :=
  { x with
    last := x.last.map fun e => (e.1, statMayChange (ix + 32 * e.1) e.2)
    filt := mayChange (ix + 2 ^ 20) 20 x.filt, levels := mayChange (ix + 2 ^ 21) 12 x.levels, bz := mayChange (ix + 2 ^ 22) 16 x.bz }

/-- The objects in the system area of die `d` after a write there. -/
def systemWritten (d : Nat) (h : Hub) : Hub :=
  let ix (kind k : Nat) : Nat := h.freeIx + 2 ^ 40 * kind + 2 ^ 24 * k
  let h' := updDie h d fun x => { x with fbk := { x.fbk with ring := x.fbk.ring.map fun e =>
    (e.1, (mayChange (ix 4 e.1) 8 (e.2.map BitVec.toNat)).map (BitVec.ofNat 8)) } }
  { h' with
    luts := h.luts.map fun e => if e.1 / 128 ≠ d then e else
      let l := e.2.lut
      (e.1, { e.2 with lut := { l with
        red := mayChange (ix 1 e.1) 16 l.red, green := mayChange (ix 1 e.1 + 2 ^ 16) 16 l.green
        blue := mayChange (ix 1 e.1 + 2 ^ 17) 16 l.blue } })
    progs := h.progs.map fun e => if e.1 / 256 ≠ d then e else
      (e.1, { e.2 with words := (mayChange (ix 2 e.1) 32 (e.2.words.map BitVec.toNat)).map (BitVec.ofNat 32) })
    outs := h.outs.map fun e => if e.1 / 4 ≠ d then e else (e.1, { e.2 with dim := zonesMayChange (ix 3 e.1) e.2.dim })
    freeIx := h.freeIx + 2 ^ 43 }

/-- What the operation reads of LP5X: the die's own view of it (14 R386), and the system area. -/
def privView (d ch src dst len op : Nat) (m : List Host.Cell) (h : Hub) : List Host.Cell × Hub :=
  let v := if op = 2 then (remoteView h d (dmaUnit ch) m, h) else systemView src len (remoteView h d (dmaUnit ch) m) h
  if op = 3 then systemView dst len v.1 v.2 else v

/-- The writes of an operation have been made. -/
def privWritten (d ch dst n op : Nat) (ws : List MemWrite) (h : Hub) : Hub :=
  let h := unitWrites d (dmaUnit ch) ws h
  if op ≠ 3 && n ≠ 0 && reachesSystem h dst n then systemWritten (dst / 2 ^ 34) h else h

/-- The granules of other dies that the whole of a latched operation reads. -/
def privGrans (d src dst len op : Nat) : List Nat :=
  let of (a : Nat) : List Nat := if a / 2 ^ 34 = d then [] else (List.range (granules64 a len)).map (· + a / 64)
  (if op = 2 then [] else of src) ++ if op = 3 then of dst else []

/-- PRIV_DMA_COMPLETE. -/
def privComplete (d ch : Nat) (m : List Host.Cell) (h : Hub) : Eff :=
  match (getPriv h d ch).busy with
  | none => (h, [])
  | some (src, dst, len, ctrl, pattern) =>
    let op := bits ctrl 0 2
    let h := remoteRead d (privGrans d src dst len op) m h
    let v := privView d ch src dst len op m h
    let r := privRun v.1 src dst len op pattern len
    let h := privEnds d ch 0 (if op = 3 then 0 else len) (r.2.getD 0xFFFFFFFF) (privWritten d ch dst len op r.1 v.2)
    (if bit ctrl 2 then broadcast h else h, r.1)

/-- A running operation stops at a 64-byte boundary with a status (12 R319, R323): how far it came is a free value. -/
def privStop (d ch st : Nat) (m : List Host.Cell) (h : Hub) : Eff :=
  match (getPriv h d ch).busy with
  | none => (h, [])
  | some (src, dst, len, ctrl, pattern) =>
    let op := bits ctrl 0 2
    let (ix, h) := takeFree h
    let down := op == 1 && rangesMeet (dst, len) (src, len) && decide (dst > src)
    let k := (Config.freeWord ix).toNat % (granules64 dst len + 1)
    let n := if k = 0 then 0 else if down then min len (dst + len - min (dst + len) ((ceilDiv (dst + len) 64 - k) * 64))
      else min len ((dst / 64 + k) * 64 - dst)
    let h := remoteRead d (privGrans d src dst len op) m h
    let v := privView d ch src dst len op m h
    let r := privRun v.1 src dst len op pattern n
    (privWritten d ch (dst + if down then len - n else 0) n op r.1 (privEnds d ch st (if op = 3 then 0 else n) 0xFFFFFFFF v.2), r.1)

/-- DMA_CTRL written (12 R322, R323): ABORT before GO; while BUSY the rest of the write is ignored and counted. -/
def privCtrlWrite (d ch v : Nat) (m : List Host.Cell) (h : Hub) : Eff :=
  let x := getPriv h d ch
  if x.busy.isSome then
    let h := updPriv h d ch fun x => { x with ignored := satInc 255 x.ignored }
    if bit v 9 then privStop d ch 0x0411 m h else (h, [])
  else
    let h := updPriv h d ch fun x => { x with ctrl := v % 8 }
    if !bit v 8 || bit v 9 then (h, [])
    else
      let st := privCheck h x.src x.dst x.len (v % 4)
      if st ≠ 0 then (privEnds d ch st 0 0xFFFFFFFF h, [])
      else (updPriv h d ch fun x => { x with busy := some (x.src, x.dst, x.len, v % 8, x.pattern) }, [])

/-- A write to DMA_SRC, DMA_DST, DMA_LEN or DMA_PATTERN: ignored and counted while BUSY (12 R323). -/
def privOperand (d ch : Nat) (f : PrivDma → PrivDma) (h : Hub) : Hub :=
  updPriv h d ch fun x => if x.busy.isSome then { x with ignored := satInc 255 x.ignored } else f x

/-- A 32-bit write at offset `off` of a channel's registers (12 R321). -/
def privWrite32 (d ch off v : Nat) (m : List Host.Cell) (h : Hub) : Eff :=
  match off with
  | 0x00 => (privOperand d ch (fun x => { x with src := setHalf x.src false v }) h, [])
  | 0x04 => (privOperand d ch (fun x => { x with src := setHalf x.src true (v % 32) }) h, [])
  | 0x08 => (privOperand d ch (fun x => { x with dst := setHalf x.dst false v }) h, [])
  | 0x0C => (privOperand d ch (fun x => { x with dst := setHalf x.dst true (v % 32) }) h, [])
  | 0x10 => (privOperand d ch (fun x => { x with len := v % 2 ^ 32 }) h, [])
  | 0x14 => privCtrlWrite d ch v m h
  | 0x18 => (privOperand d ch (fun x => { x with pattern := setHalf x.pattern false v }) h, [])
  | 0x1C => (privOperand d ch (fun x => { x with pattern := setHalf x.pattern true v }) h, [])
  | 0x24 => (updPriv h d ch fun x => { x with done := bits v 0 16, ignored := bits v 16 8 }, [])
  | _ => (h, [])

/-- A write of 32 or 64 bits at offset `off` of a channel's registers (12 R321, 20 R502). -/
def privWrite (d ch off size v : Nat) (m : List Host.Cell) (h : Hub) : Eff :=
  if size = 4 then privWrite32 d ch off (v % 2 ^ 32) m h
  else match off with
    | 0x00 => (privOperand d ch (fun x => { x with src := v % 2 ^ 37 }) h, [])
    | 0x08 => (privOperand d ch (fun x => { x with dst := v % 2 ^ 37 }) h, [])
    | 0x18 => (privOperand d ch (fun x => { x with pattern := v % 2 ^ 64 }) h, [])
    | _ =>
      let a := privWrite32 d ch off (v % 2 ^ 32) m h
      let b := privWrite32 d ch (off + 4) (v / 2 ^ 32 % 2 ^ 32) (a.2.foldl Memory.apply m) a.1
      (b.1, a.2 ++ b.2)

/-- The 32-bit word at offset `off` (a multiple of 4) of a channel's registers (12 R321). -/
def privRead (h : Hub) (d ch off : Nat) : Nat :=
  let x := getPriv h d ch
  match off with
  | 0x00 => x.src % 2 ^ 32
  | 0x04 => x.src / 2 ^ 32
  | 0x08 => x.dst % 2 ^ 32
  | 0x0C => x.dst / 2 ^ 32
  | 0x10 => x.len
  | 0x14 => x.ctrl
  | 0x18 => x.pattern % 2 ^ 32
  | 0x1C => x.pattern / 2 ^ 32
  | 0x20 => b2n x.busy.isSome + 65536 * x.last
  | 0x24 => x.done + 65536 * x.ignored
  | 0x28 => x.bytes
  | 0x2C => x.mismatch
  | _ => 0

/-- A write to a privileged channel's registers by a function (12 R320, 20 R500, R502). -/
def privAccess (fn d ch off size v : Nat) (m : List Host.Cell) (h : Hub) : Eff :=
  if ch ≥ 4 || off ≥ 0x40 then (h, [])
  else regGate fn d (0x2000 + 0x40 * ch + off) false (fun h =>
    if !accessOk off size then (accSizeError d h, []) else privWrite d ch off size v m h) h

/-! ### The rows -/

/-- DMA_ALLOC. -/
def execDmaAlloc (c : Cmd) (s : State) : Host.Outcome State Fault Refusal := .next (mail dmaAlloc c s)
/-- DMA_FREE. -/
def execDmaFree (c : Cmd) (s : State) : Host.Outcome State Fault Refusal := .next (mail dmaFree c s)
/-- DMA_SUBMIT. -/
def execDmaSubmit (c : Cmd) (s : State) : Host.Outcome State Fault Refusal := .next (mail dmaSubmit c s)
/-- DMA_ABORT. -/
def execDmaAbort (c : Cmd) (s : State) : Host.Outcome State Fault Refusal := .next (mail dmaAbort c s)
/-- DMA_QUERY. -/
def execDmaQuery (c : Cmd) (s : State) : Host.Outcome State Fault Refusal := .next (mail dmaQuery c s)
/-- DMA_DESCRIPTOR_START. -/
def execDmaDescriptorStart (die ch : Nat) (s : State) : Host.Outcome State Fault Refusal := .next (act (descriptorStart (die * 32 + ch)) s)
/-- DMA_DESCRIPTOR_COMPLETE. -/
def execDmaDescriptorComplete (die ch : Nat) (s : State) : Host.Outcome State Fault Refusal :=
  .next (onHub (descriptorComplete (die * 32 + ch)) s)
/-- DMA_SLICE_RESUME. -/
def execDmaSliceResume (die ch : Nat) (s : State) : Host.Outcome State Fault Refusal := .next (act (descriptorResume (die * 32 + ch)) s)
/-- DMA_CTRL_GO. -/
def execDmaCtrlGo (fn die ch : Nat) (value : BitVec 32) (s : State) : Host.Outcome State Fault Refusal :=
  .next (act (privAccess fn die ch 0x14 4 value.toNat) s)
/-- DMA_CTRL_ABORT. -/
def execDmaCtrlAbort (fn die ch : Nat) (value : BitVec 32) (s : State) : Host.Outcome State Fault Refusal :=
  .next (act (privAccess fn die ch 0x14 4 value.toNat) s)
/-- PRIV_DMA_COMPLETE. -/
def execPrivDmaComplete (die ch : Nat) (s : State) : Host.Outcome State Fault Refusal := .next (act (privComplete die ch) s)
/-- PRIV_DMA_REGISTER_WRITE. -/
def execPrivDmaRegisterWrite (fn die ch off size : Nat) (value : BitVec 64) (s : State) : Host.Outcome State Fault Refusal :=
  .next (act (privAccess fn die ch off size value.toNat) s)

end Sys2Proof.Machine
end

