-- ==== Sys2Proof/Machine/Access.lean ====
section
/-!
DEFINITION. What takes rights on a surface away: SURF_DESTROY, SURF_GRANT, SURF_REVOKE (03 R64-R67, R77), the end of a retiring entry's
life (03 R53), and SHARE_SET (03 R72, R79).
-/

namespace Sys2Proof.Machine

/-! ### Loss of rights (03 R66) -/

/-- Has context `c` lost a right that a use needs?  `lost` gives the rights that each context lost; `need` is 0 READ or 1 WRITE. -/
def lostRight (lost : List (Nat × Nat)) (c need : Nat) : Bool := lost.any fun e => e.1 == c && bit e.2 need

/-- Does a job need a right on the surface of handle `v` that its context lost? -/
def jobHit (v : Nat) (lost : List (Nat × Nat)) (j : Job) : Bool :=
  (j.dst == v && lostRight lost j.pend.ctx 1) || (j.op ≠ 1 && j.src == v && lostRight lost j.pend.ctx 0)

/-- Does a running descriptor? -/
def chanHit (v : Nat) (lost : List (Nat × Nat)) (x : DmaChan) : Bool :=
  x.run.isSome && match x.queue with
    | [] => false
    | d :: _ => (d.dst == v && lostRight lost x.owner d.dstRight) || (d.hasSrc && d.src == v && lostRight lost x.owner 0)

/-- Stream 1 of an output stops writing. -/
def stopStream (o : Nat) (h : Hub) : Hub :=
  updOut h o fun x => { x with
    wbPeriod := 0, wbTarget := 0, wbRows := [], frame := x.frame.map fun f => { f with toTarget := false } }

/-- Write-back streams of contexts that lost WRITE on a surface stop. -/
def stopStreams (v : Nat) (lost : List (Nat × Nat)) (h : Hub) : Hub :=
  ((h.outs.filter fun e => e.2.wbTarget == v && v ≠ 0 &&
    (match listOwner h (listOf h e.1) with | none => false | some c => lostRight lost c 1)).map Prod.fst).foldl (fun h o => stopStream o h) h

/-- Camera streams of contexts that lost WRITE on a surface stop (13 R357). -/
def stopCameras (v : Nat) (lost : List (Nat × Nat)) (h : Hub) : Hub :=
  let uses (q : Option CamCfg) : Bool := match q with | none => false | some q => q.targets.contains v && lostRight lost q.owner 1
  ((h.ports.filter fun p => uses p.2.cam || uses p.2.camNext).map Prod.fst).foldl (fun h k => camStop k true h) h

/-- Contexts lose rights on the surface of handle `v`: their jobs, descriptors and streams stop (03 R66). -/
def stopUses (v : Nat) (lost : List (Nat × Nat)) (st : Nat) (m : List Host.Cell) (h : Hub) : Eff :=
  let r := stopJobsOn (upDies h) (fun j => if jobHit v lost j then some st else none) m h
  let ks := (r.1.dma.filter fun e => chanHit v lost e.2).map Prod.fst
  let h := ks.foldl (fun h k => stopChan k st h) r.1
  (surfChanged v (stopCameras v lost (stopStreams v lost h)), r.2)

/-- SURF_ACCESS_LOST to each context of a list of lost rights (03 R66). -/
def tellLost (v : Nat) (lost : List (Nat × Nat)) (destroyed : Bool) (h : Hub) : Hub :=
  lost.foldl (fun h e => postEvent e.1 0x0180 v (e.2 + 4 * b2n destroyed) h) h

/-! ### SURF_GRANT, SURF_REVOKE, SURF_DESTROY (03 R65-R67, R77) -/

/-- The rights that a grantee holds. -/
def grantOf (s : Surf) (g : Nat) : Nat := ((s.grants.find? fun e => e.1 == g).map Prod.snd).getD 0

/-- A surface with the rights of a grantee set; none at all removes the grant. -/
def setGrant (s : Surf) (g r : Nat) : Surf :=
  if r = 0 then { s with grants := s.grants.filter fun e => e.1 != g }
  else if s.grants.any fun e => e.1 == g then { s with grants := s.grants.map fun e => if e.1 = g then (g, r) else e }
  else { s with grants := s.grants ++ [(g, r)] }

/-- The rights of a grantee change: those lost have the effects of R66. -/
def putGrant (v g r : Nat) (m : List Host.Cell) (h : Hub) : Eff :=
  match surfOf h v with
  | none => (h, [])
  | some s =>
    let gone := (List.range 2).foldl (fun a i => if bit (grantOf s g) i && !bit r i then a + 2 ^ i else a) 0
    let h := { h with atlas := h.atlas.set (v % 65536) (setGrant s g r) }
    if gone = 0 then (h, [])
    else
      let e := stopUses v [(g, gone)] 0x0303 m h
      (tellLost v [(g, gone)] false e.1, e.2)

/-- Only the owner of a surface (03 R64). -/
def surfOwnerCk (h : Hub) (off v c : Nat) : Ck :=
  ckd (v % 65536 / 8192) 0x0302 off (match surfOf h v with | none => false | some s => s.owner ≠ c)

/-- SURF_GRANT (03 R65, R77). -/
def surfGrant : Spec :=
  { op := 0x0112, rsv := [(23, 41)]
    checks := fun c _ h =>
      let v := arg32 c 16
      let g := arg16 c 20
      let r := arg8 c 22
      handleCks h 16 v ++ [surfOwnerCk h 16 v c.ctx] ++ ctxCks h 20 g true ++
      [ck 0x0201 22 (r = 0 || r > 3), ck 0x040E 20 (g = c.ctx),
       ckd (v % 65536 / 8192) 0x0201 20 (match surfOf h v with
        | none => false
        | some s => s.owner == c.ctx && g ≠ c.ctx && !(s.grants.any fun e => e.1 == g) && s.grants.length ≥ 8)]
    run := fun c _ m h =>
      let e := putGrant (arg32 c 16) (arg16 c 20) (arg8 c 22) m h
      okRes e.1 0 0 e.2 }

/-- SURF_REVOKE (03 R66, R77). -/
def surfRevoke : Spec :=
  { op := 0x0113, rsv := [(23, 41)]
    checks := fun c _ h =>
      let v := arg32 c 16
      handleCks h 16 v ++ [surfOwnerCk h 16 v c.ctx] ++ ctxCks h 20 (arg16 c 20) false ++ [ck 0x0201 22 (arg8 c 22 > 3)]
    run := fun c _ m h =>
      match surfOf h (arg32 c 16) with
      | none => failRes h 0x0404 16
      | some s =>
        let g := arg16 c 20
        let left := (List.range 2).foldl (fun a i => if bit (grantOf s g) i && !bit (arg8 c 22) i then a + 2 ^ i else a) 0
        if left = grantOf s g then okRes h
        else
          let e := putGrant (arg32 c 16) g left m h
          okRes e.1 0 0 e.2 }

/-- The rights that every context loses when a surface goes: the grantees theirs, the owner all (03 R66). -/
def allRights (s : Surf) : List (Nat × Nat) := s.grants ++ [(s.owner, 3)]

/-- A surface becomes RETIRING (03 R53, R66, R68): nobody uses it any more, and its grantees are told. -/
def retireSurf (ix : Nat) (m : List Host.Cell) (h : Hub) : Eff :=
  match h.atlas.find ix with
  | none => (h, [])
  | some s =>
    if s.retiring then (h, [])
    else
      let v := handleOf ix s
      let e := stopUses v (allRights s) 0x0304 m h
      let h := { e.1 with atlas := e.1.atlas.upd ix fun s => { s with retiring := true } }
      (tellLost v s.grants true h, e.2)

/-- Does a committed layer record of context `c` read the surface of handle `v` (03 R67)? -/
def ownRecords (h : Hub) (c v : Nat) : Bool :=
  h.layers.any fun e => e.2.cur.source == v && listOwner h e.2.out == some c

/-- Does a staged record of one of the context's open transactions? -/
def ownStaged (h : Hub) (c v : Nat) : Bool := h.txns.any fun e => e.2.owner == c && e.2.layers.any fun l => l.2.source == v

/-- SURF_DESTROY (03 R67, R77). -/
def surfDestroy : Spec :=
  { op := 0x0111, rsv := [(20, 44)]
    checks := fun c _ h =>
      let v := arg32 c 16
      handleCks h 16 v ++
      [surfOwnerCk h 16 v c.ctx, ckd (v % 65536 / 8192) 0x0403 16 (v ≠ 0 && ownRecords h c.ctx v), ckd (v % 65536 / 8192) 0x0407 16 (v ≠ 0 && ownStaged h c.ctx v)]
    run := fun c _ m h =>
      let e := retireSurf (arg32 c 16 % 65536) m h
      okRes e.1 0 0 e.2 }

/-! ### ATLAS_ENTRY_FREE (03 R53, R68) -/

/-- Has a frame that has not finished scanning latched the surface, or does one that has been latched and not begun read it? -/
def frameReads (h : Hub) (v : Nat) : Bool :=
  h.outs.any fun e =>
    (match e.2.frame, e.2.scan with
     | some f, some _ => f.layers.any fun l => l.lr.source == v && !l.fill
     | _, _ => false) ||
    (match e.2.scan with
     | some sc => sc.latched && e.2.fills.any fun p => !p.2 && match h.layers.find p.1 with
        | none => false
        | some x => x.cur.source == v || h.txns.any fun t => t.2.state == TxnState.armed && (t.2.layers.get p.1 x.cur).source == v
     | none => false)

/-- Does a job, a descriptor, a write-back or a camera stream use the surface? -/
def workUses (h : Hub) (v : Nat) : Bool :=
  (h.dies.any fun d => d.2.plt.jobs.any fun j => j.dst == v || (j.op ≠ 1 && j.src == v)) ||
  (h.dma.any fun x => x.2.queue.any fun d => d.uses v) ||
  (h.outs.any fun e => e.2.wbTarget == v || (match e.2.frame with | none => false | some f => f.toTarget && e.2.wbTarget == v)) ||
  h.ports.any fun p => (match p.2.cam with | none => false | some q => q.targets.contains v) ||
    match p.2.camNext with | none => false | some q => q.targets.contains v

/-- A RETIRING entry that nothing uses becomes FREE; its region goes with the last one, where its owner has ended. -/
def entryFree (ix : Nat) (h : Hub) : Hub :=
  match h.atlas.find ix with
  | none => h
  | some s =>
    let v := handleOf ix s
    if !s.retiring || frameReads h v || workUses h v then h
    else
      let h := { h with atlas := h.atlas.del ix, gens := h.gens.set ix (s.gen + 1), freed := h.freed ++ [ix] }
      match h.regions.find s.region with
      | none => h
      | some r => if r.dead && !regionUsed h s.region then freeRegion s.region h else h

/-! ### SHARE_SET (03 R72, R79) -/

/-- The shares of a SHARE_SET. -/
def shareArg (c : Cmd) : Share := { bw := arg16 c 18, cycles := arg16 c 20, energy := arg8 c 22, mem := arg32 c 24 }

/-- A sum over groups 1 to 31 of a die with group `g` at `v`. -/
def shareSum (h : Hub) (d g v : Nat) (f : Share → Nat) : Nat :=
  ((List.range 31).map fun i => if i + 1 = g then v else f (shareSet h d (i + 1))).sum

/-- The first of tests 5 and 6 that the group's committed configuration fails under its new shares (03 R79, 07 R176).  DESIGN CHOICE
(log 81): the configurations that waiting and armed commits hold reserved are tested with it. -/
def shareTest (h : Hub) (d g : Nat) (s : Share) : Option (Nat × Nat × Nat) :=
  let dm := demandOf (heldViews h)
  let fp := stepClock (getDie h d).pwr.floor
  let n : Rat := ((inService h d).length : Nat)
  firstTest
    [testFail 0x0504 d 0xFF 5 g (groupDemand dm (camResvs h) d g) (9 / 10 * (s.bw : Rat) / 256 * dieBandwidth h d),
     testFail 0x0504 d 0xFF 6 g (groupCycles dm d g) (9 / 10 * (s.cycles : Rat) / 256 * n * fp)]

/-- SHARE_SET (03 R79). -/
def shareSetCmd : Spec :=
  { op := 0x0120, level := 2, locks := true, rsv := [(23, 1), (28, 36)]
    checks := fun c _ h =>
      let g := arg8 c 16
      let d := arg8 c 17
      let s := shareArg c
      let ok := 1 ≤ g && g ≤ 31 && d < 8 && dieUp h d
      [ck 0x0201 16 (g = 0 || g > 31), dieCk h 17 d,
       ck 0x0201 18 (s.bw > 256 || (ok && shareSum h d g s.bw Share.bw > 256)),
       ck 0x0201 20 (s.cycles > 256 || (ok && shareSum h d g s.cycles Share.cycles > 256)),
       ck 0x0201 22 (s.energy = 0), ckd d 0x0201 24 (ok && shareSum h d g s.mem Share.mem > poolSize h d),
       ckd d 0x0403 24 (ok && groupGranules h d g > s.mem)] ++
      (if !ok then [] else match shareTest h d g s with
        | none => []
        | some (st, r0, r1) => [{ st := st, off := 255, bad := true, r0 := r0, r1 := r1 }])
    run := fun c _ _ h => okRes { h with shares := h.shares.set (arg8 c 17 * 32 + arg8 c 16) (shareArg c) } }

/-! ### The rows -/

/-- SURF_DESTROY. -/
def execSurfDestroy (c : Cmd) (s : State) : Host.Outcome State Fault Refusal := .next (mail surfDestroy c s)
/-- SURF_GRANT. -/
def execSurfGrant (c : Cmd) (s : State) : Host.Outcome State Fault Refusal := .next (mail surfGrant c s)
/-- SURF_REVOKE. -/
def execSurfRevoke (c : Cmd) (s : State) : Host.Outcome State Fault Refusal := .next (mail surfRevoke c s)
/-- SHARE_SET. -/
def execShareSet (c : Cmd) (s : State) : Host.Outcome State Fault Refusal := .next (mail shareSetCmd c s)
/-- ATLAS_ENTRY_FREE. -/
def execAtlasEntryFree (index : Nat) (s : State) : Host.Outcome State Fault Refusal := .next (onHub (entryFree index) s)

end Sys2Proof.Machine
end

