-- ==== Sys2Proof/Machine/Crypto.lean ====
section
/-!
DEFINITION. The two functions that secure boot and debug unlock name: SHA-256 (FIPS 180-4) and ECDSA over P-256 (FIPS 186-4)
(19 R487, R492, R494).  The manual names them and does not restate them (log entry 22).
-/

namespace Sys2Proof.Machine

/-! ### SHA-256 -/

/-- Round constants 0 to 15. -/
def shaK0 : List (BitVec 32) :=
  [0x428A2F98, 0x71374491, 0xB5C0FBCF, 0xE9B5DBA5, 0x3956C25B, 0x59F111F1, 0x923F82A4, 0xAB1C5ED5,
   0xD807AA98, 0x12835B01, 0x243185BE, 0x550C7DC3, 0x72BE5D74, 0x80DEB1FE, 0x9BDC06A7, 0xC19BF174]

/-- Round constants 16 to 31. -/
def shaK1 : List (BitVec 32) :=
  [0xE49B69C1, 0xEFBE4786, 0x0FC19DC6, 0x240CA1CC, 0x2DE92C6F, 0x4A7484AA, 0x5CB0A9DC, 0x76F988DA,
   0x983E5152, 0xA831C66D, 0xB00327C8, 0xBF597FC7, 0xC6E00BF3, 0xD5A79147, 0x06CA6351, 0x14292967]

/-- Round constants 32 to 47. -/
def shaK2 : List (BitVec 32) :=
  [0x27B70A85, 0x2E1B2138, 0x4D2C6DFC, 0x53380D13, 0x650A7354, 0x766A0ABB, 0x81C2C92E, 0x92722C85,
   0xA2BFE8A1, 0xA81A664B, 0xC24B8B70, 0xC76C51A3, 0xD192E819, 0xD6990624, 0xF40E3585, 0x106AA070]

/-- Round constants 48 to 63. -/
def shaK3 : List (BitVec 32) :=
  [0x19A4C116, 0x1E376C08, 0x2748774C, 0x34B0BCB5, 0x391C0CB3, 0x4ED8AA4A, 0x5B9CCA4F, 0x682E6FF3,
   0x748F82EE, 0x78A5636F, 0x84C87814, 0x8CC70208, 0x90BEFFFA, 0xA4506CEB, 0xBEF9A3F7, 0xC67178F2]

/-- The 64 round constants. -/
def shaK : List (BitVec 32) := shaK0 ++ shaK1 ++ shaK2 ++ shaK3

/-- The initial hash value. -/
def shaInit : List (BitVec 32) := [0x6A09E667, 0xBB67AE85, 0x3C6EF372, 0xA54FF53A, 0x510E527F, 0x9B05688C, 0x1F83D9AB, 0x5BE0CD19]

/-- The number whose bytes, most significant first, are the list. -/
def beNat (b : Bytes) : Nat := b.foldl (fun n x => n * 256 + x.toNat) 0

/-- The `n` bytes of `v`, most significant first. -/
def beBytes (n v : Nat) : Bytes := (leBytes n v).reverse

/-- A message padded to whole blocks of 64 bytes. -/
def shaPad (b : Bytes) : Bytes := b ++ [0x80] ++ List.replicate ((119 - b.length % 64) % 64) 0 ++ beBytes 8 (8 * b.length)

/-- Big-endian 32-bit words. -/
def beWords32 : Bytes → List (BitVec 32)
  | a :: b :: c :: d :: t => (a ++ b ++ c ++ d) :: beWords32 t
  | _ => []

/-- The message schedule, newest word first, extended by `n` words. -/
def shaExtend : Nat → List (BitVec 32) → List (BitVec 32)
  | 0, w => w
  | n + 1, w =>
    let a := w.getD 14 0
    let b := w.getD 1 0
    let s0 := a.rotateRight 7 ^^^ a.rotateRight 18 ^^^ a >>> 3
    let s1 := b.rotateRight 17 ^^^ b.rotateRight 19 ^^^ b >>> 10
    shaExtend n ((s1 + w.getD 6 0 + s0 + w.getD 15 0) :: w)

/-- One round on the eight working words. -/
def shaRound (v : List (BitVec 32)) (kw : BitVec 32 × BitVec 32) : List (BitVec 32) :=
  match v with
  | [a, b, c, d, e, f, g, h] =>
    let t1 := h + (e.rotateRight 6 ^^^ e.rotateRight 11 ^^^ e.rotateRight 25) + ((e &&& f) ^^^ (~~~e &&& g)) + kw.1 + kw.2
    let t2 := (a.rotateRight 2 ^^^ a.rotateRight 13 ^^^ a.rotateRight 22) + ((a &&& b) ^^^ (a &&& c) ^^^ (b &&& c))
    [t1 + t2, a, b, c, d + t1, e, f, g]
  | _ => v

/-- The hash value after one block of 16 words. -/
def shaBlock (v blk : List (BitVec 32)) : List (BitVec 32) :=
  let w := (shaExtend 48 blk.reverse).reverse
  List.zipWith (· + ·) v ((shaK.zip w).foldl shaRound v)

/-- The hash value after every block of the words; `n` bounds their number. -/
def shaBlocks : Nat → List (BitVec 32) → List (BitVec 32) → List (BitVec 32)
  | 0, v, _ => v
  | n + 1, v, w => if w.isEmpty then v else shaBlocks n (shaBlock v (w.take 16)) (w.drop 16)

/-- SHA-256 of a message, 32 bytes. -/
def sha256 (b : Bytes) : Bytes :=
  let w := beWords32 (shaPad b)
  (shaBlocks (w.length / 16) shaInit w).flatMap fun x => beBytes 4 x.toNat

/-! ### ECDSA over P-256 -/

/-- The prime of the field. -/
def p256P : Nat := 2 ^ 256 - 2 ^ 224 + 2 ^ 192 + 2 ^ 96 - 1

/-- The order of the base point. -/
def p256N : Nat := 0xFFFFFFFF00000000FFFFFFFFFFFFFFFFBCE6FAADA7179E84F3B9CAC2FC632551

/-- The coefficient b of y^2 = x^3 - 3x + b. -/
def p256B : Nat := 0x5AC635D8AA3A93E7B3EBBD55769886BC651D06B0CC53B0F63BCE3C3E27D2604B

/-- The base point. -/
def p256G : Nat × Nat :=
  (0x6B17D1F2E12C4247F8BCE6E563A440F277037D812DEB33A0F4A13945D898C296,
   0x4FE342E2FE1A7F9B8EE7EB4A7C0F9E162BCE33576B315ECECBB6406837BF51F5)

/-- `b` to the power `e` modulo `m`, for an exponent of at most `n` bits. -/
def powMod (m : Nat) : Nat → Nat → Nat → Nat
  | 0, _, _ => 1 % m
  | n + 1, b, e =>
    let r := powMod m n (b * b % m) (e / 2)
    if e % 2 = 1 then b * r % m else r

/-- The inverse of `a` modulo the prime `m`. -/
def invMod (m a : Nat) : Nat := powMod m 256 (a % m) (m - 2)

/-- The point on a line of slope `s` through `a`, mirrored, with the other x-coordinate `x2`. -/
def chord (s : Nat) (a : Nat × Nat) (x2 : Nat) : Nat × Nat :=
  let x := (s * s + 2 * p256P - a.1 - x2) % p256P
  (x, (s * (a.1 + p256P - x) + p256P - a.2) % p256P)

/-- The sum of two points of the curve; none is the point at infinity. -/
def ptAdd (p q : Option (Nat × Nat)) : Option (Nat × Nat) :=
  match p, q with
  | none, q => q
  | p, none => p
  | some a, some b =>
    if a.1 = b.1 then
      if (a.2 + b.2) % p256P = 0 then none
      else some (chord ((3 * a.1 * a.1 + 3 * (p256P - 1)) * invMod p256P (2 * a.2) % p256P) a b.1)
    else some (chord ((b.2 + p256P - a.2) * invMod p256P (b.1 + p256P - a.1) % p256P) a b.1)

/-- The multiple of a point, for a factor of at most `n` bits. -/
def ptMul : Nat → Nat → Option (Nat × Nat) → Option (Nat × Nat)
  | 0, _, _ => none
  | n + 1, k, p =>
    let r := ptMul n (k / 2) (ptAdd p p)
    if k % 2 = 1 then ptAdd p r else r

/-- Is (x, y) a point of the curve?  The all-zero key is none. -/
def onCurve (q : Nat × Nat) : Bool :=
  q.1 < p256P && q.2 < p256P && (q.2 * q.2) % p256P == (q.1 * q.1 * q.1 + 3 * (p256P - q.1) + p256B) % p256P

/-- Does the signature (r, s) of the hash verify with the public key? -/
def ecdsaOk (key : Nat × Nat) (hash r s : Nat) : Bool :=
  onCurve key && 0 < r && r < p256N && 0 < s && s < p256N &&
    (let w := invMod p256N s
     match ptAdd (ptMul 256 (hash * w % p256N) (some p256G)) (ptMul 256 (r * w % p256N) (some key)) with
     | none => false
     | some p => p.1 % p256N == r)

end Sys2Proof.Machine
end

