-- ==== Sys2Proof/Machine/Records.lean ====
section
/-!
DEFINITION. The Attic of a die: its words, the fields of the key area, and the record controller (19 R478-R486).
-/

namespace Sys2Proof.Machine

/-- The Attic block of a die changed by `f`. -/
def updAtc (h : Hub) (d : Nat) (f : Atc → Atc) : Hub := updDie h d fun x => { x with atc := f x.atc }

/-- CRC-32 of R268 of a byte sequence. -/
def crc32 (b : Bytes) : Nat := crcOut 32 true true (crcFeed 32 0x04C11DB7 true 0xFFFFFFFF b)

/-- Is sequence number `a` later than `b` (19 R482)? -/
def seqLater (a b : Nat) : Bool :=
  let n := (a + 65536 - b % 65536) % 65536
  1 ≤ n && n ≤ 32767

/-! ### Words and the key area (19 R478, R479) -/

/-- The header word of a copy of LOCK (0xF1), SELECT (0xF2) or SVN_MIN (0xF3). -/
def keyHeader (t seq v : Nat) : Nat :=
  let low := t + 65536 * seq
  low + 2 ^ 32 * crc32 (leBytes 4 low ++ leBytes 8 v)

/-- The word at which copy `k` of a key-area field stands. -/
def keyWord (t k : Nat) : Nat := 0x20 + 2 * (t - 0xF1) + 0x20 * k

/-- What a word holds that nothing has written since the factory (log entry 21). -/
def factoryWord (d w : Nat) : BitVec 64 :=
  match w with
  | 0 => Config.device d
  | 0x20 => BitVec.ofNat 64 (keyHeader 0xF1 1 0)
  | 0x22 => BitVec.ofNat 64 (keyHeader 0xF2 1 0)
  | 0x24 => BitVec.ofNat 64 (keyHeader 0xF3 1 0)
  | _ => 0

/-- A word of die `d`'s Attic. -/
def atcWord (a : Atc) (d w : Nat) : BitVec 64 := (a.words.find w).getD (factoryWord d w)

/-- SEQ and value of a copy of a key-area field, where it is valid. -/
def keyCopy (a : Atc) (d t k : Nat) : Option (Nat × Nat) :=
  let hd := (atcWord a d (keyWord t k)).toNat
  let v := (atcWord a d (keyWord t k + 1)).toNat
  if hd % 256 = t && hd == keyHeader t (bits hd 16 16) v then some (bits hd 16 16, v) else none

/-- The copy of a key-area field that counts: its number, SEQ and value. -/
def keyField (a : Atc) (d t : Nat) : Option (Nat × Nat × Nat) :=
  match keyCopy a d t 0, keyCopy a d t 1 with
  | some x, some y => if seqLater y.1 x.1 then some (1, y) else some (0, x)
  | some x, none => some (0, x)
  | none, some y => some (1, y)
  | none, none => none

/-- The LOCK word as the boot ROM takes it. -/
def lockWord (a : Atc) (d : Nat) : Bool := match keyField a d 0xF1 with | none => true | some x => bit x.2.2 0

/-- SELECT as the boot ROM takes it. -/
def selectWord (a : Atc) (d : Nat) : Nat := match keyField a d 0xF2 with | none => 0 | some x => x.2.2 % 2

/-- SVN_MIN, where a copy is valid. -/
def svnMin (a : Atc) (d : Nat) : Option Nat := (keyField a d 0xF3).map fun x => x.2.2 % 2 ^ 32

/-- DEBUG_KEY: x and y. -/
def debugKey (a : Atc) (d : Nat) : Nat × Nat :=
  let b := (List.range 8).flatMap fun i => leBytes 8 (atcWord a d (8 + i)).toNat
  (beNat (b.take 32), beNat (b.drop 32))

/-- Copy `k` of field `t` written with a sequence number, value word first and header word last, in at most `n` attempts (19 R479, R483; log
91): a word that fails its read-back holds a free value, which in the header word is not a header of the field.  The answer: the Attic,
whether an attempt succeeded, and the next free number. -/
def tryKey (n ix t k seq v : Nat) (a : Atc) : Atc × Bool × Nat :=
  match n with
  | 0 => (a, false, ix)
  | n + 1 =>
    let value := a.words.set (keyWord t k + 1) (BitVec.ofNat 64 v)
    let junk := Config.freeWord (ix + 2)
    if !Config.freeBit ix then
      ({ a with words := value.set (keyWord t k) (BitVec.ofNat 64 (keyHeader t seq v)) }, true, ix + 3)
    else
      tryKey n (ix + 3) t k seq v { a with
        words := if Config.freeBit (ix + 1) then a.words.set (keyWord t k + 1) junk
          else value.set (keyWord t k) (if junk.toNat % 256 = t then junk ^^^ 1 else junk)
        retries := satInc 255 a.retries }

/-- A key-area field takes a value in the copy that is not current; where that fails three times, the current copy stands. -/
def putKey (ix d t v : Nat) (a : Atc) : Atc × Bool × Nat :=
  match keyField a d t with
  | none => tryKey 3 ix t 0 1 v a
  | some x => tryKey 3 ix t (1 - x.1) ((x.2.1 + 1) % 65536) v a

/-- The update of a key-area field on a die, which may fail (19 R479); the answer says whether it did not. -/
def writeKey (d t v : Nat) (h : Hub) : Hub × Bool :=
  let w := putKey h.freeIx d t v (getDie h d).atc
  ({ updAtc h d (fun _ => w.1) with freeIx := w.2.2 }, w.2.1)

/-! ### Records (19 R480-R482) -/

/-- The first word of a record slot. -/
def slotWord (s : Nat) : Nat := 0x2E000 + 8 * s

/-- The 64 bytes of a record slot. -/
def slotBytes (a : Atc) (s : Nat) : Bytes := (List.range 8).flatMap fun i => leBytes 8 (a.words.get (slotWord s + i) 0).toNat

/-- Record slots in which something has been written. -/
def usedSlots (a : Atc) : List Nat :=
  ((a.words.filter fun (e : Nat × BitVec 64) => decide (e.1 ≥ 0x2E000)).map fun e => (e.1 - 0x2E000) / 8).eraseDups

/-- Fields of a record. -/
def recType (r : Bytes) : Nat := leNat (r.take 1)
/-- FLAGS.DELETE. -/
def recDelete (r : Bytes) : Bool := bit (leNat ((r.drop 1).take 1)) 0
/-- SEQ. -/
def recSeq (r : Bytes) : Nat := leNat ((r.drop 2).take 2)
/-- KEY. -/
def recKey (r : Bytes) : Nat := leNat ((r.drop 8).take 4)
/-- GROUP. -/
def recGroup (r : Bytes) : Nat := leNat ((r.drop 12).take 4)
/-- The payload. -/
def recPayload (r : Bytes) : Bytes := r.drop 16

/-- Is the record's CRC right? -/
def recValid (r : Bytes) : Bool := leNat ((r.drop 4).take 4) == crc32 (r.take 4 ++ r.drop 8)

/-- The valid records of an Attic with their slots. -/
def validRecs (a : Atc) : List (Nat × Bytes) := ((usedSlots a).map fun s => (s, slotBytes a s)).filter fun e => recValid e.2

/-- Records of one type and key in the list, the latest of them first found. -/
def latest (l : List (Nat × Bytes)) (t k : Nat) : Option (Nat × Bytes) :=
  (l.filter fun e => recType e.2 == t && recKey e.2 == k).foldl (fun b e =>
    match b with
    | none => some e
    | some x => if seqLater (recSeq e.2) (recSeq x.2) then some e else b) none

/-- The records of group `g` in SEQ order. -/
def groupRecs (l : List (Nat × Bytes)) (g : Nat) : List Bytes :=
  ((l.filter fun e => recGroup e.2 == g).map Prod.snd).mergeSort fun a b =>
    (recSeq a + 65536 - g % 65536) % 65536 ≤ (recSeq b + 65536 - g % 65536) % 65536

/-- Has group `g` a commit record whose count and CRC match (19 R481, R482; their places in the payload: log entry 23)? -/
def groupOk (l : List (Nat × Bytes)) (g : Nat) : Bool :=
  match latest l 0x0F g with
  | none => false
  | some c =>
    let rs := groupRecs l g
    leNat ((recPayload c.2).take 4) == rs.length && leNat (((recPayload c.2).drop 4).take 4) == crc32 rs.flatten

/-- The valid records that count. -/
def countedRecs (a : Atc) : List (Nat × Bytes) :=
  let l := validRecs a
  let ok := ((l.map fun e => recGroup e.2).eraseDups).filter fun g => g == 0 || groupOk l g
  l.filter fun e => ok.contains (recGroup e.2)

/-- The current records: for each type and key the latest that counts. -/
def currentRecs (a : Atc) : List (Nat × Bytes) :=
  let l := countedRecs a
  l.filter fun e => match latest l (recType e.2) (recKey e.2) with | none => false | some x => x.1 == e.1

/-- The value that a key has: the payload of its current record, unless that deletes it. -/
def recValue (a : Atc) (t k : Nat) : Option Bytes :=
  match latest (countedRecs a) t k with
  | none => none
  | some e => if recDelete e.2 then none else some (recPayload e.2)

/-- Keys of a type that have a value, with their payloads, in rising order of the keys. -/
def recValues (a : Atc) (t : Nat) : List (Nat × Bytes) :=
  (((currentRecs a).filter fun e => recType e.2 == t && !recDelete e.2).map fun e => (recKey e.2, recPayload e.2)).mergeSort
    fun a b => a.1 ≤ b.1

/-! ### The record controller (19 R483, R484) -/

/-- Slots that hold no current record. -/
def freeSlots (a : Atc) : Nat := 9216 - (currentRecs a).length

/-- The next free slot after the write pointer. -/
def nextSlot (a : Atc) : Option Nat :=
  let cur := (currentRecs a).map Prod.fst
  (firstNat (fun i => !cur.contains ((a.ptr + i) % 9216)) 9216 1).map fun i => (a.ptr + i) % 9216

/-- The 64 bytes of a record with its CRC. -/
def recBytes (t flags seq key group : Nat) (payload : Bytes) : Bytes :=
  let low := leBytes 4 (t + 256 * flags + 65536 * seq)
  let body := leBytes 4 key ++ leBytes 4 group ++ (payload ++ List.replicate (48 - payload.length) 0).take 48
  low ++ leBytes 4 (crc32 (low ++ body)) ++ body

/-- Word `i` of a record. -/
def recWord (r : Bytes) (i : Nat) : BitVec 64 := BitVec.ofNat 64 (leNat ((r.drop (8 * i)).take 8))

/-- The Attic with the first `n` words of a record written into a slot, payload words before the header word. -/
def writeWords (s : Nat) (r : Bytes) (n : Nat) (t : Tab (BitVec 64)) : Tab (BitVec 64) :=
  ([1, 2, 3, 4, 5, 6, 7, 0].take n).foldl (fun t i => t.set (slotWord s + i) (recWord r i)) t

/-- One attempt after another to write a record, at most `n`: a word that fails its read-back holds a free value, and the record starts
again in the next free slot.  The answer: the Attic, the slot of a success, the slot tried last, and the next free number. -/
def tryRecord (n ix : Nat) (r : Bytes) (a : Atc) : Atc × Bool × Nat × Nat :=
  match n with
  | 0 => (a, false, a.ptr, ix)
  | n + 1 =>
    match nextSlot a with
    | none => (a, false, a.ptr, ix)
    | some s =>
      if !Config.freeBit ix then ({ a with words := writeWords s r 8 a.words, ptr := s, written := a.written + 1 }, true, s, ix + 3)
      else
        let k := (Config.freeWord (ix + 1)).toNat % 8
        let bad := [1, 2, 3, 4, 5, 6, 7, 0].getD k 0
        tryRecord n (ix + 3) r { a with
          words := (writeWords s r k a.words).set (slotWord s + bad) (Config.freeWord (ix + 2))
          ptr := s, retries := satInc 255 a.retries }

/-- What a caller asks to be written: type, FLAGS, KEY and payload. -/
abbrev NewRec := Nat × Nat × Nat × Bytes

/-- One record is written with the next SEQ. -/
def putRecord (ix group : Nat) (x : NewRec) (a : Atc) : Atc × Bool × Nat × Nat :=
  let seq := (a.seq + 1) % 65536
  tryRecord 3 ix (recBytes x.1 x.2.1 seq x.2.2.1 group x.2.2.2) { a with seq := seq }

/-- The oldest current record, where the next write is the last one that the span of 32,767 allows it to be compared with, and so has to be
its new copy (19 R484). -/
def overSpan (a : Atc) : Option Bytes :=
  (currentRecs a).findSome? fun e => if (a.seq + 1 + 65536 - recSeq e.2) % 65536 ≥ 32767 then some e.2 else none

/-- Old current records are rewritten while the next write would exceed the span, until a rewrite fails; `n` bounds their number. -/
def keepSpan (n ix : Nat) (a : Atc) : Atc × Nat :=
  match n with
  | 0 => (a, ix)
  | n + 1 =>
    match overSpan a with
    | none => (a, ix)
    | some r =>
      let w := putRecord ix 0 (recType r, b2n (recDelete r), recKey r, recPayload r) a
      if w.2.1 then keepSpan n w.2.2.2 w.1 else (w.1, w.2.2.2)

/-- Records written one after another, until one fails. -/
def putRecords (ix group : Nat) (l : List NewRec) (a : Atc) : Atc × Bool × Nat × Nat :=
  match l with
  | [] => (a, true, a.ptr, ix)
  | x :: t =>
    let p := keepSpan 9216 ix a
    let w := putRecord p.2 group x p.1
    if w.2.1 then putRecords w.2.2.2 group t w.1 else w

/-- The commit record of the group that a list of records has just been written as. -/
def commitRec (a : Atc) (g : Nat) : NewRec :=
  let rs := groupRecs (validRecs a) g
  (0x0F, 0, g, leBytes 4 rs.length ++ leBytes 4 (crc32 rs.flatten))

/-- Records are written to the Attic of die `d`, as members of group `group` (0: none); a failure is reported (17 R441). -/
def writeRecords (d group : Nat) (l : List NewRec) (h : Hub) : Hub × Bool :=
  let w := putRecords h.freeIx group l (getDie h d).atc
  let h := { updAtc h d (fun _ => w.1) with freeIx := w.2.2.2 }
  if w.2.1 then (h, true)
  else (faultReport d 0x0706 (unitId 0x0C d 0) (unitId 0x0C d 0) (0x170000 + 64 * w.2.2.1) h, false)

/-- The same records on several dies, one after another; a die that fails does not stop the others. -/
def writeOn (ds : List Nat) (l : List NewRec) (h : Hub) : Hub × Bool :=
  ds.foldl (fun r d => let w := writeRecords d 0 l r.1; (w.1, w.2 && r.2)) (h, true)

/-- The dies in the order in which a command writes them: the principal last, so that its failure leaves its old record, which the
next start gives to every die (19 R486; log entry 23). -/
def writeOrder (h : Hub) : List Nat := ((upDies h).filter (· != h.pkg.principal)) ++ (upDies h).filter (· == h.pkg.principal)

end Sys2Proof.Machine
end

