-- ==== Sys2Proof/Machine/Attic.lean ====
section
/-!
DEFINITION. Mode entries in the Attic, provisioning and firmware images, and the ATC_ registers with raw access, locking and debug
unlock (08 R204, R234; 19 R487-R495).
-/

namespace Sys2Proof.Machine

/-! ### MODE_WRITE (08 R204, R234) -/

/-- Does an output use mode number `n`? -/
def modeUsed (h : Hub) (n : Nat) : Bool := h.outs.any fun o => match o.2.mode with | none => false | some e => e.num == n

/-- Does an open transaction stage OUT_MODE naming mode `n`? -/
def modeStaged (h : Hub) (n : Nat) : Bool :=
  h.txns.any fun t => t.2.outs.any fun o => match o.2.mode with | none => false | some m => m.1 == n

/-- Has every die's Attic room for `n` more records? -/
def atticRoom (h : Hub) (n : Nat) : Bool := (upDies h).all fun d => n ≤ freeSlots (getDie h d).atc

/-- MODE_WRITE. -/
def modeWrite : Spec :=
  { op := 0x0412, level := 2, locks := true, rsv := [(48, 16)], listed := true
    checks := fun c _ h =>
      let b := argBytes c 16 32
      let n := arg8 c 16
      entryCks 16 b ++ [ck 0x0403 16 (modeUsed h n), ck 0x0407 16 (modeStaged h n), ck 0x060A 255 (!atticRoom h 1)]
    run := fun c _ _ h =>
      let b := argBytes c 16 32
      let n := arg8 c 16
      let w := writeOn (writeOrder h) [(6, 0, n, b)] h
      if w.2 then okRes { w.1 with modes := w.1.modes.set n (entryOfBytes b) } else failRes w.1 0x0706 255 }

/-! ### Provisioning images (19 R494) -/

/-- The `n` bytes that the Keeper read from a buffer. -/
def bufBytes (c : Cmd) (n : Nat) : Bytes := (c.block ++ List.replicate (n - c.block.length) 0).take n

/-- The records of 64 bytes of a sequence; `n` bounds their number. -/
def splitRecs : Nat → Bytes → List Bytes
  | 0, _ => []
  | n + 1, b => if b.isEmpty then [] else b.take 64 :: splitRecs n (b.drop 64)

/-- Blob numbers that the image's boot outputs of die `d` name (record packing: log entry 23). -/
def blobsOf (d : Nat) (rs : List Bytes) : List Nat :=
  (rs.filter fun r => recType r == 7 && leNat ((recPayload r).take 1) / 4 == d).map fun r => leNat (((recPayload r).drop 3).take 1)

/-- What ATC_LOAD writes on die `d`: the image's records, but chunks only of the blobs that the die's boot outputs name (19 R482), and a
DELETE for every key of types 1 to 8 that they do not hold. -/
def loadRecs (h : Hub) (d : Nat) (rs : List Bytes) : List NewRec :=
  let mine := rs.filter fun r => recType r ≠ 8 || (blobsOf d rs).contains (recKey r / 65536)
  let cur := (currentRecs (getDie h d).atc).filter fun e =>
    1 ≤ recType e.2 && recType e.2 ≤ 8 && !recDelete e.2 && !mine.any fun r => recType r == recType e.2 && recKey r == recKey e.2
  mine.map (fun r => (recType r, leNat ((r.drop 1).take 1), recKey r, recPayload r)) ++
    cur.map fun e => (recType e.2, 1, recKey e.2, [])

/-- The group number of the next object that a die writes: the SEQ of its first record. -/
def nextGroup (h : Hub) (d : Nat) : Nat := ((getDie h d).atc.seq + 1) % 65536

/-- A die rewrites its oldest current records where the next write would exceed the span, so that the record after it begins an object. -/
def keepDie (d : Nat) (h : Hub) : Hub :=
  let w := keepSpan 9216 h.freeIx (getDie h d).atc
  { updAtc h d (fun _ => w.1) with freeIx := w.2 }

/-- ATC_LOAD on every die: every record first, then every commit record; a failure leaves uncommitted what is left to commit (19 R483). -/
def loadImage (rs : List Bytes) (h : Hub) : Hub × Bool × Nat :=
  let ds := writeOrder h
  let h := ds.foldl (fun h d => keepDie d h) h
  let plan := ds.map fun d => (d, nextGroup h d, loadRecs h d rs)
  let a := plan.foldl (fun (r : Hub × Bool) p => let w := writeRecords p.1 p.2.1 p.2.2 r.1; (w.1, w.2 && r.2)) (h, true)
  let n := ((plan.find? fun p => p.1 == h.pkg.principal).map fun p => p.2.2.length + 1).getD 0
  if !a.2 then (a.1, false, 0)
  else
    let b := plan.foldl (fun (r : Hub × Bool) p =>
      if r.2 then writeRecords p.1 0 [commitRec (getDie r.1 p.1).atc p.2.1] r.1 else r) a
    (b.1, b.2, n)

/-- ATC_LOAD. -/
def atcLoad : Spec :=
  { op := 0x0B00, level := 2, locks := true, rsv := [(28, 36)]
    checks := fun c _ h =>
      let n := arg32 c 24
      let b := bufBytes c n
      let body := b.drop 64
      let rs := splitRecs (n / 64) body
      let count := leNat ((b.drop 8).take 4)
      let lenOk := 128 ≤ n && n ≤ 1048576 && n % 64 == 0
      [bufCk c 16, ck 0x0201 24 !lenOk, ck 0x0104 24 (lenOk && n ≠ 64 + 64 * count),
       ck 0x0106 255 (lenOk && (leNat (b.take 4) ≠ 0x56504D53 || leNat ((b.drop 4).take 4) ≠ 1 ||
         (b.drop 16).take 32 ≠ sha256 body || rs.any fun r => recSeq r ≠ 0 || !recValid r)),
       ck 0x060A 255 (lenOk && (upDies h).any fun d => (loadRecs h d rs).length + 1 > freeSlots (getDie h d).atc)]
    run := fun c _ _ h =>
      let n := arg32 c 24
      let w := loadImage (splitRecs (n / 64) ((bufBytes c n).drop 64)) h
      if w.2.1 then okRes w.1 w.2.2 else failRes w.1 0x0706 255 }

/-! ### Firmware images (19 R487-R489) -/

/-- Fields of an image's header. -/
def imgNat (b : Bytes) (o : Nat) : Nat := leNat ((b.drop o).take 4)

/-- BODY_LEN. -/
def imgLen (b : Bytes) : Nat := imgNat b 12

/-- Has an image its MAGIC, a body length that it holds, and the hash of that body? -/
def imgBody (b : Bytes) : Bool :=
  imgNat b 0 == 0x4B464D53 && 1 ≤ imgLen b && imgLen b ≤ 720768 && 128 + imgLen b ≤ b.length &&
    (b.drop 16).take 32 == sha256 ((b.drop 128).take (imgLen b))

/-- Does the signature of an image's header verify? -/
def imgSigned (b : Bytes) : Bool :=
  let k := Config.bootKey
  ecdsaOk (k.1.toNat, k.2.toNat) (beNat (sha256 (b.take 64))) (beNat ((b.drop 64).take 32)) (beNat ((b.drop 96).take 32))

/-- FW_VERSION and SVN of an image that verifies. -/
def imgOf (b : Bytes) : Option (Nat × Nat) := if imgBody b && imgSigned b then some (imgNat b 4, imgNat b 8) else none

/-- What a slot (0 A, 1 B) of an Attic holds, where it verifies. -/
def slotImg (a : Atc) (s : Nat) : Option (Nat × Nat) := if s = 0 then a.imgA else a.imgB

/-- The Attic with what a slot holds replaced. -/
def setSlotImg (s : Nat) (v : Option (Nat × Nat)) (a : Atc) : Atc := if s = 0 then { a with imgA := v } else { a with imgB := v }

/-- Is a slot valid under R488: it verifies, and its SVN is not below SVN_MIN? -/
def slotValid (a : Atc) (d s : Nat) : Bool :=
  match slotImg a s, svnMin a d with
  | some v, some m => decide (m ≤ v.2)
  | _, _ => false

/-- The first word of a slot. -/
def slotBase (s : Nat) : Nat := if s = 0 then 0x2000 else 0x18000

/-- The words of a byte sequence; `n` bounds their number. -/
def words64 : Nat → Bytes → List (BitVec 64)
  | 0, _ => []
  | n + 1, b => if b.isEmpty then [] else BitVec.ofNat 64 (leNat (b.take 8)) :: words64 n (b.drop 8)

/-- The Attic's words with a run of words from word `w` on. -/
def putWords (w : Nat) (vs : List (BitVec 64)) (t : Tab (BitVec 64)) : Tab (BitVec 64) :=
  (t.filter fun (e : Nat × BitVec 64) => decide (e.1 < w)) ++ vs.zipIdx.map (fun v => (w + v.2, v.1)) ++
    t.filter fun (e : Nat × BitVec 64) => decide (e.1 ≥ w + vs.length)

/-- The slot that is not running. -/
def idleSlot (a : Atc) : Nat := 1 - a.image

/-- An image goes into the idle slot of a die; a write may fail, and one word then holds a free value. -/
def stageOn (b : Bytes) (r : Hub × Bool) (d : Nat) : Hub × Bool :=
  let (ix, h) := takeFree r.1
  let (jx, h) := takeFree h
  let a := (getDie h d).atc
  let s := idleSlot a
  let vs := words64 90112 b
  let bad := Config.freeBit ix
  let words := putWords (slotBase s) vs a.words
  let words := if bad then words.set (slotBase s + 16 + jx % max 1 (vs.length - 16)) (Config.freeWord jx) else words
  (updAtc h d fun a => setSlotImg s (if bad then none else imgOf b) { a with words := words }, r.2 && !bad)

/-- The staged slots of every die are written with MAGIC 0. -/
def unstage (h : Hub) : Hub :=
  (upDies h).foldl (fun h d => updAtc h d fun a =>
    let w := slotBase (idleSlot a)
    setSlotImg (idleSlot a) none { a with words := a.words.set w (atcWord a d w &&& 0xFFFFFFFF00000000) }) h

/-- ATC_FW_STAGE. -/
def atcFwStage : Spec :=
  { op := 0x0B01, level := 2, locks := true, rsv := [(28, 36)]
    checks := fun c _ h =>
      let n := arg32 c 24
      let b := bufBytes c n
      let ok := 192 ≤ n && n ≤ 720896
      [bufCk c 16, ck 0x0201 24 !ok, ck 0x0106 255 (ok && !imgBody b), ck 0x0308 255 (ok && !imgSigned b),
       ck 0x0309 255 (ok && (upDies h).any fun d => match svnMin (getDie h d).atc d with | none => true | some m => imgNat b 8 < m)]
    run := fun c _ _ h =>
      let w := (upDies h).foldl (stageOn (bufBytes c (arg32 c 24))) (h, true)
      if w.2 then okRes w.1 else failRes (unstage w.1) 0x0706 255 }

/-- ATC_FW_SELECT. -/
def atcFwSelect : Spec :=
  { op := 0x0B02, level := 2, locks := true, rsv := [(17, 47)]
    checks := fun c _ h =>
      let s := arg8 c 16
      [ck 0x0106 16 (s > 1), ck 0x0404 16 (s ≤ 1 && (upDies h).any fun d => !slotValid (getDie h d).atc d s)]
    run := fun c _ _ h =>
      let w := (upDies h).foldl (fun (r : Hub × Bool) d => let w := writeKey d 0xF2 (arg8 c 16) r.1; (w.1, w.2 && r.2)) (h, true)
      if w.2 then okRes w.1 else failRes w.1 0x0706 255 }

/-- SVN_MIN of a die is raised to the SVN of its running image, unless it is there already. -/
def raiseSvn (r : Hub × Bool) (d : Nat) : Hub × Bool :=
  let a := (getDie r.1 d).atc
  if (match svnMin a d with | none => false | some m => a.svn ≤ m) then r
  else let w := writeKey d 0xF3 a.svn r.1; (w.1, w.2 && r.2)

/-- ATC_FW_COMMIT. -/
def atcFwCommit : Spec :=
  { op := 0x0B03, level := 2, locks := true, rsv := [(16, 48)]
    run := fun _ _ _ h =>
      let w := (upDies h).foldl raiseSvn (h, true)
      if w.2 then okRes w.1 ((svnMin (getDie w.1 w.1.pkg.principal).atc w.1.pkg.principal).getD 0) else failRes w.1 0x0706 255 }

/-- FREE: 0 until the Attic has been loaded at step 6. -/
def atcFree (h : Hub) (d : Nat) : Nat := if (getDie h d).kpr.step ≥ 6 then freeSlots (getDie h d).atc else 0

/-- ATC_QUERY (19 R495). -/
def atcQuery : Spec :=
  { op := 0x0B04, level := 1, rsv := [(17, 7), (32, 32)]
    checks := fun c _ h => [dieCk h 16 (arg8 c 16), bufCk c 24]
    run := fun c _ _ h =>
      let d := arg8 c 16
      let a := (getDie h d).atc
      let img (s : Nat) : Nat × Nat := if slotValid a d s then (slotImg a s).getD (0, 0) else (0, 0)
      okRes (ctxWrite c.ctx (arg64 c 24)
        (leBytes 1 (a.image + 2 * selectWord a d) ++ leBytes 1 (b2n a.locked + 2 * b2n a.unlocked + 4 * b2n a.barred) ++
          leBytes 2 (atcFree h d) ++ leBytes 4 ((svnMin a d).getD 0) ++
          leBytes 4 (img 0).1 ++ leBytes 4 (img 0).2 ++ leBytes 4 (img 1).1 ++ leBytes 4 (img 1).2 ++
          leBytes 8 a.written ++ leBytes 32 0) h) 64 }

/-! ### Raw access (19 R490-R492) -/

/-- The slot (0 A, 1 B) in which a word lies. -/
def wordSlot (w : Nat) : Option Nat :=
  if 0x2000 ≤ w && w < 0x18000 then some 0 else if 0x18000 ≤ w && w < 0x2E000 then some 1 else none

/-- Is the word part of a copy of SVN_MIN? -/
def svnWord (w : Nat) : Bool := w == 0x24 || w == 0x25 || w == 0x44 || w == 0x45

/-- The bytes of a slot as far as they have been written. -/
def slotContent (a : Atc) (s : Nat) : Bytes := (List.range 90112).flatMap fun i => leBytes 8 (a.words.get (slotBase s + i) 0).toNat

/-- A slot after a raw write: verified again; where the factory image's header still stands, whether the word belongs to the image is not
known, and it stays valid by a free bit. -/
def reverify (s ix : Nat) (a : Atc) : Atc :=
  if (slotImg a s).isSome && !a.words.has (slotBase s) then (if Config.freeBit ix then a else setSlotImg s none a)
  else setSlotImg s (imgOf (slotContent a s)) a

/-- A word that no one has written in a firmware slot since the factory reads as a free value. -/
def rawRead (a : Atc) (d w ix : Nat) : Nat :=
  if (wordSlot w).isSome && !a.words.has w then (Config.freeWord ix).toNat else (atcWord a d w).toNat

/-- May a raw write to word `w` be made (19 R479, R488, R490)?  Whether a copy of SVN_MIN is valid does not depend on the die. -/
def rawAllowed (a : Atc) (w : Nat) (jtag : Bool) : Bool :=
  if a.inRom && (wordSlot w).isSome then true
  else if a.inRom && (svnMin a 0).isNone && svnWord w then jtag && a.unlocked
  else !a.locked

/-- IGNORED counts. -/
def atcIgnore (d : Nat) (h : Hub) : Hub := updAtc h d fun a => { a with ignored := satInc 255 a.ignored }

/-- A raw access starts, or is ignored and counted while another one runs. -/
def rawStart (d : Nat) (write : Bool) (h : Hub) : Hub :=
  let a := (getDie h d).atc
  if a.busy.isSome then atcIgnore d h
  else updAtc h d fun a => { a with busy := some { write := write, addr := a.addr, data := a.data } }

/-- ATC_CTRL written by a function, or by JTAG (none): READ, then WRITE. -/
def atcCtrl (fn : Option Nat) (d v : Nat) (h : Hub) : Hub :=
  let h := if bit v 0 then rawStart d false h else h
  if !bit v 1 then h
  else if !rawAllowed (getDie h d).atc (getDie h d).atc.addr fn.isNone then
    let h := atcIgnore d h
    match fn with | none => h | some f => accessFault f (d * 0x100000 + 0x700) h
  else rawStart d true h

/-- ATC_RAW_DONE: the access has been made, and BUSY falls. -/
def rawDone (d : Nat) (h : Hub) : Hub :=
  match (getDie h d).atc.busy with
  | none => h
  | some r =>
    let (ix, h) := takeFree h
    let h := updAtc h d fun a =>
      let a := { a with busy := none }
      if !r.write then { a with data := rawRead a d r.addr ix }
      else
        let a := { a with words := a.words.set r.addr (BitVec.ofNat 64 r.data) }
        match wordSlot r.addr with | none => a | some s => reverify s ix a
    intEvent d 11 h

/-- An ignored write of a locked field (20 R506). -/
def lockIgnored (d off : Nat) (h : Hub) : Hub :=
  intEvent d 12 (updDie h d fun x => { x with regs := { x.regs with lockErr := satInc 255 x.regs.lockErr, lockOff := off } })

/-- ATC_LOCK written (19 R490, 20 R506): RAW and PERSIST lock raw writes now; PERSIST also sets the key-area LOCK word. -/
def atcLockWrite (d v : Nat) (h : Hub) : Hub :=
  let a := (getDie h d).atc
  let raw := bit v 0
  let per := bit v 1
  let h := if (a.rawLock && !raw) || (a.persist && !per) then lockIgnored d 0x718 h else h
  let h := updAtc h d fun a => { a with
    rawLock := a.rawLock || raw, persist := a.persist || per, locked := a.locked || raw || per }
  if per && !a.persist then
    let w := writeKey d 0xF1 1 h
    if w.2 then w.1 else faultReport d 0x0706 (unitId 0x0C d 0) (unitId 0x0C d 0) 0x100 w.1
  else h

/-! ### Debug unlock (19 R492) -/

/-- CHALLENGE: a nonce from a true random source. -/
def dbgChallenge (d : Nat) (h : Hub) : Hub :=
  let ix := h.freeIx
  updAtc { h with freeIx := ix + 16 } d fun a =>
    { a with nonce := (List.range 16).map fun i => Config.freeByte (ix + i), fresh := true }

/-- Does ATC_DBG_RESP verify against the current nonce? -/
def dbgOk (a : Atc) (d : Nat) : Bool :=
  let resp := a.resp.flatMap (leBytes 4)
  a.fresh && ecdsaOk (debugKey a d) (beNat (sha256 (a.nonce ++ leBytes 8 (atcWord a d 0).toNat)))
    (beNat (resp.take 32)) (beNat (resp.drop 32))

/-- SUBMIT. -/
def dbgSubmit (d : Nat) (h : Hub) : Hub :=
  updAtc h d fun a =>
    if a.barred then a
    else if dbgOk a d then { a with unlocked := true, fresh := false }
    else { a with fresh := false, dbgFails := satInc 255 a.dbgFails, fails := a.fails + 1, barred := a.fails ≥ 2 }

/-- ATC_DBG_CTRL written: CHALLENGE, then SUBMIT. -/
def dbgCtrl (d v : Nat) (h : Hub) : Hub :=
  let h := if bit v 0 then dbgChallenge d h else h
  if bit v 1 then dbgSubmit d h else h

/-! ### The register block (19 R491) -/

/-- A 32-bit write at offset `off` of the ATC_ block, by a function or by JTAG (none). -/
def atcWrite32 (fn : Option Nat) (d off v : Nat) (h : Hub) : Hub :=
  match off with
  | 0x00 => atcCtrl fn d v h
  | 0x08 => updAtc h d fun a => { a with addr := bits v 3 18 }
  | 0x10 => updAtc h d fun a => { a with data := setHalf a.data false v }
  | 0x14 => updAtc h d fun a => { a with data := setHalf a.data true v }
  | 0x18 => atcLockWrite d v h
  | 0x1C => updAtc h d fun a => { a with ignored := bits v 0 8, retries := bits v 8 8, dbgFails := bits v 16 8 }
  | 0x28 => dbgCtrl d v h
  | _ => if 0x40 ≤ off && off < 0x80 then updAtc h d fun a => { a with resp := a.resp.set ((off - 0x40) / 4) (v % 2 ^ 32) } else h

/-- The 32-bit word at offset `off` (a multiple of 4) of the ATC_ block. -/
def atcRead32 (h : Hub) (d off : Nat) : Nat :=
  let a := (getDie h d).atc
  match off with
  | 0x04 => b2n a.busy.isSome + 2 * a.image + 4 * selectWord a d + 65536 * atcFree h d
  | 0x08 => 8 * a.addr
  | 0x10 => a.data % 2 ^ 32
  | 0x14 => a.data / 2 ^ 32
  | 0x18 => b2n a.rawLock + 2 * b2n a.persist + 4 * b2n a.locked
  | 0x1C => a.ignored + 256 * a.retries + 65536 * a.dbgFails
  | 0x20 => (atcWord a d 0).toNat % 2 ^ 32
  | 0x24 => (atcWord a d 0).toNat / 2 ^ 32
  | 0x28 => 4 * b2n a.unlocked + 8 * b2n a.barred
  | _ =>
    if 0x30 ≤ off && off < 0x40 then leNat ((a.nonce.drop (off - 0x30)).take 4)
    else if 0x40 ≤ off && off < 0x80 then a.resp.getD ((off - 0x40) / 4) 0
    else 0

/-- The register space of a die that stays in its boot ROM is reached from its own port's physical function, for the Attic alone
(19 R488). -/
def romReaches (h : Hub) (fn d : Nat) : Bool :=
  ready h && fn == d * 16 && (getFn h fn).enabled && !bit h.pkg.perst d && bit h.pkg.sites d && (getDie h d).atc.inRom

/-- A 32-bit write of a function to the ATC_ block of a die. -/
def atcAccess (fn d off v : Nat) (h : Hub) : Hub :=
  if romReaches h fn d then atcWrite32 (some fn) d off v h
  else regGateHub fn d (0x700 + off) false (atcWrite32 (some fn) d off v) h

/-! ### The rows -/

/-- MODE_WRITE. -/
def execModeWrite (c : Cmd) (s : State) : Host.Outcome State Fault Refusal := .next (mail modeWrite c s)
/-- ATC_LOAD. -/
def execAtcLoad (c : Cmd) (s : State) : Host.Outcome State Fault Refusal := .next (mail atcLoad c s)
/-- ATC_FW_STAGE. -/
def execAtcFwStage (c : Cmd) (s : State) : Host.Outcome State Fault Refusal := .next (mail atcFwStage c s)
/-- ATC_FW_SELECT. -/
def execAtcFwSelect (c : Cmd) (s : State) : Host.Outcome State Fault Refusal := .next (mail atcFwSelect c s)
/-- ATC_FW_COMMIT. -/
def execAtcFwCommit (c : Cmd) (s : State) : Host.Outcome State Fault Refusal := .next (mail atcFwCommit c s)
/-- ATC_QUERY. -/
def execAtcQuery (c : Cmd) (s : State) : Host.Outcome State Fault Refusal := .next (mail atcQuery c s)
/-- ATC_CTRL_READ. -/
def execAtcCtrlRead (fn die : Nat) (value : BitVec 32) (s : State) : Host.Outcome State Fault Refusal :=
  .next (onHub (atcAccess fn die 0x00 value.toNat) s)
/-- ATC_CTRL_WRITE. -/
def execAtcCtrlWrite (fn die : Nat) (value : BitVec 32) (s : State) : Host.Outcome State Fault Refusal :=
  .next (onHub (atcAccess fn die 0x00 value.toNat) s)
/-- ATC_RAW_DONE. -/
def execAtcRawDone (die : Nat) (s : State) : Host.Outcome State Fault Refusal := .next (onHub (rawDone die) s)
/-- ATC_LOCK_WRITE. -/
def execAtcLockWrite (fn die : Nat) (value : BitVec 32) (s : State) : Host.Outcome State Fault Refusal :=
  .next (onHub (atcAccess fn die 0x18 value.toNat) s)
/-- ATC_DBG_CHALLENGE. -/
def execAtcDbgChallenge (fn die : Nat) (value : BitVec 32) (s : State) : Host.Outcome State Fault Refusal :=
  .next (onHub (atcAccess fn die 0x28 value.toNat) s)
/-- ATC_DBG_SUBMIT. -/
def execAtcDbgSubmit (fn die : Nat) (value : BitVec 32) (s : State) : Host.Outcome State Fault Refusal :=
  .next (onHub (atcAccess fn die 0x28 value.toNat) s)

end Sys2Proof.Machine
end

