-- ==== Sys2Proof/Machine/FieldBook.lean ====
section
/-!
DEFINITION. The Field book: its ring, flushes, FBK_CTRL, and the FBK_ commands (22 R540-R546).  The ring of 262,144 records is a part
of the hub's state (log entry 43).
-/

namespace Sys2Proof.Machine

/-- The Field book of a die changed by `f`. -/
def updFbk (h : Hub) (d : Nat) (f : Fbk → Fbk) : Hub := updDie h d fun x => { x with fbk := f x.fbk }

/-- Records of the ring's size (22 R542). -/
def fbkRing : Nat := 262144

/-- The records of the buffer written into the ring, from index `i`. -/
def fbkStore (i : Nat) (l : List Bytes) (t : Tab Bytes) : Tab Bytes :=
  match l with
  | [] => t
  | r :: rest => fbkStore (i + 1) rest (t.set (i % fbkRing) r)

/-- The on-die buffer flushed: in MODE 0 the oldest records of a full ring are overwritten (22 R542). -/
def fbkFlushed (f : Fbk) : Fbk :=
  if f.buf.isEmpty then f
  else
    { f with
      ring := fbkStore (f.head - f.buf.length) f.buf f.ring, buf := []
      tail := max f.tail (f.head - fbkRing), flushes := (f.flushes + 1) % 65536 }

/-- The Field book of a die is flushed. -/
def fbkFlush (d : Nat) (h : Hub) : Hub := updFbk h d fbkFlushed

/-- FBK_FLUSH: at 512 held records, or 1 ms after the oldest was made. -/
def fbkTimer (d : Nat) (h : Hub) : Hub :=
  let f := (getDie h d).fbk
  if !dieUp h d || !awake h d || f.buf.isEmpty then h
  else if f.buf.length ≥ 512 then fbkFlush d h
  else fbkFlush d (at_ (f.oldest + 1000000) h)

/-- FBK_CTRL written (22 R546): STOPPED is 1 until MODE returns to 0. -/
def fbkCtrlWrite (d v : Nat) (h : Hub) : Hub :=
  let h := updFbk h d fun f => { f with
    srcEn := bits v 0 10 ||| 1, mode := bit v 16, stopped := f.stopped && bit v 16 }
  if bit v 17 then fbkFlush d h else h

/-- FBK_COUNT written (22 R546). -/
def fbkCountWrite (d v : Nat) (h : Hub) : Hub := updFbk h d fun f => { f with dropped := bits v 0 16, flushes := bits v 16 16 }

/-- The words of the FBK_ block (22 R546). -/
def fbkRead32 (f : Fbk) (off : Nat) : Nat :=
  match off with
  | 0x00 => f.srcEn + 65536 * b2n f.mode
  | 0x04 => b2n f.stopped
  | 0x08 => f.head % 2 ^ 32
  | 0x0C => f.head / 2 ^ 32
  | 0x10 => f.tail % 2 ^ 32
  | 0x14 => f.tail / 2 ^ 32
  | 0x18 => f.dropped + 65536 * f.flushes
  | _ => 0

/-- Records from an index, as many as there are below the head. -/
def fbkCopy (f : Fbk) (first n : Nat) : List Bytes :=
  (List.range (min n (f.head - first))).map fun i => f.ring.get ((first + i) % fbkRing) []

/-- FBK_READ (22 R545). -/
def fbkReadCmd : Spec :=
  { op := 0x0C00, level := 1, rsv := [(17, 1), (20, 4), (44, 20)]
    checks := fun c _ h =>
      let n := arg16 c 18
      let f := fbkFlushed (getDie h (arg8 c 16)).fbk
      [dieCk h 16 (arg8 c 16), ck 0x0201 18 (n < 1 || n > 2048), ck 0x0104 40 (arg32 c 40 ≠ 32 * n), bufCk c 32,
       { st := 0x0404, off := 24, bad := arg64 c 24 < f.tail, r1 := f.tail }]
    run := fun c _ _ h =>
      let d := arg8 c 16
      let h := fbkFlush d h
      let l := fbkCopy (getDie h d).fbk (arg64 c 24) (arg16 c 18)
      okRes (if l.isEmpty then h else ctxWrite c.ctx (arg64 c 32) l.flatten h) l.length }

/-- FBK_QUERY (22 R545). -/
def fbkQuery : Spec :=
  { op := 0x0C01, level := 1, rsv := [(17, 47)]
    checks := fun c _ h => [dieCk h 16 (arg8 c 16)]
    run := fun c _ _ h =>
      let f := (getDie h (arg8 c 16)).fbk
      okRes h (f.dropped + 65536 * b2n f.stopped) f.head }

/-! ### The rows -/

/-- FBK_READ. -/
def execFbkRead (c : Cmd) (s : State) : Host.Outcome State Fault Refusal := .next (mail fbkReadCmd c s)
/-- FBK_QUERY. -/
def execFbkQuery (c : Cmd) (s : State) : Host.Outcome State Fault Refusal := .next (mail fbkQuery c s)
/-- FBK_CTRL_FLUSH. -/
def execFbkCtrlFlush (fn die : Nat) (value : BitVec 32) (s : State) : Host.Outcome State Fault Refusal :=
  .next (onHub (regGateHub fn die 0x0800 false (fbkCtrlWrite die value.toNat)) s)
/-- FBK_FLUSH. -/
def execFbkFlush (die : Nat) (s : State) : Host.Outcome State Fault Refusal := .next (onHub (fbkTimer die) s)

end Sys2Proof.Machine
end

