-- ==== Sys2Proof/Machine/Contexts.lean ====
section
/-!
DEFINITION. Context and system commands, the 0x00xx range (02 R44, R552-R554), but for CTX_REVOKE (Machine/Teardown.lean).
-/

namespace Sys2Proof.Machine

/-- NOP (02 R552). -/
def nopSpec : Spec :=
  { op := 0x0001, rsv := [(24, 40)], run := fun c _ _ h => okRes h 0 (arg64 c 16) }

/-- CTX_INFO (02 R553). -/
def ctxInfo : Spec :=
  { op := 0x0002, rsv := [(16, 48)]
    run := fun c _ _ h =>
      let x := getCtx h c.ctx
      okRes h (c.ctx + 4096 * x.level + 16384 * x.fn + 2 ^ 18 * b2n h.pkg.lock)
        (x.evMask + 16384 * x.wdog + 2 ^ 32 * x.evSeq) }

/-- A sum over the dies that are up. -/
def overDies (h : Hub) (f : Die → Nat) : Nat := ((upDies h).map fun d => f (getDie h d)).sum

/-- The 64-byte system block (02 R553). -/
def sysBlock (h : Hub) : Bytes :=
  leBytes 4 h.pkg.part ++ leBytes 1 h.pkg.sites ++ leBytes 1 h.pkg.sitesUp ++ leBytes 2 0x00B0 ++ leBytes 4 (getDie h h.pkg.principal).regs.fw ++
  leBytes 2 512 ++ leBytes 2 (overDies h fun d => popCount 24 d.srv.engIn) ++
  leBytes 2 (overDies h fun d => popCount 24 d.srv.engSpare) ++ leBytes 1 h.chain.pos ++ leBytes 1 h.chain.len ++
  leBytes 4 0 ++ leBytes 8 (2 ^ 30 * (((List.range 8).filter (bit h.pkg.sites)).map fun d => h.pkg.gib.get d 0).sum) ++
  leBytes 8 h.now ++ leBytes 24 0

/-- SYS_INFO (02 R553). -/
def sysInfo : Spec :=
  { op := 0x0003, rsv := [(28, 36)]
    checks := fun c _ _ => [bufCk c 16, ck 0x0201 24 (arg32 c 24 ≠ 64)]
    run := fun c _ _ h => okRes (ctxWrite c.ctx (arg64 c 16) (sysBlock h) h) 64 }

/-- SYS_TIME (02 R552). -/
def sysTime : Spec :=
  { op := 0x0004, rsv := [(16, 48)], run := fun _ p _ h => okRes h 0 p.time }

/-- CTX_WATCHDOG (02 R553). -/
def ctxWatchdog : Spec :=
  { op := 0x0005, rsv := [(20, 44)]
    checks := fun c _ _ => [ck 0x0201 16 (!(arg32 c 16 = 0 || (10 ≤ arg32 c 16 && arg32 c 16 ≤ 10000)))]
    run := fun c _ _ h => okRes (updCtx h c.ctx fun x => { x with wdog := arg32 c 16, wdogAt := h.now, warned := false }) }

/-- CTX_EVENT_MASK (02 R554): bit 0 stays set. -/
def ctxEventMask : Spec :=
  { op := 0x0006, rsv := [(18, 46)]
    checks := fun c _ _ => [ck 0x0103 16 (arg16 c 16 ≥ 16384)]
    run := fun c _ _ h => okRes (updCtx h c.ctx fun x => { x with evMask := arg16 c 16 ||| 1 }) }

/-- A context slot after CTX_ASSIGN (02 R26): every register at its reset value, bound to a function and a level. -/
def assignedCtx (old : Ctx) (fn level : Nat) : Ctx := { state := .closed, level := level, fn := fn, epoch := old.epoch }

/-- CTX_ASSIGN (02 R553, R26). -/
def ctxAssign : Spec :=
  { op := 0x0010, level := 2, locks := true, rsv := [(20, 44)]
    checks := fun c _ h =>
      let v := arg16 c 16
      let f := arg8 c 18
      ctxCks h 16 v false ++
      -- DESIGN CHOICE (log 81): a FUNCTION above 15 names no virtual function and is refused as one that is not enabled.
      [ck 0x0202 18 (f > 15 || (v ≤ 4095 && f ≥ 1 && !(getFn h (homeDie v * 16 + f)).enabled)),
       ck 0x0201 19 (arg8 c 19 ≥ 2),
       ckd (homeDie v) 0x040B 16 (v ≤ 4095 && (getCtx h v).state ≠ .unassigned)]
    run := fun c _ _ h => okRes (updCtx h (arg16 c 16) fun x => assignedCtx x (arg8 c 18) (arg8 c 19)) }

/-- SYS_LOCK (02 R25). -/
def sysLock : Spec :=
  { op := 0x0012, level := 2, locks := true, rsv := [(20, 44)]
    checks := fun c _ _ => [ck 0x0201 16 (arg32 c 16 ≠ 0x4C4F434B)]
    run := fun _ _ _ h => okRes { h with pkg := { h.pkg with lock := true } } }

/-! ### The rows -/

/-- NOP. -/
def execNop (c : Cmd) (s : State) : Host.Outcome State Fault Refusal := .next (mail nopSpec c s)
/-- CTX_INFO. -/
def execCtxInfo (c : Cmd) (s : State) : Host.Outcome State Fault Refusal := .next (mail ctxInfo c s)
/-- SYS_INFO. -/
def execSysInfo (c : Cmd) (s : State) : Host.Outcome State Fault Refusal := .next (mail sysInfo c s)
/-- SYS_TIME. -/
def execSysTime (c : Cmd) (s : State) : Host.Outcome State Fault Refusal := .next (mail sysTime c s)
/-- CTX_WATCHDOG. -/
def execCtxWatchdog (c : Cmd) (s : State) : Host.Outcome State Fault Refusal := .next (mail ctxWatchdog c s)
/-- CTX_EVENT_MASK. -/
def execCtxEventMask (c : Cmd) (s : State) : Host.Outcome State Fault Refusal := .next (mail ctxEventMask c s)
/-- CTX_ASSIGN. -/
def execCtxAssign (c : Cmd) (s : State) : Host.Outcome State Fault Refusal := .next (mail ctxAssign c s)
/-- SYS_LOCK. -/
def execSysLock (c : Cmd) (s : State) : Host.Outcome State Fault Refusal := .next (mail sysLock c s)

end Sys2Proof.Machine
end

