-- ==== Sys2Proof/Machine/Teardown.lean ====
section
/-!
DEFINITION. The end of a context: what causes it, what it takes with it, and where the slot goes (02 R26-R28, R551, R553; 03 R68; 04
R112; 05 R137; 07 R186; 10 R278; 12 R318; 13 R357).
-/

namespace Sys2Proof.Machine

/-! ### What ends with a context (02 R27) -/

/-- A command that has been read and not accepted goes, and its slot with it. -/
def dropHeld (c : Nat) (h : Hub) : Hub :=
  updCtx h c fun x => if x.held.isSome then { x with held := none, resv := x.resv - 1 } else x

/-- The context's Plotter jobs and client descriptors stop with a status (11 R300, 12 R319). -/
def stopWork (c st : Nat) (m : List Host.Cell) (h : Hub) : Eff :=
  let r := stopJobsOn (upDies h) (fun j => if j.pend.ctx = c then some st else none) m h
  (((r.1.dma.filter fun e => e.2.owner == c).map Prod.fst).foldl (fun h k => stopChan k st h) r.1, r.2)

/-- The context's transactions end (07 R186). -/
def endTxns (c : Nat) (h : Hub) : Hub :=
  (h.txns.filter fun e => e.2.owner == c).foldl (fun h e => closeTxn e.1 0x040D e.2.applied.length 0 h) h

/-- Every grant that the context holds on surfaces is removed (03 R68). -/
def dropGrants (c : Nat) (m : List Host.Cell) (h : Hub) : Eff :=
  (h.atlas.filter fun e => !e.2.retiring && e.2.grants.any fun g => g.1 == c).foldl (fun r e =>
    let h := { r.1 with atlas := r.1.atlas.set e.1 (setGrant e.2 c 0) }
    let q := stopUses (handleOf e.1 e.2) [(c, grantOf e.2 c)] 0x0303 (r.2.foldl Memory.apply m) h
    (q.1, r.2 ++ q.2)) (h, [])

/-- Every surface in the list becomes RETIRING. -/
def retireAll (l : List Nat) (m : List Host.Cell) (h : Hub) : Eff :=
  match l with
  | [] => (h, [])
  | ix :: t =>
    let r := retireSurf ix m h
    let q := retireAll t (r.2.foldl Memory.apply m) r.1
    (q.1, r.2 ++ q.2)

/-- The context's regions are unmapped, and freed when no entry uses them (03 R68). -/
def endRegions (c : Nat) (h : Hub) : Hub :=
  (h.regions.filter fun e => e.2.owner == c).foldl (fun h e =>
    if regionUsed h e.1 then
      let h := unmapRegion e.1 h
      { h with regions := h.regions.upd e.1 fun r => { r with dead := true } }
    else freeRegion e.1 h) h

/-- The context stops owning layer lists; their layers show their fill colour from the next boundary (04 R112). -/
def endLists (c : Nat) (h : Hub) : Hub :=
  let os := (h.outs.filter fun e => e.2.owner == some c).map Prod.fst
  let ls := h.layers.filter fun e => os.contains e.2.out
  let h := { h with
    layers := h.layers.map fun (e : Nat × Layer) => if os.contains e.2.out then (e.1, { e.2 with ended := true }) else e
    outs := h.outs.map fun (e : Nat × Output) => (e.1, { e.2 with
      owner := if e.2.owner == some c then none else e.2.owner
      newOwner := if e.2.newOwner == some c then none else e.2.newOwner
      own := e.2.own.map fun q => (if q.1 == some c then none else q.1, q.2) }) }
  dirtied ls h

/-- The context's timelines are destroyed, and its wait grants removed (07 R186). -/
def endTimelines (c : Nat) (h : Hub) : Hub :=
  let h := ((h.tls.filter fun e => e.2.owner == c).map Prod.fst).foldl (fun h k => dropTl k 0x0904 h) h
  { h with tls := h.tls.map fun (e : Nat × Timeline) => (e.1, { e.2 with grants := e.2.grants.filter fun g => g != c }) }

/-- Banks, LUT slots and program slots stay while a record selects them (05 R137, 06 R154). -/
def endObjects (c : Nat) (h : Hub) : Hub :=
  sweepObjects { h with
    banks := h.banks.map fun (e : Nat × Bank) => if e.2.owner = c then (e.1, { e.2 with dead := true }) else e
    luts := h.luts.map fun (e : Nat × LutSlot) => if e.2.owner = c then (e.1, { e.2 with dead := true }) else e
    progs := h.progs.map fun (e : Nat × Prog) => if e.2.owner = c then (e.1, { e.2 with dead := true }) else e }

/-- Its check-value grants end (10 R278). -/
def endChecks (c : Nat) (h : Hub) : Hub :=
  ((h.outs.filter fun e => e.2.chk.holder == some c).map Prod.fst).foldl (fun h o => dropGrant o none h) h

/-- Its camera streams stop (13 R357). -/
def endCameras (c : Nat) (h : Hub) : Hub :=
  let mine (q : Option CamCfg) : Bool := match q with | none => false | some q => q.owner == c
  ((h.ports.filter fun p => mine p.2.cam || mine p.2.camNext).map Prod.fst).foldl (fun h k => camStop k false h) h

/-- Everything that ends with context `c` (02 R27): `st` is the status of its jobs and descriptors. -/
def endContext (c st : Nat) (m : List Host.Cell) (h : Hub) : Eff :=
  let a := stopWork c st m (dropHeld c h)
  let m1 := a.2.foldl Memory.apply m
  let h := endCameras c (endTxns c a.1)
  let b := retireAll ((h.atlas.filter fun e => e.2.owner == c).map Prod.fst) m1 h
  let m2 := b.2.foldl Memory.apply m1
  let g := dropGrants c m2 b.1
  (endChecks c (endObjects c (endTimelines c (endLists c (endRegions c g.1)))), a.2 ++ b.2 ++ g.2)

/-! ### Causes (02 R26) -/

/-- The client channels of a context are freed (12 R327). -/
def freeChans (c : Nat) (h : Hub) : Hub := { h with dma := h.dma.filter fun e => e.2.owner != c }

/-- What ends with a context, once no command of it is accepted and not yet ordered (02 R27, steps 2 to 6; R28).  The fault's teardown is
complete with it (02 R26). -/
def endsNow (c : Nat) (m : List Host.Cell) (h : Hub) : Eff :=
  let x := getCtx h c
  if !x.ending || h.remote.has c then (h, [])
  else
    let e := endContext c 0x0410 m (setCtx h c { x with ending := false })
    (if x.state == .faulted then freeChans c e.1 else e.1, e.2)

/-- An OPEN context goes to CLOSING, or to FAULTED for reason 9; what has not been accepted goes, and the rest of the teardown follows
the command that is accepted (02 R27, R28). -/
def tearDown (c reason : Nat) (unassign : Bool) (revoke : Option Pend) (m : List Host.Cell) (h : Hub) : Eff :=
  let h := updCtx h c fun x =>
    if reason = 9 then { x with state := .faulted, reason := 9, tear := none, ending := true }
    else { x with state := .closing, reason := reason, tear := some { unassign := unassign, revoke := revoke }, ending := true }
  endsNow c m (dropHeld c h)

/-- A slot becomes UNASSIGNED. -/
def unassign (c : Nat) (h : Hub) : Hub := updCtx h c fun x => { x with state := .unassigned, tear := none }

/-- TEARDOWN_COMPLETE. -/
def teardownEnds (c : Nat) (h : Hub) : Hub :=
  let x := getCtx h c
  if x.ending then h
  else match x.state, x.tear with
  | .closing, some t =>
    let h := freeChans c (updCtx h c fun x => { x with state := if t.unassign then .unassigned else .closed, tear := none })
    match t.revoke with
    | none => h
    | some p => completeOk p 0 0 h
  | _, _ => h

/-- DBL_CTRL written: CLOSE before OPEN (02 R29 table); a control write that the state does not take is counted. -/
def ctrlWrite (c v : Nat) (m : List Host.Cell) (h : Hub) : Eff :=
  let x := getCtx h c
  if bit v 1 then
    match x.state with
    | .opened => tearDown c 5 false none m h
    | .faulted => (if x.ending then badDoorbell c h else setCtx h c { x with state := .closed }, [])
    | _ => (badDoorbell c h, [])
  else if bit v 0 then (openCtx c h, [])
  else (h, [])

/-- The access of a function to DBL_CTRL. -/
def ctrlAccess (c f v : Nat) (m : List Host.Cell) (h : Hub) : Eff :=
  if pageAnswers h f c && !asleep h (homeDie c) && ready h && (getFn h f).enabled && !bit h.pkg.perst (f / 16) && (pageOffset f c 0x38).isSome then
    ctrlWrite c v m (accessWakes (homeDie c) f h)
  else (pageAccess c f 0x38 id h, [])

/-- The OPEN contexts of a function. -/
def openOf (h : Hub) (f : Nat) : List Nat := (h.ctxs.filter fun e => e.2.state == .opened && ctxFn h e.1 == f).map Prod.fst

/-- Teardown of several contexts, in ascending order. -/
def tearAll (l : List Nat) (reason : Nat) (m : List Host.Cell) (h : Hub) : Eff :=
  match l with
  | [] => (h, [])
  | c :: t =>
    let r := tearDown c reason false none m h
    let q := tearAll t reason (r.2.foldl Memory.apply m) r.1
    (q.1, r.2 ++ q.2)

/-- Running operations of privileged channels end with a status. -/
def privStopAll (l : List (Nat × Nat)) (st : Nat) (m : List Host.Cell) (h : Hub) : Eff :=
  match l with
  | [] => (h, [])
  | (d, ch) :: t =>
    let r := privStop d ch st m h
    let q := privStopAll t st (r.2.foldl Memory.apply m) r.1
    (q.1, r.2 ++ q.2)

/-- The privileged channels of the dies that are up. -/
def privChans (h : Hub) : List (Nat × Nat) := (upDies h).flatMap fun d => (List.range 4).map fun ch => (d, ch)

/-- FUNCTION_LEVEL_RESET (02 R26, 12 R323). -/
def functionReset (f : Nat) (m : List Host.Cell) (h : Hub) : Eff :=
  let a := tearAll (openOf h f) 6 m h
  if f ≠ integratorFn h then a
  else
    let b := privStopAll (privChans a.1) 0x0410 (a.2.foldl Memory.apply m) a.1
    (b.1, a.2 ++ b.2)

/-- Does the port of a function take configuration requests (18 R463, 21 R525)? -/
def cfgTakes (h : Hub) (f : Nat) : Bool := ready h && f < 128 && dieUp h (f / 16) && !bit h.pkg.perst (f / 16)

/-- Bus mastering of a function is enabled or disabled (02 R26).  A virtual function that takes such a write has been enabled by the host (log
entry 4); before the package is ready the request draws Configuration Request Retry Status (18 R463). -/
def busMaster (f : Nat) (on : Bool) (m : List Host.Cell) (h : Hub) : Eff :=
  if portEarly h f then (send (.refusal f 2) h, [])
  else if !cfgTakes h f then (h, [])
  else
    let h := updFn h f fun x => { x with master := on, enabled := true }
    if on then (h, []) else tearAll (openOf h f) 6 m h

/-- WATCHDOG_EXPIRY (02 R553). -/
def watchdogExpires (c : Nat) (m : List Host.Cell) (h : Hub) : Eff :=
  let x := getCtx h c
  if x.state == .opened && x.wdog > 0 then tearDown c 7 false none m (at_ (x.wdogAt + 1000000 * x.wdog) h) else (h, [])

/-! ### PCIe errors on host memory (02 R26, R551; 12 R318; 17 R441) -/

/-- The bytes that a failed write left: each the old one or the new one, by free bits from number `ix`. -/
def mixBytes (ix : Nat) (w : HostWrite) : List (Nat × Option Byte) :=
  (w.data.zip w.before).zipIdx.map fun e => (e.2, if Config.freeBit (ix + e.2) then some e.1.1 else e.1.2)

/-- Host memory of function `f` after a write that failed. -/
def failWrite (f : Nat) (w : HostWrite) (h : Hub) : Hub :=
  let bs := mixBytes h.freeIx w
  { h with
    freeIx := h.freeIx + w.data.length
    host := bs.foldl (fun t e =>
      let k := f * 2 ^ 64 + (w.addr + e.1) % 2 ^ 64
      match e.2 with | none => t.del k | some b => t.set k b) h.host }

/-- The message of a failed entry is not sent after all, and a pending bit that it set is clear. -/
def unsend (f vec : Nat) (w : HostWrite) (h : Hub) : Hub :=
  if w.pended && bit (getFn h f).vecPend vec then updFn h f fun x => { x with vecPend := x.vecPend - 2 ^ vec }
  else if w.sent || w.pended then { h with outbox := (h.outbox.reverse.erase (Sent.msix f vec)).reverse }
  else h

/-- The client channel of a context that wrote a record at a bus address, and the newest such write (12 R318). -/
def recordChan (h : Hub) (c a : Nat) : Option (Nat × HostWrite) :=
  h.dma.findSome? fun e => if e.2.owner = c then (e.2.last.find? fun w => w.addr == a).map fun w => (e.1, w) else none

/-- A write of the hub for the context ended in an error: a buffer is as unwritten; an entry is not posted, and with it no later one, since
the tail does not pass it, and the messages that announced it or a later entry are not sent. -/
def undoWrite (c a : Nat) (h : Hub) : Hub :=
  let x := getCtx h c
  let newer := x.last.takeWhile fun w => w.addr != a
  match x.last.dropWhile fun w => w.addr != a with
  | [] => h
  | w :: older =>
    let h := failWrite (ctxFn h c) w h
    if a ≠ (x.cqBaseL.toNat + 32 * w.cqTail) % 2 ^ 64 then setCtx h c { x with last := newer ++ older }
    else (newer ++ [w]).foldl (fun h w => unsend (ctxFn h c) (bits x.cfgL.toNat 8 6) w h)
      (setCtx h c { x with cqTail := w.cqTail, phase := w.phase, coal := w.coal, coalAt := w.coalAt, last := older })

/-- RING_ACCESS_ERROR. -/
def ringError (c a : Nat) (write : Bool) (m : List Host.Cell) (h : Hub) : Eff :=
  match (if write then recordChan h c a else none) with
  | some (k, w) => (queueFault k (failWrite (ctxFn h c) w h), [])
  | none =>
    let h := if write then undoWrite c a h else h
    if (getCtx h c).state ≠ .opened then (h, [])
    else
      let d := homeDie c
      let u := unitId 0x0A (ctxFn h c / 16) (getFn h (ctxFn h c)).rid
      tearDown c 9 false none m (if write then h else faultReport d 0x0705 u (unitId 0x0B d 0) a h)

/-! ### CTX_REVOKE (02 R26, R553) -/

/-- CTX_REVOKE.  DESIGN CHOICE (log 81): a FAULTED slot whose teardown still waits is refused 0x040D, as one that is closing. -/
def ctxRevoke : Spec :=
  { op := 0x0011, level := 2, locks := true, rsv := [(19, 45)]
    checks := fun c _ h =>
      let v := arg16 c 16
      ctxCks h 16 v true ++
      [ck 0x0201 18 (arg8 c 18 > 1), ck 0x040E 16 (v = c.ctx),
       ckd (homeDie v) 0x040D 16 (v ≤ 4095 && ((getCtx h v).state == .closing || (getCtx h v).ending))]
    run := fun c p m h =>
      let v := arg16 c 16
      let off := arg8 c 18 = 0
      match (getCtx h v).state with
      | .opened =>
        let e := tearDown v 8 off (some p) m h
        laterRes e.1 e.2
      | _ => okRes (if off then unassign v h else updCtx h v fun x => { x with state := .closed }) }

/-! ### The rows -/

/-- DBL_CTRL_OPEN. -/
def execDblCtrlOpen (ctx fn : Nat) (value : BitVec 32) (s : State) : Host.Outcome State Fault Refusal :=
  .next (act (ctrlAccess ctx fn value.toNat) s)
/-- DBL_CTRL_CLOSE. -/
def execDblCtrlClose (ctx fn : Nat) (value : BitVec 32) (s : State) : Host.Outcome State Fault Refusal :=
  .next (act (ctrlAccess ctx fn value.toNat) s)
/-- FUNCTION_LEVEL_RESET. -/
def execFunctionLevelReset (fn : Nat) (s : State) : Host.Outcome State Fault Refusal := .next (act (functionReset fn) s)
/-- BUS_MASTER_DISABLE. -/
def execBusMasterDisable (fn : Nat) (on : Bool) (s : State) : Host.Outcome State Fault Refusal := .next (act (busMaster fn on) s)
/-- RING_ACCESS_ERROR. -/
def execRingAccessError (ctx : Nat) (addr : BitVec 64) (write : Bool) (s : State) : Host.Outcome State Fault Refusal :=
  .next (act (ringError ctx addr.toNat write) s)
/-- WATCHDOG_EXPIRY. -/
def execWatchdogExpiry (ctx : Nat) (s : State) : Host.Outcome State Fault Refusal := .next (act (watchdogExpires ctx) s)
/-- TEARDOWN_COMPLETE. -/
def execTeardownComplete (ctx : Nat) (s : State) : Host.Outcome State Fault Refusal := .next (onHub (teardownEnds ctx) s)
/-- CTX_REVOKE. -/
def execCtxRevoke (c : Cmd) (s : State) : Host.Outcome State Fault Refusal := .next (mail ctxRevoke c s)

end Sys2Proof.Machine
end

