-- ==== Sys2Proof/Machine/Faults.lean ====
section
/-!
DEFINITION. Fault records on their way to software: die windows, package windows, held records, the record, FLT_READ, the queue of
Survey, and the check values of a frame that ended, which may ask for it (17 R440-R446, R455-R457; 10 R269-R274).
-/

namespace Sys2Proof.Machine

/-! ### Units (17 R440) -/

/-- Deune links of a die (14 R383). -/
def linkCount (part : Nat) : Nat := if part = 2 then 2 else 3

/-- The far end of link `l` of die `d`: its die, and the number that the link has there (14 R383). -/
def linkFar (part d l : Nat) : Nat × Nat :=
  if part = 2 then (1 - d, l)
  else if part = 4 then ((d + l + 1) % 4, 2 - l)
  else match l with
    | 0 => ((d + 1) % 8, 1)
    | 1 => ((d + 7) % 8, 0)
    | _ => ((d + 4) % 8, 2)

/-- The port codes (08 R197). -/
def portCodes : List Nat := [0, 1, 2, 4, 5, 6, 7]

/-- Has the class of a unit an instance of this number (17 R440)?  A Deune link is named at its lower-site end. -/
def instanceOk (h : Hub) (u : Nat) : Bool :=
  let i := unitInst u
  match unitClass u with
  | 0x01 => i < 24
  | 0x02 => i < 256
  | 0x03 => i < 2
  | 0x04 => i < linkCount h.pkg.part && decide (unitDie u < (linkFar h.pkg.part (unitDie u) i).1)
  | 0x05 => portCodes.contains i
  | 0x06 => i < 3 || (i ≥ 16 && portCodes.contains (i - 16))
  | 0x07 => i < 4
  | 0x09 => i < 32
  | 0x0A => true
  | 0x0E => i < 0x40 || (0x80 ≤ i && i < 0x8A)
  | 0x0F => i < 12
  | _ => i = 0

/-- The checks of a command that names a unit: class, die and instance (17 R455, R456).  A mode entry is a unit of the package, with
0xFF for its die (17 R440). -/
def unitCks (h : Hub) (u top : Nat) : List Ck :=
  [ck 0x0201 16 (unitClass u = 0 || unitClass u > top),
   if unitClass u = 0x0E then ck 0x0203 16 (unitDie u ≠ 0xFF) else dieCk h 16 (unitDie u), ck 0x0202 16 (!instanceOk h u)]

/-! ### Which errors start Survey (17 R441, R447, R450) -/

/-- Does the table entry of an error name a test? -/
def namesTest (w : DieWin) : Bool :=
  match w.cause, unitClass w.unit with
  | 0x0701, 2 | 0x0702, 2 | 0x0702, 1 | 0x0701, 3 | 0x0703, 4 => true
  | 0x0703, 5 => unitClass w.firstRep == 7
  | _, _ => false

/-- Does a link of the fabric carry bytes from die `s` to die `d`, in the one direction or the other? -/
def linkOnRoute (part d l s : Nat) (t : Nat) : Bool :=
  let f := linkFar part d l
  (route part s t).any fun r => (r.1 == d && r.2.1 == l) || (r.1 == f.1 && r.2.1 == f.2)

/-- Does an output fetch over a link that a test holds (17 R447)? -/
def fetchHeld (h : Hub) (o : Nat) : Bool :=
  let dies := (frameLayers h o).filterMap fun l => if l.lr.source = 0 then none else some (l.lr.source % 65536 / 8192)
  (upDies h).any fun d => (getDie h d).srv.tests.any fun t =>
    unitClass t.req.unit == 4 && dies.any fun s => linkOnRoute h.pkg.part d (unitInst t.req.unit) s (o / 4)

/-- The engine tests 3 and 4 of a die, under its table and everything that is held (07 R176). -/
def enginesFit (h : Hub) (d : Nat) : Bool :=
  let fp := stepClock (getDie h d).pwr.floor
  ((demandOf (heldViews h)).loads.filter fun l => l.1 / 24 == d).all fun l => decide (l.2.1 ≤ 1125) && decide (l.2.2 ≤ 9 / 10 * fp)

/-- Does the band-buffer pool of a die hold its pipes (01 R13)? -/
def poolFits (h : Hub) (d : Nat) : Bool :=
  decide ((((demandOf (heldViews h)).figs.filter fun f => f.out / 4 == d).map Fig.band).sum ≤ bandPool h d)

/-- Does a region mismatch wait for the test of an engine (10 R274)? -/
def serialHead (h : Hub) (d unit : Nat) : Bool := (getDie h d).srv.serial.any fun l => (l.map (unitId 1 d)).head? == some unit

/-- Is a missing band one that starts no Survey: its fetch waits for a link under test, or the die cannot carry its PROTECTED work
(17 R447, R450)?  A region mismatch is none: what excuses a missing band does not excuse it. -/
def bandExcused (h : Hub) (w : DieWin) : Bool :=
  w.cause == 0x0702 && unitClass w.unit == 1 && unitClass w.firstRep == 7 && !serialHead h (unitDie w.unit) w.unit &&
    (let o := bits w.detail 16 8
     fetchHeld h o || ((getOut h o).cls == 0 && !(enginesFit h (o / 4) && poolFits h (o / 4))))

/-! ### The queue of Survey (17 R446) -/

/-- The survey state of a die changed by `f`. -/
def updSrv (h : Hub) (d : Nat) (f : Srv → Srv) : Hub := updDie h d fun x => { x with srv := f x.srv }

/-- Is a unit queued or under test? -/
def surveyed (h : Hub) (u : Nat) : Bool :=
  let s := (getDie h (unitDie u)).srv
  s.queue.any (·.unit == u) || s.tests.any (·.req.unit == u)

/-- A request takes its place in the order of the first error. -/
def insertReq (r : SrvReq) : List SrvReq → List SrvReq
  | [] => [r]
  | q :: t => if r.time < q.time then r :: q :: t else q :: insertReq r t

/-- Survey is asked for a unit: queued (ACTION bit 0), joined, or refused for want of room (bit 5). -/
def surveyAsk (u time : Nat) (detail : Option Nat) (h : Hub) : Nat × Hub :=
  let d := unitDie u
  if !instanceOk h u || !dieUp h d || unitRetired h u || surveyed h u then (0, h)
  else if (getDie h d).srv.queue.length ≥ 16 then (32, h)
  else
    (1, updSrv h d fun s => { s with
      queue := insertReq { unit := u, seq := none, time := time, detail := detail, cmds := [] } s.queue })

/-- The request or test that a record queued learns the record's number. -/
def numberReq (u seq : Nat) (h : Hub) : Hub :=
  let on (r : SrvReq) : SrvReq := if r.unit == u && r.seq.isNone then { r with seq := some seq } else r
  updSrv h (unitDie u) fun s => { s with queue := s.queue.map on, tests := s.tests.map fun t => { t with req := on t.req } }

/-- Of the engines of a region mismatch that are left, the first that Survey takes is asked for (10 R274); `seq` is the number of the
record that named them. -/
def askSerial (d : Nat) (seq : Option Nat) : List Nat → Hub → List Nat × Hub
  | [], h => ([], h)
  | e :: t, h =>
    let u := unitId 1 d e
    let r := surveyAsk u h.now none h
    if surveyed r.2 u then (e :: t, match seq with | none => r.2 | some n => if r.1 = 1 then numberReq u n r.2 else r.2)
    else askSerial d seq t r.2

/-- The region mismatches that waited for the test of a unit go on to their next engines. -/
def nextSerial (u : Nat) (seq : Option Nat) (h : Hub) : Hub :=
  let d := unitDie u
  let step (r : List (List Nat) × Hub) (l : List Nat) : List (List Nat) × Hub :=
    if (l.map (unitId 1 d)).head? == some u then
      let q := askSerial d seq l.tail r.2
      (if q.1.isEmpty then r.1 else r.1 ++ [q.1], q.2)
    else (r.1 ++ [l], r.2)
  let r := (getDie h d).srv.serial.foldl step ([], h)
  updSrv r.2 d fun s => { s with serial := r.1 }

/-- ACTION bits added to the record that queued the test of a unit, while it is on its way (17 R445). -/
def addAction (u bits : Nat) (h : Hub) : Hub :=
  let on (w : DieWin) : DieWin := if w.unit == u && bit w.action 0 then { w with action := w.action ||| bits } else w
  { h with flt := { h.flt with
      transit := h.flt.transit.map fun (e : Nat × DieWin) => (e.1, on e.2)
      wins := h.flt.wins.map fun p => { p with win := on p.win } } }

/-! ### Windows (17 R442, R443) -/

/-- DIE_WINDOW_CLOSE. -/
def dieWindowClose (d cause unit : Nat) (h : Hub) : Hub :=
  match (getDie h d).srv.wins.find? (·.is cause unit) with
  | none => h
  | some w =>
    let h := updSrv (at_ (w.firstTime + 2000) h) d fun s => { s with
      wins := s.wins.filter fun x => !x.is cause unit, windows := (s.windows + 1) % 65536 }
    let r := if namesTest w && !bandExcused h w then surveyAsk unit w.firstTime (some w.detail) h else (0, h)
    let r := (r.1, if surveyed r.2 unit then r.2 else nextSerial unit none r.2)
    { r.2 with flt := { r.2.flt with transit := r.2.flt.transit ++ [(d, { w with action := w.action ||| r.1 })] } }

/-- A die record joins a package window or held record of its signature (17 R442). -/
def PkgWin.merge (p : PkgWin) (d : Nat) (w : DieWin) : PkgWin :=
  let v := p.win
  let first := if w.firstTime < v.firstTime then w else v
  let last := if v.lastTime < w.lastTime then w else v
  { p with
    dies := p.dies ||| 2 ^ d
    win := { v with
      reporters := satAdd 65535 v.reporters w.reporters, firstRep := first.firstRep, firstTime := first.firstTime
      detail := first.detail, lastRep := last.lastRep, lastTime := last.lastTime, action := v.action ||| w.action } }

/-- FAULT_DIE_RECORD: the principal receives the record of die `d`. -/
def dieRecord (d cause unit : Nat) (h : Hub) : Hub :=
  match h.flt.transit.find? fun e => e.1 == d && e.2.is cause unit with
  | none => h
  | some e =>
    let h := { h with flt := { h.flt with transit := h.flt.transit.erase e } }
    let w := e.2
    if h.flt.wins.any (fun p => p.win.is cause unit) then
      { h with flt := { h.flt with
          wins := h.flt.wins.map fun p => if p.win.is cause unit then p.merge d w else p } }
    else if h.flt.wins.length ≥ 64 then dropErrors d w.reporters h
    else
      let held := recentlyPosted h cause unit
      let h := if held then updSrv h d fun s => { s with held := satInc 255 s.held } else h
      { h with flt := { h.flt with
          wins := h.flt.wins ++ [{ win := { w with action := w.action ||| (if held then 64 else 0) }, dies := 2 ^ d
                                   openAt := h.now, held := held }] } }

/-! ### The record (17 R444, R445, R457) -/

/-- The 64 bytes of a fault record. -/
def faultBytes (p : PkgWin) (seq dropped : Nat) : Bytes :=
  let w := p.win
  leBytes 2 w.cause ++ leBytes 1 w.action ++ leBytes 1 p.dies ++ leBytes 4 w.unit ++ leBytes 4 w.firstRep ++ leBytes 4 w.lastRep ++
    leBytes 2 w.reporters ++ leBytes 2 dropped ++ leBytes 4 seq ++ leBytes 8 w.firstTime ++ leBytes 8 w.lastTime ++
    leBytes 8 w.detail ++ leBytes 16 0

/-- RESULT0 of FLT_RECORD. -/
def faultR0 (w : DieWin) : Nat := w.cause + 65536 * unitClass w.unit + 2 ^ 24 * unitDie w.unit

/-- RESULT1 of FLT_RECORD. -/
def faultR1 (w : DieWin) (seq : Nat) : Nat := seq + 2 ^ 32 * w.reporters + 2 ^ 48 * w.action

/-- The principal posts a record: kept, told to the integrator and the system clients, and recorded. -/
def postFault (p : PkgWin) (h : Hub) : Hub :=
  let w := p.win
  let seq := h.flt.seq
  let f := h.flt
  let h := { h with flt := { f with
    wins := f.wins.erase p, seq := (seq + 1) % 2 ^ 32, dropped := 0
    records := ((seq, faultBytes p seq f.dropped) :: f.records).take 256
    posted := (w.cause, w.unit, h.now) :: f.posted.filter fun e => !(e.1 == w.cause && e.2.1 == w.unit) && h.now < e.2.2 + 10000000 } }
  let h := if bit w.action 0 then numberReq w.unit seq h else h
  let h := fbkRecord h.pkg.principal 4 0x0401 (faultR0 w) (faultR1 w seq) h
  let h := (sysClients h).foldl (fun h c => postEventAt w.firstTime c 0x0A80 (faultR0 w) (faultR1 w seq) h) h
  intEvent h.pkg.principal 7 h

/-- PACKAGE_WINDOW_CLOSE. -/
def packageWindowClose (cause unit : Nat) (h : Hub) : Hub :=
  match h.flt.wins.find? fun p => !p.held && p.win.is cause unit with
  | none => h
  | some p => postFault p (at_ (p.openAt + 10000) h)

/-- HELD_RECORD_EXPIRY. -/
def heldExpiry (cause unit : Nat) (h : Hub) : Hub :=
  match h.flt.wins.find? fun p => p.held && p.win.is cause unit with
  | none => h
  | some p => postFault p (at_ (p.win.firstTime + 10000000) h)

/-! ### The check values of a frame (10 R269-R274) -/

/-- Survey for a mismatched region channel: a record for the first engine, the others tested after it (10 R274, 17 R441). -/
def surveyRegion (o frame : Nat) (k : ChkCfg) (h : Hub) : Hub :=
  match rectEngines h o k with
  | [] => h
  | e :: rest =>
    let d := o / 4
    let h := updDie h d fun x => { x with srv := { x.srv with serial := x.srv.serial ++ [e :: rest] } }
    faultReport d 0x0702 (unitId 1 d e) (pipeUnit o) (bandDetail o (k.y / (getOut h o).bandH) frame) h

/-- Where no die window took a record of the first engine (it is held or dropped), Survey is asked for it at once: R274 starts Survey
whatever becomes of the record (DESIGN CHOICE, log entry 84). -/
def surveyUnrecorded (o : Nat) (k : ChkCfg) (h : Hub) : Hub :=
  match rectEngines h o k with
  | [] => h
  | e :: _ =>
    let d := o / 4
    let u := unitId 1 d e
    if !dieUp h d || (getDie h d).srv.wins.any (·.is 0x0702 u) then h
    else
      let h := (surveyAsk u h.now none h).2
      if surveyed h u then h else nextSerial u none h

/-- A link-path fault starts Survey on the port's PHY (10 R271): the window that took its record asks for it when it closes; where none did that
asks for it (the record is held or dropped, or the window's first report is no pipe's), it is asked for at once. -/
def surveyPhy (o : Nat) (h : Hub) : Hub :=
  let d := o / 4
  let u := unitId 5 d (getOut h o).port
  if !dieUp h d || (getDie h d).srv.wins.any (fun w => w.is 0x0703 u && namesTest w) then h
  else (surveyAsk u h.now none h).2

/-- The values of the frame that ended become its result; `link` is what the read-back receiver decoded, where that differs from what
the pipe sent. -/
def chkFinal (o : Nat) (link : Option Nat) (h : Hub) : Hub :=
  let x := getOut h o
  match x.chk.ended with
  | none => h
  | some v =>
    let notSent := bit v.flags 3
    let val (ch : Nat) : Nat :=
      if notSent then 0 else match chanCfg v.cfg ch with | none => 0 | some k => chanValue k (v.lanes.get ch k.init)
    let lv := if notSent then 0 else link.getD (val 17)
    let barred := bit v.flags 0 || bit v.flags 2 || notSent || bit v.flags 4 || bit v.flags 6
    let exp := if barred then [] else x.chk.expect.filter fun e => e.2.1 == v.num && v.cfg.has e.1
    let bad := exp.filter fun e => val e.1 ≠ e.2.2
    let set (l : List (Nat × Nat × Nat)) : Nat := ((List.range 16).map fun c => b2n (l.any fun e => e.1 == c) * 2 ^ c).sum
    let linkBad := !notSent && !bit v.flags 6 && decide (val 16 ≠ lv)
    let res : ChkRes :=
      { flags := v.flags + 32 * b2n linkBad, compared := set exp, mismatched := set bad, frame := v.num, time := h.now
        region := (List.range 16).map val, frameValue := val 16, linkValue := lv }
    let h := updOut h o fun x => { x with chk := { x.chk with
      ended := none, res := res, expect := x.chk.expect.filter fun e => e.2.1 > v.num
      mismatches := satAdd 0xFFFFFFFF x.chk.mismatches bad.length
      linkMismatches := if linkBad then satInc 0xFFFFFFFF x.chk.linkMismatches else x.chk.linkMismatches } }
    let h := dropOps o 0x0405 (fun p => p.frame ≤ v.num) h
    let h := match x.chk.holder with
      | some c => if linkBad || !bad.isEmpty then postEvent c 0x0680 (o + 256 * set bad + 2 ^ 24 * b2n linkBad) v.num h else h
      | none => h
    let h := if bit v.flags 1 then h
      else bad.foldl (fun h e => match v.cfg.find e.1 with
        | none => h
        | some k => if bit k.flags 5 then surveyUnrecorded o k (surveyRegion o v.num k h) else h) h
    if linkBad then surveyPhy o (faultReport (o / 4) 0x0703 (unitId 5 (o / 4) x.port) (pipeUnit o) v.num h) else h

/-! ### FLT_READ (17 R456) -/

/-- FLT_READ. -/
def fltRead : Spec :=
  { op := 0x0A00, level := 1, rsv := [(20, 4), (32, 32)]
    checks := fun c _ h => [bufCk c 24, ck 0x0404 16 (!h.flt.records.any fun r => r.1 == arg32 c 16)]
    run := fun c _ _ h =>
      match h.flt.records.find? fun r => r.1 == arg32 c 16 with
      | none => failRes h 0x0404 16
      | some r => okRes (ctxWrite c.ctx (arg64 c 24) r.2 h) 64 }

/-! ### The rows -/

/-- Is the hub running: PORST_N is high and the supplies are there (18 R462)? -/
def powered (h : Hub) : Bool := h.pkg.phase == .starting || h.pkg.phase == .ready

/-- What an uncorrectable LP5X error does to the read of the unit that reports it: the granule of an engine's fetch is zero, a running
job, descriptor or privileged operation stops (14 R378; 11 R300; 12 R319).  The suspected unit is the channel in which the offset
lies (14 R379); any other report names no read. -/
def memError (cause unit reporter off : Nat) (m : List Host.Cell) (h : Hub) : Eff :=
  let d := unitDie reporter
  let i := unitInst reporter
  if cause ≠ 0x0701 || unitClass unit ≠ 3 || lpChannel off ≠ unitInst unit then (h, [])
  else match unitClass reporter with
    | 0x01 =>
      if h.engines.has (24 * d + i) then
        (updDie h d fun x => { x with zeroed := x.zeroed ++ [(i, (unitDie unit * 2 ^ 34 + off) / 64)] }, [])
      else (h, [])
    | 0x08 => jobFails d m h
    | 0x09 => if i < 4 then privStop d i 0x0701 m h else (chanFails (32 * d + i) ((unitDie unit * 2 ^ 34 + off) / 64) h, [])
    | _ => (h, [])

/-- FAULT_REPORT. -/
def execFaultReport (die : Nat) (cause : BitVec 16) (unit reporter : BitVec 32) (detail : BitVec 64) (s : State) :
    Host.Outcome State Fault Refusal :=
  .next (act (fun m h =>
    if powered h then
      memError cause.toNat unit.toNat reporter.toNat detail.toNat m (faultReport die cause.toNat unit.toNat reporter.toNat detail.toNat h)
    else (h, [])) s)
/-- DIE_WINDOW_CLOSE. -/
def execDieWindowClose (die : Nat) (cause : BitVec 16) (unit : BitVec 32) (s : State) : Host.Outcome State Fault Refusal :=
  .next (onHub (dieWindowClose die cause.toNat unit.toNat) s)
/-- FAULT_DIE_RECORD. -/
def execFaultDieRecord (die : Nat) (cause : BitVec 16) (unit : BitVec 32) (s : State) : Host.Outcome State Fault Refusal :=
  .next (onHub (dieRecord die cause.toNat unit.toNat) s)
/-- PACKAGE_WINDOW_CLOSE. -/
def execPackageWindowClose (cause : BitVec 16) (unit : BitVec 32) (s : State) : Host.Outcome State Fault Refusal :=
  .next (onHub (packageWindowClose cause.toNat unit.toNat) s)
/-- HELD_RECORD_EXPIRY. -/
def execHeldRecordExpiry (cause : BitVec 16) (unit : BitVec 32) (s : State) : Host.Outcome State Fault Refusal :=
  .next (onHub (heldExpiry cause.toNat unit.toNat) s)
/-- CHECK_RESULT_FINAL. -/
def execCheckResultFinal (out : Nat) (link : Option (BitVec 32)) (s : State) : Host.Outcome State Fault Refusal :=
  .next (onHub (chkFinal out (link.map BitVec.toNat)) s)
/-- FLT_READ. -/
def execFltRead (c : Cmd) (s : State) : Host.Outcome State Fault Refusal := .next (mail fltRead c s)

end Sys2Proof.Machine
end

