-- ==== Sys2Proof/Machine/Links.lean ====
section
/-!
DEFINITION. The 0x0Dxx commands, the answers they wait for, and what happens at the DisplayPort, eDP and DSI ports (13 R330, R331,
R349, R356-R373).
-/

namespace Sys2Proof.Machine

/-! ### Fields and checks that the commands share (13 R365) -/

/-- The port that DIE and PORT name. -/
def portArg (c : Cmd) : Nat := arg8 c 16 * 8 + arg8 c 17

/-- DIE at 16 and PORT at 17 (13 R365): an absent die, and a code outside 08 R197; `ok`: the kinds of port that the command is for. -/
def portCks (h : Hub) (c : Cmd) (ok : Nat → Bool) : List Ck :=
  let p := arg8 c 17
  let known := p < 8 && p ≠ 3
  [dieCk h 16 (arg8 c 16), ck 0x0202 17 !known, ck 0x0205 17 (known && !ok p)]

/-- Does the output that is bound to a port run? -/
def boundRuns (h : Hub) (k : Nat) : Bool := portBusy h k

/-- A DP port's highest configuration that both sides support (13 R359). -/
def dpMax (p : Port) : Nat × Nat :=
  (if p.sinkLanes ≥ 4 then 4 else if p.sinkLanes ≥ 2 then 2 else 1, min 4 (max 1 p.sinkRate))

/-- A DP port trains: the sink is there, and the attempt runs; a retired port stays DOWN (17 R449). -/
def dpTrain (k reason : Nat) (cfg : Nat × Nat) (h : Hub) : Hub :=
  if unitRetired h (unitId 5 (k / 8) (k % 8)) then linkGoes k .down reason h
  else linkGoes k .seek reason (updPort h k fun p => { p with training := some cfg })

/-! ### LNK_CONFIG (13 R330, R331, R366, R374) -/

/-- Field checks of LNK_CONFIG. -/
def lnkFieldCks (c : Cmd) : List Ck :=
  let p := arg8 c 17
  let kind := arg8 c 18
  let dp := p < 2
  let dsi := p = 2
  let tv := 4 ≤ p && p < 8
  let lanes := arg8 c 20
  let rate := arg16 c 22
  [ck 0x0106 18 ((dp || dsi) && kind > 2), ck 0x0103 18 (tv && kind > 7), ck 0x0106 18 (tv && (kind = 5 || kind = 6 || kind = 7)),
   ck 0x0103 19 (if dp then arg8 c 19 > 1 else arg8 c 19 > 7),
   ck 0x0106 20 (dp && !(lanes = 0 || lanes = 1 || lanes = 2 || lanes = 4)),
   ck 0x0201 20 ((dsi && kind = 1 && (lanes = 0 || lanes > 4)) || (dsi && kind = 2 && (lanes = 0 || lanes > 3)) || (tv && lanes ≠ 0)),
   ck 0x0106 21 (dp && arg8 c 21 > 4), ck 0x0201 21 (!dp && arg8 c 21 ≠ 0),
   ck 0x0201 22 ((dsi && kind = 1 && (rate < 80 || rate > 4500)) || (dsi && kind = 2 && (rate < 80 || rate > 5700)) ||
     (!dsi && rate ≠ 0)),
   ck 0x0106 24 (tv && arg8 c 24 > 2), ck 0x0106 25 (tv && arg8 c 25 > 2),
   ck 0x0201 26 (tv && arg16 c 26 > 1000), ck 0x0201 28 (tv && arg8 c 28 > 252)]

/-- Offsets of the fields KIND, LANES and RATE that a command changes. -/
def lnkChanges (p : Port) (c : Cmd) : List Nat :=
  ([(18, p.kind != arg8 c 18), (20, p.lanes != arg8 c 20), (21, p.dpRate != arg8 c 21), (22, p.dsiRate != arg16 c 22),
    (24, p.rateTx != arg8 c 24), (25, p.rateRx != arg8 c 25)].filter Prod.snd).map Prod.fst

/-- State checks of LNK_CONFIG. -/
def lnkStateCks (h : Hub) (c : Cmd) : List Ck :=
  let k := portArg c
  let p := getPort h k
  let ch := lnkChanges p c
  let kind := arg8 c 18
  ch.flatMap (fun o => [ckd (k / 8) 0x0406 o (boundRuns h k), ckd (k / 8) 0x0403 o (camRuns p)]) ++
  [ckd (k / 8) 0x040C 17 (unitRetired h (unitId 5 (k / 8) (k % 8))),
   ckd (k / 8) 0x0403 18 ((portOut h k).isSome && (kind = 0 || (isTv k && !bit kind 0))),
   ckd (k / 8) 0x0403 18 (isTv k && bit p.kind 2 && !bit kind 2 && (h.chain.up = some k || h.chain.down = some k))]

/-- The effect of LNK_CONFIG on a port's state; a DSI port whose output is stopped is in ULPS (13 R363). -/
def lnkApply (k : Nat) (c : Cmd) (h : Hub) : Hub :=
  let old := getPort h k
  let h := updPort h k fun p => { p with
    kind := arg8 c 18, options := arg8 c 19, lanes := arg8 c 20, dpRate := arg8 c 21, dsiRate := arg16 c 22
    rateTx := arg8 c 24, rateRx := arg8 c 25, dozeIdle := if arg16 c 26 = 0 then 100 else arg16 c 26
    fomMin := if arg8 c 28 = 0 then 96 else arg8 c 28, camOwner := arg16 c 30 }
  let p := getPort h k
  if p.kind = 0 then
    if old.kind = 0 then h
    else
      let h := if isTv k && old.state == .up then leaveUp k h else h
      linkGoes k .off 1 (updPort h k fun p => { p.unlocked with
        training := none, trained := none, inUse := (0, 0), txDoze := false, rxDoze := false, farHeld := false })
  else if isTv k then
    if old.kind = 0 then enterSeek k 1 h
    else if old.rateTx ≠ p.rateTx || old.rateRx ≠ p.rateRx then enterSeek k 1 (if old.state == .up then leaveUp k h else h)
    else if p.state == .up && bit p.kind 2 then enumOnward h
    else h
  else if isDp k then
    if old.kind ≠ 0 then h
    else if p.sink then dpTrain k 1 (dpMax p) h
    else linkGoes k .alone 1 h
  else
    let h := updPort h k fun p => { p with ulps := !boundRuns h k }
    if old.kind = p.kind then h else linkGoes k .up 1 h

/-- LNK_CONFIG. -/
def lnkConfig : Spec :=
  { op := 0x0D00, level := 2, locks := true, rsv := [(29, 1), (32, 32)]
    checks := fun c _ h =>
      portCks h c (fun _ => true) ++ lnkFieldCks c ++
      (if arg16 c 30 = 0xFFFF then [] else ctxCks h 30 (arg16 c 30) true) ++ lnkStateCks h c
    run := fun c _ _ h => okRes (lnkApply (portArg c) c h) }

/-! ### LNK_QUERY (13 R372) -/

/-- Values that no row brings take their present value when they are read: the blocks discarded and FILLERs adjusted since the last
reading, and the figures of the partner's last MARKERs (log entry 2). -/
def lnkFresh (k : Nat) (h : Hub) : Hub :=
  if !isTv k || portOff (getPort h k) then h
  else
    let n := h.freeIx
    let up := (getPort h k).state == .up
    updPort { h with freeIx := n + 4 } k fun p => { p with
      coding := (p.coding + (Config.freeWord n).toNat) % 2 ^ 32
      filler := (p.filler + (Config.freeWord (n + 1)).toNat) % 2 ^ 32
      lane0 := { p.lane0 with partnerFom := if up then (Config.freeByte (n + 2)).toNat else p.lane0.partnerFom }
      lane1 := { p.lane1 with partnerFom := if up then (Config.freeByte (n + 3)).toNat else p.lane1.partnerFom } }

/-- The block that LNK_QUERY writes. -/
def lnkImage (k : Nat) (p : Port) : Bytes :=
  let rates := if isTv k then p.rateTx + 4 * p.rateRx else if isDp k then p.inUse.2 + 16 * p.inUse.1 else 0
  let flags := b2n (p.lane0.stale ≠ 0) + 2 * b2n (p.lane1.stale ≠ 0) + 4 * b2n (camRuns p) + 8 * b2n p.farHeld +
    (if isDp k then 16 * (p.sinkCaps % 16) else 0)
  leBytes 1 (k / 8) ++ leBytes 1 (k % 8) ++ leBytes 1 p.kind ++ leBytes 1 (linkCode p.state) ++
    leBytes 1 (b2n p.txDoze + 2 * b2n p.rxDoze) ++ leBytes 1 rates ++ leBytes 1 p.lane0.fom ++ leBytes 1 p.lane1.fom ++
    leBytes 1 p.lane0.partnerFom ++ leBytes 1 p.lane1.partnerFom ++ leBytes 1 flags ++
    leBytes 1 (p.lane0.ctle + 16 * p.lane1.ctle) ++ leBytes 4 p.partnerId ++ p.partner.flatMap (leBytes 1) ++ leBytes 1 0 ++
    leBytes 4 p.retrains ++ leBytes 4 p.coding ++ leBytes 4 p.camFrames ++ leBytes 4 p.camFaults ++ leBytes 4 p.filler ++
    leBytes 8 p.stateTime ++ (p.lane0.dfe ++ p.lane1.dfe).flatMap (fun t => leBytes 1 (unsigned 8 t)) ++ leBytes 8 0

/-- LNK_QUERY. -/
def lnkQuery : Spec :=
  { op := 0x0D01, rsv := [(18, 6), (32, 32)]
    checks := fun c _ h =>
      let k := portArg c
      let own := match portOut h k with | none => false | some o => listOwner h (listOf h o) == some c.ctx
      portCks h c (fun _ => true) ++
      [bufCk c 24, ck 0x0302 255 (levelOf h c.ctx = 0 && !own && (getPort h k).camOwner ≠ c.ctx)]
    run := fun c _ _ h =>
      let k := portArg c
      let h := lnkFresh k h
      okRes (ctxWrite c.ctx (arg64 c 24) (lnkImage k (getPort h k)) h) 64 }

/-! ### LNK_EQ (13 R343, R344, R346, R367) -/

/-- LNK_EQ on one lane. -/
def eqLane (c : Cmd) (x : Lane) : Lane :=
  let x := { x with stale := 4 }
  match arg8 c 19 with
  | 0 => { x with fir := [arg8 c 20, arg8 c 21, arg8 c 22] }
  | 1 => { x with fixed := true, adapting := false, ctle := arg8 c 23, dfe := (List.range 4).map fun i => signed 8 (arg8 c (24 + i)) }
  | _ => { x with fixed := false, adapting := true }

/-- LNK_EQ. -/
def lnkEq : Spec :=
  { op := 0x0D02, level := 2, locks := true, rsv := [(28, 36)]
    checks := fun c _ h =>
      let op := arg8 c 19
      portCks h c (fun p => p ≥ 4) ++
      [ck 0x0201 18 (arg8 c 18 = 0), ck 0x0103 18 (arg8 c 18 > 3), ck 0x0106 19 (op > 2),
       ck 0x0201 20 (op = 0 && arg8 c 20 > 16), ck 0x0201 21 (op = 0 && (arg8 c 21 < 24 || arg8 c 21 > 64)),
       ck 0x0201 22 (op = 0 && arg8 c 22 > 24), ck 0x0201 255 (op = 0 && arg8 c 20 + arg8 c 21 + arg8 c 22 ≠ 64),
       ck 0x0201 23 (op = 1 && arg8 c 23 > 15)] ++
      (List.range 4).map fun i => ck 0x0201 (24 + i) (op = 1 && (signed 8 (arg8 c (24 + i))).natAbs > 31)
    run := fun c _ _ h =>
      let k := portArg c
      let on (l : Nat) (x : Lane) : Lane := if bit (arg8 c 18) l then eqLane c x else x
      okRes (updPort h k fun p => { p with lane0 := on 0 p.lane0, lane1 := on 1 p.lane1 }) }

/-! ### LNK_POWER and LNK_LOOPBACK (13 R347, R349, R368) -/

/-- A Traverse port goes to TL_DEEP: its PLLs and CDR are off. -/
def goDeep (k : Nat) (h : Hub) : Hub :=
  let h := if carries h k then leaveUp k h else h
  linkGoes k .deep 1 (updPort h k Port.unlocked)

/-- LNK_POWER with STATE 2 on a port that is UP. -/
def enterDeep (k : Nat) (h : Hub) : Hub := if carries h k then goDeep k h else h

/-- LNK_POWER. -/
def lnkPower : Spec :=
  { op := 0x0D03, level := 2, locks := true, rsv := [(19, 45)]
    checks := fun c _ h =>
      let k := portArg c
      let p := getPort h k
      portCks h c (fun p => p ≥ 4) ++
      [ck 0x0106 18 (arg8 c 18 ≠ 0 && arg8 c 18 ≠ 2), ck 0x0406 17 (boundRuns h k), ck 0x0403 17 (camRuns p || bit p.kind 2),
       ck 0x040A 17 (arg8 c 18 = 2 && p.state != .up && p.state != .deep)]
    run := fun c p _ h =>
      let k := portArg c
      let s := (getPort h k).state
      if arg8 c 18 = 2 then okRes (enterDeep k h)
      else if s == .up then okRes h
      else
        let h := updPort h k fun x => { x with wakeCmds := x.wakeCmds ++ [p] }
        laterRes (if s == .deep then enterSeek k 1 h else h) }

/-- A loopback test begins: the port is in LOOP. -/
def startLoop (k : Nat) (t : LoopTest) (h : Hub) : Hub :=
  linkGoes k .loop 1 (updPort h k fun p => { p with test := some { t with start := h.now, accepted := true }, txDoze := false })

/-- LNK_LOOPBACK. -/
def lnkLoopback : Spec :=
  { op := 0x0D04, level := 2, locks := true, rsv := [(24, 40)]
    checks := fun c _ h =>
      let k := portArg c
      let p := getPort h k
      portCks h c (fun p => p ≥ 4) ++
      [ck 0x0106 18 (arg8 c 18 = 0 || arg8 c 18 > 3), ck 0x0201 19 (arg8 c 19 = 0), ck 0x0103 19 (arg8 c 19 > 3),
       ck 0x0201 20 (arg32 c 20 < 10 || arg32 c 20 > 100000), ck 0x0406 17 (boundRuns h k),
       ck 0x0403 17 (camRuns p || bit p.kind 2), ck 0x040A 17 (p.state != .up || p.test.isSome)]
    run := fun c p _ h =>
      let k := portArg c
      let t : LoopTest :=
        { mode := arg8 c 18, lanes := arg8 c 19, duration := arg32 c 20, start := h.now, cmd := some p, accepted := false }
      if t.mode = 3 then laterRes (sendLoop k 0 (updPort h k fun x => { x with test := some t }))
      else laterRes (startLoop k t h) }

/-- LOOP_ANSWER: the partner accepts (2) or refuses (3) the far-end loop; `data` holds byte 1 of the block. -/
def loopAnswer (k : Nat) (data : Bytes) (h : Hub) : Hub :=
  let p := getPort h k
  match p.test with
  | none => h
  | some t =>
    if !carries h k || t.accepted then h
    else if msgN data 0 1 = 2 then startLoop k t h
    else if msgN data 0 1 = 3 then
      let h := updPort h k fun x => { x with test := none }
      match t.cmd with | none => h | some c => complete c 0x0403 255 0 0 h
    else h

/-- LOOPBACK_END: the errors of each lane and the bits checked; the port leaves LOOP, if nothing else has taken it out. -/
def loopbackEnd (k err0 err1 checked : Nat) (h : Hub) : Hub :=
  let p := getPort h k
  match p.test with
  | none => h
  | some t =>
    if !t.accepted then h
    else
      let h := at_ (t.start + 1000 * t.duration) h
      let h := updPort h k fun x => { x with test := none }
      let h := if p.state != .loop then h else if t.mode = 2 then enterSeek k 1 h else linkGoes k .up 1 h
      let h := if t.mode = 3 && p.state == .loop then sendLoop k 1 h else h
      let e (l v : Nat) : Nat := if bit t.lanes l then min v 0xFFFF else 0
      match t.cmd with
      | none => h
      | some c => completeOk c (e 0 err0 + 65536 * e 1 err1) checked h

/-! ### LNK_CAMERA (13 R356, R357, R369) -/

/-- The target handles of LNK_CAMERA. -/
def camTargets (c : Cmd) : List Nat := (List.range (min 4 (arg8 c 19))).map fun i => arg32 c (40 + 4 * i)

/-- W_line of a target (13 R356). -/
def camWLine (s : Surf) : Nat :=
  let q := fmtD s.fmt
  if q.crated then ((s.planes.getD 0 (0, 0)).2 + 64 * s.budget) / 4 else ((List.range q.planes).map (rowBytes q s.width)).sum

/-- The stream that a command configures. -/
def camCfg (h : Hub) (c : Cmd) : Option CamCfg :=
  let ts := camTargets c
  match surfOf h (ts.headD 0) with
  | none => none
  | some s => some
      { owner := c.ctx, targets := ts, lineNs := arg32 c 20, tl := arg32 c 24, base := arg64 c 32, die := s.region / 256
        wLine := camWLine s, group := (getCtx h s.owner).group }

/-- Checks of one target: handle, right, and its agreement with the first. -/
def camTargetCks (h : Hub) (c : Cmd) (i v : Nat) : List Ck :=
  let off := 40 + 4 * i
  let first := camTargets c |>.headD 0
  let may := mayUse h v c.ctx 1
  handleCks h off v ++ [rightCk h off v c.ctx 1] ++
  (match surfOf h v with
   | none => []
   | some s =>
     let like := match surfOf h first with
       | none => true
       | some f => !mayUse h first c.ctx 1 || (f.fmt = s.fmt && f.width = s.width && f.height = s.height && first % 65536 / 8192 = v % 65536 / 8192)
     [ck 0x0205 off (may && !hasRole s.fmt 4), ck 0x0201 off (may && !like),
      ck 0x0201 off (may && (fmtD s.fmt).crated && s.budget ≠ rawMax s.fmt s.width)])

/-- Bandwidth tests of a stream (13 R356, 07 R176): tests 1, 2 and 5. -/
def camAdmits (h : Hub) (k : Nat) (cfg : CamCfg) : List Ck :=
  let h2 := updPort h k fun p => { p with camNext := some cfg }
  let dm := demandOf (heldViews h)
  let fails := ((upDies h).flatMap fun d => dieTests h2 dm (camResvs h2) d).filter fun t => match t with
    | none => false
    | some r => [1, 2, 5].contains (bits r.2.1 16 8)
  match firstTest fails with
  | none => []
  | some (st, r0, r1) => [{ st := st, off := 255, bad := true, r0 := r0, r1 := r1 }]

/-- LNK_CAMERA. -/
def lnkCamera : Spec :=
  { op := 0x0D05, rsv := [(28, 4), (56, 8)]
    checks := fun c _ h =>
      let k := portArg c
      let p := getPort h k
      let on := arg8 c 18 = 1
      let n := arg8 c 19
      portCks h c (fun p => p ≥ 4) ++
      [ck 0x0106 18 (arg8 c 18 > 1), ck 0x0201 19 (if on then n = 0 || n > 4 else n ≠ 0),
       ck 0x0201 20 (on && (arg32 c 20 < 100 || arg32 c 20 > 1000000)), ck 0x0302 17 (p.camOwner ≠ c.ctx),
       ck 0x0403 17 !(bit p.kind 1)] ++
      ((List.range 4).filter (n ≤ ·)).map (fun i => ck 0x0103 (40 + 4 * i) (arg32 c (40 + 4 * i) ≠ 0)) ++
      (if on then
        (if arg32 c 24 = 0 then [] else tlCks h 24 (arg32 c 24) ++ [tlOwnerCk h 24 (arg32 c 24) c.ctx]) ++
        (camTargets c).zipIdx.flatMap (fun t => camTargetCks h c t.2 t.1) ++
        (match camCfg h c with
         | none => []
         | some cfg => if cfg.lineNs = 0 then [] else camAdmits h k cfg)
       else [])
    run := fun c _ _ h =>
      let k := portArg c
      if arg8 c 18 = 0 then okRes (sendStatus k false (camStop k false h))
      else match camCfg h c with
        | none => failRes h 0x0404 40
        | some cfg =>
          okRes (sendStatus k false
            (updPort h k fun p => if p.cam.isSome then { p with camNext := some cfg } else { p with cam := some cfg, camK := 0 }))
            (ceilDiv (1000 * cfg.wLine) cfg.lineNs) }

/-! ### LNK_I2C (13 R352, R370) -/

/-- LNK_I2C. -/
def lnkI2c : Spec :=
  { op := 0x0D06, level := 1, rsv := [(22, 2)]
    checks := fun c _ h =>
      let k := portArg c
      portCks h c (fun p => p ≥ 4) ++
      [ck 0x0201 18 (arg8 c 18 > 127), ck 0x0106 19 (arg8 c 19 > 2), ck 0x0201 20 (arg8 c 20 > 32), ck 0x0201 21 (arg8 c 21 > 32),
       ck 0x0201 255 (arg8 c 20 + arg8 c 21 = 0), bufCk c 56, ck 0x040A 17 ((getPort h k).state != .up)]
    run := fun c p _ h =>
      let k := portArg c
      let x := getPort h k
      let msg := leBytes 1 x.i2cId ++ leBytes 1 (arg8 c 18) ++ leBytes 1 (arg8 c 20) ++ leBytes 1 (arg8 c 21) ++
        leBytes 1 (arg8 c 19) ++ leBytes 3 0 ++ argBytes c 24 (arg8 c 20)
      let h := updPort h k fun x => { x with
        i2cId := (x.i2cId + 1) % 256, i2c := x.i2c ++ [{ cmd := p, id := x.i2cId, buf := arg64 c 56, msg := msg }] }
      laterRes (if x.i2c.isEmpty then sendI2c k h else h) }

/-! ### LNK_AUX and LNK_BACKLIGHT (13 R362, R371) -/

/-- The first AUX transaction that waits goes out (Sent.bus kind 2). -/
def sendAux (k : Nat) (h : Hub) : Hub :=
  match (getPort h k).aux with
  | [] => h
  | a :: _ => send (.bus k 2 a.2.2) h

/-- Does a DPCD range meet one that the hub manages itself? -/
def dpcdManaged (a n : Nat) : Bool :=
  let meets (lo hi : Nat) : Bool := a ≤ hi && lo < a + n
  meets 0x100 0x2FF || meets 0x600 0x600 || meets 0x700 0x7FF

/-- LNK_AUX. -/
def lnkAux : Spec :=
  { op := 0x0D07, level := 2, locks := true, rsv := [(32, 32)]
    checks := fun c _ h =>
      portCks h c (fun p => p < 2) ++
      [ck 0x0106 18 (arg8 c 18 > 1), ck 0x0201 19 (arg8 c 19 = 0 || arg8 c 19 > 8), ck 0x0201 20 (arg32 c 20 > 0xFFFFF),
       ck 0x0403 20 (arg8 c 18 = 1 && dpcdManaged (arg32 c 20) (arg8 c 19)), ck 0x040A 17 ((getPort h (portArg c)).state != .up)]
    run := fun c p _ h =>
      let k := portArg c
      let idle := (getPort h k).aux.isEmpty
      let req := leBytes 1 (arg8 c 18) ++ leBytes 1 (arg8 c 19) ++ leBytes 4 (arg32 c 20) ++
        (if arg8 c 18 = 1 then argBytes c 24 (arg8 c 19) else [])
      let h := updPort h k fun x => { x with aux := x.aux ++ [(p, arg8 c 18, req)] }
      laterRes (if idle then sendAux k h else h) }

/-- AUX_REPLY: the reply code, then the bytes read; a DEFER is retried 7 times. -/
def auxReply (k : Nat) (data : Bytes) (h : Hub) : Hub :=
  match (getPort h k).aux with
  | [] => h
  | (p, op, _) :: rest =>
    if msgN data 0 1 = 2 && (getPort h k).auxTries < 7 then sendAux k (updPort h k fun x => { x with auxTries := x.auxTries + 1 })
    else
      let h := updPort h k fun x => { x with aux := rest, auxTries := 0 }
      sendAux k (completeOk p (msgN data 0 1) (if op = 0 then msgN data 1 8 else 0) h)

/-- LNK_BACKLIGHT; where no output runs on the port, no vertical blank is waited for. -/
def lnkBacklight : Spec :=
  { op := 0x0D08, rsv := [(21, 43)]
    checks := fun c _ h =>
      let k := portArg c
      let p := getPort h k
      let own := match portOut h k with | none => false | some o => listOwner h (listOf h o) == some c.ctx
      portCks h c (fun q => q < 2 && p.kind = 2 && (!p.sink || bit p.sinkCaps 3)) ++
      [ck 0x0106 20 (arg8 c 20 > 1), ck 0x0302 17 !own, ck 0x040A 17 (p.state != .up)]
    run := fun c p _ h =>
      let k := portArg c
      if boundRuns h k then
        laterRes (updPort h k fun x => { x with light := x.light ++ [(arg16 c 18, arg8 c 20, p)] })
      else laterRes (sendLight k (arg16 c 18) (arg8 c 20) p h) }

/-! ### LNK_DSI_CMD (13 R363, R371) -/

/-- LNK_DSI_CMD. -/
def lnkDsiCmd : Spec :=
  { op := 0x0D09, level := 2, locks := true, rsv := [(23, 1), (56, 8)]
    checks := fun c _ h =>
      let read := bit (arg8 c 19) 1
      [dieCk h 16 (arg8 c 16), ck 0x0201 18 (arg8 c 18 ≠ 0), ck 0x0103 19 (arg8 c 19 > 3), ck 0x0201 20 (arg16 c 20 > 32),
       ck 0x0201 22 (read && (arg8 c 22 = 0 || arg8 c 22 > 8)), ck 0x040A 16 ((getPort h (arg8 c 16 * 8 + 2)).state != .up)]
    run := fun c p _ h =>
      let k := arg8 c 16 * 8 + 2
      let read := bit (arg8 c 19) 1
      let bs := leBytes 1 (arg8 c 17) ++ leBytes 1 (arg8 c 19) ++ leBytes 1 (if read then arg8 c 22 else 0) ++
        argBytes c 24 (arg16 c 20)
      if boundRuns h k then laterRes (updPort h k fun x => { x with dsiWait := x.dsiWait ++ [(bs, read, p)] })
      else laterRes (sendDsi k bs read p h) }

/-- DSI_READ_RESPONSE: the bytes read. -/
def dsiResponse (k : Nat) (data : Bytes) (h : Hub) : Hub :=
  match (getPort h k).dsiRead with
  | [] => h
  | p :: rest => completeOk p 0 (msgN data 0 8) (updPort h k fun x => { x with dsiRead := rest })

/-! ### Time bounds (13 R365, R368) -/

/-- What waits at a port, with the instant at which its time bound ends: 0 an I2C transfer, 1 LNK_POWER, 2 a far-end request, 3 an
AUX transaction, 4 a DSI read. -/
def waiting (h : Hub) (k : Nat) : List (Nat × Nat) :=
  let p := getPort h k
  let frame := match portOut h k with | none => 0 | some o => match (getOut h o).mode with | none => 0 | some e => framePeriod e
  (match p.i2c with | [] => [] | r :: _ => [(r.cmd.time + 10000000, 0)]) ++
  (match p.wakeCmds with | [] => [] | r :: _ => [(r.time + 20000000, 1)]) ++
  (match p.test with | none => [] | some t => if t.accepted then [] else [(t.start + 1000000, 2)]) ++
  (match p.aux with | [] => [] | r :: _ => [(r.1.time + 5000000, 3)]) ++
  (match p.dsiRead with | [] => [] | r :: _ => [(r.time + frame + 1000000, 4)])

/-- The one whose time ends first. -/
def firstWait (l : List (Nat × Nat)) : Option (Nat × Nat) :=
  l.foldl (fun b w => match b with | none => some w | some v => if w.1 < v.1 then some w else b) none

/-- COMMAND_TIMEOUT: the time bound of what waits at a port ends. -/
def commandTimeout (k : Nat) (h : Hub) : Hub :=
  match firstWait (waiting h k) with
  | none => h
  | some (t, kind) =>
    let h := at_ t h
    let p := getPort h k
    match kind with
    | 0 => match p.i2c with
      | [] => h
      | r :: rest => sendI2c k (complete r.cmd 0x0801 255 0 0 (updPort h k fun x => { x with i2c := rest }))
    | 1 => match p.wakeCmds with
      | [] => h
      | r :: rest => complete r 0x0803 255 0 0 (updPort h k fun x => { x with wakeCmds := rest })
    | 2 => match p.test with
      | none => h
      | some t =>
        let h := updPort h k fun x => { x with test := none }
        match t.cmd with | none => h | some c => complete c 0x0803 255 0 0 h
    | 3 => match p.aux with
      | [] => h
      | r :: rest => sendAux k (complete r.1 0x0801 255 0 0 (updPort h k fun x => { x with aux := rest, auxTries := 0 }))
    | _ => match p.dsiRead with
      | [] => h
      | r :: rest => complete r 0x0801 255 0 0 (updPort h k fun x => { x with dsiRead := rest })

/-! ### DisplayPort events (13 R359-R361) -/

/-- DP_HOT_PLUG: the sink's lane count, rate code and capabilities, and its sizes: brightness width, and selective-update granularity in
pixels and lines, as its DPCD gives them. -/
def dpHotPlug (k lanes rate caps : Nat) (sizes : Nat × Nat × Nat) (h : Hub) : Hub :=
  if !isDp k || !dieUp h (k / 8) then h
  else
    let h := updPort h k fun p => { p with
      sink := true, sinkLanes := lanes, sinkRate := rate, sinkCaps := caps % 16, sinkBits := max 1 (min 16 sizes.1), trained := none
      sinkGran := (max 1 sizes.2.1, max 1 sizes.2.2), inUse := (0, 0), training := none }
    if portOff (getPort h k) then h else dpTrain k 6 (dpMax (getPort h k)) h

/-- Self refresh of a port's output ends. -/
def psrEnds (k : Nat) (h : Hub) : Hub := match portOut h k with | none => h | some o => updOut h o fun x => { x with psr := false }

/-- DP_UNPLUG. -/
def dpUnplug (k : Nat) (h : Hub) : Hub :=
  if !isDp k || !(getPort h k).sink then h
  else
    let h := psrEnds k (cutFrame k h)
    let h := send (.bus k 0 []) (updPort h k fun p => { p with
      sink := false, sinkLanes := 0, sinkRate := 0, sinkCaps := 0, sinkGran := (1, 1), trained := none, inUse := (0, 0), training := none })
    if portOff (getPort h k) then h else linkGoes k .alone 6 h

/-- DP_HPD_IRQ: the link status read shows the link lost, or a PSR error. -/
def dpIrq (k : Nat) (lost psr : Bool) (h : Hub) : Hub :=
  let p := getPort h k
  if !isDp k || !p.sink || portOff p then h
  else
    let on := match portOut h k with | none => false | some o => (getOut h o).psr
    let h := if psr then
        let h := updPort h k fun p => { p with psrOff := true }
        linkEvent k 5 (if on then psrEnds k h else h)
      else h
    if lost && p.state == .up then dpTrain k 2 p.inUse (cutFrame k h) else h

/-- The configuration that follows a failed one in the order of 13 R359, if one carries the mode. -/
def dpNext (h : Hub) (k : Nat) (cfg : Nat × Nat) : Option (Nat × Nat) :=
  match portOut h k with
  | none => none
  | some o => match (getOut h o).mode with
    | none => none
    | some e => (((dpChoices (getPort h k)).dropWhile (· != cfg)).drop 1).find? fun c => dpFits e (getOut h o).bpc c.1 c.2

/-- DP_TRAINING_END: the attempt ended, with what it reached after the fallbacks of the standard. -/
def dpTrainingEnd (k : Nat) (ok : Bool) (lanes rate : Nat) (h : Hub) : Hub :=
  let p := getPort h k
  match p.training with
  | none => h
  | some cfg =>
    if !isDp k || !p.sink then h
    else
      let h := updPort h k fun p => { p with training := none }
      let first := p.trained.isNone
      let carries := match portOut h k with
        | none => true
        | some o => match (getOut h o).mode with
          | none => true
          | some e => dpFits e (getOut h o).bpc lanes rate
      let reached := ok && (lanes = 1 || lanes = 2 || lanes = 4) && 1 ≤ rate && rate ≤ 4
      let h := if reached && first then updPort h k fun p => { p with trained := some (lanes, rate) } else h
      if reached && carries then linkGoes k .up 1 (updPort h k fun p => { p with inUse := (lanes, rate) })
      else
        match (if first then none else dpNext h k cfg) with
        | some c => dpTrain k 2 c h
        | none => linkGoes k .down 2 h

/-- VIDEO_OFF_REPEAT: 100 ms after the last repeat, while a VIDEO_OUT output is stopped (13 R350). -/
def videoOffRepeat (k : Nat) (h : Hub) : Hub :=
  match portOut h k with
  | none => h
  | some o =>
    if carries h k && bit (getPort h k).kind 0 && (getOut h o).state == .stopped then
      let h := at_ ((getPort h k).offAt + 100000000) h
      videoOff k (getOut h o).frameCount (updPort h k fun p => { p with offAt := h.now })
    else h

/-! ### The rows -/

/-- LNK_CONFIG. -/
def execLnkConfig (c : Cmd) (s : State) : Host.Outcome State Fault Refusal := .next (mail lnkConfig c s)
/-- LNK_QUERY. -/
def execLnkQuery (c : Cmd) (s : State) : Host.Outcome State Fault Refusal := .next (mail lnkQuery c s)
/-- LNK_EQ. -/
def execLnkEq (c : Cmd) (s : State) : Host.Outcome State Fault Refusal := .next (mail lnkEq c s)
/-- LNK_POWER. -/
def execLnkPower (c : Cmd) (s : State) : Host.Outcome State Fault Refusal := .next (mail lnkPower c s)
/-- LNK_LOOPBACK. -/
def execLnkLoopback (c : Cmd) (s : State) : Host.Outcome State Fault Refusal := .next (mail lnkLoopback c s)
/-- LOOPBACK_END. -/
def execLoopbackEnd (port err0 err1 : Nat) (checked : BitVec 64) (s : State) : Host.Outcome State Fault Refusal :=
  .next (onHub (loopbackEnd port err0 err1 checked.toNat) s)
/-- LNK_CAMERA. -/
def execLnkCamera (c : Cmd) (s : State) : Host.Outcome State Fault Refusal := .next (mail lnkCamera c s)
/-- LNK_I2C. -/
def execLnkI2c (c : Cmd) (s : State) : Host.Outcome State Fault Refusal := .next (mail lnkI2c c s)
/-- LNK_AUX. -/
def execLnkAux (c : Cmd) (s : State) : Host.Outcome State Fault Refusal := .next (mail lnkAux c s)
/-- LNK_BACKLIGHT. -/
def execLnkBacklight (c : Cmd) (s : State) : Host.Outcome State Fault Refusal := .next (mail lnkBacklight c s)
/-- LNK_DSI_CMD. -/
def execLnkDsiCmd (c : Cmd) (s : State) : Host.Outcome State Fault Refusal := .next (mail lnkDsiCmd c s)
/-- LOOP_ANSWER. -/
def execLoopAnswer (port : Nat) (data : List (BitVec 8)) (s : State) : Host.Outcome State Fault Refusal := .next (onHub (loopAnswer port data) s)
/-- AUX_REPLY. -/
def execAuxReply (port : Nat) (data : List (BitVec 8)) (s : State) : Host.Outcome State Fault Refusal := .next (onHub (auxReply port data) s)
/-- DSI_READ_RESPONSE. -/
def execDsiReadResponse (port : Nat) (data : List (BitVec 8)) (s : State) : Host.Outcome State Fault Refusal :=
  .next (onHub (dsiResponse port data) s)
/-- COMMAND_TIMEOUT. -/
def execCommandTimeout (port : Nat) (s : State) : Host.Outcome State Fault Refusal := .next (onHub (commandTimeout port) s)
/-- DP_HOT_PLUG. -/
def execDpHotPlug (port lanes rate caps : Nat) (sizes : Nat × Nat × Nat) (s : State) : Host.Outcome State Fault Refusal :=
  .next (onHub (dpHotPlug port lanes rate caps sizes) s)
/-- DP_UNPLUG. -/
def execDpUnplug (port : Nat) (s : State) : Host.Outcome State Fault Refusal := .next (onHub (dpUnplug port) s)
/-- DP_HPD_IRQ. -/
def execDpHpdIrq (port : Nat) (lost psr : Bool) (s : State) : Host.Outcome State Fault Refusal := .next (onHub (dpIrq port lost psr) s)
/-- DP_TRAINING_END. -/
def execDpTrainingEnd (port : Nat) (ok : Bool) (lanes rate : Nat) (s : State) : Host.Outcome State Fault Refusal :=
  .next (onHub (dpTrainingEnd port ok lanes rate) s)
/-- VIDEO_OFF_REPEAT. -/
def execVideoOffRepeat (port : Nat) (s : State) : Host.Outcome State Fault Refusal := .next (onHub (videoOffRepeat port) s)

end Sys2Proof.Machine
end

