-- ==== Sys2Proof/Machine/Loss.lean ====
section
/-!
DEFINITION. What ends with a die that the package stops using: its contexts, its outputs and ports, work on its surfaces,
transactions that stage on it, its tests, its memory, and the role of the principal (17 R451, R452; 08 R200; 12 R319; 18 R474 steps
1 and 3).
-/

namespace Sys2Proof.Machine

/-! ### Work (11 R300, 12 R319, 13 R357) -/

/-- Does a surface handle name die `d`? -/
def handleOn (d v : Nat) : Bool := v % 65536 / 8192 == d

/-- Does a job use a surface of die `d`? -/
def jobOn (d : Nat) (j : Job) : Bool := handleOn d j.dst || (j.op ≠ 1 && handleOn d j.src)

/-- Is a channel of die `d`, or does it run a descriptor with a surface there? -/
def chanOn (d : Nat) (e : Nat × DmaChan) : Bool :=
  e.1 / 32 == d || (e.2.run.isSome && match e.2.queue with | [] => false | x :: _ => handleOn d x.dst || (x.hasSrc && handleOn d x.src))

/-- Jobs and descriptors on the die, and those of other dies that use its surfaces, end with 0x0707. -/
def stopDieWork (d : Nat) (m : List Host.Cell) (h : Hub) : Eff :=
  let a := stopJobs d (fun _ => some 0x0707) m h
  let m := a.2.foldl Memory.apply m
  let b := stopJobsOn ((upDies h).filter (· != d)) (fun j => if jobOn d j then some 0x0707 else none) m a.1
  (((b.1.dma.filter (chanOn d)).map Prod.fst).foldl (fun h k => stopChan k 0x0707 h) b.1, a.2 ++ b.2)

/-- Streams of other dies into surfaces of die `d` stop. -/
def stopDieStreams (d : Nat) (h : Hub) : Hub :=
  let h := ((h.outs.filter fun e => e.1 / 4 != d && e.2.wbTarget ≠ 0 && handleOn d e.2.wbTarget).map Prod.fst).foldl
    (fun h o => stopStream o h) h
  let on (q : Option CamCfg) : Bool := match q with | none => false | some q => q.die == d
  ((h.ports.filter fun p => p.1 / 8 != d && (on p.2.cam || on p.2.camNext)).map Prod.fst).foldl (fun h k => camStop k true h) h

/-! ### Outputs and ports -/

/-- An output of the die goes to STOPPED (08 R200). -/
def killOut (o : Nat) (h : Hub) : Hub :=
  let x := getOut h o
  if x.state == .stopped then updOut h o fun x => { x with mode := none }
  else dropOps o 0x0707 (fun _ => true) (outStopped o (dropTiles o (updOut h o fun x => { x with mode := none, psr := false })))

/-- A port of the die goes, with the commands that wait at it; the chain breaks there. -/
def killPort (k : Nat) (h : Hub) : Hub :=
  let p := getPort h k
  let cmds := p.wakeCmds ++ p.i2c.map I2cReq.cmd ++ p.aux.map (fun a => a.1) ++ p.light.map (fun a => a.2.2) ++
    p.dsiWait.map (fun a => a.2.2) ++ p.dsiRead ++ (match p.test with | none => [] | some t => t.cmd.toList)
  let h := if h.chain.up = some k || h.chain.down = some k then chainBreak k h else h
  cmds.foldl (fun h c => complete c 0x0707 255 0 0 h) { h with ports := h.ports.del k }

/-! ### Transactions (18 R474 step 3) -/

/-- Does a transaction stage a record of an object on die `d`? -/
def txnOn (d : Nat) (t : Txn) : Bool :=
  stagesDie t d || t.outs.any (fun e => e.1 / 4 == d) || t.layers.any (fun e => e.1 / 1024 == d) || t.fences.any fun e => e.1 / 1024 == d

/-- Transactions that stage a record on the die end, and ARMED ones apply on the dies that are left. -/
def dropDieTxns (d : Nat) (h : Hub) : Hub :=
  (h.txns.filter fun e => txnOn d e.2 || e.2.todo.any fun o => o / 4 == d).foldl (fun h e =>
    if e.2.state == .armed then
      finishTxn e.1 { h with txns := h.txns.upd e.1 fun t => { t with todo := t.todo.filter fun o => o / 4 != d } }
    else closeTxn e.1 0x0707 0 0 h) h

/-! ### Contexts (02 R26, R27) -/

/-- The contexts homed on the die end without completions. -/
def endDieContexts (cs : List Nat) (m : List Host.Cell) (h : Hub) : Eff :=
  match cs with
  | [] => (h, [])
  | c :: t =>
    let x := getCtx h c
    let h := setCtx { h with remote := h.remote.del c } c { x with state := .unassigned, reason := 10, tear := none, ending := false, rejoins := true }
    let h := match x.tear.bind Teardown.revoke with | none => h | some p => completeOk p 0 0 h
    let r := endContext c 0x0707 m h
    let q := endDieContexts t (r.2.foldl Memory.apply m) (freeChans c r.1)
    (q.1, r.2 ++ q.2)

/-! ### Survey and power (17 R452, 15 R394) -/

/-- The tests and requests of the die go, without a verdict. -/
def dropSurvey (d : Nat) (h : Hub) : Hub :=
  let s := (getDie h d).srv
  let cmds := (s.tests.map SrvTest.req ++ s.queue).flatMap SrvReq.cmds
  cmds.foldl (fun h p => complete p 0x0707 255 0 0 h) (updSrv h d fun s => { s with tests := [], queue := [], serial := [] })

/-- Does some die hold the completion of a PWR_STATE? -/
def pwrHeld (h : Hub) (p : Pend) : Bool := h.dies.any fun e => match e.2.pwr.entry with | none => false | some q => q.cmd == some p

/-- Its power state goes, with the PWR_STATE commands that wait for it alone. -/
def dropPower (d : Nat) (h : Hub) : Hub :=
  let p := (getDie h d).pwr
  let h := updPwr h d fun x => { x with state := .off, entry := none, runCmds := [], shutdown := false }
  let h := p.runCmds.foldl (fun h c => complete c 0x0707 255 0 0 h) h
  match p.entry.bind PwrEntry.cmd with
  | none => h
  | some c => if pwrHeld h c then h else complete c 0x0707 255 0 0 h

/-- THERM_ALERT_N is low while a die is at level 1 or above (15 R400). -/
def setAlert (h : Hub) : Hub := { h with pkg := { h.pkg with alertN := !(upDies h).any fun d => (getDie h d).pwr.level ≥ 1 } }

/-! ### The die -/

/-- The role of the principal passes to the lowest surviving die (17 R451). -/
def passPrincipal (h : Hub) : Hub :=
  if dieUp h h.pkg.principal then h
  else match upDies h with
    | [] => h
    | p :: _ => { h with pkg := { h.pkg with principal := p } }

/-- The package stops using die `d`. -/
def dieGone (d : Nat) (m : List Host.Cell) (h : Hub) : Eff :=
  let a := stopDieWork d m h
  let m1 := a.2.foldl Memory.apply m
  let h := stopDieStreams d a.1
  let h := passPrincipal { h with pkg := { h.pkg with lost := h.pkg.lost ||| 2 ^ d, sitesUp := h.pkg.sitesUp &&& (255 - 2 ^ d) } }
  let b := endDieContexts ((assigned h).filter fun c => homeDie c == d) m1 h
  let h := dropPower d (dropSurvey d (dropDieTxns d b.1))
  let h := ((List.range 4).map (· + 4 * d)).foldl (fun h o => killOut o h) h
  let h := (portCodes.map (· + 8 * d)).foldl (fun h k => if h.ports.has k then killPort k h else h) h
  let h := { h with
    engines := h.engines.filter fun e => e.1 / 24 != d
    tables := h.tables.filter fun e => e.1 / 4 != d
    dma := h.dma.filter fun e => e.1 / 32 != d }
  let h := dirtied (h.layers.filter fun e => e.2.cur.source ≠ 0 && handleOn d e.2.cur.source) h
  let z := [MemWrite.zeros (d * 2 ^ 34) (2 ^ 34)]
  (setAlert (forgetDie d h), a.2 ++ b.2 ++ z)

/-- Die `d` is lost for a reason of 17 R441: the record of the loss, with ACTION bit 4 where the principal was lost. -/
def dieLost (d reason : Nat) (m : List Host.Cell) (h : Hub) : Eff :=
  if !dieUp h d then (h, [])
  else
    let was := h.pkg.principal
    let e := dieGone d m { h with pkg := { h.pkg with why := h.pkg.why.set d reason } }
    let p := e.1.pkg.principal
    let u := unitId 0x0D d 0
    let h := faultReport p 0x0707 u (unitId 0x0B p 0) reason e.1
    (if was = d then updSrv h p fun s => { s with
        wins := s.wins.map fun w => if w.is 0x0707 u then { w with action := w.action ||| 16 } else w }
      else h, e.2)

/-- DIE_LOSS. -/
def execDieLoss (die reason : Nat) (s : State) : Host.Outcome State Fault Refusal :=
  .next (act (fun m h => if powered h && 1 ≤ reason && reason ≤ 7 then dieLost die reason m h else (h, [])) s)

end Sys2Proof.Machine
end

