-- ==== Sys2Proof/Machine/Survey.lean ====
section
/-!
DEFINITION. Survey: the start of a test and its fence, the verdict and its consequences, a wing without a spare, and the SRV_
commands (17 R446-R457; 04 R101, R102; 10 R274).
-/

namespace Sys2Proof.Machine

/-! ### Fencing an engine (17 R447, R450; 04 R101, R102) -/

/-- The wing of an engine. -/
def wingOf (e : Nat) : List Nat := (List.range 12).map (· + 12 * (e / 12))

/-- Which tests exclude one another on a die: those of engines and larder banks of one wing, and those of each other class (R446). -/
def laneOf (u : Nat) : Nat := match unitEngine u with | some e => e / 12 | none => 16 + unitClass u

/-- Engine `a` replaced by `b` in a table. -/
def swapCols (a b : Nat) (cols : List Nat) : List Nat := cols.map fun e => if e = a then b else e

/-- The HOLD bits of die `d` when transaction `t` has applied: what the last of the commits up to it releases or keeps (15 R412). -/
def holdAfter (h : Hub) (d : Nat) (t : Txn) : Nat :=
  ((reserved h).filter fun u => u.valSeq ≤ t.valSeq).foldl (fun v u => (u.spares.find d).getD v) (getDie h d).hold

/-- On die `d`, engine `b` takes the columns of `a`, in the table in force and in those that validated commits hold.  A new table that
leaves the wing without a spare keeps the failed engine's columns: from its apply point the no-spare case holds (04 R101). -/
def moveCols (d a b : Nat) (h : Hub) : Hub :=
  let on (t : Tab (List Nat)) : Tab (List Nat) := t.map fun (e : Nat × List Nat) => if e.1 / 4 = d then (e.1, swapCols a b e.2) else e
  let h := { h with
    tables := on h.tables
    txns := h.txns.map fun (e : Nat × Txn) => (e.1, { e.2 with
      tables := if bit (holdAfter h d e.2) (a / 12) then on e.2.tables else e.2.tables, oldTables := on e.2.oldTables })
    outs := h.outs.map fun (e : Nat × Output) =>
      if e.1 / 4 = d then (e.1, { e.2 with cols := swapCols a b e.2.cols, tabAt := swapCols a b e.2.tabAt }) else e }
  updDie h d fun x => { x with schedGen := (x.schedGen + 1) % 2 ^ 32 }

/-- Engine `e` of die `d` is fenced: its tile in progress is dropped, and the wing's spare takes its columns.  The answer: how, the ACTION
bits, and the hub. -/
def fenceEngine (d e : Nat) (h : Hub) : UnitFence × Nat × Hub :=
  let s := (getDie h d).srv
  let h := { h with engines := h.engines.del (24 * d + e) }
  if bit s.engSpare e then
    ({ spare := none, wasSpare := true }, 2, updSrv h d fun s => { s with engSpare := s.engSpare - 2 ^ e })
  else if !bit s.engIn e then ({ spare := none, wasSpare := false }, 2, h)
  else match (wingOf e).find? (bit s.engSpare) with
    | some b =>
      ({ spare := some b, wasSpare := false }, 6,
        moveCols d e b (updSrv h d fun s => { s with engIn := s.engIn - 2 ^ e + 2 ^ b, engSpare := s.engSpare - 2 ^ b }))
    | none => ({ spare := none, wasSpare := false }, 10, updSrv h d fun s => { s with engIn := s.engIn - 2 ^ e })

/-- A unit is fenced for its test. -/
def fenceUnit (u : Nat) (h : Hub) : UnitFence × Nat × Hub :=
  let d := unitDie u
  match unitEngine u, unitClass u with
  | some e, _ => fenceEngine d e h
  | none, 3 => ({ spare := none, wasSpare := false }, 0, h)
  | none, 5 =>
    let k := 8 * d + unitInst u
    let h := cutFrame k h
    let h := match portOut h k with | none => h | some o => portIdles o h
    let h := if isTv k then linkGoes k .loop 1 (if (getPort h k).state == .up then leaveUp k h else h)
      else if isDp k then linkGoes k .seek 1 h
      else linkGoes k .down 1 h
    ({ spare := none, wasSpare := false }, 2, h)
  | none, _ => ({ spare := none, wasSpare := false }, 2, h)

/-- May the test of a unit begin?  A band-buffer bank that a pipe holds is tested at the pipe's start of vertical blank, in its drain (17 R447). -/
def mayTest (h : Hub) (u : Nat) : Bool :=
  unitClass u ≠ 2 || ((List.range 4).map (· + 4 * unitDie u)).all fun o =>
    let x := getOut h o
    !x.banks.contains (some (unitInst u)) || (x.state == .running && x.scan.any fun sc => sc.line == 0 && !sc.drained)

/-- SURVEY_TEST_START: the first request of its lane, while no test of the lane runs on the die. -/
def testStart (u : Nat) (h : Hub) : Hub :=
  let d := unitDie u
  let s := (getDie h d).srv
  match s.queue.find? fun q => laneOf q.unit == laneOf u with
  | none => h
  | some q =>
    if q.unit ≠ u || s.tests.any (fun t => laneOf t.req.unit == laneOf u) || !dieUp h d || !awake h d || !mayTest h u then h
    else
      let f := match q.fenced with | some f => (f, 0, h) | none => fenceUnit u h
      let h := addAction u f.2.1 f.2.2
      updSrv h d fun s => { s with
        queue := s.queue.filter fun r => r.unit != u, cTests := satInc 255 s.cTests
        tests := s.tests ++ [{ req := { q with fenced := none }, start := h.now, fence := f.1 }] }

/-! ### Return to service (17 R448) -/

/-- Does wing `e / 12` of a die hold a spare, or must it? -/
def wingWants (h : Hub) (d e : Nat) : Bool :=
  bit (getDie h d).hold (e / 12) && !(wingOf e).any (bit (getDie h d).srv.engSpare)

/-- An engine that passed: the wing's spare where it was replaced by that or was it, and otherwise back at its columns. -/
def engineBack (d e : Nat) (f : UnitFence) (h : Hub) : Hub :=
  updSrv h d fun s =>
    if (f.spare.isSome || f.wasSpare) && wingWants h d e then { s with engSpare := s.engSpare ||| 2 ^ e }
    else { s with engIn := s.engIn ||| 2 ^ e }

/-- A port whose PHY test ended trains again, unless it is off. -/
def portBack (k : Nat) (h : Hub) : Hub :=
  let p := getPort h k
  if portOff p then h
  else if isTv k then enterSeek k 1 h
  else if isDp k then (if p.sink then dpTrain k 1 (if p.trained.isSome then p.inUse else dpMax p) h else linkGoes k .alone 1 h)
  else linkGoes k .up 1 h

/-- A unit returns to service. -/
def unitBack (u : Nat) (f : UnitFence) (h : Hub) : Hub :=
  match unitEngine u, unitClass u with
  | some e, _ => engineBack (unitDie u) e f h
  | none, 5 => portBack (8 * unitDie u + unitInst u) h
  | none, _ => h

/-! ### A wing without a spare, a pool without a bank (17 R450) -/

/-- The hub as it will be with output `o`, and its group, stopped. -/
def without (o : Nat) (h : Hub) : Hub := (membersOf h (listOf h o)).foldl (fun h m => updOut h m fun x => { x with mode := none }) h

/-- Validated commits take tables built on the engines that are left (17 R450 step 2). -/
def rebuildTxns (d : Nat) (h : Hub) : Hub :=
  (reserved h).foldl (fun h t =>
    if !t.tables.any fun e => e.1 / 4 == d then h
    else
      let tb := (t.tables.filter fun e => e.1 / 4 != d) ++ buildTable (commitView h t) d
      { h with txns := h.txns.map fun (e : Nat × Txn) => if e.2 = t then (e.1, { e.2 with tables := tb }) else e }) h

/-- The die's table built anew for what runs on it, and those of the pending commits for what they leave. -/
def rebuilt (d : Nat) (h : Hub) : Hub :=
  rebuildTxns d { h with tables := (h.tables.filter fun e => e.1 / 4 != d) ++ buildTable { h := h, alt := [] } d }

/-- The outputs that a die may stop, in their order: DEFERRABLE, then STANDARD, highest number first. -/
def sheddable (h : Hub) (d : Nat) : List Nat :=
  let os := ([3, 2, 1, 0].map (· + 4 * d)).filter fun o => (getOut h o).mode.isSome
  (os.filter fun o => (getOut h o).cls == 2) ++ os.filter fun o => (getOut h o).cls == 1

/-- The outputs to stop until the tests pass, and the hub as it will be without them. -/
def shed (d : Nat) (table : Bool) : List Nat → Hub → List Nat × Hub
  | [], h => ([], h)
  | o :: t, h =>
    if enginesFit h d && poolFits h d then ([], h)
    else
      let g := without o h
      let r := shed d table t (if table then rebuilt d g else g)
      (o :: r.1, r.2)

/-- The hub stops an output, and its group, at the next apply point, or at once where it does not scan. -/
def hubStops (o : Nat) (h : Hub) : Hub :=
  (membersOf h (listOf h o)).foldl (fun h m =>
    match (getOut h m).state with
    | .running => updOut h m fun x => { x with stopNext := true }
    | .stopped | .stopping => h
    | _ => beginStop m (getOut h m).mode h) h

/-- After a lasting verdict: a new table on the remaining engines, for the pending commits too, outputs stopped until tests 3 and 4 and the
pool pass, and the clock that the new tables need (17 R450, 15 R407). -/
def shrink (d : Nat) (table : Bool) (h : Hub) : Hub :=
  let g := if table then rebuilt d h else h
  let r := shed d table (sheddable g d) g
  let h := if !table then h
    else updDie { h with
      tables := r.2.tables, txns := r.2.txns
      outs := h.outs.map fun (e : Nat × Output) => if e.1 / 4 = d then (e.1, { e.2 with tabAt := r.2.tables.get e.1 [] }) else e } d
      fun x => { x with schedGen := (x.schedGen + 1) % 2 ^ 32 }
  let h := r.1.foldl (fun h o => hubStops o h) h
  if table then raiseClock h else h

/-! ### Retirement (17 R449, R453) -/

/-- A unit is retired: recorded in the die's Attic, and the consequences of its class. -/
def retire (u : Nat) (f : UnitFence) (m : List Host.Cell) (h : Hub) : Eff :=
  let d := unitDie u
  let h := (writeRecords d 0 [(0x0A, 0, u, [])] h).1
  match unitEngine u, unitClass u with
  | some e, _ =>
    let h := updSrv h d fun s => { s with engRetired := s.engRetired ||| 2 ^ e }
    let names (t : Tab (List Nat)) : Bool := t.any fun q => q.1 / 4 == d && q.2.contains e
    (if !(f.spare.isSome || f.wasSpare) || names h.tables then shrink d true h
     else if h.txns.any fun q => names q.2.tables then rebuildTxns d h else h, [])
  | none, 2 =>
    if unitInst u ≥ 240 then dieLost d 4 m h
    else
      let h := updSrv h d fun s => { s with bbRetired := s.bbRetired + 1 }
      (if poolFits h d then h else shrink d false (addAction u 8 h), [])
  | none, 3 => dieLost d 5 m h
  | none, 4 => dieLost (linkFar h.pkg.part d (unitInst u)).1 6 m h
  | none, _ =>
    let k := 8 * d + unitInst u
    let h := match portOut h k with | none => h | some o => hubStops o h
    (if portOff (getPort h k) then h else linkGoes k .down 2 h, [])

/-! ### The verdict (17 R447, R448, R457) -/

/-- Duration of a test in ns (17 R447). -/
def testNs (u : Nat) : Nat :=
  match unitClass u with
  | 1 => 40000
  | 2 => 18000
  | 3 => 1000000
  | 4 => 100000
  | _ => 200000

/-- The record of a unit. -/
def unitRec (s : Srv) (u : Nat) : UnitRec := (s.units.find? (·.unit == u)).getD { unit := u }

/-- The service history with the record of a unit replaced. -/
def putUnit (r : UnitRec) (l : List UnitRec) : List UnitRec := (l.filter fun x => x.unit != r.unit) ++ [r]

/-- The transients of a unit of the last 10 s before an instant. -/
def recentTransients (r : UnitRec) (t : Nat) : List (Nat × Option Nat) := r.transients.filter fun e => decide (t < e.1 + 10000000000)

/-- A transient is counted: for errors of an LP5X channel, once per 64-byte address (17 R448). -/
def addTransient (u time : Nat) (detail : Option Nat) (l : List (Nat × Option Nat)) : List (Nat × Option Nat) :=
  let g := detail.map (· / 64)
  if unitClass u = 3 && g.isSome && l.any (fun e => e.2 == g) then l else l ++ [(time, g)]

/-- SRV_VERDICT, the Field book, the interrupt and the SRV_TEST commands of a test (17 R457; 20 R511; 22 R540). -/
def tellVerdict (r : SrvReq) (code n : Nat) (h : Hub) : Hub :=
  let r1 := r.seq.getD 0xFFFFFFFF + 2 ^ 32 * code + 2 ^ 40 * min 255 n
  let h := fbkRecord (unitDie r.unit) 5 0x0501 r.unit code h
  let h := intEvent (unitDie r.unit) 6 (postEvents (sysClients h) 0x0A81 r.unit r1 h)
  r.cmds.foldl (fun h p => completeOk p code 0 h) h

/-- SURVEY_VERDICT: a test passed or failed. -/
def verdict (u : Nat) (pass : Bool) (m : List Host.Cell) (h : Hub) : Eff :=
  let d := unitDie u
  match (getDie h d).srv.tests.find? fun t => t.req.unit == u with
  | none => (h, [])
  | some t =>
    if !awake h d then (h, [])
    else
      let h := at_ (t.start + testNs u) h
      let old := unitRec (getDie h d).srv u
      let kept := recentTransients old t.req.time
      let trans := if pass then addTransient u t.req.time t.req.detail kept else kept
      let code := if !pass then 2 else if trans.length ≥ 3 then 4 else 1
      let h := updSrv h d fun s => { s with
        tests := s.tests.filter fun x => x.req.unit != u
        units := putUnit { old with transients := trans, lastVerdict := h.now, retired := code ≠ 1 } s.units
        cTransient := if code = 1 then satInc 255 s.cTransient else s.cTransient
        cLasting := if code = 1 then s.cLasting else satInc 255 s.cLasting }
      let h := tellVerdict t.req code trans.length h
      let h := if unitClass u = 1 then nextSerial u t.req.seq h else h
      if code = 1 then (unitBack u t.fence h, []) else retire u t.fence m h

/-- Tests of a die that enters a low-power state are aborted: the units stay fenced, and are tested again after the exit (17 R452). -/
def abortTests (d : Nat) (h : Hub) : Hub :=
  (getDie h d).srv.tests.foldl (fun h t =>
    let u := t.req.unit
    let old := unitRec (getDie h d).srv u
    let kept := recentTransients old h.now
    let h := updSrv h d fun s => { s with
      tests := s.tests.filter fun x => x.req.unit != u, cAborted := satInc 255 s.cAborted
      units := putUnit { old with transients := kept, lastVerdict := h.now } s.units
      queue := { t.req with cmds := [], fenced := some t.fence } :: s.queue }
    tellVerdict t.req 3 kept.length h) h

/-! ### Commands (17 R455, R456) -/

/-- SRV_TEST joins a request for the unit, or queues one. -/
def askTest (u : Nat) (p : Pend) (h : Hub) : Hub :=
  let add (r : SrvReq) : SrvReq := if r.unit == u then { r with cmds := r.cmds ++ [p] } else r
  updSrv h (unitDie u) fun s =>
    if surveyed h u then { s with queue := s.queue.map add, tests := s.tests.map fun t => { t with req := add t.req } }
    else { s with queue := insertReq { unit := u, seq := some 0xFFFFFFFF, time := h.now, detail := none, cmds := [p] } s.queue }

/-- SRV_TEST; while the queue is full it waits in the ring. -/
def srvTest : Spec :=
  { op := 0x0A10, level := 1, rsv := [(20, 44)]
    waits := fun c h =>
      let u := arg32 c 16
      !surveyed h u && (getDie h (unitDie u)).srv.queue.length ≥ 16
    checks := fun c _ h =>
      let u := arg32 c 16
      let k := 8 * unitDie u + unitInst u
      unitCks h u 5 ++
      [ck 0x040C 16 (unitRetired h u), ck 0x0406 16 (unitClass u = 5 && (boundRuns h k || camRuns (getPort h k)))]
    run := fun c p _ h => laterRes (askTest (arg32 c 16) p h) }

/-- Is a unit fenced: under test, waiting for one that was aborted, or of an engine that a test fences? -/
def unitFenced (h : Hub) (u : Nat) : Bool :=
  let s := (getDie h (unitDie u)).srv
  let mine (v : Nat) : Bool := v == u || (match unitEngine u with | none => false | some e => unitEngine v == some e)
  (s.tests.any fun t => unitClass t.req.unit != 3 && mine t.req.unit) || s.queue.any fun q => q.fenced.isSome && mine q.unit

/-- The state code of SRV_QUERY. -/
def unitState (h : Hub) (u : Nat) : Nat :=
  let s := (getDie h (unitDie u)).srv
  if unitRetired h u then 4
  else if s.tests.any (fun t => t.req.unit == u) then 3
  else if unitFenced h u then 2
  else if s.queue.any (·.unit == u) then 5
  else if unitClass u = 1 && bit s.engSpare (unitInst u) then 1
  else 0

/-- SRV_QUERY. -/
def srvQuery : Spec :=
  { op := 0x0A11, level := 1, rsv := [(20, 44)]
    checks := fun c _ h => unitCks h (arg32 c 16) 0x0F
    run := fun c _ _ h =>
      let u := arg32 c 16
      let r := unitRec (getDie h (unitDie u)).srv u
      okRes h (unitState h u + 256 * (recentTransients r h.now).length) r.lastVerdict }

/-- The retirement records that SRV_RESTORE clears: dies and units. -/
def restoreList (h : Hub) (u : Nat) : List (Nat × Nat) :=
  (upDies h).flatMap fun d => ((recValues (getDie h d).atc 0x0A).filter fun e => u == 0xFFFFFFFF || e.1 == u).map fun e => (d, e.1)

/-- The records are cleared one after another, until one is not written. -/
def restoreAll : List (Nat × Nat) → Hub → Hub × Bool
  | [], h => (h, true)
  | e :: t, h =>
    let w := writeRecords e.1 0 [(0x0A, 1, e.2, [])] h
    if w.2 then restoreAll t w.1 else w

/-- SRV_RESTORE: the units return to service at the next PORST_N. -/
def srvRestore : Spec :=
  { op := 0x0A12, level := 2, locks := true, rsv := [(20, 44)]
    checks := fun c _ h =>
      let u := arg32 c 16
      (if u = 0xFFFFFFFF then [] else unitCks h u 5) ++
      [ck 0x060A 16 ((restoreList h u).any fun e => freeSlots (getDie h e.1).atc = 0)]
    run := fun c _ _ h =>
      let l := restoreList h (arg32 c 16)
      let w := restoreAll l h
      if w.2 then okRes w.1 l.length else failRes w.1 0x0706 255 }

/-! ### The rows -/

/-- SURVEY_TEST_START. -/
def execSurveyTestStart (die : Nat) (unit : BitVec 32) (s : State) : Host.Outcome State Fault Refusal :=
  .next (onHub (fun h => if unitDie unit.toNat = die then testStart unit.toNat h else h) s)
/-- SURVEY_VERDICT. -/
def execSurveyVerdict (die : Nat) (unit : BitVec 32) (pass : Bool) (s : State) : Host.Outcome State Fault Refusal :=
  .next (act (fun m h => if unitDie unit.toNat = die then verdict unit.toNat pass m h else (h, [])) s)
/-- SRV_TEST. -/
def execSrvTest (c : Cmd) (s : State) : Host.Outcome State Fault Refusal := .next (mail srvTest c s)
/-- SRV_QUERY. -/
def execSrvQuery (c : Cmd) (s : State) : Host.Outcome State Fault Refusal := .next (mail srvQuery c s)
/-- SRV_RESTORE. -/
def execSrvRestore (c : Cmd) (s : State) : Host.Outcome State Fault Refusal := .next (mail srvRestore c s)

end Sys2Proof.Machine
end

