-- ==== Sys2Proof/Machine/Startup.lean ====
section
/-!
DEFINITION. Start-up: what a reset keeps, the boot of a die, its report, provisioning from the Attic, boot outputs and the step at which
the package is ready (18 R459-R464, R472, R473; 19 R486, R488; 20 R505; 21 R525).
-/

namespace Sys2Proof.Machine

/-! ### Registers at reset (18 R472, 20 R505; log entry 5) -/

/-- The Attic of a die at reset: its contents, and what lasts until PORST_N. -/
def resetAtc (porst : Bool) (a : Atc) : Atc :=
  let b : Atc := { words := a.words, imgA := a.imgA, imgB := a.imgB, ptr := a.ptr, seq := a.seq }
  if porst then b else { b with written := a.written, unlocked := a.unlocked, barred := a.barred, fails := a.fails }

/-- The clocks of a die at a reset other than PORST_N: the references are as they were (16 R422). -/
def resetClk (c : Clk) : Clk :=
  { sysOk := c.sysOk, vidOk := c.vidOk, xtalOk := c.xtalOk, xtalLost := c.xtalLost
    root := { n := 200, refOk := c.root.refOk }, disp0 := { refOk := c.disp0.refOk }, disp1 := { refOk := c.disp1.refOk } }

/-- A die at reset: the Attic, PWR_COUNT and PWR_WAKE_COUNT are kept, and with power (not `cold`) also KPR_COUNT (log entry 44) and the references
(16 R422).  PORST_N alone (`full`) ends the retirements whose records have been cleared (17 R453). -/
def resetDie (cold full : Bool) (x : Die) : Die :=
  { atc := resetAtc cold x.atc
    srv := if full then {} else { units := (x.srv.units.filter (·.retired)).map fun u => { unit := u.unit, retired := true } }
    clk := if cold then {} else resetClk x.clk
    pwr := { entries := x.pwr.entries, refused := x.pwr.refused, aborted := x.pwr.aborted, replays := x.pwr.replays, wakes := x.pwr.wakes }
    pmx := { v33 := x.pmx.v33 }
    kpr := if cold then {} else { warm := x.kpr.warm, dieResets := x.kpr.dieResets, ignored := x.kpr.ignored } }

/-- PCIe function `f` at reset: a package warm reset keeps the configuration space (18 R472), and PORST_N what the board fixes (log entry 4). -/
def resetFn (porst : Bool) (f : Nat) (x : Fn) : Fn :=
  if porst then { enabled := f % 16 = 0 && x.enabled, msixSize := x.msixSize, rid := x.rid }
  else { x with win := [], tbHi := 0, vecPend := 0 }

/-- Peak power of a part in mW (01 R20). -/
def peakMw (part : Nat) : Nat := part * 19000 + (if part = 8 then 3000 else 2000)

/-- The populated die sites. -/
def siteList (h : Hub) : List Nat := (List.range 8).filter (bit h.pkg.sites)

/-- Has heat shut the die down, so that it has no power until PORST_N (15 R401)? -/
def heatOff (h : Hub) (d : Nat) : Bool := h.pkg.why.get d 0 == 1 || h.pkg.why.get d 0 == 2

/-- The hub at PORST_N, or at a package warm reset (which starts at once), or in OFF.  PORST_N alone brings back a handle whose
generation has run out (03 R52, 07 R193), the count of region mismatches (10 R284) and a lost die that is in no per-die reset (17 R451). -/
def resetHub (phase : Phase) (h : Hub) : Hub :=
  let porst := phase != .starting
  let full := phase == .porst
  let gone := if full then [] else (siteList h).filter fun d => bit h.pkg.lost d && !h.pkg.resets.has d
  { gens := if full then [] else h.gens.filter fun e => e.2 ≥ 0xFFFF
    tlGens := if full then [] else h.tlGens.filter fun e => e.2 ≥ 0xFFFF
    outs := if full then [] else (h.outs.filter fun e => e.2.chk.mismatches ≠ 0).map fun (e : Nat × Output) =>
      (e.1, { chk := { mismatches := e.2.chk.mismatches } })
    freeIx := h.freeIx, outbox := h.outbox, host := h.host, jtag := h.jtag
    fns := h.fns.map fun (e : Nat × Fn) => (e.1, resetFn porst e.1 e.2)
    pkg := { part := h.pkg.part, sites := h.pkg.sites, gib := h.pkg.gib, mts := h.pkg.mts, ecc := h.pkg.ecc
             pkgMw := peakMw h.pkg.part, phase := phase, perst := h.pkg.perst
             lost := (gone.map (2 ^ ·)).sum, why := gone.map fun d => (d, h.pkg.why.get d 0) }
    chain := { head := h.chain.head }
    dies := (siteList h).map fun d => (d, resetDie porst full (getDie h d)) }

/-- Every byte of LP5X is as at power-on (log entry 7). -/
def clearMemory : List MemWrite := [.zeros 0 (2 ^ 37)]

/-! ### Steps 1 to 4 (18 R461, R462) -/

/-- KPR_BOOT.STEP changes (20 R511). -/
def kprStep (n d : Nat) (h : Hub) : Hub :=
  if (getDie h d).kpr.step = n then h else intEvent d 10 (updDie h d fun x => { x with kpr := { x.kpr with step := n } })

/-- The references of a die are there (board-fixed, log entry 4). -/
def refsOn (c : Clk) : Clk :=
  { c with
    sysOk := true, vidOk := true, xtalOk := true
    root := { c.root with refOk := true }, disp0 := { c.disp0 with refOk := true }, disp1 := { c.disp1 with refOk := true } }

/-- Step 1: the boot ROM of every die starts. -/
def startDies (h : Hub) : Hub := (upDies h).foldl (fun h d => kprStep 1 d h) h

/-- The package leaves PORST_N or OFF: the board's references are there (log entry 4). -/
def coldStart (h : Hub) : Hub :=
  startDies ((upDies h).foldl (fun h d => updDie h d fun x => { x with clk := refsOn x.clk })
    { h with now := 0, pkg := { h.pkg with phase := .starting } })

/-- REFCLK_SYS is there: it is one input of the package, and a root PLL that locks shows it (16 R422). -/
def sysBack (h : Hub) : Hub :=
  { h with dies := h.dies.map fun (e : Nat × Die) =>
      (e.1, { e.2 with clk := { e.2.clk with sysOk := true, root := { e.2.clk.root with refOk := true } } }) }

/-- The root PLL of a die has locked (16 R426, R438). -/
def rootOnPll (d : Nat) (h : Hub) : Hub :=
  let h := updDie (sysBack h) d fun x => { x with clk := { x.clk with rcActive := false, rootOn := 0xFFF } }
  updPll d 0 (fun p => { p with locked := true, bypass := false, lockAt := h.now }) h

/-- Step 2: the die's timebase starts at 0 when its root PLL locks.  Until step 5 the model's instants count from the first of these
locks (log entry 8). -/
def rootStarts (d : Nat) (h : Hub) : Hub :=
  let first := !(siteList h).any fun e => (getDie h e).kpr.step ≥ 2
  let h := if first then { h with now := 0, pkg := { h.pkg with startAt := h.now } } else h
  kprStep 2 d (updDie (rootOnPll d h) d fun x => { x with clk := { x.clk with tbOff := -(h.now : Int) } })

/-- The error of a loaded timebase: a free one of -2 to 2 ns (16 R436). -/
def loadError (h : Hub) : Int × Hub :=
  let (i, h) := takeFree h
  (((Config.freeWord i).toNat % 5 : Nat) - 2, h)

/-- Die `d` loads the principal's timebase (18 R462 step 5, R474 step 5; 15 R396). -/
def loadTime (d : Nat) (h : Hub) : Hub :=
  let (e, h) := if d = h.pkg.principal then (0, h) else loadError h
  updDie h d fun x => { x with clk := { x.clk with tbOff := e, corrAt := h.now, aligned := true } }

/-- From step 5 on, instants are those of the principal's timebase. -/
def principalTime (h : Hub) : Hub :=
  let o := (getDie h h.pkg.principal).clk.tbOff
  { h with now := (h.now + o).toNat, pkg := { h.pkg with startAt := (h.pkg.startAt - o).toNat } }

/-- The slot that the boot ROM of a die boots: the one that SELECT names, or else the other (19 R488). -/
def bootSlot (a : Atc) (d : Nat) : Option Nat :=
  let s := selectWord a d
  if slotValid a d s then some s else if slotValid a d (1 - s) then some (1 - s) else none

/-- Steps 3 and 4 of a die: the image that it runs, or the boot ROM for want of a valid one. -/
def bootDie (d : Nat) (h : Hub) : Hub :=
  let a := (getDie h d).atc
  let h := updAtc h d fun a => { a with locked := lockWord a d }
  match bootSlot a d with
  | none => updAtc h d fun a => { a with inRom := true }
  | some s =>
    let v := (slotImg a s).getD (0, 0)
    let h := updDie h d fun x => { x with
      regs := { x.regs with fw := v.1 }, atc := { x.atc with image := s, svn := v.2, inRom := false } }
    kprStep 4 d (kprStep 3 d h)

/-! ### Provisioning (18 R462 step 6; 19 R481, R486) -/

/-- A record's payload as the arguments of the command whose layout it has. -/
def recCmd (p : Bytes) : Cmd :=
  { ctx := 0, flags := 0, layout := 1, tag := 0, txn := 0, rsvd := 0, args := BitVec.ofNat 384 (leNat p), block := [] }

/-- Records that bring die `d` to the principal's current records of types 1 to 7. -/
def syncRecs (h : Hub) (d : Nat) : List NewRec :=
  let p := (getDie h h.pkg.principal).atc
  let a := (getDie h d).atc
  [1, 2, 3, 4, 5, 6, 7].flatMap fun t =>
    let want := recValues p t
    let have_ := recValues a t
    (want.filter fun e => !have_.contains e).map (fun e => (t, 0, e.1, e.2)) ++
    (have_.filter fun e => !want.any fun w => w.1 == e.1).map fun e => (t, 1, e.1, [])

/-- A die takes the principal's provisioning (19 R486). -/
def syncDie (d : Nat) (h : Hub) : Hub :=
  if d = h.pkg.principal then h
  else match syncRecs h d with
    | [] => h
    | l => (writeRecords d 0 l h).1

/-- The provisioning that the principal's Attic holds: what ATC_LOAD writes later waits for the next start (19 R494). -/
def loadProv (h : Hub) : Hub :=
  let a := (getDie h h.pkg.principal).atc
  { h with prov := [1, 2, 3, 4, 5, 6, 7].flatMap fun t => (recValues a t).map fun e => (t, e.1, e.2) }

/-- The records of a type in force, by key. -/
def provision (h : Hub) (t : Nat) : List (Nat × Bytes) := (h.prov.filter fun e => e.1 == t).map fun e => e.2

/-- The memory record (14 R375; its layout is log entry 23): data rate, dies with inline ECC, and GiB of each die. -/
def provMemory (h : Hub) : Hub :=
  match (provision h 2).head? with
  | none => h
  | some (_, p) =>
    let n (i k : Nat) := leNat ((p.drop i).take k)
    let ok := [3200, 4266, 5500, 6400, 7500, 8533].contains (n 0 2) &&
      (siteList h).all fun d => [2, 4, 8, 16].contains (n (4 + d) 1)
    if !ok then h
    else { h with pkg := { h.pkg with mts := n 0 2, ecc := n 2 1, gib := (siteList h).map fun d => (d, n (4 + d) 1) } }

/-- The mode entries: one that 08 R203 refuses is not loaded, and reported (08 R204). -/
def provModes (h : Hub) : Hub :=
  (provision h 6).foldl (fun h e =>
    let b := e.2.take 32
    match firstFail true (entryCks 0 b) with
    | none => { h with modes := h.modes.set (entryOfBytes b).num (entryOfBytes b) }
    | some k => faultReport h.pkg.principal k.st (unitId 0x0E 0xFF e.1) (unitId 0x0B h.pkg.principal 0) k.off h) h

/-- The entries of the assignment record: context, function, level and group.  DESIGN CHOICE (log 23): of the 12 places of a record one that
is all zero is skipped unless it is the first, and the record is valid where exactly one entry has the integrator's level (02 R23). -/
def assignments (h : Hub) : List (Nat × Nat × Nat × Nat) :=
  let es := (provision h 1).flatMap fun e => (List.range 12).filterMap fun i =>
    let b := (e.2.drop (4 * i)).take 4
    let c := leNat (b.take 2)
    let f := leNat ((b.drop 2).take 1)
    if c > 4095 || (i > 0 && leNat b = 0) || bits f 4 2 > 2 then none
    else some (c, bits f 0 4, bits f 4 2, leNat (b.drop 3) % 32)
  if es.countP (fun e => e.2.2.1 == 2) = 1 then es else [(0, 0, 2, 0)]

/-- The contexts of die `d` return to the assignment record, CLOSED (02 R23, R26); at a rejoin those that were assigned when the die went. -/
def provContexts (d : Nat) (rejoin : Bool) (h : Hub) : Hub :=
  let l := (assignments h).filter fun e => homeDie e.1 == d && (!rejoin || (getCtx h e.1).rejoins)
  let h := l.foldl (fun h e =>
    updCtx h e.1 fun x => { assignedCtx x e.2.1 e.2.2.1 with group := e.2.2.2, reason := x.reason }) h
  { h with ctxs := h.ctxs.map fun (e : Nat × Ctx) => if homeDie e.1 = d then (e.1, { e.2 with rejoins := false }) else e }

/-- An engine that a retirement record names, at start-up: its wing's spare has its place (log entry 45). -/
def retireEngine (e : Nat) (s : Srv) : Srv :=
  let s := { s with engRetired := s.engRetired ||| 2 ^ e }
  if bit s.engSpare e then { s with engSpare := s.engSpare - 2 ^ e }
  else if !bit s.engIn e then s
  else
    let s := { s with engIn := s.engIn - 2 ^ e }
    match (wingOf e).find? (bit s.engSpare) with
    | none => s
    | some b => { s with engIn := s.engIn ||| 2 ^ b, engSpare := s.engSpare - 2 ^ b }

/-- The units of die `d` that stay retired: those of its records, and those whose records were cleared since PORST_N (17 R453). -/
def retiredUnits (h : Hub) (d : Nat) : List Nat :=
  let x := getDie h d
  ((x.srv.units.filter (·.retired)).map UnitRec.unit ++ (recValues x.atc 0x0A).map Prod.fst).eraseDups

/-- DEDUCED (log 45): why a die is lost that starts with a Keeper bank or an LP5X channel retired, or at the higher end of a retired link; 0
where it is not (17 R449, R453). -/
def retiredDie (h : Hub) (d : Nat) : Nat :=
  let us := retiredUnits h d
  if us.any fun u => unitClass u = 2 && unitInst u ≥ 240 then 4
  else if us.any fun u => unitClass u = 3 then 5
  else if (upDies h).any fun e => (retiredUnits h e).any fun u => unitClass u = 4 && (linkFar h.pkg.part e (unitInst u)).1 = d then 6
  else 0

/-- The retirements of die `d` (17 R453). -/
def provRetired (d : Nat) (h : Hub) : Hub :=
  (retiredUnits h d).foldl (fun h u =>
    updSrv h d fun s =>
      let s := { s with units := putUnit { unit := u, retired := true } s.units }
      match unitEngine u with
      | some k => retireEngine k s
      | none => if unitClass u = 2 && unitInst u < 240 then { s with bbRetired := s.bbRetired + 1 } else s) h

/-- Share groups, output bindings and port configurations of die `d`, and its retirement records. -/
def provDie (d : Nat) (h : Hub) : Hub :=
  let h := provRetired d h
  let h := ((provision h 3).filter fun e => e.1 % 8 == d).foldl (fun h e =>
    { h with shares := h.shares.set (d * 32 + e.1 / 8) (shareArg (recCmd e.2)) }) h
  let h := ((provision h 5).filter fun e => e.1 / 8 == d).foldl (fun h e =>
    let h := lnkApply e.1 (recCmd e.2) h
    if unitRetired h (unitId 5 d (e.1 % 8)) && !portOff (getPort h e.1) then linkGoes e.1 .down 1 h else h) h
  ((provision h 4).filter fun e => e.1 / 4 == d && arg8 (recCmd e.2) 16 == e.1).foldl (fun h e => outConfigRun (recCmd e.2) h) h

/-! ### Boot outputs (18 R464) -/

/-- The decoded boot image in an output's cache frame: free values of the working format (log entry 46). -/
def bootImage (h : Hub) (o ix : Nat) (e : ModeEntry) : List MemWrite :=
  (List.range e.vActive).map fun y => MemWrite.bytes (cacheAddr h o e 0 y)
    ((List.range (4 * e.hActive)).flatMap fun i => leBytes 2 ((Config.freeWord (ix + 4 * e.hActive * y + i)).toNat % 0x4001))

/-- A boot output starts, or is reported where its mode entry is empty or its image fails its check. -/
def bootOut (o : Nat) (p : Bytes) (h : Hub) : Eff :=
  let n (i : Nat) := leNat ((p.drop i).take 1)
  let d := o / 4
  let (ix, h) := takeFree h
  let image := !((recValues (getDie h d).atc 8).filter fun e => e.1 / 65536 == n 3).isEmpty && Config.freeBit ix
  match modeOf h (n 1), image, freeGranules h d ((modeOf h (n 1)).map cacheNeed |>.getD 0) with
  | some e, true, some g =>
    let h := updOut h o fun x => firstStart { x with cls := 0, mode := some e, bpc := n 2, enc := 0, boot := true }
    let h := updOut (beginMode o h) o fun x => { x with cache := g, cacheFull := true }
    let ix := h.freeIx
    ({ h with freeIx := ix + 4 * e.hActive * e.vActive }, bootImage h o ix e)
  | _, _, _ => (faultReport d 0x0706 (unitId 0x0E 0xFF (n 1)) (unitId 0x0B d 0) 0 h, [])

/-- The boot outputs of the package, at most four. -/
def bootOuts : List (Nat × Bytes) → Hub → Eff
  | [], h => (h, [])
  | e :: t, h =>
    let a := if e.1 < 32 && dieUp h (e.1 / 4) then bootOut e.1 e.2 h else (h, [])
    let b := bootOuts t a.1
    (b.1, a.2 ++ b.2)

/-! ### Steps 5 to 9 (18 R460-R463) -/

/-- At step 6, a die that booted the slot which SELECT does not name is reported (19 R488). -/
def slotFault (d : Nat) (h : Hub) : Hub :=
  let a := (getDie h d).atc
  if a.image = selectWord a d then h else faultReport d 0x0308 (unitId 0x0C d 0) (unitId 0x0C d 0) 0 h

/-- Dies that are lost, each for its reason. -/
def loseEach (l : List (Nat × Nat)) (m : List Host.Cell) (h : Hub) : Eff :=
  match l with
  | [] => (h, [])
  | x :: t =>
    let a := dieLost x.1 x.2 m h
    let b := loseEach t (a.2.foldl Memory.apply m) a.1
    (b.1, a.2 ++ b.2)

/-- Step 6 before the parts of each die: the slots are reported, and the package has the principal's provisioning. -/
def provided (h : Hub) : Hub :=
  let h := (upDies h).foldl (fun h d => slotFault d h) h
  provModes (provMemory (loadProv ((upDies h).foldl (fun h d => syncDie d h) h)))

/-- Step 6 on every die, and the start of step 7. -/
def provisionAll (m : List Host.Cell) (h : Hub) : Eff :=
  let h := provided h
  let a := loseEach (((upDies h).map fun d => (d, retiredDie h d)).filter fun e => e.2 ≠ 0) m h
  let ds := upDies a.1
  let h := ds.foldl (fun h d => provDie d (provContexts d false h)) a.1
  let h := ds.foldl (fun h d => kprStep 6 d h) h
  let e := bootOuts ((provision h 7).take 4) h
  (ds.foldl (fun h d => rebuilt d h) e.1, a.2 ++ e.2)

/-- Die `p` is the principal: instants are those of its timebase, and SITES_UP is known (18 R462 step 5). -/
def namePrincipal (p : Nat) (h : Hub) : Hub :=
  principalTime { h with pkg := { h.pkg with principal := p, sitesUp := ((upDies h).map (2 ^ ·)).sum } }

/-- The end of step 5: every die loads the principal's timebase. -/
def alignAll (h : Hub) : Hub := (upDies h).foldl (fun h d => kprStep 5 d (loadTime d h)) h

/-- Step 5: the principal, the dies that are lost for want of a report or for another firmware, and SITES_UP. -/
def holdReports (m : List Host.Cell) (h : Hub) : Eff :=
  match (upDies h).filter (bit h.pkg.reported) with
  | [] => (h, [])
  | p :: _ =>
    let h := namePrincipal p h
    let fw := (getDie h p).regs.fw
    let out := (upDies h).filter fun d => !bit h.pkg.reported d || (getDie h d).regs.fw ≠ fw
    let a := loseEach (out.map fun d => (d, 7)) m h
    let b := provisionAll (a.2.foldl Memory.apply m) (alignAll a.1)
    (b.1, a.2 ++ b.2)

/-- Has the principal held the reports? -/
def held5 (h : Hub) : Bool := (siteList h).any fun d => (getDie h d).kpr.step ≥ 5

/-- DIE_REPORT: a die whose root PLL is locked verifies its image and reports; the last report ends step 5. -/
def dieReport (d : Nat) (m : List Host.Cell) (h : Hub) : Eff :=
  if h.pkg.phase != .starting || !dieUp h d || (getDie h d).kpr.step ≠ 2 || held5 h then (h, [])
  else
    let h := bootDie d h
    if (getDie h d).atc.inRom then (h, [])
    else
      let x := getDie h d
      let r : Report := { stepping := 0xB0, fw := x.regs.fw, image := x.atc.image, selected := x.atc.image == selectWord x.atc d }
      let h := { h with pkg := { h.pkg with reported := h.pkg.reported ||| 2 ^ d, reports := h.pkg.reports.set d r } }
      if (upDies h).all (bit h.pkg.reported) then holdReports m h else (h, [])

/-- PACKAGE_READY: step 5 where a die has not reported by its time, and steps 7 to 9. -/
def packageReady (m : List Host.Cell) (h : Hub) : Eff :=
  if h.pkg.phase != .starting then (h, [])
  else
    let a := if held5 h then (h, []) else holdReports m h
    let h := a.1
    if !held5 h then a
    else
      let ms := (h.now + h.pkg.startAt) / 1000000 % 65536
      let h := (upDies h).foldl (fun h d =>
        let h := kprStep 9 d (kprStep 8 d (kprStep 7 d h))
        updDie h d fun x => { x with kpr := { x.kpr with readyMs := ms } }) h
      let h := { h with
        pkg := { h.pkg with phase := .ready, readyAt := h.now }
        chain := { h.chain with aligned := h.chain.head } }
      (enumOnward h, a.2)

/-! ### The rows -/

/-- PORST_N_ASSERT. -/
def execPorstNAssert (s : State) : Host.Outcome State Fault Refusal := .next (act (fun _ h => (resetHub .porst h, clearMemory)) s)
/-- PORST_N_RELEASE. -/
def execPorstNRelease (s : State) : Host.Outcome State Fault Refusal :=
  .next (onHub (fun h => if h.pkg.phase == .porst then coldStart h else h) s)
/-- OFF_WAKE: WAKE_N held low while the package is in OFF (15 R399). -/
def execOffWake (s : State) : Host.Outcome State Fault Refusal :=
  .next (onHub (fun h => if h.pkg.phase == .off then coldStart h else h) s)
/-- DIE_REPORT. -/
def execDieReport (die : Nat) (s : State) : Host.Outcome State Fault Refusal := .next (act (dieReport die) s)
/-- PACKAGE_READY. -/
def execPackageReady (s : State) : Host.Outcome State Fault Refusal := .next (act packageReady s)

end Sys2Proof.Machine
end

