-- ==== Sys2Proof/Machine/Power.lean ====
section
/-!
DEFINITION. Power, heat and scheduling: PWR_STATE, the entry to SLEEP, DEEP and OFF and the exit from them, junction sensors and levels,
the budget, the ladder, the engine clock, the token pool, and the PWR_ commands (15 R390-R420).
-/

namespace Sys2Proof.Machine

/-! ### What refuses an entry (15 R393) -/

/-- The first of a list of numbers for which `p` holds. -/
def firstIn (l : List Nat) (p : Nat → Bool) : Option Nat := l.find? p

/-- The outputs of a group, or the output alone. -/
def groupOuts (h : Hub) (o : Nat) : List Nat :=
  let x := getOut h o
  if x.grp = 0 then [o] else (getOut h x.primary).members

/-- The outputs of die `d`, and those of groups with a member there (15 R394 step 3). -/
def outsOf (h : Hub) (d : Nat) : List Nat := (List.range 32).filter fun o => (groupOuts h o).any fun m => m / 4 == d

/-- Kind 1: an open transaction. -/
def refuse1 (h : Hub) (d : Nat) : Option Nat :=
  (h.txns.find? fun e => homeDie e.2.owner == d || txnOn d e.2).map Prod.fst

/-- Kind 2: an active PROTECTED output. -/
def refuse2 (h : Hub) (d : Nat) : Option Nat := firstIn (outsOf h d) fun o => (getOut h o).cls == 0 && (getOut h o).state != .stopped

/-- Kind 3: a DMA channel; its channel byte (12 R305). -/
def refuse3 (h : Hub) (d : Nat) : Option Nat :=
  match (chansOf h d).find? fun e => !e.2.queue.isEmpty with
  | some e => some e.1
  | none => (firstIn (List.range 4) fun ch => (getPriv h d ch).busy.isSome).map (· + 32 * d)

/-- Kind 4: a Traverse port with the CHAIN role or a camera stream, and for site 0 a link to a die that stays awake; `ds` are the dies
that the command names. -/
def refuse4 (h : Hub) (ds : List Nat) (d : Nat) : Option Nat :=
  match firstIn [4, 5, 6, 7] fun k => bit (getPort h (8 * d + k)).kind 2 || camRuns (getPort h (8 * d + k)) with
  | some k => some (k + 256 * d)
  | none =>
    if d ≠ 0 then none
    else (firstIn (List.range (linkCount h.pkg.part)) fun l =>
      let e := (linkFar h.pkg.part 0 l).1
      dieUp h e && awake h e && !ds.contains e).map (· + 0x80)

/-- Sensor `n` of a die. -/
def sensorOf (p : Pwr) (n : Nat) : Sensor := p.sensors.get n {}

/-- Kind 5: the thermal manager. -/
def refuse5 (h : Hub) (d : Nat) : Option Nat :=
  let p := (getDie h d).pwr
  if (List.range 12).any (fun n => !(sensorOf p n).valid) || p.stepTo.isSome || h.now < p.rampEnd || p.shutdown then some 0 else none

/-- The first refusing unit of a die: kind and INDEX. -/
def refuses (h : Hub) (ds : List Nat) (d : Nat) : Option (Nat × Nat) :=
  match refuse1 h d, refuse2 h d, refuse3 h d, refuse4 h ds d, refuse5 h d with
  | some i, _, _, _, _ => some (1, i)
  | _, some i, _, _, _ => some (2, i)
  | _, _, some i, _, _ => some (3, i)
  | _, _, _, some i, _ => some (4, i)
  | _, _, _, _, some i => some (5, i)
  | _, _, _, _, _ => none

/-- The first refusing unit of several dies: die, kind and INDEX. -/
def firstRefusal (h : Hub) (ds : List Nat) : Option (Nat × Nat × Nat) := ds.findSome? fun d => (refuses h ds d).map fun r => (d, r)

/-! ### PWR_STATE (15 R394-R399, R416) -/

/-- The dies that a PWR_STATE puts into a low-power state: of all, those that are not there already. -/
def entryDies (h : Hub) (v : Nat) : List Nat := if v = 0xFF then (upDies h).filter fun d => !asleep h d else [v]

/-- Does an entry of some die stop output `o` at its next apply point? -/
def entryStops (h : Hub) (o : Nat) : Bool := h.dies.any fun e => match e.2.pwr.entry with | none => false | some q => q.stops.contains o

/-- A die starts its entry: tests are aborted, and its outputs stop. -/
def startEntry (target : Nat) (p : Pend) (h : Hub) (d : Nat) : Hub :=
  let stops := (outsOf h d).filter fun o => (getOut h o).state == .running && (!(getOut h o).stopNext || entryStops h o)
  let h := pwrGoes d .entering (updPwr (abortTests d h) d fun x => { x with
    entry := some { target := target, cmd := some p, stops := stops }, below := 0 })
  (outsOf h d).foldl (fun h o => hubStops o h) h

/-- A refusal of an entry (15 R393, R416). -/
def refuseEntry (target : Nat) (r : Nat × Nat × Nat) (h : Hub) : Res :=
  let h := updPwr h r.1 fun x => { x with
    refused := satInc 255 x.refused, refKind := r.2.1, refReq := target, refIndex := r.2.2 }
  failRes h 0x0408 16 (r.2.1 + 256 * r.1 + 65536 * r.2.2)

/-- PWR_STATE with STATE 0: the dies wake, and the completion waits until all are in RUN. -/
def runDies (v : Nat) (p : Pend) (h : Hub) : Res :=
  let ds := (if v = 0xFF then upDies h else [v]).filter fun d => !awake h d
  if ds.isEmpty then okRes h
  else
    let h := ds.foldl (fun h d => updPwr h d fun x => { x with runCmds := x.runCmds ++ [p] }) h
    laterRes (ds.foldl (fun h d => wakeEvent d 2 h) h)

/-- PWR_STATE. -/
def pwrStateCmd : Spec :=
  { op := 0x0900, level := 2, locks := true, rsv := [(18, 46)]
    checks := fun c _ h =>
      let d := arg8 c 16
      let t := arg8 c 17
      let ds := if d = 0xFF then upDies h else [d]
      [ck 0x0203 16 (d ≠ 0xFF && !(d < 8 && dieUp h d)), ck 0x0106 17 (t = 1 || t > 4), ck 0x0201 16 (t = 4 && d ≠ 0xFF),
       ck 0x0408 16 ((2 ≤ t && t ≤ 4) && (entryDies h d).any fun e => !awake h e),
       ck 0x0408 16 (t = 0 && ds.any fun e => dieUp h e && (asleep h e || (getDie h e).pwr.state == .entering) &&
         !bit (getDie h e).pwr.wakeEn 2)]
    run := fun c p _ h =>
      let d := arg8 c 16
      let t := arg8 c 17
      if t = 0 then runDies d p h
      else
        let ds := entryDies h d
        match firstRefusal h ds with
        | some r => refuseEntry t r h
        | none => laterRes (ds.foldl (startEntry t p) h) }

/-- Is a die past its commit point: in SLEEP, DEEP or OFF? -/
def downNow (h : Hub) (d : Nat) : Bool := asleep h d || (getDie h d).pwr.state == .off

/-- May an entry reach its commit point: its outputs are STOPPED, site 0 waits for every other die, and OFF takes the dies from the
highest site down (15 R393, R394, R399)? -/
def entryReady (h : Hub) (d target : Nat) : Bool :=
  (outsOf h d).all (fun o => (getOut h o).state == .stopped) &&
    (upDies h).all fun e => e = d || downNow h e || !(d = 0 || (target = 4 && e > d))

/-- Step 5 of an entry: the Traverse ports of a die go to TL_DEEP, DSI enters ULPS, and the PCIe port holds its link in L1. -/
def portsDeep (d : Nat) (h : Hub) : Hub :=
  let h := ([4, 5, 6, 7].map (· + 8 * d)).foldl (fun h k =>
    match (getPort h k).state with
    | .up | .seek | .adapt | .wait | .weak | .alone | .loop => goDeep k h
    | _ => h) h
  let h := updPort h (8 * d + 2) fun p => { p with ulps := !portOff p }
  updPwr h d fun x => { x with l1 := true }

/-- The state that a target names. -/
def targetState (t : Nat) : PwrState := match t with | 2 => .sleep | 3 => .deep | _ => .off

/-- The clocks of a die stop, and its root PLL with them (15 R394). -/
def stopClocks (d : Nat) (h : Hub) : Hub :=
  updDie (updPll d 0 (fun p => { p with locked := false, bypass := true }) h) d fun x =>
    { x with clk := { x.clk with rootOn := 0, rcActive := true, aligned := false } }

/-- The last die is in OFF: all power goes, but for a WAKE_N that arrived during the entry. -/
def packageOff (wake : Bool) (h : Hub) : Eff :=
  let h := resetHub .off h
  (if wake then coldStart h else h, clearMemory)

/-- PWR_ENTRY_COMMIT: steps 4 to 7 of an entry.  A die that is in SLEEP or DEEP already has stopped, and OFF removes its power with that
of the others (DEDUCED, log entry 85). -/
def entryCommit (d : Nat) (h : Hub) : Eff :=
  match (getDie h d).pwr.entry, (getDie h d).pwr.state with
  | some e, .entering =>
    if !dieUp h d || !entryReady h d e.target then (h, [])
    else
      let h := fbkFlush d (fbkRecord d 0 0x0001 e.target 0 h)
      let h := portsDeep d (updFbk h d fun f => { f with suspended := true, enterAt := h.now })
      let off := e.target = 4
      let h := updPwr h d fun x => { x with
        entries := (x.entries + 1) % 65536, commitAt := h.now, entry := if off then some { e with cmd := none } else none
        replays := if e.wake = some 0 || (e.wake.isSome && !off) then satInc 255 x.replays else x.replays }
      let h := match e.cmd with | none => h | some p => if pwrHeld h p then h else completeOk p 0 0 h
      let h := pwrGoes d (targetState e.target) (stopClocks d h)
      if off then
        let ps := (upDies h).map fun k => (getDie h k).pwr
        if ps.all fun p => p.state == .off || p.state == .sleep || p.state == .deep then packageOff (ps.any fun p => (p.entry.bind PwrEntry.wake) == some 0) h else (h, [])
      else match e.wake with
        | none => (h, [])
        | some w => (pwrGoes d .exiting (updPwr h d fun x => { x with lastWake := w + 1 }), [])
  | _, _ => (h, [])

/-- Nanoseconds of a number of crystal ticks, rounded down: 30,517 and 37/64 each (15 R396). -/
def crystalNs (n : Nat) : Nat := n * (30517 * 64 + 37) / 64

/-- The real length of `n` ticks of a die's always-on domain in ns, and what it consumes: of its crystal, or, where that has failed, of the
slow RC oscillator, whose rate is a free one of 28.8 to 35.2 kHz (16 R422, R432). -/
def ticksNs (d n : Nat) (h : Hub) : Nat × Hub :=
  if (getDie h d).clk.xtalOk then (crystalNs n, h)
  else
    let (i, h) := takeFree h
    (n * 28409 + (Config.freeWord i).toNat % (n * 6314 + 1), h)

/-- WAKE_EVENT: the timer's elapses at its instant, and the thermal one needs a level at or above 1. -/
def wakeRow (d cause : Nat) (h : Hub) : Hub :=
  let p := (getDie h d).pwr
  if cause = 3 then
    if p.wakeTimer = 0 || !asleep h d || !bit p.wakeEn 3 then h
    else
      let (t, h) := ticksNs d p.wakeTimer h
      wakeEvent d 3 (at_ (p.commitAt + t) h)
  else if cause = 5 && p.level = 0 then h
  else wakeEvent d cause h

/-- Whole ticks of the always-on domain of a die in `t` ns, and what they consume (16 R422). -/
def ticksIn (d t : Nat) (h : Hub) : Nat × Hub :=
  if (getDie h d).clk.xtalOk then (((t + 1) * 64 - 1) / (30517 * 64 + 37), h)
  else
    let (i, h) := takeFree h
    (t / 34723 + (Config.freeWord i).toNat % (t / 28409 - t / 34723 + 1), h)

/-- The package timebase while the principal's die slept, and what it consumes: the ticks of its always-on domain from the commit point, and
never before what has been stamped since, by itself or by another die that is awake (15 R396). -/
def crystalTime (d : Nat) (h : Hub) : Nat × Hub :=
  let p := (getDie h d).pwr
  let (n, h) := ticksIn d (h.now - p.commitAt) h
  (if (upDies h).any (awake h) then h.now else max p.stateTime (p.commitAt + crystalNs n), h)

/-- PWR_EXIT_COMPLETE: step 6 of an exit; step 5 resumes the timebase from the crystal's value where the principal's die slept. -/
def exitComplete (d : Nat) (h : Hub) : Hub :=
  let x := getDie h d
  if !dieUp h d || x.pwr.state != .exiting || !x.clk.root.locked then h
  else
    let h := if d = h.pkg.principal then (let (t, h) := crystalTime d h; { h with now := t }) else h
    let h := updPort (updPwr h d fun p => { p with l1 := false }) (8 * d + 2) fun p => { p with ulps := false }
    let h := updPwr h d fun p => { p with
      wakes := satInc 255 p.wakes
      sensors := (List.range 12).map fun n => (n, { sensorOf p n with valid := false, seen := 0 }) }
    let h := updDie h d fun x => { x with clk := { x.clk with aligned := true } }
    let h := pwrGoes d .run (updFbk h d fun f => { f with suspended := false })
    let h := fbkRecord d 0 0x0002 (getDie h d).pwr.lastWake (getDie h d).fbk.enterAt h
    let h := if x.clk.xtalLost then
        let u := unitId 6 d 0
        faultReport d 0x0704 u u 0 (updDie h d fun x => { x with clk := { x.clk with xtalLost := false } })
      else h
    let h := ([4, 5, 6, 7].map (· + 8 * d)).foldl (fun h k => if (getPort h k).state == .deep then enterSeek k 1 h else h) h
    runDone d h

/-- IDLE_ENTER and IDLE_EXIT: nothing counts or reports it (15 R392). -/
def idleGoes (d : Nat) (a b : PwrState) (h : Hub) : Hub :=
  if dieUp h d && powered h && (getDie h d).pwr.state == a then updPwr h d fun x => { x with state := b } else h

/-! ### Junction temperature (15 R400-R402) -/

/-- A reading in units of 0.125 °C. -/
def tempOf (s : Sensor) : Int := signed 12 s.temp

/-- The hottest valid reading of a die, and its sensor. -/
def hottest (p : Pwr) : Option (Nat × Int) :=
  (List.range 12).foldl (fun best n =>
    let s := sensorOf p n
    if !s.valid then best
    else match best with
      | none => some (n, tempOf s)
      | some b => if tempOf s > b.2 then some (n, tempOf s) else best) none

/-- The level of R400 at temperature `t` from level `l`. -/
def levelAt (l : Nat) (t : Int) : Nat :=
  if l = 3 then 3
  else if t ≥ 944 || (l = 2 && t ≥ 920) then 2
  else if t ≥ 920 || (l ≥ 1 && t ≥ 896) then 1
  else 0

/-- The level of a die changes (15 R400, R420; 20 R511; 22 R540). -/
def levelGoes (d l : Nat) (h : Hub) : Hub :=
  let p := (getDie h d).pwr
  if p.level = l then h
  else
    let h := updPwr h d fun x => { x with
      level := l, warn := if p.level = 0 then satInc 255 x.warn else x.warn
      reduce := if p.level < 2 && l ≥ 2 then satInc 255 x.reduce else x.reduce }
    let h := fbkRecord d 7 0x0701 (p.maxTemp + 4096 * p.maxSensor + 65536 * l) 0 (setAlert (intEvent d 5 h))
    let h := postEvents (sysClients h) 0x0981 (d + 256 * l) h.now h
    if p.level = 0 then wakeEvent d 5 h else h

/-- SENSOR_CONVERSION. -/
def conversion (d n temp : Nat) (h : Hub) : Hub :=
  if n ≥ 12 || !dieUp h d || !powered h || (getDie h d).pwr.state == .off then h
  else
    let h := updPwr h d fun p =>
      let s := sensorOf p n
      { p with sensors := p.sensors.set n { temp := temp, valid := s.seen ≥ 2, seen := min 2 (s.seen + 1) } }
    let h := match hottest (getDie h d).pwr with
      | none => h
      | some t => updPwr h d fun p => { p with maxTemp := unsigned 12 t.2, maxSensor := t.1 }
    if signed 12 temp ≥ 1120 then
      let h := levelGoes d 3 (updPwr h d fun p => { p with shutdown := true })
      abortEntry d 5 0 h
    else match hottest (getDie h d).pwr with
      | none => h
      | some t => levelGoes d (levelAt (getDie h d).pwr.level t.2) h

/-- A die removes its core power for heat. -/
def heatLoss (d reason : Nat) (ok : Die → Bool) (m : List Host.Cell) (h : Hub) : Eff :=
  if powered h && ok (getDie h d) then dieLost d reason m h else (h, [])

/-! ### The budget, the ladder and the clock (15 R403-R408) -/

/-- The allowance after a tick, from the hottest valid reading. -/
def nextAllow (p : Pwr) : Nat :=
  match hottest p with
  | none => p.allow
  | some (_, t) =>
    let a : Int := if t ≥ 944 then (p.allow : Int) - 500 else if t < 896 then (p.allow : Int) + 250 else p.allow
    (min (max a p.floorMw) p.limit).toNat

/-- The rung after a tick, the count of ticks below, and whether the die is at its highest rung and short (15 R406). -/
def nextRung (p : Pwr) (top : Nat) (e : Nat → Rat) (budget : Rat) : Nat × Nat × Bool :=
  if e p.rung > budget then
    if p.rung < top then (p.rung + 1, 0, false) else (p.rung, 0, true)
  else if p.rung > 0 && decide (e (p.rung - 1) ≤ 9 / 10 * budget) then
    if p.below + 1 ≥ 100 then (p.rung - 1, 0, false) else (p.rung, p.below + 1, false)
  else (p.rung, 0, false)

/-- A clock step towards the rung's begins: for a step up the voltage ramps first (15 R408), and the final code is held for 2 µs. -/
def startStep (d : Nat) (h : Hub) : Hub :=
  updPwr h d fun p =>
    let want := rungStep p.rung
    if p.stepTo.isSome || p.step = want then p
    else if want < p.step then rampTo (p.step - 1) h.now 2000 { p with stepTo := some (p.step - 1) }
    else { p with stepTo := some (p.step + 1) }

/-- CLOCK_STEP_SWITCH: the divider switches by one step, for a step up at the end of its ramp; after a step down the voltage follows. -/
def clockSwitch (d : Nat) (h : Hub) : Hub :=
  if !dieUp h d || !awake h d then h
  else
    let p := (getDie h d).pwr
    match p.stepTo with
    | none => h
    | some t =>
      let s := if t < p.step then p.step - 1 else if t > p.step then p.step + 1 else p.step
      let h := if t < p.step then at_ p.rampEnd h else h
      updPwr h d fun p =>
        let q := { p with step := s, stepTo := if s = t then none else some t }
        if t > p.step then rampTo s h.now 0 q else q

/-- Groups with Plotter jobs or client descriptors queued or running on a die (15 R411). -/
def workGroups (h : Hub) (d : Nat) : List Nat :=
  let js := (getDie h d).plt.jobs.map fun j => groupOf h j.pend.ctx
  let cs := ((chansOf h d).filter fun e => !e.2.queue.isEmpty).map fun e => groupOf h e.2.owner
  groups.filter fun g => (js ++ cs).contains g

/-- The token pool of a tick is divided among the groups that have work (15 R411). -/
def refill (d : Nat) (h : Hub) : Hub :=
  let gs := workGroups h d
  let w := (gs.map fun g => (shareOf h d g).energy).sum
  updPwr h d fun p =>
    let pool := rungPool p.rung
    let r : Tab Nat := gs.map fun g => (g, pool * (shareOf h d g).energy / w)
    { p with
      pool := pool, refill := r
      bucket := r.map fun e => (e.1, min (p.bucket.get e.1 0 + e.2) (max (2 * e.2) 8192)) }

/-- POWER_TICK; the rung is held while the Keeper is halted (22 R550). -/
def powerTick (d : Nat) (h : Hub) : Hub :=
  if !dieUp h d || !ready h || !awake h d then h
  else
    let h := updPwr h d fun p => { p with allow := nextAllow p, budget := nextAllow p }
    let dm := demandOf (heldViews h)
    let cams := camResvs h
    let e (r : Nat) : Rat := estimate h dm cams d r (rungStep r)
    let p := (getDie h d).pwr
    let n := if (getDie h d).kdbg.halted.isSome then (p.rung, p.below, p.short) else nextRung p (topRung h dm d) e p.budget
    let h := rungGoes d n.1 h
    let h := updPwr h d fun x => { x with below := n.2.1, short := n.2.2, estimate := (e n.1).ceil.toNat % 65536 }
    let h := if n.2.2 && !p.short then postEvents (sysClients h) 0x0981 (d + 256 * p.level + 1024) h.now h else h
    refill d (startStep d h)

/-! ### PWR_LIMITS, PWR_FLOOR, PWR_QUERY (15 R417-R419) -/

/-- The first of tests 7 and 8 that the committed configuration fails under a hub with other limits (15 R417). -/
def limitTest (h : Hub) (d : Nat) : Option (Nat × Nat × Nat) :=
  let dm := demandOf [{ h := h, alt := [] }]
  if d = 0xFF then packageTest h dm (camResvs h) else firstTest (powerTests h dm (camResvs h) d)

/-- The limits of a PWR_LIMITS in force. -/
def putLimits (c : Cmd) (h : Hub) : Hub :=
  if arg8 c 16 = 0xFF then { h with pkg := { h.pkg with pkgMw := arg32 c 24 } }
  else updPwr h (arg8 c 16) fun p => { p with limit := arg16 c 20, floorMw := arg16 c 22 }

/-- PWR_LIMITS. -/
def pwrLimits : Spec :=
  { op := 0x0901, level := 2, locks := true, rsv := [(17, 3), (28, 36)]
    checks := fun c _ h =>
      let d := arg8 c 16
      let lim := arg16 c 20
      let fl := arg16 c 22
      let mw := arg32 c 24
      (if d = 0xFF then
        [ck 0x0201 20 (lim ≠ 0), ck 0x0201 22 (fl ≠ 0), ck 0x0201 24 (mw < 6000 || mw > peakMw h.pkg.part)]
      else
        [dieCk h 16 d, ck 0x0201 20 (lim < 3000 || lim > 19000), ck 0x0201 22 (fl < 2600 || fl > lim), ck 0x0201 24 (mw ≠ 0)]) ++
      match (if d = 0xFF || d < 8 then limitTest (putLimits c h) d else none) with
      | none => []
      | some (st, r0, r1) => [{ st := st, off := 255, bad := true, r0 := r0, r1 := r1 }]
    run := fun c _ _ h => okRes (putLimits c h) }

/-- PWR_FLOOR. -/
def pwrFloor : Spec :=
  staging 0x0902 2 true [(18, 46)]
    (fun c _ h => [dieCk h 16 (arg8 c 16), ck 0x0201 17 (arg8 c 17 > 3), ckd (arg8 c 16) 0x0407 16 (dieConflict h c (arg8 c 16) Txn.floors)])
    fun c h => updStaged h c fun t => { t with floors := t.floors.set (arg8 c 16) (arg8 c 17) }

/-- PWR_STATE, PWR_COUNT, PWR_REFUSER and THM_MAX as registers (15 R414). -/
def pwrStateWord (p : Pwr) : Nat :=
  pwrCode p.state + 16 * p.lastWake + 256 * p.step + 1024 * p.floor + 4096 * p.rung

/-- PWR_COUNT. -/
def pwrCountWord (p : Pwr) : Nat := p.entries + 65536 * p.refused + 2 ^ 24 * p.aborted

/-- PWR_REFUSER. -/
def pwrRefuserWord (p : Pwr) : Nat := p.refKind + 16 * p.refReq + 65536 * p.refIndex

/-- THM_MAX. -/
def thmMaxWord (p : Pwr) : Nat := p.maxTemp + 4096 * p.maxSensor + 65536 * p.level

/-- The block of PWR_QUERY. -/
def pwrBlock (h : Hub) (d : Nat) : Bytes :=
  let p := (getDie h d).pwr
  let fl := floorEstimate h (demandOf [{ h := h, alt := [] }]) (camResvs h) d
  leBytes 4 (pwrStateWord p) ++ leBytes 4 (pwrCountWord p) ++ leBytes 4 (pwrRefuserWord p) ++ leBytes 2 p.budget ++
  leBytes 2 p.estimate ++ leBytes 2 fl.ceil.toNat ++ leBytes 2 p.allow ++ leBytes 4 (thmMaxWord p) ++
  ((List.range 4).flatMap fun i => leBytes 1 (getOut h (4 * d + i)).q) ++ leBytes 4 p.pool ++ leBytes 8 p.stateTime ++
  leBytes 8 p.rungTime ++ leBytes 16 0

/-- PWR_QUERY. -/
def pwrQuery : Spec :=
  { op := 0x0903, level := 1, rsv := [(17, 7), (32, 32)]
    checks := fun c _ h => [dieCk h 16 (arg8 c 16), bufCk c 24]
    run := fun c _ _ h => okRes (ctxWrite c.ctx (arg64 c 24) (pwrBlock h (arg8 c 16)) h) 64 }

/-! ### The rows -/

/-- PWR_STATE. -/
def execPwrState (c : Cmd) (s : State) : Host.Outcome State Fault Refusal := .next (mail pwrStateCmd c s)
/-- PWR_LIMITS. -/
def execPwrLimits (c : Cmd) (s : State) : Host.Outcome State Fault Refusal := .next (mail pwrLimits c s)
/-- PWR_FLOOR. -/
def execPwrFloor (c : Cmd) (s : State) : Host.Outcome State Fault Refusal := .next (mail pwrFloor c s)
/-- PWR_QUERY. -/
def execPwrQuery (c : Cmd) (s : State) : Host.Outcome State Fault Refusal := .next (mail pwrQuery c s)
/-- PWR_ENTRY_COMMIT. -/
def execPwrEntryCommit (die : Nat) (s : State) : Host.Outcome State Fault Refusal := .next (act (fun _ h => entryCommit die h) s)
/-- WAKE_EVENT. -/
def execWakeEvent (die cause : Nat) (s : State) : Host.Outcome State Fault Refusal := .next (onHub (wakeRow die cause) s)
/-- PWR_EXIT_COMPLETE. -/
def execPwrExitComplete (die : Nat) (s : State) : Host.Outcome State Fault Refusal := .next (onHub (exitComplete die) s)
/-- IDLE_ENTER. -/
def execIdleEnter (die : Nat) (s : State) : Host.Outcome State Fault Refusal := .next (onHub (idleGoes die .run .idle) s)
/-- IDLE_EXIT. -/
def execIdleExit (die : Nat) (s : State) : Host.Outcome State Fault Refusal := .next (onHub (idleGoes die .idle .run) s)
/-- SENSOR_CONVERSION. -/
def execSensorConversion (die sensor : Nat) (temp : BitVec 12) (s : State) : Host.Outcome State Fault Refusal :=
  .next (onHub (conversion die sensor temp.toNat) s)
/-- THERMAL_SHUTDOWN. -/
def execThermalShutdown (die : Nat) (s : State) : Host.Outcome State Fault Refusal :=
  .next (act (heatLoss die 1 fun x => x.pwr.shutdown) s)
/-- ANALOGUE_TRIP. -/
def execAnalogueTrip (die : Nat) (s : State) : Host.Outcome State Fault Refusal := .next (act (heatLoss die 2 fun _ => true) s)
/-- POWER_TICK. -/
def execPowerTick (die : Nat) (s : State) : Host.Outcome State Fault Refusal := .next (onHub (powerTick die) s)
/-- CLOCK_STEP_SWITCH. -/
def execClockStepSwitch (die : Nat) (s : State) : Host.Outcome State Fault Refusal := .next (onHub (clockSwitch die) s)

end Sys2Proof.Machine
end

