-- ==== Sys2Proof/Machine/Resets.lean ====
section
/-!
DEFINITION. Resets while the package runs, and the KPR_ registers: package warm reset, per-die reset and rejoin, PCIe resets, and the
snapshot (17 R451; 18 R471-R477; 21 R525).
-/

namespace Sys2Proof.Machine

/-! ### Per-die reset (18 R474) -/

/-- The KPR_ block of a die changed by `f`. -/
def updKpr (h : Hub) (d : Nat) (f : Kpr → Kpr) : Hub := updDie h d fun x => { x with kpr := f x.kpr }

/-- An ignored write of KPR_RESET or KPR_SNAP_CTRL is counted on the principal (18 R475, R476). -/
def kprIgnored (h : Hub) : Hub := updKpr h h.pkg.principal fun k => { k with ignored := satInc 255 k.ignored }

/-- SYS_DIE (18 R477). -/
def sysDie (d code : Nat) (h : Hub) : Hub := toIntegrator 0x0082 (d + 256 * code) h.now h

/-- The surfaces of die `d` go: their generations increment, and their grantees are told (03 R52). -/
def freeDieSurfs (d : Nat) (h : Hub) : Hub :=
  let l := h.atlas.filter fun e => e.1 / 8192 == d
  let h := dirtied (h.layers.filter fun e => e.2.cur.source ≠ 0 && handleOn d e.2.cur.source) h
  let h := { h with
    atlas := h.atlas.filter fun e => e.1 / 8192 != d
    gens := l.foldl (fun g e => g.set e.1 (e.2.gen + 1)) h.gens
    freed := h.freed ++ l.map Prod.fst }
  l.foldl (fun h e => if e.2.retiring then h else tellLost (handleOf e.1 e.2) e.2.grants true h) h

/-- An output of a reset die: STOPPED with its default records, but a member still of a group that spans other dies. -/
def resetOut (h : Hub) (o : Nat) : Output :=
  let x := getOut h o
  let new : Output := { chk := { mismatches := x.chk.mismatches } }
  if x.grp = 0 || (groupOuts h o).all (fun m => m / 4 == o / 4) then new
  else
    let y := { new with grp := x.grp, primary := x.primary, index := x.index, members := x.members }
    if x.grp < 3 && x.primary ≠ o then { takeRecords (getOut h x.primary) y with mode := none } else y

/-- Step 2: everything that is held on die `d` is freed. -/
def freeDieObjects (d : Nat) (h : Hub) : Hub :=
  let h := freeDieSurfs d h
  let h := ((h.regions.filter fun e => e.1 / 256 == d).map Prod.fst).foldl (fun h r => freeRegion r h) h
  let h := ((h.tls.filter fun e => e.1 / 1024 == d).map Prod.fst).foldl (fun h k => dropTl k 0x0904 h) h
  sweepObjects { h with
    layers := (h.layers.filter fun e => e.1 / 1024 != d).map fun (e : Nat × Layer) =>
      (e.1, { e.2 with peers := e.2.peers.filter fun k => k / 1024 != d })
    banks := h.banks.filter fun e => e.1 / 16 != d
    luts := h.luts.filter fun e => e.1 / 128 != d
    progs := h.progs.filter fun e => e.1 / 256 != d
    dma := h.dma.filter fun e => e.1 / 32 != d
    shares := h.shares.filter fun e => e.1 / 32 != d
    ports := h.ports.filter fun e => e.1 / 8 != d
    outs := (h.outs.filter fun e => e.1 / 4 != d) ++ ((List.range 4).map (· + 4 * d)).map fun o => (o, resetOut h o)
    fns := h.fns.map fun (e : Nat × Fn) => if e.1 / 16 = d then (e.1, resetFn true e.1 e.2) else e }

/-- The registers of a reset die, with step 1 begun. -/
def resetRegs (d : Nat) (h : Hub) : Hub :=
  updDie h d fun x => { resetDie false false x with kpr := { step := 1 } }

/-- A per-die reset of die `d` starts. -/
def startDieReset (d : Nat) (m : List Host.Cell) (h : Hub) : Eff :=
  let a := if dieUp h d then dieGone d m h else (h, [])
  let h := resetRegs d (freeDieObjects d a.1)
  let h := updKpr h h.pkg.principal fun k => { k with dieResets := satInc 255 k.dieResets }
  (sysDie d 1 { h with pkg := { h.pkg with resets := h.pkg.resets.set d h.now } }, a.2)

/-- A sleeping die wakes for its reset (18 R475). -/
def wakeForReset (d : Nat) (h : Hub) : Hub :=
  let h := pwrGoes d .exiting (updPwr h d fun x => { x with lastWake := 3 })
  pwrGoes d .run (updPwr h d fun x => { x with wakes := satInc 255 x.wakes })

/-- Is KPR_RESET.DIE ignored: for the principal, an unpopulated site and a die already in a reset (18 R474, R475)? -/
def dieResetIgnored (h : Hub) (d : Nat) : Bool := d = h.pkg.principal || !bit h.pkg.sites d || h.pkg.resets.has d

/-- KPR_RESET.DIE with its key. -/
def dieResetAsked (d : Nat) (m : List Host.Cell) (h : Hub) : Eff :=
  if dieUp h d && asleep h d then
    let a := startDieReset d m (wakeForReset d h)
    (updPwr a.1 d fun x => { x with lastWake := 3 }, a.2)
  else startDieReset d m h

/-- Steps 4 and 5: a die that has booted rejoins. -/
def rejoined (d : Nat) (h : Hub) : Hub :=
  let h := updDie (loadTime d (rootOnPll d h)) d fun x => { x with kpr := { x.kpr with step := 6 } }
  let h := { h with pkg := { h.pkg with
    lost := h.pkg.lost &&& (255 - 2 ^ d), sitesUp := h.pkg.sitesUp ||| 2 ^ d, why := h.pkg.why.del d, resets := h.pkg.resets.del d } }
  sysDie d 2 (rebuilt d (provDie d (provContexts d true (syncDie d (slotFault d h)))))

/-- DIE_REJOIN: the die runs steps 1 to 6 of a start.  A die that heat has shut down has no power to do so (15 R401), one without a valid
image stays in the boot ROM, and one with another firmware (18 R461), or that a retirement keeps out (17 R449, R453), is not taken. -/
def dieRejoin (d : Nat) (h : Hub) : Hub :=
  if !h.pkg.resets.has d || heatOff h d then h
  else
    let g := bootDie d h
    let x := getDie g d
    if x.atc.inRom || x.regs.fw ≠ (getDie g g.pkg.principal).regs.fw || retiredDie g d ≠ 0 then g else rejoined d g

/-- DIE_REJOIN_TIMEOUT: 30 ms after the reset began. -/
def rejoinTimeout (d : Nat) (h : Hub) : Hub :=
  match h.pkg.resets.find d with
  | none => h
  | some t =>
    let h := at_ (t + 30000000) h
    let p := h.pkg.principal
    let h := { h with pkg := { h.pkg with resets := h.pkg.resets.del d, why := if heatOff h d then h.pkg.why else h.pkg.why.set d 7 } }
    sysDie d 3 (faultReport p 0x0707 (unitId 0x0D d 0) (unitId 0x0B p 0) 7 h)

/-! ### Package warm reset (18 R473) -/

/-- A package warm reset: the ports go idle, and every die starts again at step 1. -/
def warmReset (h : Hub) : Eff :=
  let h := ((h.outs.filter fun e => e.2.state == .running).map Prod.fst).foldl (fun h o => portIdles o h) h
  let h := resetHub .starting h
  let h := (siteList h).foldl (fun h d => updKpr h d fun k => { k with warm := satInc 255 k.warm }) h
  (startDies h, clearMemory)

/-- KPR_RESET written (18 R475, R476). -/
def kprReset (v : Nat) (m : List Host.Cell) (h : Hub) : Eff :=
  let act := bit v 0 || bit v 1
  let t := bits v 2 3
  if act && bits v 16 16 ≠ 0xB007 || (!bit v 0 && bit v 1 && dieResetIgnored h t) then (kprIgnored h, [])
  else
    let h := updKpr h h.pkg.principal fun k => { k with target := bits v 2 3, key := bits v 16 16 }
    if bit v 0 then warmReset h else if bit v 1 then dieResetAsked (bits v 2 3) m h else (h, [])

/-! ### The snapshot (18 R471) -/

/-- The broadcast figure of a scope, in ns (18 R470). -/
def broadcastNs (h : Hub) (scope : Nat) : Nat :=
  let b := if h.pkg.part = 8 then 600 else 450
  match scope with
  | 0 => 150
  | 1 => b / 2
  | _ => (b + 4800 * (h.chain.len - 1)) / 2

/-- An arm is refused: nothing is armed. -/
def refuseSnap (reason : Nat) (h : Hub) : Hub := snapGoes 3 reason (updKpr h h.pkg.principal fun k => { k with armed := none })

/-- KPR_SNAP_CTRL.ARM. -/
def armSnap (h : Hub) : Hub :=
  let p := h.pkg.principal
  let k := (getDie h p).kpr
  if k.scope > 2 then kprIgnored h
  else if k.scope = 2 && !(h.chain.head && h.chain.pos = 0) then refuseSnap 2 h
  else
    let now := if k.scope = 2 then chainTime h else h.now
    if k.snapAt < now + broadcastNs h k.scope then refuseSnap 1 h
    else if k.scope < 2 then snapGoes 1 0 (updKpr h p fun x => { x with armed := some (k.snapAt, k.scope) })
    else
      let h := armChain k.snapAt h
      match h.chain.down with
      | none => h
      | some u => sendMgmt u 6 (leBytes 1 2 ++ leBytes 7 0 ++ leBytes 8 k.snapAt) h

/-- KPR_SNAP_CTRL written. -/
def kprSnap (v : Nat) (h : Hub) : Hub :=
  let h := updKpr h h.pkg.principal fun k => { k with scope := bits v 1 2 }
  if bit v 0 then armSnap h else h

/-- The line that a pipe sends at instant `t`, counted from the start of vertical blank; 0xFFFF where it does not run. -/
def lineAt (x : Output) (t : Nat) : Nat :=
  match x.mode, x.scan with
  | some e, some sc =>
    let px := sc.refPx + ((t - sc.s0 + 1) * pxDen e * (1000000 + sc.rate).toNat - 1) / (e.pllP * 1000 * 1000000)
    if x.state == .running then (px - sc.vbPx) / hTotal e % 65536 else 0xFFFF
  | _, _ => 0xFFFF

/-- A die takes its values. -/
def takeSnap (t : Nat) (h : Hub) (d : Nat) : Hub :=
  let os := (List.range 4).map fun p => getOut h (4 * d + p)
  updKpr h d fun k => { k with frames := os.map fun x => x.frameCount, lines := os.map fun x => lineAt x t }

/-- SNAPSHOT_INSTANT. -/
def snapInstant (h : Hub) : Hub :=
  let p := h.pkg.principal
  match (getDie h p).kpr.armed with
  | none => h
  | some (t, scope) =>
    let t := if scope = 2 then max h.now (chainInstant h t) else t
    let h := at_ t h
    let h := (if scope = 0 then [p] else upDies h).foldl (takeSnap t) h
    snapGoes 2 0 (updKpr h p fun k => { k with armed := none })

/-! ### Writes of the KPR_ block (18 R476) -/

/-- Is a register of the block one that is honoured in the principal's space alone? -/
def kprOfPrincipal (off : Nat) : Bool := off == 0x08 || (0x20 ≤ off && off < 0x60)

/-- A 32-bit write of the block in the space of die `d`, honoured. -/
def kprWrite32 (d off v : Nat) (m : List Host.Cell) (h : Hub) : Eff :=
  match off with
  | 0x08 => kprReset v m h
  | 0x0C => (updKpr h d fun k => { k with warm := bits v 0 8, dieResets := bits v 8 8, ignored := bits v 16 8 }, [])
  | 0x20 => (updKpr h d fun k => { k with snapAt := setHalf k.snapAt false v }, [])
  | 0x24 => (updKpr h d fun k => { k with snapAt := setHalf k.snapAt true v }, [])
  | 0x28 => (kprSnap v h, [])
  | _ => (h, [])

/-- A write of the block by a function: outside the principal's space, that of some registers is reported. -/
def kprAccess (fn d off v : Nat) : List Host.Cell → Hub → Eff := fun m =>
  regGate fn d (0x0100 + off) false fun h =>
    if kprOfPrincipal off && d ≠ h.pkg.principal then (accessFault fn (d * 0x100000 + 0x0100 + off) h, []) else kprWrite32 d off v m h

/-- KPR_CHAIN.UP and DOWN. -/
def chainPortByte (k : Option Nat) : Nat := match k with | none => 0 | some k => k % 8 - 4 + 16 * (k / 8) + 128

/-- A 32-bit word of the block, read. -/
def kprRead32 (h : Hub) (d off : Nat) : Nat :=
  let k := (getDie h d).kpr
  let c := h.chain
  match off with
  | 0x00 => k.step + 16 * b2n (h.pkg.principal == d && decide (k.step ≥ 5)) + 32 * h.pkg.principal + 256 * (getDie h d).atc.image + 512 * b2n (k.step == 9) +
      65536 * k.readyMs
  | 0x04 => d + 8 * b2n c.head
  | 0x08 => 4 * k.target + 65536 * k.key
  | 0x0C => k.warm + 256 * k.dieResets + 65536 * k.ignored
  | 0x10 => c.pos + 4 * c.len + 32 * b2n c.aligned + 256 * chainPortByte c.up + 65536 * chainPortByte c.down
  | 0x18 => unsigned 64 (chainOfs h) % 2 ^ 32
  | 0x1C => unsigned 64 (chainOfs h) / 2 ^ 32
  | 0x20 => k.snapAt % 2 ^ 32
  | 0x24 => k.snapAt / 2 ^ 32
  | 0x28 => 2 * k.scope
  | 0x2C => k.snapState + 16 * k.snapReason
  | _ =>
    if 0x30 ≤ off && off < 0x50 then
      let v := k.frames.getD ((off - 0x30) / 8) 0
      if (off - 0x30) % 8 = 0 then v % 2 ^ 32 else v / 2 ^ 32
    else if 0x50 ≤ off && off < 0x60 then k.lines.getD ((off - 0x50) / 4) 0
    else 0

/-! ### PCIe resets (18 R472, 21 R525) -/

/-- Function-level reset of several functions. -/
def resetEach (l : List Nat) (m : List Host.Cell) (h : Hub) : Eff :=
  match l with
  | [] => (h, [])
  | f :: t =>
    let a := functionReset f m h
    let b := resetEach t (a.2.foldl Memory.apply m) a.1
    (b.1, a.2 ++ b.2)

/-- The port of a die is reset or goes down. -/
def portReset (d : Nat) (m : List Host.Cell) (h : Hub) : Eff := resetEach ((List.range 16).map (· + 16 * d)) m h

/-- PCIE_PERST_N of a die changes. -/
def perst (d : Nat) (low : Bool) (m : List Host.Cell) (h : Hub) : Eff :=
  let h := { h with pkg := { h.pkg with perst := if low then h.pkg.perst ||| 2 ^ d else h.pkg.perst &&& (255 - 2 ^ d) } }
  if low then portReset d m h else (h, [])

/-! ### The rows -/

/-- KPR_RESET_PKG. -/
def execKprResetPkg (fn die : Nat) (value : BitVec 32) (s : State) : Host.Outcome State Fault Refusal :=
  .next (act (kprAccess fn die 0x08 value.toNat) s)
/-- KPR_RESET_DIE. -/
def execKprResetDie (fn die : Nat) (value : BitVec 32) (s : State) : Host.Outcome State Fault Refusal :=
  .next (act (kprAccess fn die 0x08 value.toNat) s)
/-- DIE_REJOIN. -/
def execDieRejoin (die : Nat) (s : State) : Host.Outcome State Fault Refusal := .next (onHub (dieRejoin die) s)
/-- DIE_REJOIN_TIMEOUT. -/
def execDieRejoinTimeout (die : Nat) (s : State) : Host.Outcome State Fault Refusal := .next (onHub (rejoinTimeout die) s)
/-- KPR_SNAP_ARM. -/
def execKprSnapArm (fn die : Nat) (value : BitVec 32) (s : State) : Host.Outcome State Fault Refusal :=
  .next (act (kprAccess fn die 0x28 value.toNat) s)
/-- SNAPSHOT_INSTANT. -/
def execSnapshotInstant (s : State) : Host.Outcome State Fault Refusal := .next (onHub snapInstant s)
/-- PCIE_HOT_RESET. -/
def execPcieHotReset (die : Nat) (s : State) : Host.Outcome State Fault Refusal := .next (act (portReset die) s)
/-- PCIE_PERST. -/
def execPciePerst (die : Nat) (low : Bool) (s : State) : Host.Outcome State Fault Refusal := .next (act (perst die low) s)

end Sys2Proof.Machine
end

