-- ==== Sys2Proof/Machine/Clocks.lean ====
section
/-!
DEFINITION. Clocks and PLLs: lock, loss of lock and of a reference, relock, the crystal, alignment of the timebase, and the CLK_ and PLL_
registers (16 R422-R438; 18 R462, R474).
-/

namespace Sys2Proof.Machine

/-! ### Lock (16 R426, R427, R433) -/

/-- The unit of PLL `i` of a die (17 R440): 0 root, 1 and 2 display, 16 and a port code for a port's PHY. -/
def pllUnit (d i : Nat) : Nat := unitId 6 d i

/-- A record about a PLL, with the last window count (a free value) as its DETAIL (17 R441). -/
def pllFault (d i cause : Nat) (h : Hub) : Hub :=
  let (n, h) := takeFree h
  faultReport d cause (pllUnit d i) (pllUnit d i) (Config.freeWord n).toNat h

/-- The root PLL of a die locks: at its start, at its exit from SLEEP or DEEP, in its reset, or where its loss made the die lost: then a
per-die reset begins (16 R433, 18 R474). -/
def rootLock (d : Nat) (m : List Host.Cell) (h : Hub) : Eff :=
  let x := getDie h d
  if !powered h || x.clk.root.locked || !bit h.pkg.sites d then (h, [])
  else if dieUp h d then
    if x.kpr.step = 1 && h.pkg.phase == .starting then (rootStarts d h, [])
    else if x.pwr.state == .exiting then (rootOnPll d h, [])
    else (h, [])
  else
    let a := if h.pkg.resets.has d then (h, []) else if h.pkg.why.get d 0 = 3 && ready h then startDieReset d m h else (h, [])
    if a.1.pkg.resets.has d then (updKpr (rootOnPll d a.1) d fun k => { k with step := 2 }, a.2) else a

/-- REFCLK_VID is there: it is one input of the package, and a display PLL that locks shows it (16 R422). -/
def vidBack (h : Hub) : Hub :=
  { h with dies := h.dies.map fun (e : Nat × Die) => (e.1, { e.2 with clk := { e.2.clk with
      vidOk := true, disp0 := { e.2.clk.disp0 with refOk := true }, disp1 := { e.2.clk.disp1 with refOk := true } } }) }

/-- A display PLL that is programmed locks. -/
def dispLock (d i : Nat) (h : Hub) : Hub :=
  if !dieUp h d || i = 0 || i > 2 || (pllUsers h d (i - 1)).isEmpty || (getPll h d i).locked then h
  else
    let g := updDie (vidBack h) d fun x => { x with clk := { x.clk with vidOk := true } }
    updPll d i (fun p => { p with locked := true, bypass := false, refOk := true, lockAt := h.now }) g

/-- A display PLL is programmed again for the mode that it has, as attempt `n`; where a group uses it, with the settings of the group. -/
def relock (d i n : Nat) (h : Hub) : Hub :=
  let p := getPll h d i
  let us := pllUsers h d (i - 1)
  let use := match (us.find? fun o => (getOut h o).grp ≠ 0).or us.head? with | none => p.used | some o => spreadOf h o (i - 1)
  updPll d i (fun p => { p with attempts := n }) (programPll d (i - 1) p.n p.p use h)

/-- An attempt to lock a display PLL has failed: counted, recorded, and tried again at once. -/
def attemptFails (d i : Nat) (h : Hub) : Hub :=
  let p := getPll h d i
  let h := updPll d i (fun p => { p with timeouts := satInc 255 p.timeouts }) h
  relock d i (p.attempts + 1) (faultReport d 0x0804 (pllUnit d i) (pllUnit d i) p.attempts h)

/-- Is a display PLL programmed and not locked? -/
def locking (h : Hub) (d i : Nat) : Bool :=
  dieUp h d && (i = 1 || i = 2) && !(pllUsers h d (i - 1)).isEmpty && !(getPll h d i).locked

/-- PLL_LOCK_TIMEOUT: 300 µs after programming. -/
def lockTimeout (d i : Nat) (h : Hub) : Hub :=
  if locking h d i then attemptFails d i (at_ ((getPll h d i).progAt + 300000) h) else h

/-- PLL_RELOCK_RETRY: 1 ms after the last attempt began. -/
def relockRetry (d i : Nat) (h : Hub) : Hub :=
  if locking h d i then relock d i ((getPll h d i).attempts + 1) (at_ ((getPll h d i).progAt + 1000000) h)
  else if i = 0 && h.pkg.why.get d 0 = 3 && !(getDie h d).clk.root.locked then
    updPll d 0 (fun p => { p with progAt := p.progAt + 1000000, attempts := p.attempts + 1 }) (at_ ((getPll h d 0).progAt + 1000000) h)
  else h

/-! ### Loss (16 R432-R434) -/

/-- The outputs that share a display PLL or a group with an output of the list. -/
def clockPeers (h : Hub) (os : List Nat) : List Nat :=
  (List.range 32).filter fun o =>
    let x := getOut h o
    x.pll < 2 && os.any fun a =>
      let y := getOut h a
      a = o || (a / 4 = o / 4 && y.pll = x.pll) || (groupOuts h a).contains o

/-- Every output that a restart of the PLLs of a list of outputs reaches. -/
def clockClosure (h : Hub) : Nat → List Nat → List Nat
  | 0, os => os
  | n + 1, os => clockClosure h n (clockPeers h os)

/-- Display PLLs (die and number) that were locked go to bypass: their outputs and those of their groups are blanked, and the PLLs of all of
these restart together. -/
def dispLoss (l : List (Nat × Nat)) (h : Hub) : Hub :=
  let h := l.foldl (fun h q => updPll q.1 q.2 (fun p => { p with losses := satInc 255 p.losses }) (pllFault q.1 q.2 0x0704 h)) h
  let os := clockClosure h 8 (l.flatMap fun q => pllUsers h q.1 (q.2 - 1))
  let ps := (l ++ os.map fun o => (o / 4, (getOut h o).pll + 1)).eraseDups
  let h := os.foldl (fun h o => losePll o h) h
  ps.foldl (fun h p => relock p.1 p.2 1 h) h

/-- Display PLLs lose lock together: during an attempt that makes the attempt a timeout. -/
def dispLoses (l : List (Nat × Nat)) (h : Hub) : Hub :=
  let up := l.filter fun q => dieUp h q.1
  dispLoss (up.filter fun q => (getPll h q.1 q.2).locked)
    ((up.filter fun q => locking h q.1 q.2).foldl (fun h q => attemptFails q.1 q.2 h) h)

/-- The root PLL of a die loses lock or its reference: the die runs from the RC oscillator and is lost to the package. -/
def rootLoss (d : Nat) (ref : Bool) (m : List Host.Cell) (h : Hub) : Eff :=
  if !dieUp h d || !powered h || !(getPll h d 0).locked then (h, [])
  else
    let h := updPll d 0 (fun p => { p with
      losses := satInc 255 p.losses, locked := false, bypass := true, refOk := ref, progAt := h.now, attempts := 1 }) (pllFault d 0 0x0704 h)
    let h := updDie h d fun x => { x with clk := { x.clk with sysOk := ref, rcActive := true, aligned := false, rootOn := 0xFC0 } }
    dieLost d 3 m h

/-- A port's PHY PLL loses lock: its port leaves UP or idles. -/
def phyLoss (d code : Nat) (h : Hub) : Hub :=
  let k := 8 * d + code
  if !dieUp h d || portOff (getPort h k) then h
  else
    let h := pllFault d (16 + code) 0x0703 h
    if isTv k then linkLoss k 0 h
    else
      let h := cutFrame k h
      let h := match portOut h k with | none => h | some o => if (getOut h o).state == .running then portIdles o h else h
      let p := getPort h k
      if isDp k && p.sink && p.trained.isSome then dpTrain k 2 p.inUse h else h

/-- PLL_LOCK_LOSS. -/
def lockLoss (d i : Nat) (m : List Host.Cell) (h : Hub) : Eff :=
  if i = 0 then rootLoss d true m h
  else if i < 3 then (dispLoses [(d, i)] h, [])
  else if i ≥ 16 && portCodes.contains (i - 16) then (phyLoss d (i - 16) h, [])
  else (h, [])

/-- REFCLK_VID is missing: both display PLLs of every die lose it. -/
def vidMissing (h : Hub) : Hub :=
  let ps := (upDies h).flatMap fun d => [(d, 1), (d, 2)]
  let h := (upDies h).foldl (fun h d => updDie h d fun x => { x with clk := { x.clk with vidOk := false } }) h
  dispLoses ps (ps.foldl (fun h q => updPll q.1 q.2 (fun p => { p with refOk := false }) h) h)

/-- REFCLK_SYS is missing: it is one input of the package, and every die loses its root PLL. -/
def sysMissing (l : List Nat) (m : List Host.Cell) (h : Hub) : Eff :=
  match l with
  | [] => (h, [])
  | d :: t =>
    let a := rootLoss d false m h
    let b := sysMissing t (a.2.foldl Memory.apply m) a.1
    (b.1, a.2 ++ b.2)

/-- REFERENCE_MISSING, of the root PLL or of a display PLL. -/
def refMissing (i : Nat) (m : List Host.Cell) (h : Hub) : Eff :=
  if !powered h then (h, []) else if i = 0 then sysMissing (upDies h) m h else (vidMissing h, [])

/-- PLL_LOCK. -/
def pllLock (d i : Nat) (m : List Host.Cell) (h : Hub) : Eff := if i = 0 then rootLock d m h else (dispLock d i h, [])

/-- XTAL_LOSS: reported at the next exit to RUN. -/
def xtalLoss (d : Nat) (h : Hub) : Hub :=
  if !dieUp h d || !powered h || !(getDie h d).clk.xtalOk then h
  else updDie h d fun x => { x with clk := { x.clk with xtalOk := false, xtalLost := true } }

/-- One increment skipped or doubled brings a timebase that is ahead or behind one nanosecond closer. -/
def towards0 (o : Int) : Int := if o > 0 then o - 1 else if o < 0 then o + 1 else 0

/-- TIMEBASE_CORRECTION: a die other than the principal skips or doubles one increment, at most once in 1 µs, and is aligned while it is within
±2 ns (16 R436; log entry 8). -/
def correctTime (d : Nat) (h : Hub) : Hub :=
  let c := (getDie h d).clk
  if dieUp h d && awake h d && c.root.locked && (getDie h d).kpr.step ≥ 5 && d ≠ h.pkg.principal then
    let o := towards0 c.tbOff
    let h := if c.tbOff = 0 then h else at_ (c.corrAt + 1000) h
    updDie h d fun x => { x with clk := { x.clk with
      tbOff := o, corrAt := if c.tbOff = 0 then c.corrAt else h.now, aligned := decide (o.natAbs ≤ 2) } }
  else h

/-- The timebase of a die (16 R436), and what a read of it consumes: while the root is on bypass it counts 5 ns a cycle of the fast RC
oscillator, whose rate is a free one of 190 to 210 MHz (16 R422, R437). -/
def dieTime (h : Hub) (d : Nat) : Nat × Hub :=
  let c := (getDie h d).clk
  if c.rcActive && (getDie h d).kpr.step ≥ 2 then
    let (i, h) := takeFree h
    let t := h.now - c.root.progAt
    let n := t * 190 / 1000 + (Config.freeWord i).toNat % (t * 20 / 1000 + 1)
    (((c.root.progAt + 5 * n : Nat) + c.tbOff).toNat, h)
  else ((h.now + c.tbOff).toNat, h)

/-! ### Registers (16 R435, R438) -/

/-- A write of a PLL's registers: a value outside its range is ignored and counted, as is one of the root's PLL_SSC and PLL_SEED. -/
def pllWrite32 (d off v : Nat) (h : Hub) : Hub :=
  let i := off / 0x40
  let set (f : Pll → Pll) : Hub := updDie h d fun x => { x with clk := x.clk.setPll i (f (x.clk.pll i)) }
  let ignored : Hub := set fun p => { p with ignored := satInc 255 p.ignored }
  if i > 2 then h
  else match off % 0x40 with
    | 0x08 =>
      if i = 0 || bits v 4 6 > 50 || bits v 10 3 > 6 then ignored
      else set fun p => { p with sscEn := bit v 0, spread := bits v 4 6, fmod := bits v 10 3 }
    | 0x0C => if i = 0 || bits v 0 16 = 0 then ignored else set fun p => { p with seed := bits v 0 16 }
    | 0x14 => set fun p => { p with losses := bits v 0 8, timeouts := bits v 8 8, ignored := bits v 16 8 }
    | _ => h

/-- The writable bits of CLK_OUT_n. -/
def clkOutBits (v : Nat) : Nat := bits v 0 3 + 16 * bits v 4 2 + 256 * bits v 8 8

/-- A write of the CLK_ block.  DESIGN CHOICE (log 8): a source of 6 or 7, which is outside its range, is ignored and counted by PLL_ROOT. -/
def clkWrite32 (d off v : Nat) (h : Hub) : Hub :=
  if (off = 0x10 || off = 0x14) && bits v 0 3 > 5 then
    updPll d 0 (fun p => { p with ignored := satInc 255 p.ignored }) h
  else match off with
  | 0x10 => updDie h d fun x => { x with clk := { x.clk with outs := x.clk.outs.set 0 (clkOutBits v) } }
  | 0x14 => updDie h d fun x => { x with clk := { x.clk with outs := x.clk.outs.set 1 (clkOutBits v) } }
  | _ => h

/-- The frequency of a clock output's source after division, in kHz, as a fraction (16 R432, R435). -/
def outKhz (c : Clk) (w : Nat) : Nat × Nat :=
  let div := max 2 (bits w 8 8)
  let disp (p : Pll) : Nat := if p.locked then 27000 * p.n else if p.refOk then 13500 else 12500
  match bits w 0 3 with
  | 1 => (25000, 1)
  | 2 => (27000, 1)
  | 3 => (if c.root.locked then 5000000 else 200000, div)
  | 4 => (disp c.disp0, div)
  | 5 => (disp c.disp1, div)
  | _ => (0, 1)

/-- CLK_OUT_n.OVER: above the format's maximum. -/
def outOver (c : Clk) (w : Nat) : Bool :=
  let f := outKhz c w
  match bits w 4 2 with
  | 1 => f.1 > 800000 * f.2
  | 2 => f.1 > 1500000 * f.2
  | 3 => f.1 > 200000 * f.2
  | _ => false

/-- CLK_DOMAIN.EDGE_ON: pipes with a PLL, ports whose link clocks run, and the LP5X PHYs of a die that runs. -/
def edgeOn (h : Hub) (d : Nat) : Nat :=
  let on (k : Nat) : Bool :=
    let p := getPort h (8 * d + k)
    !portOff p && (match p.state with | .off | .down | .deep => false | .alone => k ≥ 4 | _ => true)
  let bs := (List.range 4).map (fun p => decide ((getOut h (4 * d + p)).pll < 2)) ++ [0, 1, 2].map on ++
    ([4, 5, 6, 7].map fun k => on k && !(getPort h (8 * d + k)).txDoze) ++
    ([4, 5, 6, 7].map fun k => on k && (getPort h (8 * d + k)).state != .alone && !(getPort h (8 * d + k)).rxDoze) ++
    List.replicate 2 (awake h d && decide ((getDie h d).kpr.step ≥ 6))
  (bs.zipIdx.map fun e => b2n e.1 * 2 ^ e.2).sum

/-- A 32-bit word of the CLK_ block but for the timebase, read; in IDLE the Keeper's clock is gated (15 R390). -/
def clkRead32 (h : Hub) (d off : Nat) : Nat :=
  let c := (getDie h d).clk
  match off with
  | 0x08 => b2n c.sysOk + 2 * b2n c.vidOk + 4 * b2n c.xtalOk + 8 * b2n c.rcActive + 16 * b2n c.aligned
  | 0x0C => c.rootOn - (if (getDie h d).pwr.state == .idle then b2n (bit c.rootOn 7) * 128 else 0) + 4096 * edgeOn h d
  | 0x10 => c.outs.getD 0 0 + 65536 * b2n (outOver c (c.outs.getD 0 0))
  | 0x14 => c.outs.getD 1 0 + 65536 * b2n (outOver c (c.outs.getD 1 0))
  | _ => 0

/-- PLL_FRAC.D now: the ramp advances with each reference cycle, whose phase is not known to the nanosecond, so that while spread runs the
value is a free one between those of the last cycle. -/
def fracNow (h : Hub) (d i : Nat) : Nat × Hub :=
  let p := getPll h d i
  match p.rampAt with
  | none => (unsigned 24 p.frac, h)
  | some t =>
    let a := spreadAt p (h.now - t)
    let b := spreadAt p (h.now - t - 38)
    let (n, h) := takeFree h
    let v := min a b + (Config.freeWord n).toNat % (max a b - min a b + 1)
    (unsigned 24 (p.frac + (v : Int)), h)

/-- A 32-bit word of the PLL_ block, read. -/
def pllRead32 (h : Hub) (d off : Nat) : Nat × Hub :=
  let i := off / 0x40
  let p := getPll h d i
  let users := if i = 0 then 0 else ((pllUsers h d (i - 1)).map fun o => 2 ^ (o % 4)).sum
  if i > 2 then (0, h)
  else match off % 0x40 with
    | 0x00 => (p.n + 256 * p.p + 65536 * b2n (!p.ramp), h)
    | 0x04 => (b2n p.locked + 2 * b2n p.bypass + 4 * b2n p.refOk + 8 * b2n p.ramp + 16 * users, h)
    | 0x08 => (b2n p.sscEn + 16 * p.spread + 1024 * p.fmod, h)
    | 0x0C => (if i = 0 then 0 else p.seed, h)
    | 0x10 => if i = 0 then (0, h) else fracNow h d i
    | 0x14 => (p.losses + 256 * p.timeouts + 65536 * p.ignored, h)
    | _ => (0, h)

/-! ### The rows -/

/-- PLL_LOCK. -/
def execPllLock (die pll : Nat) (s : State) : Host.Outcome State Fault Refusal := .next (act (pllLock die pll) s)
/-- PLL_LOCK_LOSS. -/
def execPllLockLoss (die pll : Nat) (s : State) : Host.Outcome State Fault Refusal := .next (act (lockLoss die pll) s)
/-- REFERENCE_MISSING. -/
def execReferenceMissing (die pll : Nat) (s : State) : Host.Outcome State Fault Refusal := .next (act (fun m h => if dieUp h die then refMissing pll m h else (h, [])) s)
/-- PLL_LOCK_TIMEOUT. -/
def execPllLockTimeout (die pll : Nat) (s : State) : Host.Outcome State Fault Refusal := .next (onHub (lockTimeout die pll) s)
/-- PLL_RELOCK_RETRY. -/
def execPllRelockRetry (die pll : Nat) (s : State) : Host.Outcome State Fault Refusal := .next (onHub (relockRetry die pll) s)
/-- XTAL_LOSS. -/
def execXtalLoss (die : Nat) (s : State) : Host.Outcome State Fault Refusal := .next (onHub (xtalLoss die) s)
/-- TIMEBASE_CORRECTION. -/
def execTimebaseCorrection (die : Nat) (s : State) : Host.Outcome State Fault Refusal := .next (onHub (correctTime die) s)
/-- CLK_OUT_WRITE. -/
def execClkOutWrite (fn die n : Nat) (value : BitVec 32) (s : State) : Host.Outcome State Fault Refusal :=
  .next (onHub (regGateHub fn die (0x0310 + 4 * n) false (clkWrite32 die (0x10 + 4 * n) value.toNat)) s)
/-- PLL_REGISTER_WRITE. -/
def execPllRegisterWrite (fn die pll off : Nat) (value : BitVec 32) (s : State) : Host.Outcome State Fault Refusal :=
  .next (onHub (regGateHub fn die (0x0400 + 0x40 * pll + off) false (pllWrite32 die (0x40 * pll + off) value.toNat)) s)

end Sys2Proof.Machine
end

