-- ==== Sys2Proof/Machine/Layers.lean ====
section
/-!
DEFINITION. Layers, graticule and spares: the commands 0x0200-0x020A (04 R104-R113).
-/

namespace Sys2Proof.Machine

/-! ### LAYER_CREATE, LAYER_DESTROY -/

/-- Dies of the group's members other than the primary's (04 R90). -/
def peerDies (h : Hub) (o : Nat) : List Nat := (((membersOf h o).map (· / 4)).filter (· != o / 4)).eraseDups

/-- LAYER_CREATE (04 R105). -/
def layerCreate : Spec :=
  { op := 0x0200, rsv := [(17, 47)]
    checks := fun c _ h =>
      let o := arg8 c 16
      outCks h 16 o ++
      [ckd (o / 4) 0x0302 16 (o < 32 && listOwner h (listOf h o) ≠ some c.ctx), ckd (o / 4) 0x0403 16 (nonPrimary h o)] ++
      (o / 4 :: peerDies h o).map fun d => ckd d 0x0603 255 (freeLayerSlot h d).isNone
    run := fun c _ _ h =>
      let o := arg8 c 16
      match freeLayerSlot h (o / 4) with
      | none => failRes h 0x0603 255
      | some k =>
        let l : Layer := { out := o, peers := (peerDies h o).filterMap (freeLayerSlot h) }
        okRes { h with layers := h.layers.set k l } k }

/-- LAYER_DESTROY (04 R106). -/
def layerDestroy : Spec :=
  { op := 0x0201, rsv := [(18, 46)]
    checks := fun c _ h =>
      let v := arg16 c 16
      layerCks h 16 v c.ctx ++
      [ckd (v / 1024) 0x0403 16 (match layerOf h v with | none => false | some l => l.cur.enable),
       ckd (v / 1024) 0x0407 16 (h.txns.any fun e => stagesLayer e.2 v)]
    run := fun c _ _ h => okRes (sweepObjects { h with layers := h.layers.del (arg16 c 16) }) }

/-! ### LAYER_GEOM, LAYER_STYLE -/

/-- The checks of a crop against its surface (04 R86), made only for a context that may read the surface. -/
def cropCks (d : Nat) (s : Surf) (x y w hh live : Nat) : List Ck :=
  let f := fmtD s.fmt
  [ckd d 0x0204 (if x ≥ s.width then 24 else 28) (x + w > s.width || w = 0),
   ckd d 0x0204 (if y ≥ s.height then 26 else 30) (y + hh > s.height || hh = 0),
   ckd d 0x0204 24 (f.sx = 2 && x % 2 = 1), ckd d 0x0204 28 (f.sx = 2 && w % 2 = 1),
   ckd d 0x0204 26 (f.sy = 2 && y % 2 = 1), ckd d 0x0204 30 (f.sy = 2 && hh % 2 = 1),
   ckd d 0x0205 20 (!hasRole s.fmt 0), ckd d 0x0205 18 (live = 1 && f.crated)]

/-- The checks of a layer's source field with its crop (04 R85, R86). -/
def sourceCks (h : Hub) (c : Cmd) : List Ck :=
  let v := arg32 c 20
  let x := arg16 c 24
  let y := arg16 c 26
  let w := arg16 c 28
  let hh := arg16 c 30
  if v = 0 then [ck 0x0204 24 (x ≠ 0), ck 0x0204 26 (y ≠ 0), ck 0x0204 28 (w ≠ 0), ck 0x0204 30 (hh ≠ 0)]
  else
    handleCks h 20 v ++ [rightCk h 20 v c.ctx 0] ++
    (match surfOf h v with
     | none => []
     | some s => if mayUse h v c.ctx 0 then cropCks (v % 65536 / 8192) s x y w hh (bits (arg8 c 18) 1 1) else [])

/-- The checks of the scale ratios (04 R86). -/
def ratioCks (c : Cmd) : List Ck :=
  let swap := bit (arg8 c 19) 0
  let w := arg16 c 28
  let hh := arg16 c 30
  let one (off s d : Nat) : Ck := ck 0x0206 off (d ≥ 1 && d ≤ 16384 && (8 * d < s || d > 16 * s))
  if arg32 c 20 = 0 then [] else [one 36 (if swap then hh else w) (arg16 c 36), one 38 (if swap then w else hh) (arg16 c 38)]

/-- The staged fence of a layer in the command's transaction. -/
def fencedIn (h : Hub) (c : Cmd) (v : Nat) : Bool := match stagedTxn h c with | none => false | some t => t.fences.has v

/-- LAYER_GEOM (04 R86, R107; 07 R185). -/
def layerGeom : Spec :=
  staging 0x0202 0 false [(41, 23)]
    (fun c _ h =>
      let v := arg16 c 16
      let fl := arg8 c 18
      let dim (off : Nat) : Ck := ck 0x0204 off (arg16 c off = 0 || arg16 c off > 16384)
      let pos (off : Nat) : Ck := ck 0x0204 off (argI16 c off < -16384 || argI16 c off > 16383)
      stageLayerCks h c 16 v ++
      [ck 0x0103 18 (fl ≥ 4), ck 0x0106 19 (arg8 c 19 ≥ 8), ck 0x0201 40 (arg8 c 40 > 63),
       pos 32, pos 34, dim 36, dim 38, ck 0x0201 18 (bit fl 1 && fencedIn h c v)] ++
      sourceCks h c ++ ratioCks c)
    fun c h =>
      let v := arg16 c 16
      let fl := arg8 c 18
      let h := stageLayer h c v fun r =>
        { r with
          enable := bit fl 0, live := bit fl 1, transform := arg8 c 19, source := arg32 c 20
          cropX := arg16 c 24, cropY := arg16 c 26, cropW := arg16 c 28, cropH := arg16 c 30
          dstX := argI16 c 32, dstY := argI16 c 34, dstW := arg16 c 36, dstH := arg16 c 38, zpos := arg8 c 40 }
      updStaged h c fun t => { t with geom := v :: t.geom.filter (· != v) }

/-- The channels B, G, R, A of a colour field (04 R108). -/
def chans (v : Nat) : List Nat := [bits v 0 16, bits v 16 16, bits v 32 16, bits v 48 16]

/-- Is a channel above 1.0? -/
def overOne (v : Nat) : Bool := (chans v).any (· > 0x4000)

/-- LAYER_STYLE (04 R108). -/
def layerStyle : Spec :=
  staging 0x0203 0 false [(19, 1), (22, 2), (56, 8)]
    (fun c _ h =>
      let fill := arg64 c 24
      let lo := arg64 c 40
      let hi := arg64 c 48
      stageLayerCks h c 16 (arg16 c 16) ++
      [ck 0x0106 18 (arg8 c 18 > 5), ck 0x0201 20 (arg16 c 20 > 0x4000),
       ck 0x0201 24 (overOne fill || ((chans fill).take 3).any (· > bits fill 48 16)),
       ck 0x0201 32 (overOne (arg64 c 32)), ck 0x0201 40 (overOne lo),
       ck 0x0201 48 (overOne hi || ((chans lo).zip (chans hi)).any fun p => p.2 < p.1)])
    fun c h =>
      stageLayer h c (arg16 c 16) fun r =>
        { r with blend := arg8 c 18, planeAlpha := arg16 c 20, fill := arg64 c 24, const := arg64 c 32
                 keyLo := arg64 c 40, keyHi := arg64 c 48 }

/-! ### LAYER_QUERY -/

/-- Handle of the open transaction that stages the layer, or 0 (04 R109). -/
def stagedBy (h : Hub) (v : Nat) : Nat :=
  match txnWhere h fun t => stagesLayer t v with
  | none => 0
  | some e => txnHandle h e.1

/-- The block of LAYER_QUERY (04 R109).  DESIGN CHOICE (log 81): FIRST_COL and LAST_COL of a layer of a span group count the columns of
256 pixels of the whole picture, and with no mode the bands and columns read as empty. -/
def layerBlock (h : Hub) (v : Nat) (l : Layer) : Bytes :=
  let r := l.cur
  let bh := (getOut h l.out).bandH
  let clip := match (getOut h l.out).mode with | none => none | some e => clipOf h r l.out e
  leBytes 2 v ++ leBytes 1 l.out ++ leBytes 1 (if !r.enable then 0 else if l.inFill then 2 else 1) ++ leBytes 4 r.source ++
  leBytes 8 l.shown ++ leBytes 4 l.fillFrames ++ leBytes 4 l.fetchFaults ++ leBytes 4 (stagedBy h v) ++
  leBytes 1 r.zpos ++ leBytes 1 (b2n r.enable + 2 * b2n r.live) ++ leBytes 1 r.transform ++ leBytes 1 0 ++
  leBytes 2 (unsigned 16 r.dstX) ++ leBytes 2 (unsigned 16 r.dstY) ++ leBytes 2 r.dstW ++ leBytes 2 r.dstH ++
  (match clip with
   | none => leBytes 2 0xFFFF ++ leBytes 2 0xFFFF ++ leBytes 1 0xFF ++ leBytes 1 0xFF
   | some (x0, y0, x1, y1) =>
     leBytes 2 (y0 / bh) ++ leBytes 2 (y1 / bh) ++ leBytes 1 (x0 / 256) ++ leBytes 1 (x1 / 256)) ++
  leBytes 2 0 ++ leBytes 8 l.lastFrame ++ leBytes 8 0

/-- LAYER_QUERY (04 R80, R109). -/
def layerQuery : Spec :=
  { op := 0x0204, rsv := [(18, 6), (32, 32)]
    checks := fun c _ h => bufCk c 24 :: layerCks h 16 (arg16 c 16) c.ctx true
    run := fun c _ _ h =>
      match layerOf h (arg16 c 16) with
      | none => failRes h 0x0404 16
      | some l => okRes (ctxWrite c.ctx (arg64 c 24) (layerBlock h (arg16 c 16) l) h) 64 }

/-! ### GRAT_SET, GRAT_QUERY, ENGINE_SPARES -/

/-- GRAT_SET (04 R110).  DEDUCED (log 81): the conflict of R82 holds for the staged records of an output and of a die too, so that
0x0407 answers, where another transaction stages the same record, although R110 and R113 do not list it. -/
def gratSet : Spec :=
  staging 0x0208 2 true [(18, 46)]
    (fun c _ h => ck 0x0201 17 (arg8 c 17 ≠ 16 && arg8 c 17 ≠ 32) :: stageOutCks h c false fun s => s.band.isSome)
    fun c h => stageOut h c (arg8 c 16) fun x => { x with band := some (arg8 c 17) }

/-- The block of GRAT_QUERY (04 R111), with the engines of the table in force. -/
def gratBlock (h : Hub) (o : Nat) (e : ModeEntry) : Bytes :=
  let d := getDie h (o / 4)
  let bh := (getOut h o).bandH
  let b := bandsOf e bh
  let t := tileCols e
  let eng := (h.tables.get (homePipe h o) []).take t
  leBytes 1 o ++ leBytes 1 bh ++ leBytes 2 b ++ leBytes 1 t ++ leBytes 1 (bandLines e bh (b - 1)) ++
  leBytes 2 (colWidth e (t - 1)) ++ leBytes 4 (roundDiv (pxNum e (hTotal e * bh)) (pxDen e)) ++
  leBytes 4 (roundDiv (pxNum e (hTotal e * bh)) (2 * pxDen e)) ++
  leBytes 4 (eng.foldl (fun m k => m ||| 2 ^ k) 0) ++ leBytes 4 d.srv.engSpare ++ leBytes 4 d.schedGen ++ leBytes 4 0 ++
  (List.range 32).flatMap fun i => leBytes 1 (eng.getD i 0xFF)

/-- GRAT_QUERY (04 R111).  DESIGN CHOICE (log 81): of a STOPPING output, which is not stopped yet, it gives the geometry of the mode that
still holds its band buffer, and no engines, since no table gives it any. -/
def gratQuery : Spec :=
  { op := 0x0209, rsv := [(17, 7), (32, 32)]
    checks := fun c _ h =>
      let o := arg8 c 16
      let may := levelOf h c.ctx ≥ 1 || listOwner h (listOf h o) == some c.ctx
      bufCk c 24 :: outCks h 16 o ++
      [ckd (o / 4) 0x0302 16 (!may), ckd (o / 4) 0x0405 16 (may && (getOut h o).state == .stopped)]
    run := fun c _ _ h =>
      let x := getOut h (arg8 c 16)
      match x.mode.or x.relMode with
      | none => failRes h 0x0405 16
      | some e => okRes (ctxWrite c.ctx (arg64 c 24) (gratBlock h (arg8 c 16) e) h) 64 }

/-- ENGINE_SPARES (04 R113). -/
def engineSpares : Spec :=
  staging 0x020A 2 true [(18, 46)]
    (fun c _ h =>
      [ck 0x0103 17 (arg8 c 17 ≥ 4), dieCk h 16 (arg8 c 16), ckd (arg8 c 16) 0x0407 16 (dieConflict h c (arg8 c 16) Txn.spares)])
    fun c h => updStaged h c fun t => { t with spares := t.spares.set (arg8 c 16) (arg8 c 17) }

/-! ### The rows -/

/-- LAYER_CREATE. -/
def execLayerCreate (c : Cmd) (s : State) : Host.Outcome State Fault Refusal := .next (mail layerCreate c s)
/-- LAYER_DESTROY. -/
def execLayerDestroy (c : Cmd) (s : State) : Host.Outcome State Fault Refusal := .next (mail layerDestroy c s)
/-- LAYER_GEOM. -/
def execLayerGeom (c : Cmd) (s : State) : Host.Outcome State Fault Refusal := .next (mail layerGeom c s)
/-- LAYER_STYLE. -/
def execLayerStyle (c : Cmd) (s : State) : Host.Outcome State Fault Refusal := .next (mail layerStyle c s)
/-- LAYER_QUERY. -/
def execLayerQuery (c : Cmd) (s : State) : Host.Outcome State Fault Refusal := .next (mail layerQuery c s)
/-- GRAT_SET. -/
def execGratSet (c : Cmd) (s : State) : Host.Outcome State Fault Refusal := .next (mail gratSet c s)
/-- GRAT_QUERY. -/
def execGratQuery (c : Cmd) (s : State) : Host.Outcome State Fault Refusal := .next (mail gratQuery c s)
/-- ENGINE_SPARES. -/
def execEngineSpares (c : Cmd) (s : State) : Host.Outcome State Fault Refusal := .next (mail engineSpares c s)

end Sys2Proof.Machine
end

