-- ==== Sys2Proof/Machine/CommandFetch.lean ====
section
/-!
DEFINITION. Ring fetch: the opcode table of the mailbox, COMMAND_FETCH, ORDERED_RELEASE, and the parts of a command that are with other
dies (02 R32, R36, R39, R45).
-/

namespace Sys2Proof.Machine

/-! ### The opcode table -/

/-- Commands of the mailbox, part 1. -/
def specs1 : List Spec :=
  [nopSpec, ctxInfo, sysInfo, sysTime, ctxWatchdog, ctxEventMask, ctxAssign, ctxRevoke, sysLock, memAlloc, memFree, surfCreate,
   surfDestroy, surfGrant, surfRevoke, surfQuery, shareSetCmd, shareJoin, layerCreate, layerDestroy, layerGeom, layerStyle, layerQuery,
   gratSet, gratQuery, engineSpares]

/-- Commands of the mailbox, part 2. -/
def specs2 : List Spec :=
  [colourAlloc, colourLoad, colourFree, layerColour, layerMatrix, outputColour, outputLut, progAlloc, progLoad, progFree, layerProgram,
   layerParams, progQuery, txnBegin, txnCommit, txnCancel, txnQuery, layerFence, tlCreate, tlSignal, tlDestroy, tlGrant, tlQuery,
   outConfig, outMode, outBackground]

/-- Commands of the mailbox, part 3. -/
def specs3 : List Spec :=
  [outWriteback, outStatic, outGroup, outGenlock, outQuery, modeQuery, modeWrite, dimLayoutCmd, dimAlgoCmd, dimTablesCmd, dimQuery,
   dimRead, chkGrant, chkConfig, chkExpect, chkRead, chkLane, pltJob, pltAbort, pltQuery, dmaAlloc, dmaFree, dmaSubmit, dmaAbort,
   dmaQuery, lnkConfig]

/-- Commands of the mailbox, part 4. -/
def specs4 : List Spec :=
  [lnkQuery, lnkEq, lnkPower, lnkLoopback, lnkCamera, lnkI2c, lnkAux, lnkBacklight, lnkDsiCmd, pwrStateCmd, pwrLimits, pwrFloor,
   pwrQuery, fltRead, srvTest, srvQuery, srvRestore, atcLoad, atcFwStage, atcFwSelect, atcFwCommit, atcQuery, fbkReadCmd, fbkQuery]

/-- Every command of the mailbox. -/
def specs : List Spec := specs1 ++ specs2 ++ specs3 ++ specs4

/-- An opcode that no chapter defines draws 0x0101 (02 R45). -/
def unknownSpec (op : Nat) : Spec :=
  { op := op, checks := fun _ _ _ => [ck 0x0101 0 true], run := fun _ _ _ h => laterRes h }

/-- What an opcode stands for. -/
def specOf (op : Nat) : Spec := (specs.find? fun sp => sp.op == op).getD (unknownSpec op)

/-! ### Fetch (02 R32, R36, R40) -/

/-- The Keeper takes one entry from the head of a context's ring. -/
def fetchRaw (ctx : Nat) (r : RawCmd) (m : List Host.Cell) (h : Hub) : Eff := mailStep (specOf (rawOpcode r)) (rawCmd ctx r) m h

/-- Entries in ring order, until one is not fetched. -/
def fetchEach (ctx : Nat) (l : List RawCmd) (m : List Host.Cell) (h : Hub) : Eff :=
  match l with
  | [] => (h, [])
  | r :: t =>
    let a := fetchRaw ctx r m h
    if (getCtx a.1 ctx).sqHead = (getCtx h ctx).sqHead then a
    else
      let b := fetchEach ctx t (a.2.foldl Memory.apply m) a.1
      (b.1, a.2 ++ b.2)

/-- ORDERED_RELEASE: the held command is accepted when every slot but its own has been given back (02 R36). -/
def orderedRelease (ctx : Nat) (m : List Host.Cell) (h : Hub) : Eff :=
  let x := getCtx h ctx
  match x.held with
  | none => (h, [])
  | some (r, sqHead) =>
    let sp := specOf (rawOpcode r)
    let c := rawCmd ctx r
    let d := homeDie ctx
    if x.state != .opened || x.resv ≠ 1 || !ready h || !dieUp h d || !awake h d || halted h d || sp.waits c h || heldOff sp c m h then (h, [])
    else acceptCmd sp c sqHead m (stamp ctx (setCtx h ctx { x with held := none }))

/-! ### Parts on other dies (02 R39) -/

/-- A die accepts its part at an instant of its own (01 R18), checks it, holds the reservation where it passes, and answers. -/
def partChecked (ctx die : Nat) (r : Remote) (m : List Host.Cell) (h : Hub) : Hub :=
  let h := stamp ctx h
  let sp := specOf (rawOpcode r.raw)
  let fails := firstFail sp.listed ((sp.checks (rawCmd ctx r.raw) m h).filter fun k => k.die == some die)
  let r := match fails with
    | none => { r with passed := r.passed ++ [die] }
    | some k => { r with refused := r.refused ++ [(die, k.st, k.off, k.r0, k.r1)] }
  send (.keeper die (homeDie ctx) 1) { h with remote := h.remote.set ctx r }

/-- Has a die answered? -/
def answered (r : Remote) (die : Nat) : Bool := r.passed.contains die || r.refused.any fun q => q.1 == die

/-- The home Keeper takes the command at the head of the ring and sends its parts: for a command of one die, or one that it refuses by
itself, this is its acceptance. -/
def partsSent (ctx : Nat) (raw : RawCmd) (m : List Host.Cell) (h : Hub) : Eff :=
  let sp := specOf (rawOpcode raw)
  let c := rawCmd ctx raw
  let ds := partDies sp c m h
  let x := getCtx h ctx
  if ds.isEmpty || (isOrdered c.flags.toNat && x.resv > 0) || (firstFail sp.listed (headChecks sp c h)).isSome then fetchRaw ctx raw m h
  else if !fetchable h ctx || sp.waits c h || heldOff sp c m h then (h, [])
  else
    let y := fetchOne x
    (sendParts sp.op c y.sqHead ds (stamp ctx (setCtx h ctx y)), [])

/-- REMOTE_PART_REQUEST: the parts of the command are sent where they are not yet, and die `die` gets its own, which it checks once what the
command needs to wait for is there (11 R287). -/
def partRequest (ctx die : Nat) (raw : RawCmd) (m : List Host.Cell) (h : Hub) : Eff :=
  let a := if h.remote.has ctx then (h, []) else partsSent ctx raw m h
  match a.1.remote.find ctx with
  | none => a
  | some r =>
    if r.raw ≠ raw || !r.dies.contains die || answered r die || !dieUp a.1 die || halted a.1 die ||
        (specOf (rawOpcode raw)).waits (rawCmd ctx raw) a.1 then a
    else (partChecked ctx die r (a.2.foldl Memory.apply m) a.1, a.2)

/-- The record of the acceptance of a command whose parts are out. -/
def remotePend (ctx : Nat) (r : Remote) (h : Hub) : Pend :=
  { pendOf (rawOpcode r.raw) (rawCmd ctx r.raw) r.sqHead h with time := r.time }

/-- Every die has answered: the step is ordered, or the reservations are released and the refusal that ranks first is posted. -/
def partsAnswered (ctx : Nat) (r : Remote) (m : List Host.Cell) (h : Hub) : Eff :=
  let sp := specOf (rawOpcode r.raw)
  let c := rawCmd ctx r.raw
  let p := remotePend ctx r h
  let own := (headChecks sp c h ++ sp.checks c m h).filter fun k => match k.die with | none => true | some d => !r.dies.contains d
  let others := r.refused.map fun (q : Nat × Nat × Nat × Nat × Nat) =>
    ({ st := q.2.1, off := q.2.2.1, bad := true, die := some q.1, r0 := q.2.2.2.1, r1 := q.2.2.2.2 } : Ck)
  if others.isEmpty then orderCmd sp c p m h
  else match firstFail sp.listed (own ++ others) with
    | none => (h, [])
    | some k => (complete p k.st k.off k.r0 k.r1 h, [])

/-- REMOTE_PART_ANSWER. -/
def partAnswer (ctx die : Nat) (m : List Host.Cell) (h : Hub) : Eff :=
  match h.remote.find ctx with
  | none => (h, [])
  | some r =>
    if !answered r die || r.heard.contains die || halted h (homeDie ctx) then (h, [])
    else
      let r := { r with heard := r.heard ++ [die] }
      if r.dies.all r.heard.contains then
        let a := partsAnswered ctx r m { h with remote := h.remote.del ctx }
        let b := endsNow ctx (a.2.foldl Memory.apply m) a.1
        (b.1, a.2 ++ b.2)
      else ({ h with remote := h.remote.set ctx r }, [])

/-- REMOTE_TIMEOUT: 100 µs after the parts were sent, the reservations are released and the command ends. -/
def remoteTimeout (ctx : Nat) (m : List Host.Cell) (h : Hub) : Eff :=
  match h.remote.find ctx with
  | none => (h, [])
  | some r =>
    if halted h (homeDie ctx) then (h, [])
    else endsNow ctx m (complete (remotePend ctx r h) 0x0802 255 0 0 (at_ (r.time + 100000) { h with remote := h.remote.del ctx }))

/-! ### The rows -/

/-- COMMAND_FETCH. -/
def execCommandFetch (ctx : Nat) (cmds : List RawCmd) (s : State) : Host.Outcome State Fault Refusal :=
  .next (act (fetchEach ctx (cmds.take 8)) s)
/-- ORDERED_RELEASE. -/
def execOrderedRelease (ctx : Nat) (s : State) : Host.Outcome State Fault Refusal := .next (act (orderedRelease ctx) s)
/-- REMOTE_PART_REQUEST. -/
def execRemotePartRequest (ctx die : Nat) (raw : RawCmd) (s : State) : Host.Outcome State Fault Refusal :=
  .next (act (partRequest ctx die raw) s)
/-- REMOTE_PART_ANSWER. -/
def execRemotePartAnswer (ctx die : Nat) (s : State) : Host.Outcome State Fault Refusal := .next (act (partAnswer ctx die) s)
/-- REMOTE_TIMEOUT. -/
def execRemoteTimeout (ctx : Nat) (s : State) : Host.Outcome State Fault Refusal := .next (act (remoteTimeout ctx) s)

end Sys2Proof.Machine
end

