-- ==== Sys2Proof/Machine/Pins.lean ====
section
/-!
DEFINITION. Pads and supplies: PMX_ registers, the change of pad functions, and supply faults (21 R526-R530, R534).
-/

namespace Sys2Proof.Machine

/-! ### Pad functions (21 R526-R528) -/

/-- Is a function exclusive: at most one pad of a die carries it? -/
def padExclusive (f : Nat) : Bool := 2 ≤ f && f ≤ 8

/-- Is a function input-only? -/
def padInput (f : Nat) : Bool := f == 0 || f == 8

/-- The pad multiplexer of a die changed by `f`. -/
def updPmx (h : Hub) (d : Nat) (f : Pmx → Pmx) : Hub := updDie h d fun x => { x with pmx := f x.pmx }

/-- PMX_PAD_n written: a reserved function, and an exclusive one that another pad requests, is ignored and counted (21 R528). -/
def padWrite (d n v : Nat) (h : Hub) : Hub :=
  updPmx h d fun p =>
    let f := bits v 0 4
    if f ≥ 13 || (padExclusive f && (List.range 24).any fun k => k ≠ n && (p.pads.get k {}).func == f) then
      { p with ignored := satInc 255 p.ignored }
    else
      { p with pads := p.pads.set n { p.pads.get n {} with
          func := f, pull := bits v 4 2, drive := bits v 6 2, slow := bit v 8 } }

/-- A pad at an edge of the PMX clock: a change between the classes holds it in high impedance for 10 ns (21 R527). -/
def padEdge (now : Nat) (p : Pad) : Pad :=
  { p with
    active := p.func, now := (p.pull, p.drive, p.slow)
    zUntil := if padInput p.active = padInput p.func then p.zUntil else now + 10 }

/-- PMX_FUNCTION_CHANGE: everything that was written changes over. -/
def padsChange (d : Nat) (h : Hub) : Hub :=
  if !dieUp h d || !powered h || !(awake h d) then h
  else updPmx h d fun p => { p with pads := p.pads.map fun (e : Nat × Pad) => (e.1, padEdge h.now e.2), outNow := p.out }

/-! ### Registers (21 R530) -/

/-- A 32-bit write of the PMX_ block. -/
def pmxWrite32 (d off v : Nat) (h : Hub) : Hub :=
  if off < 0x60 then (if off % 4 = 0 then padWrite d (off / 4) v h else h)
  else match off with
    | 0x80 => updPmx h d fun p => { p with out := bits v 0 24 }
    | 0x88 => updPmx h d fun p => { p with ignored := bits v 0 8 }
    | _ => h

/-- PMX_PAD_n as a word. -/
def padWord (p : Pad) : Nat :=
  p.func + 16 * p.pull + 64 * p.drive + 256 * b2n p.slow + 65536 * p.active + 2 ^ 20 * b2n (p.func != p.active)

/-- A 32-bit word of the PMX_ block, read; the level of an input pad is a free bit, and a pad
in the 10 ns between two classes reads its idle value 0 (21 R526-R527). -/
def pmxRead32 (h : Hub) (d off : Nat) : Nat × Hub :=
  let p := (getDie h d).pmx
  if off < 0x60 then (padWord (p.pads.get (off / 4) {}), h)
  else match off with
    | 0x80 => (p.out, h)
    | 0x84 =>
      let (n, h) := takeFree h
      let mask := ((List.range 24).filter fun k => 
        (p.pads.get k {}).active == 0 && (p.pads.get k {}).zUntil ≤ h.now).map fun k => 2 ^ k
      ((Config.freeWord n).toNat &&& mask.sum, h)
    | 0x88 => (p.ignored, h)
    | 0x8C => (b2n p.v33, h)
    | _ => (0, h)

/-! ### Supplies (21 R534) -/

/-- SUPPLY_FAULT.  Rails: 0 VDD_CORE, 1 VDD_SRAM, 2 VDDQ, 3 VDD_IO and 4 CORE_PG of the die, 5 VDD_AON of the package,
whose loss also clears PWR_COUNT and PWR_WAKE_COUNT (15 R399, 20 R505). -/
def supplyFault (d rail : Nat) (m : List Host.Cell) (h : Hub) : Eff :=
  if rail = 5 then
    let h := resetHub .porst h
    ({ h with dies := h.dies.map fun (e : Nat × Die) => (e.1, { e.2 with pwr := {} }) }, clearMemory)
  else if !powered h || rail > 5 || (rail = 4 && !awake h d) then (h, [])
  else dieLost d 7 m h

/-! ### The rows -/

/-- PMX_PAD_WRITE. -/
def execPmxPadWrite (fn die pad : Nat) (value : BitVec 32) (s : State) : Host.Outcome State Fault Refusal :=
  .next (onHub (regGateHub fn die (0x1000 + 4 * pad) false (padWrite die pad value.toNat)) s)
/-- PMX_FUNCTION_CHANGE. -/
def execPmxFunctionChange (die : Nat) (s : State) : Host.Outcome State Fault Refusal := .next (onHub (padsChange die) s)
/-- SUPPLY_FAULT. -/
def execSupplyFault (die rail : Nat) (s : State) : Host.Outcome State Fault Refusal := .next (act (supplyFault die rail) s)

end Sys2Proof.Machine
end

