-- ==== Sys2Proof/Machine/Registers.lean ====
section
/-!
DEFINITION. The register space of a die as a whole: the ID_, INT_, PWR_ and THM_ blocks, a write and a read of any block, bit aliases, the
interrupt message, the MSI-X table and the size of BAR2 (20 R496-R513; 03 R47, R48; 15 R414; 17 R454).
-/

namespace Sys2Proof.Machine

/-! ### ID_ and INT_ (20 R510-R513) -/

/-- The ID_ and INT_ registers of a die changed by `f`. -/
def updRegs (h : Hub) (d : Nat) (f : Regs → Regs) : Hub := updDie h d fun x => { x with regs := f x.regs }

/-- A 32-bit word of the ID_ block, read. -/
def idRead32 (h : Hub) (d off : Nat) : Nat :=
  let r := (getDie h d).regs
  match off with
  | 0x00 => h.pkg.part + 256 * h.pkg.sites + 65536 * h.pkg.sitesUp + 2 ^ 24 * d
  | 0x04 => 0xB0
  | 0x08 => r.fw
  | 0x0C => 0x1D7E + 65536 * (0x5300 + h.pkg.part)
  | 0x10 => r.lockErr + 256 * r.lockOff
  | 0x14 => r.accSize + 256 * r.accAlias
  | 0x18 => r.scratch.toNat
  | _ => 0

/-- Is a source of a die pending: COUNT differs from ACK? -/
def intPending (r : Regs) (n : Nat) : Bool := r.intCount.get n 0 != r.intAck.get n 0

/-- INT_EN written: enabling a pending source sends a message. -/
def intEnWrite (d v : Nat) (h : Hub) : Hub :=
  let r := (getDie h d).regs
  let h := updRegs h d fun r => { r with intEn := bits v 0 13 }
  if (List.range 13).any fun n => bit v n && !bit r.intEn n && intPending r n then intRaise d h else h

/-- A 32-bit write of the INT_ block. -/
def intWrite32 (d off v : Nat) (h : Hub) : Hub :=
  match off with
  | 0x04 => intEnWrite d v h
  | 0x08 => updRegs h d fun r => { r with intVec := bits v 0 6, intMsix := bit v 8 }
  | _ =>
    if 0x40 ≤ off && off < 0x40 + 4 * 13 && off % 4 = 0 then
      updRegs h d fun r => { r with intAck := r.intAck.set ((off - 0x40) / 4) (bits v 16 16) }
    else h

/-- A 32-bit word of the INT_ block, read. -/
def intRead32 (h : Hub) (d off : Nat) : Nat :=
  let r := (getDie h d).regs
  match off with
  | 0x00 => ((List.range 13).map fun n => b2n (intPending r n) * 2 ^ n).sum
  | 0x04 => r.intEn
  | 0x08 => r.intVec + 256 * b2n r.intMsix + 512 * b2n (intBad h d)
  | _ =>
    let n := (off - 0x40) / 4
    if 0x40 ≤ off && n < 13 then r.intCount.get n 0 + 65536 * r.intAck.get n 0 else 0

/-- INT_MSIX_MESSAGE: 1 µs after the first event of a message, it is sent on VECTOR of the integrator's function (20 R513). -/
def intMessage (d : Nat) (h : Hub) : Hub :=
  match (getDie h d).regs.intOpen with
  | none => h
  | some t =>
    let h := updRegs (at_ (t + 1000) h) d fun r => { r with intOpen := none }
    let r := (getDie h d).regs
    if dieUp h d && r.intMsix && !intBad h d then msix (integratorFn h) r.intVec h else h

/-! ### PWR_, THM_ and SRV_ (15 R414, 17 R454) -/

/-- A 32-bit write of the PWR_ and THM_ blocks, from offset 0 of PWR_. -/
def pwrWrite32 (d off v : Nat) (h : Hub) : Hub :=
  match off with
  | 0x04 => updPwr h d fun p => { p with entries := bits v 0 16, refused := bits v 16 8, aborted := bits v 24 8 }
  | 0x0C => updPwr h d fun p => { p with wakeEn := bits v 0 6 ||| 2 }
  | 0x10 => updPwr h d fun p => { p with wakeTimer := v % 2 ^ 32 }
  | 0x14 => updPwr h d fun p => { p with replays := bits v 0 8, wakes := bits v 8 8 }
  | 0xB4 => updPwr h d fun p => { p with warn := bits v 0 8, reduce := bits v 8 8 }
  | _ => h

/-- A 32-bit word of the PWR_ and THM_ blocks, read. -/
def pwrRead32 (h : Hub) (d off : Nat) : Nat :=
  let p := (getDie h d).pwr
  match off with
  | 0x00 => pwrStateWord p
  | 0x04 => pwrCountWord p
  | 0x08 => pwrRefuserWord p
  | 0x0C => p.wakeEn
  | 0x10 => p.wakeTimer
  | 0x14 => p.replays + 256 * p.wakes
  | 0x18 => p.budget + 65536 * p.estimate
  | 0xB0 => thmMaxWord p
  | 0xB4 => p.warn + 256 * p.reduce
  | _ => if 0x80 ≤ off && off < 0xB0 then let s := sensorOf p ((off - 0x80) / 4); s.temp + 4096 * b2n s.valid else 0

/-- SRV_ECC advances by what the die has corrected since it was last read: free amounts (17 R442). -/
def eccAdvances (d : Nat) (h : Hub) : Hub :=
  let (i, h) := takeFree h
  let (j, h) := takeFree h
  updSrv h d fun s => { s with
    sramCorr := satAdd 65535 s.sramCorr (Config.freeWord i).toNat, lp5xCorr := satAdd 65535 s.lp5xCorr (Config.freeWord j).toNat }

/-- A 32-bit word of the SRV_ block, read. -/
def srvRead32 (h : Hub) (d off : Nat) : Nat × Hub :=
  let s := (getDie h d).srv
  match off with
  | 0x00 => (b2n (!s.tests.isEmpty) + 256 * s.queue.length, h)
  | 0x04 => ((s.tests.map fun t => t.req.unit).headD 0, h)
  | 0x08 => (s.engIn, h)
  | 0x0C => (s.engSpare, h)
  | 0x10 => (s.engRetired, h)
  | 0x14 => (s.cTests + 256 * s.cTransient + 65536 * s.cLasting + 2 ^ 24 * s.cAborted, h)
  | 0x18 =>
    let h := eccAdvances d h
    let s := (getDie h d).srv
    (s.sramCorr + 65536 * s.lp5xCorr, h)
  | 0x1C => (s.windows + 65536 * s.dropped + 2 ^ 24 * s.held, h)
  | 0x20 => (s.bbRetired, h)
  | _ => (0, h)

/-! ### Any block (20 R499-R504) -/

/-- A 32-bit write at offset `off` (a multiple of 4) of the space of die `d` that is honoured by its block, by the integrator's function
`fn` or, with `jtag`, as from it.  `bar0` is the offset that a report gives. -/
def regWord (jtag : Bool) (fn bar0 d off v : Nat) (m : List Host.Cell) (h : Hub) : Eff :=
  let o := off % 0x100
  match off / 0x100 with
  | 0x00 =>
    if o = 0x18 then (updRegs h d fun r => { r with scratch := BitVec.ofNat 32 v }, [])
    else if o < 0x18 then (accessFault fn bar0 h, [])
    else (h, [])
  | 0x01 => if kprOfPrincipal o && d ≠ h.pkg.principal then (accessFault fn bar0 h, []) else kprWrite32 d o v m h
  | 0x02 => (intWrite32 d o v h, [])
  | 0x03 => (clkWrite32 d o v h, [])
  | 0x04 => (pllWrite32 d o v h, [])
  | 0x05 => (pwrWrite32 d o v h, [])
  | 0x07 => (atcWrite32 (if jtag then none else some fn) d o v h, [])
  | 0x08 => (if o = 0 then fbkCtrlWrite d v h else if o = 0x18 then fbkCountWrite d v h else h, [])
  | 0x20 => privWrite32 d (o / 0x40) (o % 0x40) v m h
  | b => (if 0x10 ≤ b && b < 0x20 then pmxWrite32 d (off - 0x1000) v h else h, [])

/-- A write of 32 or 64 bits, honoured: two 32-bit registers take it in rising order, a 64-bit register whole (20 R502). -/
def regWrite (jtag : Bool) (fn bar0 d off size v : Nat) (m : List Host.Cell) (h : Hub) : Eff :=
  if off / 0x100 = 0x20 then privWrite d (off % 0x100 / 0x40) (off % 0x40) size v m h
  else if size = 4 then regWord jtag fn bar0 d off (v % 2 ^ 32) m h
  else
    let a := regWord jtag fn bar0 d off (v % 2 ^ 32) m h
    let b := regWord jtag fn bar0 d (off + 4) (v / 2 ^ 32 % 2 ^ 32) (a.2.foldl Memory.apply m) a.1
    (b.1, a.2 ++ b.2)

/-- A 32-bit word at offset `off` (a multiple of 4) of the space of die `d`, read by function `fn`: a read of CLK_TB_LO latches
CLK_TB_HI (16 R438). -/
def regReadWord (fn d off : Nat) (h : Hub) : Nat × Hub :=
  let o := off % 0x100
  match off / 0x100 with
  | 0x00 => (idRead32 h d o, h)
  | 0x01 => (kprRead32 h d o, h)
  | 0x02 => (intRead32 h d o, h)
  | 0x03 =>
    if o = 0x00 then
      let t := dieTime h d
      (t.1 % 2 ^ 32, updFn t.2 fn fun x => { x with tbHi := t.1 / 2 ^ 32 % 2 ^ 32 })
    else if o = 0x04 then ((getFn h fn).tbHi, h)
    else (clkRead32 h d o, h)
  | 0x04 => pllRead32 h d o
  | 0x05 => (pwrRead32 h d o, h)
  | 0x06 => srvRead32 h d o
  | 0x07 => (atcRead32 h d o, h)
  | 0x08 => (fbkRead32 (getDie h d).fbk o, h)
  | 0x20 => if fn = integratorFn h then (privRead h d (o / 0x40) (o % 0x40), h) else (0, accessFault fn (d * 0x100000 + off) h)
  | b => if 0x10 ≤ b && b < 0x20 then pmxRead32 h d (off - 0x1000) else (0, h)

/-- A read of 32 or 64 bits: the lower register first (20 R502). -/
def regRead (fn d off size : Nat) (h : Hub) : Nat × Hub :=
  let a := regReadWord fn d off h
  if size = 4 then a
  else
    let b := regReadWord fn d (off + 4) a.2
    (a.1 + 2 ^ 32 * b.1, b.2)

/-- The end of the blocks: reserved offsets follow. -/
def regEnd : Nat := 0x2100

/-- Is an offset in the PWR_ or THM_ block, which the always-on domain answers (15 R398)? -/
def alwaysOn (off : Nat) : Bool := off / 0x100 == 5

/-- An access of function `fn` that falls on register offset `off` of die `d` and reaches BAR0 at `bar0`; `f` where it is honoured.  The
Attic of a die in its boot ROM is reached from that die's own port (19 R488).  Reserved offsets ignore writes, but wake a die. -/
def regAccess (fn bar0 d off : Nat) (f : Hub → Eff) (h : Hub) : Eff :=
  if off / 0x100 = 7 && romReaches h fn d then f h
  else if off ≥ regEnd then (if regReaches h fn d && asleep h d then accessWakes d fn h else h, [])
  else regGate fn d (bar0 - d * 0x100000) (alwaysOn off) f h

/-- The context and the byte of its doorbell page at a BAR0 offset of a function (20 R497, R498). -/
def pageAt (fn off : Nat) : Option (Nat × Nat) :=
  let base := if fn % 16 = 0 then 0x02000000 else 0x00200000
  let first := if fn % 16 = 0 then 0 else 512 * (fn / 16)
  let n := if fn % 16 = 0 then 4096 else 512
  if base ≤ off && off < base + n * 0x1000 then some (first + (off - base) / 0x1000, off % 0x1000) else none

/-- DBL_ERR written: its counters are loaded (02 R29, 20 R504). -/
def errWrite (c v : Nat) (h : Hub) : Hub :=
  updCtx h c fun x => { x with badDoorbell := bits v 0 8, lostEvents := bits v 8 8, writeWhileOpen := bits v 16 8 }

/-- A write of 32 or 64 bits to a doorbell page (02 R29, 20 R502); of a 64-bit write only a base register takes the upper half. -/
def pageWrite (c fn off size v : Nat) (m : List Host.Cell) (h : Hub) : Eff :=
  if !accessOk off size then (pageAccess c fn off (accSizeError (homeDie c)) h, [])
  else match off with
    | 0x00 => (pageAccess c fn off (sqTailWrite c (v % 65536)) h, [])
    | 0x08 => (pageAccess c fn off (cqHeadWrite c (v % 65536)) h, [])
    | 0x38 => ctrlAccess c fn (v % 2 ^ 32) m h
    | 0x48 => (pageAccess c fn off (errWrite c v) h, [])
    | _ => (pageAccess c fn off (ringConfigWrite c off size v) h, [])

/-- A direct write of a register: of a doorbell page or of the register space of a die. -/
def directWrite (fn off size v : Nat) (m : List Host.Cell) (h : Hub) : Eff :=
  match pageAt fn off with
  | some (c, o) => pageWrite c fn o size v m h
  | none =>
    let d := off / 0x100000
    let r := off % 0x100000
    if d ≥ 8 then (h, [])
    else regAccess fn off d r (fun h => if !accessOk r size then (accSizeError d h, []) else regWrite false fn off d r size v m h) h

/-! ### Bit aliases (20 R508, R509) -/

/-- The CNT bits of the register at an offset, as a mask. -/
def cntMask (off : Nat) : Nat :=
  match off with
  | 0x010C => 0xFFFFFF
  | 0x0414 => 0xFFFFFF
  | 0x0454 => 0xFFFFFF
  | 0x0494 => 0xFFFFFF
  | 0x0504 => 0xFFFFFFFF
  | 0x0514 => 0xFFFF
  | 0x05B4 => 0xFFFF
  | 0x0614 => 0xFFFFFFFF
  | 0x0618 => 0xFFFFFFFF
  | 0x061C => 0xFFFFFFFF
  | 0x071C => 0xFFFFFF
  | 0x0818 => 0xFFFFFFFF
  | 0x1088 => 0xFF
  | 0x2024 => 0xFFFFFF
  | 0x2064 => 0xFFFFFF
  | 0x20A4 => 0xFFFFFF
  | 0x20E4 => 0xFFFFFF
  | _ => 0

/-- A word with one bit replaced. -/
def withBit (w n : Nat) (b : Bool) : Nat := w - b2n (bit w n) * 2 ^ n + b2n b * 2 ^ n

/-- The register word and the bit of an alias, by the byte offset in the alias region of its die. -/
def aliasOf (a : Nat) : Nat × Nat := (a / 128 * 4, a / 4 % 32)

/-- A write of bit `n` of the word at `off`, as one read-modify-write of the whole register; a bit of a counter is not changed. -/
def bitWrite (fn bar0 d off n : Nat) (b : Bool) (m : List Host.Cell) (h : Hub) : Eff :=
  if bit (cntMask off) n then
    (intEvent d 12 (updRegs h d fun r => { r with accAlias := satInc 255 r.accAlias }), [])
  else regWord false fn bar0 d off (withBit (regReadWord fn d off h).1 n b) m h

/-- An access to an alias word. -/
def aliasWrite (fn off size v : Nat) (m : List Host.Cell) (h : Hub) : Eff :=
  if off < 0x800000 || off ≥ 0x1800000 then (h, [])
  else
    let d := (off - 0x800000) / 0x200000
    let r := aliasOf ((off - 0x800000) % 0x200000)
    regAccess fn off d r.1 (fun h =>
      if size ≠ 4 || off % 4 ≠ 0 then (accSizeError d h, []) else bitWrite fn off d r.1 r.2 (bit v 0) m h) h

/-! ### MSI-X table and BAR2 (02 R42; 03 R47, R48; 20 R496) -/

/-- Does a function of a die that is in service answer the host (18 R463, 21 R525)? -/
def fnAnswers (h : Hub) (fn : Nat) : Bool :=
  ready h && fn < 128 && (getFn h fn).enabled && dieUp h (fn / 16) && !bit h.pkg.perst (fn / 16)

/-- A vector is masked or unmasked: an unmask sends the message that is held. -/
def vecWrite (fn vec : Nat) (mask : Bool) (h : Hub) : Hub :=
  let x := getFn h fn
  if vec ≥ 64 || vec ≥ x.msixSize || !fnAnswers h fn then h
  else if mask then updFn h fn fun x => { x with vecMask := x.vecMask ||| 2 ^ vec }
  else
    let h := updFn h fn fun x => { x with
      vecMask := withBit x.vecMask vec false, vecPend := withBit x.vecPend vec false }
    if bit x.vecPend vec then send (.msix fn vec) h else h

/-- The host sets the size of BAR2: a power of two from 256 MiB to 16 GiB, by its logarithm. -/
def barSize (fn size : Nat) (h : Hub) : Hub :=
  if portEarly h fn then send (.refusal fn 2) h
  else if size < 28 || size > 34 || !fnAnswers h fn then h
  else updFn h fn fun x => { x with bar2Log := size }

/-! ### The rows -/

/-- REGISTER_WRITE. -/
def execRegisterWrite (fn off size : Nat) (value : BitVec 64) (s : State) : Host.Outcome State Fault Refusal :=
  .next (act (directWrite fn off size value.toNat) s)
/-- BIT_ALIAS_WRITE. -/
def execBitAliasWrite (fn off size : Nat) (value : BitVec 64) (s : State) : Host.Outcome State Fault Refusal :=
  .next (act (aliasWrite fn off size value.toNat) s)
/-- INT_EN_WRITE. -/
def execIntEnWrite (fn die : Nat) (value : BitVec 32) (s : State) : Host.Outcome State Fault Refusal :=
  .next (onHub (regGateHub fn die 0x0204 false (intEnWrite die value.toNat)) s)
/-- INT_MSIX_MESSAGE. -/
def execIntMsixMessage (die : Nat) (s : State) : Host.Outcome State Fault Refusal := .next (onHub (intMessage die) s)
/-- MSIX_TABLE_WRITE. -/
def execMsixTableWrite (fn vec : Nat) (mask : Bool) (s : State) : Host.Outcome State Fault Refusal :=
  .next (onHub (vecWrite fn vec mask) s)
/-- RESIZABLE_BAR_WRITE. -/
def execResizableBarWrite (fn size : Nat) (s : State) : Host.Outcome State Fault Refusal := .next (onHub (barSize fn size) s)

end Sys2Proof.Machine
end

