-- ==== Sys2Proof/Machine/Jtag.lean ====
section
/-!
DEFINITION. The TAP: boundary scan, IDCODE, BYPASS, register access and the Keeper debug port (22 R547-R550).  One row is one scan of the
data register that its instruction selects, from Capture-DR to Update-DR; the bits of a scan stand in the order in which they are shifted.
-/

namespace Sys2Proof.Machine

/-- The TAP changed by `f`. -/
def updJtag (f : Jtag → Jtag) (h : Hub) : Hub := { h with jtag := f h.jtag }

/-- Cells of the boundary-scan register (22 R548). -/
def bsrCells (h : Hub) : Nat := 7 + 144 * ((List.range 8).filter (bit h.pkg.sites)).length

/-- `n` free bits. -/
def freeBits (n : Nat) (h : Hub) : List Bool × Hub :=
  ((List.range n).map fun i => Config.freeBit (h.freeIx + i), { h with freeIx := h.freeIx + n })

/-- A scan of a data register that captured `cap`: the bits that leave on TDO, and what the register holds at Update-DR. -/
def scanBits (cap dr : List Bool) : List Bool × List Bool := ((cap ++ dr).take dr.length, (cap ++ dr).drop dr.length)

/-- PORST_N is low: the compliance-enable condition (22 R548). -/
def compliance (h : Hub) : Bool := h.pkg.phase == .porst

/-- An instruction is loaded: EXTEST and CLAMP drive the outputs and HIGHZ holds them only while it is in the register and PORST_N was
low at its load. -/
def loadIr (ir : Nat) (h : Hub) : Hub :=
  updJtag (fun j => { j with
    ir := ir, driving := (ir == 0 || ir == 4) && compliance h, highz := ir == 3 && compliance h }) h

/-- A scan through the bypass register, which captures 0. -/
def scanBypass (dr : List Bool) (h : Hub) : Hub :=
  let r := scanBits [false] dr
  updJtag (fun j => { j with tdo := r.1, bypass := r.2.headD false }) h

/-- A scan through the boundary-scan register, which captures the levels of the balls: free bits. -/
def scanBoundary (dr : List Bool) (h : Hub) : Hub :=
  let (cap, h) := freeBits (bsrCells h) h
  let r := scanBits cap dr
  updJtag (fun j => { j with tdo := r.1, bsr := r.2 }) h

/-- EXTEST: the boundary-scan register while PORST_N is low, otherwise BYPASS. -/
def extest (dr : List Bool) (h : Hub) : Hub :=
  let h := loadIr 0x00 h
  if compliance h then scanBoundary dr h else scanBypass dr h

/-- The IDCODE of the part (22 R547). -/
def idcodeOf (part : Nat) : Nat := 0x1530074F + 0x1000 * part

/-- The low `n` bits of a number, the least significant first. -/
def lowBits (n v : Nat) : List Bool := (List.range n).map (bit v)

/-- IDCODE. -/
def idcode (dr : List Bool) (h : Hub) : Hub :=
  updJtag (fun j => { j with tdo := (scanBits (lowBits 32 (idcodeOf h.pkg.part)) dr).1 }) (loadIr 0x02 h)

/-! ### REGACC (22 R549) -/

/-- The accesses that a locked die permits: reads of ID_, KPR_, CLK_, PWR_, THM_, SRV_, ATC_ and FBK_, writes of ATC_ and FBK_. -/
def lockPermits (off : Nat) (write : Bool) : Bool :=
  let b := off / 0x100
  let atcFbk := decide (7 ≤ b) && decide (b < 16)
  if write then atcFbk else b == 0 || b == 1 || b == 3 || b == 5 || b == 6 || atcFbk

/-- Is the register space of a die there for JTAG: of a die in service, or the identification registers (18 R461) and the Attic (19 R488)
of a die in its boot ROM? -/
def jtagReaches (h : Hub) (d off : Nat) : Bool :=
  (h.pkg.phase == .starting || h.pkg.phase == .ready) &&
    (if (getDie h d).atc.inRom then bit h.pkg.sites d && (off / 0x100 == 0 || off / 0x100 == 7) else dieUp h d)

/-- What REGACC leaves for the next Capture-DR. -/
def accResult (data st : Nat) (h : Hub) : Hub := updJtag (fun j => { j with accData := BitVec.ofNat 64 data, accStatus := st }) h

/-- The access of a REGACC that is permitted; where the space is not there it reads 0 and writes nothing (20 R501), and a sleeping die
takes it as a wake event (15 R398). -/
def regaccDoes (d off size : Nat) (write : Bool) (v : Nat) (m : List Host.Cell) (h : Hub) : Eff :=
  if !jtagReaches h d off then (accResult 0 0 h, [])
  else if dieUp h d && asleep h d && !alwaysOn off then (accResult 0 0 (wakeEvent d 1 h), [])
  else
    let fn := integratorFn h
    if write then
      let a := if off < regEnd then regWrite true fn (d * 0x100000 + off) d off size v m h else (h, [])
      (accResult 0 0 a.1, a.2)
    else
      let r := regRead fn d off size h
      (accResult r.1 0 r.2, [])

/-- REGACC: the scan returns what the last access left, and Update-DR makes one access. -/
def regacc (dr : BitVec 89) (m : List Host.Cell) (h : Hub) : Eff :=
  let h := loadIr 0x10 h
  let (top, h) := freeBits 9 h
  let h := updJtag (fun j => { j with tdo := lowBits 64 j.accData.toNat ++ lowBits 16 j.accStatus ++ top }) h
  let v := dr.toNat
  let off := bits v 64 20
  let d := bits v 84 3
  let write := bit v 87
  let size := if bit v 88 then 8 else 4
  if !accessOk off size then (accResult 0 0x0105 (accSizeError d h), [])
  else if !(getDie h d).atc.unlocked && !lockPermits off write then (accResult 0 0x0307 h, [])
  else regaccDoes d off size write (bits v 0 64) m h

/-! ### KDEBUG (22 R549, R550) -/

/-- The Keeper debug port of a die changed by `f`. -/
def updKdbg (h : Hub) (d : Nat) (f : Kdbg → Kdbg) : Hub := updDie h d fun x => { x with kdbg := f x.kdbg }

/-- A request on an unlocked die.  Requests: 0 halt, 1 run, 2 step, 3 and 4 set and clear a breakpoint, 5 and 6 read and write a 64-bit
word of Keeper memory.  A word that the Keeper may have changed since it was written reads as a free value. -/
def kdebugDoes (d req addr : Nat) (value : BitVec 64) (h : Hub) : Hub :=
  let k := (getDie h d).kdbg
  let set (f : Kdbg → Kdbg) : Hub := accResult 0 0 (updKdbg h d f)
  match req with
  | 0 => set fun k => { k with halted := some (k.halted.getD h.now) }
  | 1 => set fun k => { k with halted := none, mem := [] }
  | 2 => set fun k => { k with mem := [] }
  | 3 => set fun k => { k with breaks := if k.breaks.contains addr then k.breaks else k.breaks ++ [addr] }
  | 4 => set fun k => { k with breaks := k.breaks.filter (· != addr) }
  | 5 =>
    let (i, h) := takeFree h
    accResult ((k.mem.get addr (Config.freeWord i)).toNat) 0 h
  | 6 => set fun k => if k.halted.isSome then { k with mem := k.mem.set addr value } else k
  | _ => h

/-- JTAG_KDEBUG: every request answers 0x0307 on a locked die. -/
def kdebug (d req addr : Nat) (value : BitVec 64) (h : Hub) : Hub :=
  let h := loadIr 0x11 h
  if !(getDie h d).atc.unlocked then accResult 0 0x0307 h
  else if !jtagReaches h d 0 || !awake h d then h
  else kdebugDoes d req addr value h

/-- KEEPER_HALT_TIMEOUT: a halt of more than 1 ms loses the die (17 R451). -/
def haltTimeout (d : Nat) (m : List Host.Cell) (h : Hub) : Eff :=
  match (getDie h d).kdbg.halted with
  | none => (h, [])
  | some t => if dieUp h d then dieLost d 7 m (at_ (t + 1000001) h) else (h, [])

/-! ### The rows -/

/-- JTAG_EXTEST. -/
def execJtagExtest (dr : List Bool) (s : State) : Host.Outcome State Fault Refusal := .next (onHub (extest dr) s)
/-- JTAG_SAMPLE_PRELOAD. -/
def execJtagSamplePreload (dr : List Bool) (s : State) : Host.Outcome State Fault Refusal :=
  .next (onHub (fun h => scanBoundary dr (loadIr 0x01 h)) s)
/-- JTAG_IDCODE. -/
def execJtagIdcode (dr : List Bool) (s : State) : Host.Outcome State Fault Refusal := .next (onHub (idcode dr) s)
/-- JTAG_HIGHZ. -/
def execJtagHighz (dr : List Bool) (s : State) : Host.Outcome State Fault Refusal :=
  .next (onHub (fun h => scanBypass dr (loadIr 0x03 h)) s)
/-- JTAG_CLAMP. -/
def execJtagClamp (dr : List Bool) (s : State) : Host.Outcome State Fault Refusal :=
  .next (onHub (fun h => scanBypass dr (loadIr 0x04 h)) s)
/-- JTAG_BYPASS. -/
def execJtagBypass (dr : List Bool) (s : State) : Host.Outcome State Fault Refusal :=
  .next (onHub (fun h => scanBypass dr (loadIr 0xFF h)) s)
/-- JTAG_REGACC. -/
def execJtagRegacc (dr : BitVec 89) (s : State) : Host.Outcome State Fault Refusal := .next (act (regacc dr) s)
/-- JTAG_KDEBUG. -/
def execJtagKdebug (die req addr : Nat) (value : BitVec 64) (s : State) : Host.Outcome State Fault Refusal :=
  .next (onHub (kdebug die req addr value) s)
/-- KEEPER_HALT_TIMEOUT. -/
def execKeeperHaltTimeout (die : Nat) (s : State) : Host.Outcome State Fault Refusal := .next (act (haltTimeout die) s)

end Sys2Proof.Machine
end

