-- ==== Sys2Proof/Machine/Scan.lean ====
section
/-!
DEFINITION. Composition and scan-out of one frame: the order in which engines take tiles, a finished tile, and a line at its start
(01 R16; 03 R62, R71; 04 R94, R95, R97, R109; 08 R214-R217, R221; 09 R240).
-/

namespace Sys2Proof.Machine

/-! ### Tiles (04 R94-R97) -/

/-- The outputs of a die that read the bands of pipe `o`: the members of a clone group on the die, or `o` alone. -/
def bandReaders (h : Hub) (o : Nat) : List Nat :=
  ((List.range 4).map (· + o / 4 * 4)).filter fun m => homePipe h m == o && (getOut h m).scan.isSome

/-- The first band of a pipe whose scan has not ended for every reader: that of the line which is being sent. -/
def firstBand (h : Hub) (o : Nat) : Nat :=
  let bh := (getOut h o).bandH
  ((bandReaders h o).map fun m => match (getOut h m).scan with | none => 0 | some sc => (sc.line - 1) / bh).foldl min 1000000

/-- The engine of the die (0-23) that brings column `t` of a pipe's frame: the table's, or for a frame from the cache one engine for
all columns (08 R221; log entry 19). -/
def columnEngine (x : Output) (f : Frame) (t : Nat) : Nat := x.cols.getD (if f.source = 0 then t else 0) 24

/-- Is a tile written into its slot? -/
def tileDone (x : Output) (b t : Nat) : Bool := (x.bands.get b []).has t

/-- The latest finish that R97 allows a band, in ns of the timebase. -/
def dueTime (e : ModeEntry) (sc : Scan) (bh b : Nat) : Rat :=
  let px : Rat := (activePx e sc : Rat) - (sc.refPx : Rat) +
    (if b < 2 then 0 else if b < 4 then (bh * hTotal e : Nat) / 2 else ((b - 2) * bh * hTotal e : Nat))
  (sc.s0 : Rat) + px * ((e.pllP * 1000 : Nat) : Rat) / (pxDen e : Rat) * 1000000 / ((1000000 + sc.rate : Int) : Rat)

/-- The tiles of a pipe that an engine may start, with their due times. -/
def eligible (h : Hub) (o le : Nat) : List (Rat × TileRef) :=
  let x := getOut h o
  match x.mode, x.scan, x.frame with
  | some e, some sc, some f =>
    if homePipe h o ≠ o || x.state != .running || !sc.drained then []
    else
      let lo := firstBand h o
      ((List.range 4).map (· + lo)).flatMap fun b =>
        if b ≥ bandsOf e x.bandH then []
        else ((List.range (tileCols e)).filter fun t =>
          columnEngine x f t == le && !tileDone x b t && !h.engines.any fun k => k.2.out == o && k.2.band == b && k.2.col == t).map
          fun t => (dueTime e sc x.bandH b, { out := o, band := b, col := t })
  | _, _, _ => []

/-- Does a tile rank before another: earlier due, then lower output, band and column? -/
def tileBefore (a b : Rat × TileRef) : Bool :=
  if a.1 ≠ b.1 then a.1 < b.1
  else if a.2.out ≠ b.2.out then a.2.out < b.2.out
  else if a.2.band ≠ b.2.band then a.2.band < b.2.band else a.2.col < b.2.col

/-- The tile that a free engine takes next. -/
def nextTile (h : Hub) (k : Nat) : Option TileRef :=
  (((List.range 4).flatMap fun p => eligible h (k / 24 * 4 + p) (k % 24)).foldl
    (fun best t => match best with | none => some t | some b => if tileBefore t b then some t else some b) none).map Prod.snd

/-- TILE_START: a free engine in service takes its next tile. -/
def tileStart (k : Nat) (h : Hub) : Hub :=
  if !dieUp h (k / 24) || h.engines.has k || !bit (getDie h (k / 24)).srv.engIn (k % 24) then h
  else match nextTile h k with
    | none => h
    | some t => updDie { h with engines := h.engines.set k t } (k / 24) fun x => { x with zeroed := x.zeroed.filter fun z => z.1 ≠ k % 24 }

/-! ### The end of a tile -/

/-- Is every tile of the frame's last band written? -/
def frameComposed (x : Output) (e : ModeEntry) : Bool :=
  (List.range (tileCols e)).all fun t => tileDone x (bandsOf e x.bandH - 1) t

/-- Have all pipes that compose the list of output `p` composed their frame's last band? -/
def listComposed (h : Hub) (p : Nat) : Bool :=
  ((membersOf h p).filter fun m => homePipe h m == m).all fun m =>
    match (getOut h m).mode, (getOut h m).frame with
    | some e, some _ => frameComposed (getOut h m) e
    | _, _ => true

/-- TILE_COMPLETE: the tile goes whole into its slot; its statistics and crate faults are kept; with the last tile of the frame on every
pipe of its list, the layers' counters and events follow (03 R71, 04 R109). -/
def tileComplete (k : Nat) (m : List Host.Cell) (h : Hub) : Hub :=
  match h.engines.find k with
  | none => h
  | some t =>
    let h := { h with engines := h.engines.del k }
    let o := t.out
    let x := getOut h o
    match x.mode, x.frame with
    | some e, some f =>
      let h := remoteRead (o / 4) (if f.source = 0 then tileGrans h o f e t.band t.col else []) m h
      let m := fetchView h (o / 4) (k % 24) m
      let g := fetchHub h (o / 4) (k % 24)
      let rows := if f.source = 0 then composeTile m g o f e t.band t.col else cacheTile m g o e t.band t.col
      let faults := if f.source = 0 then tileFaults m g o f e t.band t.col else []
      let h := fetchSpent (o / 4) (k % 24) h
      let w := logicalW h (listOf h o) e
      let lo := firstBand h o
      let h := updOut h o fun x => { x with
        bands := Tab.set (x.bands.filter fun s => s.1 ≥ lo) t.band ((x.bands.get t.band []).set t.col rows)
        dim := if hasZones x then
            { x.dim with acc := addTile x.dim.layout w e.vActive (leftEdge h o e + 256 * t.col) (x.bandH * t.band) rows x.dim.acc }
          else x.dim }
      let p := listOf h o
      let h := updOut h p fun x => { x with frame := x.frame.map fun f => { f with faults := f.faults ++ faults } }
      if t.band + 1 = bandsOf e x.bandH && listComposed h p then settleFrame p h else h
    | _, _ => h

/-! ### A line (08 R214-R217) -/

/-- The row of blended pixels that a pipe sends at line `y`, or none where its band is missing. -/
def bandRow (h : Hub) (o : Nat) (e : ModeEntry) (y : Nat) : Option (List Px) :=
  let x := getOut h (homePipe h o)
  let b := y / x.bandH
  if !lacksBank x b && (List.range (tileCols e)).all (tileDone x b) then
    some ((List.range (tileCols e)).flatMap fun t => (((x.bands.get b []).get t []).getD (y - x.bandH * b) []))
  else none

/-- A missing band (08 R215, 17 R441): counted, reported once, and shown to the list owner once for each frame. -/
def missBand (o b : Nat) (h : Hub) : Hub :=
  let x := getOut h o
  let home := getOut h (homePipe h o)
  match x.frame, x.mode with
  | some f, some e =>
    let h := updOut h o fun x => { x with undLines := satInc 0xFFFFFFFF x.undLines }
    if f.missing.contains b then h
    else
      let t := ((List.range (tileCols e)).find? fun t => !tileDone home b t).getD 0
      let d := o / 4
      let h := updOut h o fun x => { x with
        undBands := satInc 0xFFFFFFFF x.undBands, frame := some { f with missing := f.missing ++ [b] }, undPosted := true }
      let h := fbkRecord d 3 0x0302 (o + 256 * b) f.num h
      let h := faultReport d 0x0702 (unitId 1 d (columnEngine home f t)) (pipeUnit o) (bandDetail o b f.num) h
      match listOwner h (listOf h o) with
      | some c => if x.undPosted then h else postEvent c 0x0481 (o + 256 * b) f.num h
      | none => h
  | _, _ => h

/-- The writes of stream 0: a line of the cache frame (08 R216, R218). -/
def cacheLine (h : Hub) (o : Nat) (e : ModeEntry) (y : Nat) (px : List Px) : List MemWrite :=
  px.zipIdx.map fun p => .bytes (cacheAddr h o e p.2 y) (leBytes 8 (pxWord p.1))

/-- Stream 1 with one more line: the rows it still collects and its writes (08 R217). -/
def targetLine (h : Hub) (o : Nat) (y : Nat) (px : List Px) : List (List Px) × List MemWrite :=
  let x := getOut h o
  match surfOf h x.wbTarget, x.mode with
  | some s, some e =>
    if (fmtD s.fmt).crated then
      let rows := x.wbRows ++ [px]
      if y % 4 = 3 || y + 1 = e.vActive then
        ([], writeCrateRow h s (y / 4) fun i j => wbWord s.fmt ((rows.getD j []).getD i { b := 0, g := 0, r := 0, a := 0 }))
      else (rows, [])
    else ([], planeWrite h s 0 (y * (s.planes.getD 0 (0, 0)).2) (px.flatMap fun p => leBytes (fmtD s.fmt).bpp (wbWord s.fmt p)))
  | _, _ => ([], [])

/-- Does a band, widened to granularity `g` of the sink, hold line `y` (13 R361)? -/
def bandHolds (bh g y b : Nat) : Bool := bh * b / g * g ≤ y && y < ((bh * b + bh - 1) / g + 1) * g

/-- Is a line of the frame sent on the port: not in self refresh, and within a selective update, in lines of granularity `g`? -/
def lineSent (g : Nat) (x : Output) (f : Frame) (y : Nat) : Bool :=
  !x.psr && !f.notSent && !f.truncated && (match f.onlyBands with | none => true | some bs => bs.any (bandHolds x.bandH g y))

/-- LINE_START: the next active line of an output. -/
def lineStart (o : Nat) (h : Hub) : Eff :=
  let h := settleLoss o h
  let x := getOut h o
  match x.mode, x.scan, x.frame with
  | some e, some sc, some _ =>
    if x.state != .running || !sc.drained || sc.line ≥ e.vActive then (h, [])
    else
      let y := sc.line
      let h := captureOps o (fun _ => true) h
      let h := at_ (scanNs e sc (linePx e sc y)) h
      let can := portSends h o && !x.psr
      let h := if can then h
        else if y = 0 then updOut h o fun x => { x with frame := x.frame.map fun f => { f with notSent := true } }
        else updOut h o (truncateFrame h.now)
      let h := presetOps o (fun _ => true) h
      let b := y / x.bandH
      let row := bandRow h o e y
      let h := if row.isNone then missBand o b h else h
      let px := row.getD (List.replicate e.hActive (bgPx x))
      let x := getOut h o
      match x.frame with
      | none => (h, [])
      | some f =>
        let w := logicalW h (listOf h o) e
        let x0 := leftEdge h o e
        let gran := match outPort h o with | none => 1 | some k => (getPort h k).sinkGran.2
        let sent := lineSent gran x f y
        let codes := px.zipIdx.map fun p =>
          outStages x.colour x.lutAct (compensate x.dim w e.vActive (x0 + p.2) y) x.bpc f.clock (x0 + p.2) y p.1
        let h := if sent then sendLine o y f.num x.bpc codes (updOut h o fun x => { x with chk := { x.chk with cur := some (y, codes, px) } }) else h
        let due := if y + 1 = e.vActive then nextBlankPx e sc + vBlank e * hTotal e else linePx e sc (y + 1)
        let h := if sent then zoneGap o (some (scanNs e sc due - scanNs e sc (linePx e sc y), true)) h else h
        let h := if sent && y = 0 then updOut h o fun x => { x with frameTime := h.now } else h
        let w0 := if f.toCache && homePipe h o = o then cacheLine h o e y px else []
        let (rows, w1) := if f.toTarget && targetHolds h o then targetLine h o y px else (x.wbRows, [])
        let last := y + 1 == e.vActive
        let h := updOut h o fun x => { x with
          scan := some { sc with line := y + 1 }, wbRows := rows
          cacheFull := if last && f.toCache then f.missing.isEmpty else x.cacheFull
          wbFlight := if last && f.toTarget then some f.num else x.wbFlight }
        (writesTouched w1 h, w0 ++ w1)
  | _, _, _ => (h, [])

/-- WRITEBACK_FRAME_DONE: the last write of a written frame is visible package-wide. -/
def writebackDone (o : Nat) (h : Hub) : Hub :=
  match (getOut h o).wbFlight with
  | none => h
  | some n =>
    let h := broadcast (updOut h o fun x => { x with wbFlight := none })
    match listOwner h (listOf h o) with
    | none => h
    | some c => postEvent c 0x0482 o n h

/-! ### The rows -/

/-- TILE_START. -/
def execTileStart (engine : Nat) (s : State) : Host.Outcome State Fault Refusal := .next (onHub (tileStart engine) s)
/-- TILE_COMPLETE. -/
def execTileComplete (engine : Nat) (s : State) : Host.Outcome State Fault Refusal :=
  .next (act (fun m h => (tileComplete engine m h, [])) s)
/-- LINE_START. -/
def execLineStart (out : Nat) (s : State) : Host.Outcome State Fault Refusal := .next (act (fun _ h => lineStart out h) s)
/-- WRITEBACK_FRAME_DONE. -/
def execWritebackFrameDone (out : Nat) (s : State) : Host.Outcome State Fault Refusal := .next (onHub (writebackDone out) s)

end Sys2Proof.Machine
end

