-- ==== Sys2Proof/Machine/Dispatch.lean ====
section
/-!
DEFINITION. The meaning of every command: one direct call for each constructor of Instr.
-/

namespace Sys2Proof.Machine

def exec (i : Instr) (s : State) : Host.Outcome State Fault Refusal :=
  match i with
  | .dblSqTailWrite ctx fn value => Sys2Proof.Machine.execDblSqTailWrite ctx fn value s
  | .dblCqHeadWrite ctx fn value => Sys2Proof.Machine.execDblCqHeadWrite ctx fn value s
  | .dblCtrlOpen ctx fn value => Sys2Proof.Machine.execDblCtrlOpen ctx fn value s
  | .dblCtrlClose ctx fn value => Sys2Proof.Machine.execDblCtrlClose ctx fn value s
  | .dblRingConfigWrite ctx fn off size value => Sys2Proof.Machine.execDblRingConfigWrite ctx fn off size value s
  | .doorbellAccessRefused ctx fn off write => Sys2Proof.Machine.execDoorbellAccessRefused ctx fn off write s
  | .functionLevelReset fn => Sys2Proof.Machine.execFunctionLevelReset fn s
  | .busMasterDisable fn on => Sys2Proof.Machine.execBusMasterDisable fn on s
  | .ringAccessError ctx addr write => Sys2Proof.Machine.execRingAccessError ctx addr write s
  | .commandFetch ctx cmds => Sys2Proof.Machine.execCommandFetch ctx cmds s
  | .orderedRelease ctx => Sys2Proof.Machine.execOrderedRelease ctx s
  | .msixCoalesceTimeout ctx => Sys2Proof.Machine.execMsixCoalesceTimeout ctx s
  | .watchdogWarn ctx => Sys2Proof.Machine.execWatchdogWarn ctx s
  | .watchdogExpiry ctx => Sys2Proof.Machine.execWatchdogExpiry ctx s
  | .teardownComplete ctx => Sys2Proof.Machine.execTeardownComplete ctx s
  | .remotePartRequest ctx die raw => Sys2Proof.Machine.execRemotePartRequest ctx die raw s
  | .remotePartAnswer ctx die => Sys2Proof.Machine.execRemotePartAnswer ctx die s
  | .remoteTimeout ctx => Sys2Proof.Machine.execRemoteTimeout ctx s
  | .nop c => Sys2Proof.Machine.execNop c s
  | .ctxInfo c => Sys2Proof.Machine.execCtxInfo c s
  | .sysInfo c => Sys2Proof.Machine.execSysInfo c s
  | .sysTime c => Sys2Proof.Machine.execSysTime c s
  | .ctxWatchdog c => Sys2Proof.Machine.execCtxWatchdog c s
  | .ctxEventMask c => Sys2Proof.Machine.execCtxEventMask c s
  | .ctxAssign c => Sys2Proof.Machine.execCtxAssign c s
  | .ctxRevoke c => Sys2Proof.Machine.execCtxRevoke c s
  | .sysLock c => Sys2Proof.Machine.execSysLock c s
  | .memAlloc c => Sys2Proof.Machine.execMemAlloc c s
  | .memFree c => Sys2Proof.Machine.execMemFree c s
  | .surfCreate c => Sys2Proof.Machine.execSurfCreate c s
  | .surfDestroy c => Sys2Proof.Machine.execSurfDestroy c s
  | .surfGrant c => Sys2Proof.Machine.execSurfGrant c s
  | .surfRevoke c => Sys2Proof.Machine.execSurfRevoke c s
  | .surfQuery c => Sys2Proof.Machine.execSurfQuery c s
  | .shareSet c => Sys2Proof.Machine.execShareSet c s
  | .shareJoin c => Sys2Proof.Machine.execShareJoin c s
  | .bar2Access fn rid off write len data => Sys2Proof.Machine.execBar2Access fn rid off write len data s
  | .atlasEntryFree index => Sys2Proof.Machine.execAtlasEntryFree index s
  | .layerCreate c => Sys2Proof.Machine.execLayerCreate c s
  | .layerDestroy c => Sys2Proof.Machine.execLayerDestroy c s
  | .layerGeom c => Sys2Proof.Machine.execLayerGeom c s
  | .layerStyle c => Sys2Proof.Machine.execLayerStyle c s
  | .layerQuery c => Sys2Proof.Machine.execLayerQuery c s
  | .gratSet c => Sys2Proof.Machine.execGratSet c s
  | .gratQuery c => Sys2Proof.Machine.execGratQuery c s
  | .engineSpares c => Sys2Proof.Machine.execEngineSpares c s
  | .tileStart engine => Sys2Proof.Machine.execTileStart engine s
  | .tileComplete engine => Sys2Proof.Machine.execTileComplete engine s
  | .vblankStart out => Sys2Proof.Machine.execVblankStart out s
  | .drainComplete out => Sys2Proof.Machine.execDrainComplete out s
  | .latchInstant out => Sys2Proof.Machine.execLatchInstant out s
  | .lineStart out => Sys2Proof.Machine.execLineStart out s
  | .colourAlloc c => Sys2Proof.Machine.execColourAlloc c s
  | .colourLoad c => Sys2Proof.Machine.execColourLoad c s
  | .colourFree c => Sys2Proof.Machine.execColourFree c s
  | .layerColour c => Sys2Proof.Machine.execLayerColour c s
  | .layerMatrix c => Sys2Proof.Machine.execLayerMatrix c s
  | .outputColour c => Sys2Proof.Machine.execOutputColour c s
  | .outputLut c => Sys2Proof.Machine.execOutputLut c s
  | .progAlloc c => Sys2Proof.Machine.execProgAlloc c s
  | .progLoad c => Sys2Proof.Machine.execProgLoad c s
  | .progFree c => Sys2Proof.Machine.execProgFree c s
  | .layerProgram c => Sys2Proof.Machine.execLayerProgram c s
  | .layerParams c => Sys2Proof.Machine.execLayerParams c s
  | .progQuery c => Sys2Proof.Machine.execProgQuery c s
  | .txnBegin c => Sys2Proof.Machine.execTxnBegin c s
  | .txnCommit c => Sys2Proof.Machine.execTxnCommit c s
  | .txnCancel c => Sys2Proof.Machine.execTxnCancel c s
  | .txnQuery c => Sys2Proof.Machine.execTxnQuery c s
  | .layerFence c => Sys2Proof.Machine.execLayerFence c s
  | .tlCreate c => Sys2Proof.Machine.execTlCreate c s
  | .tlSignal c => Sys2Proof.Machine.execTlSignal c s
  | .tlDestroy c => Sys2Proof.Machine.execTlDestroy c s
  | .tlGrant c => Sys2Proof.Machine.execTlGrant c s
  | .tlQuery c => Sys2Proof.Machine.execTlQuery c s
  | .fenceTimeout txn => Sys2Proof.Machine.execFenceTimeout txn s
  | .groupDecision out die => Sys2Proof.Machine.execGroupDecision out die s
  | .outConfig c => Sys2Proof.Machine.execOutConfig c s
  | .outMode c => Sys2Proof.Machine.execOutMode c s
  | .outBackground c => Sys2Proof.Machine.execOutBackground c s
  | .outWriteback c => Sys2Proof.Machine.execOutWriteback c s
  | .outStatic c => Sys2Proof.Machine.execOutStatic c s
  | .outGroup c => Sys2Proof.Machine.execOutGroup c s
  | .outGenlock c => Sys2Proof.Machine.execOutGenlock c s
  | .outQuery c => Sys2Proof.Machine.execOutQuery c s
  | .modeQuery c => Sys2Proof.Machine.execModeQuery c s
  | .modeWrite c => Sys2Proof.Machine.execModeWrite c s
  | .outputStopped out => Sys2Proof.Machine.execOutputStopped out s
  | .modeStart out => Sys2Proof.Machine.execModeStart out s
  | .writebackFrameDone out => Sys2Proof.Machine.execWritebackFrameDone out s
  | .stretchReopen out => Sys2Proof.Machine.execStretchReopen out s
  | .psrEntry out => Sys2Proof.Machine.execPsrEntry out s
  | .extVsyncEdge out => Sys2Proof.Machine.execExtVsyncEdge out s
  | .genlockFreewheel out => Sys2Proof.Machine.execGenlockFreewheel out s
  | .dimLayout c => Sys2Proof.Machine.execDimLayout c s
  | .dimAlgo c => Sys2Proof.Machine.execDimAlgo c s
  | .dimTables c => Sys2Proof.Machine.execDimTables c s
  | .dimQuery c => Sys2Proof.Machine.execDimQuery c s
  | .dimRead c => Sys2Proof.Machine.execDimRead c s
  | .zonePacketTransmit out => Sys2Proof.Machine.execZonePacketTransmit out s
  | .chkGrant c => Sys2Proof.Machine.execChkGrant c s
  | .chkConfig c => Sys2Proof.Machine.execChkConfig c s
  | .chkExpect c => Sys2Proof.Machine.execChkExpect c s
  | .chkRead c => Sys2Proof.Machine.execChkRead c s
  | .chkLane c => Sys2Proof.Machine.execChkLane c s
  | .chkLaneCapture out ch => Sys2Proof.Machine.execChkLaneCapture out ch s
  | .chkLanePreset out ch => Sys2Proof.Machine.execChkLanePreset out ch s
  | .checkResultFinal out link => Sys2Proof.Machine.execCheckResultFinal out link s
  | .pltJob c => Sys2Proof.Machine.execPltJob c s
  | .pltAbort c => Sys2Proof.Machine.execPltAbort c s
  | .pltQuery c => Sys2Proof.Machine.execPltQuery c s
  | .plotterJobStart die => Sys2Proof.Machine.execPlotterJobStart die s
  | .plotterJobComplete die => Sys2Proof.Machine.execPlotterJobComplete die s
  | .pltWatermark die => Sys2Proof.Machine.execPltWatermark die s
  | .plotterSliceResume die => Sys2Proof.Machine.execPlotterSliceResume die s
  | .dmaAlloc c => Sys2Proof.Machine.execDmaAlloc c s
  | .dmaFree c => Sys2Proof.Machine.execDmaFree c s
  | .dmaSubmit c => Sys2Proof.Machine.execDmaSubmit c s
  | .dmaAbort c => Sys2Proof.Machine.execDmaAbort c s
  | .dmaQuery c => Sys2Proof.Machine.execDmaQuery c s
  | .dmaDescriptorStart die ch => Sys2Proof.Machine.execDmaDescriptorStart die ch s
  | .dmaDescriptorComplete die ch => Sys2Proof.Machine.execDmaDescriptorComplete die ch s
  | .dmaSliceResume die ch => Sys2Proof.Machine.execDmaSliceResume die ch s
  | .dmaCtrlGo fn die ch value => Sys2Proof.Machine.execDmaCtrlGo fn die ch value s
  | .dmaCtrlAbort fn die ch value => Sys2Proof.Machine.execDmaCtrlAbort fn die ch value s
  | .privDmaComplete die ch => Sys2Proof.Machine.execPrivDmaComplete die ch s
  | .privDmaRegisterWrite fn die ch off size value => Sys2Proof.Machine.execPrivDmaRegisterWrite fn die ch off size value s
  | .lnkConfig c => Sys2Proof.Machine.execLnkConfig c s
  | .lnkQuery c => Sys2Proof.Machine.execLnkQuery c s
  | .lnkEq c => Sys2Proof.Machine.execLnkEq c s
  | .lnkPower c => Sys2Proof.Machine.execLnkPower c s
  | .lnkLoopback c => Sys2Proof.Machine.execLnkLoopback c s
  | .loopbackEnd port err0 err1 checked => Sys2Proof.Machine.execLoopbackEnd port err0 err1 checked s
  | .lnkCamera c => Sys2Proof.Machine.execLnkCamera c s
  | .lnkI2c c => Sys2Proof.Machine.execLnkI2c c s
  | .lnkAux c => Sys2Proof.Machine.execLnkAux c s
  | .lnkBacklight c => Sys2Proof.Machine.execLnkBacklight c s
  | .lnkDsiCmd c => Sys2Proof.Machine.execLnkDsiCmd c s
  | .laneBlockLock port lane => Sys2Proof.Machine.execLaneBlockLock port lane s
  | .laneAdapted port lane foms dfes => Sys2Proof.Machine.execLaneAdapted port lane foms dfes s
  | .adaptTimeout port => Sys2Proof.Machine.execAdaptTimeout port s
  | .partnerAdapted port data => Sys2Proof.Machine.execPartnerAdapted port data s
  | .trainingTimeout port heard => Sys2Proof.Machine.execTrainingTimeout port heard s
  | .signalDetect port lane => Sys2Proof.Machine.execSignalDetect port lane s
  | .weakRetry port => Sys2Proof.Machine.execWeakRetry port s
  | .aloneBurst port => Sys2Proof.Machine.execAloneBurst port s
  | .linkLoss port reason => Sys2Proof.Machine.execLinkLoss port reason s
  | .fomWindowEnd port lane above below dfe => Sys2Proof.Machine.execFomWindowEnd port lane above below dfe s
  | .dozeEntry port => Sys2Proof.Machine.execDozeEntry port s
  | .dozeExit port => Sys2Proof.Machine.execDozeExit port s
  | .dozeReceived port => Sys2Proof.Machine.execDozeReceived port s
  | .loopRequest port => Sys2Proof.Machine.execLoopRequest port s
  | .cameraVideoFrame port data => Sys2Proof.Machine.execCameraVideoFrame port data s
  | .cameraVideoLine port data => Sys2Proof.Machine.execCameraVideoLine port data s
  | .cameraFrameComplete port => Sys2Proof.Machine.execCameraFrameComplete port s
  | .backStatus port data => Sys2Proof.Machine.execBackStatus port data s
  | .i2cReq port data => Sys2Proof.Machine.execI2cReq port data s
  | .i2cRsp port data => Sys2Proof.Machine.execI2cRsp port data s
  | .timeRequestSend port => Sys2Proof.Machine.execTimeRequestSend port s
  | .timeRequest port data => Sys2Proof.Machine.execTimeRequest port data s
  | .timeReply port data => Sys2Proof.Machine.execTimeReply port data s
  | .dpHotPlug port lanes rate caps sizes => Sys2Proof.Machine.execDpHotPlug port lanes rate caps sizes s
  | .dpUnplug port => Sys2Proof.Machine.execDpUnplug port s
  | .dpHpdIrq port lost psr => Sys2Proof.Machine.execDpHpdIrq port lost psr s
  | .dpTrainingEnd port ok lanes rate => Sys2Proof.Machine.execDpTrainingEnd port ok lanes rate s
  | .enumReq port data => Sys2Proof.Machine.execEnumReq port data s
  | .enumReqRetry port => Sys2Proof.Machine.execEnumReqRetry port s
  | .enumAck port data => Sys2Proof.Machine.execEnumAck port data s
  | .enumReject port data => Sys2Proof.Machine.execEnumReject port data s
  | .chainEnd port data => Sys2Proof.Machine.execChainEnd port data s
  | .chainEnumTimeout => Sys2Proof.Machine.execChainEnumTimeout s
  | .timeOfs port data => Sys2Proof.Machine.execTimeOfs port data s
  | .bcast port data => Sys2Proof.Machine.execBcast port data s
  | .barrierAck port data => Sys2Proof.Machine.execBarrierAck port data s
  | .pwrState c => Sys2Proof.Machine.execPwrState c s
  | .pwrEntryCommit die => Sys2Proof.Machine.execPwrEntryCommit die s
  | .wakeEvent die cause => Sys2Proof.Machine.execWakeEvent die cause s
  | .pwrExitComplete die => Sys2Proof.Machine.execPwrExitComplete die s
  | .pwrLimits c => Sys2Proof.Machine.execPwrLimits c s
  | .pwrFloor c => Sys2Proof.Machine.execPwrFloor c s
  | .pwrQuery c => Sys2Proof.Machine.execPwrQuery c s
  | .powerTick die => Sys2Proof.Machine.execPowerTick die s
  | .clockStepSwitch die => Sys2Proof.Machine.execClockStepSwitch die s
  | .sensorConversion die sensor temp => Sys2Proof.Machine.execSensorConversion die sensor temp s
  | .thermalShutdown die => Sys2Proof.Machine.execThermalShutdown die s
  | .analogueTrip die => Sys2Proof.Machine.execAnalogueTrip die s
  | .idleEnter die => Sys2Proof.Machine.execIdleEnter die s
  | .idleExit die => Sys2Proof.Machine.execIdleExit die s
  | .pllLock die pll => Sys2Proof.Machine.execPllLock die pll s
  | .pllLockLoss die pll => Sys2Proof.Machine.execPllLockLoss die pll s
  | .referenceMissing die pll => Sys2Proof.Machine.execReferenceMissing die pll s
  | .pllLockTimeout die pll => Sys2Proof.Machine.execPllLockTimeout die pll s
  | .pllRelockRetry die pll => Sys2Proof.Machine.execPllRelockRetry die pll s
  | .xtalLoss die => Sys2Proof.Machine.execXtalLoss die s
  | .timebaseCorrection die => Sys2Proof.Machine.execTimebaseCorrection die s
  | .clkOutWrite fn die n value => Sys2Proof.Machine.execClkOutWrite fn die n value s
  | .pllRegisterWrite fn die pll off value => Sys2Proof.Machine.execPllRegisterWrite fn die pll off value s
  | .faultReport die cause unit reporter detail => Sys2Proof.Machine.execFaultReport die cause unit reporter detail s
  | .dieWindowClose die cause unit => Sys2Proof.Machine.execDieWindowClose die cause unit s
  | .faultDieRecord die cause unit => Sys2Proof.Machine.execFaultDieRecord die cause unit s
  | .packageWindowClose cause unit => Sys2Proof.Machine.execPackageWindowClose cause unit s
  | .heldRecordExpiry cause unit => Sys2Proof.Machine.execHeldRecordExpiry cause unit s
  | .surveyTestStart die unit => Sys2Proof.Machine.execSurveyTestStart die unit s
  | .surveyVerdict die unit pass => Sys2Proof.Machine.execSurveyVerdict die unit pass s
  | .dieLoss die reason => Sys2Proof.Machine.execDieLoss die reason s
  | .fltRead c => Sys2Proof.Machine.execFltRead c s
  | .srvTest c => Sys2Proof.Machine.execSrvTest c s
  | .srvQuery c => Sys2Proof.Machine.execSrvQuery c s
  | .srvRestore c => Sys2Proof.Machine.execSrvRestore c s
  | .porstNAssert => Sys2Proof.Machine.execPorstNAssert s
  | .porstNRelease => Sys2Proof.Machine.execPorstNRelease s
  | .dieReport die => Sys2Proof.Machine.execDieReport die s
  | .packageReady => Sys2Proof.Machine.execPackageReady s
  | .kprResetPkg fn die value => Sys2Proof.Machine.execKprResetPkg fn die value s
  | .kprResetDie fn die value => Sys2Proof.Machine.execKprResetDie fn die value s
  | .dieRejoin die => Sys2Proof.Machine.execDieRejoin die s
  | .dieRejoinTimeout die => Sys2Proof.Machine.execDieRejoinTimeout die s
  | .pcieHotReset die => Sys2Proof.Machine.execPcieHotReset die s
  | .pciePerst die low => Sys2Proof.Machine.execPciePerst die low s
  | .kprSnapArm fn die value => Sys2Proof.Machine.execKprSnapArm fn die value s
  | .snapshotInstant => Sys2Proof.Machine.execSnapshotInstant s
  | .atcLoad c => Sys2Proof.Machine.execAtcLoad c s
  | .atcFwStage c => Sys2Proof.Machine.execAtcFwStage c s
  | .atcFwSelect c => Sys2Proof.Machine.execAtcFwSelect c s
  | .atcFwCommit c => Sys2Proof.Machine.execAtcFwCommit c s
  | .atcQuery c => Sys2Proof.Machine.execAtcQuery c s
  | .atcCtrlRead fn die value => Sys2Proof.Machine.execAtcCtrlRead fn die value s
  | .atcCtrlWrite fn die value => Sys2Proof.Machine.execAtcCtrlWrite fn die value s
  | .atcRawDone die => Sys2Proof.Machine.execAtcRawDone die s
  | .atcLockWrite fn die value => Sys2Proof.Machine.execAtcLockWrite fn die value s
  | .atcDbgChallenge fn die value => Sys2Proof.Machine.execAtcDbgChallenge fn die value s
  | .atcDbgSubmit fn die value => Sys2Proof.Machine.execAtcDbgSubmit fn die value s
  | .registerWrite fn off size value => Sys2Proof.Machine.execRegisterWrite fn off size value s
  | .bitAliasWrite fn off size value => Sys2Proof.Machine.execBitAliasWrite fn off size value s
  | .intEnWrite fn die value => Sys2Proof.Machine.execIntEnWrite fn die value s
  | .intMsixMessage die => Sys2Proof.Machine.execIntMsixMessage die s
  | .pmxPadWrite fn die pad value => Sys2Proof.Machine.execPmxPadWrite fn die pad value s
  | .pmxFunctionChange die => Sys2Proof.Machine.execPmxFunctionChange die s
  | .supplyFault die rail => Sys2Proof.Machine.execSupplyFault die rail s
  | .fbkRead c => Sys2Proof.Machine.execFbkRead c s
  | .fbkQuery c => Sys2Proof.Machine.execFbkQuery c s
  | .fbkCtrlFlush fn die value => Sys2Proof.Machine.execFbkCtrlFlush fn die value s
  | .fbkFlush die => Sys2Proof.Machine.execFbkFlush die s
  | .jtagExtest dr => Sys2Proof.Machine.execJtagExtest dr s
  | .jtagSamplePreload dr => Sys2Proof.Machine.execJtagSamplePreload dr s
  | .jtagIdcode dr => Sys2Proof.Machine.execJtagIdcode dr s
  | .jtagHighz dr => Sys2Proof.Machine.execJtagHighz dr s
  | .jtagClamp dr => Sys2Proof.Machine.execJtagClamp dr s
  | .jtagBypass dr => Sys2Proof.Machine.execJtagBypass dr s
  | .jtagRegacc dr => Sys2Proof.Machine.execJtagRegacc dr s
  | .jtagKdebug die req addr value => Sys2Proof.Machine.execJtagKdebug die req addr value s
  | .keeperHaltTimeout die => Sys2Proof.Machine.execKeeperHaltTimeout die s
  | .loopRelease port => Sys2Proof.Machine.execLoopRelease port s
  | .loopAnswer port data => Sys2Proof.Machine.execLoopAnswer port data s
  | .auxReply port data => Sys2Proof.Machine.execAuxReply port data s
  | .dsiReadResponse port data => Sys2Proof.Machine.execDsiReadResponse port data s
  | .commandTimeout port => Sys2Proof.Machine.execCommandTimeout port s
  | .msixTableWrite fn vec mask => Sys2Proof.Machine.execMsixTableWrite fn vec mask s
  | .resizableBarWrite fn size => Sys2Proof.Machine.execResizableBarWrite fn size s
  | .offWake => Sys2Proof.Machine.execOffWake s
  | .videoOffRepeat port => Sys2Proof.Machine.execVideoOffRepeat port s

end Sys2Proof.Machine
end

