-- ==== Sys2Proof/Safety.lean ====
section
/-!
DEFINITION. The terms that statements use: when a state of the machine is sound, when a doorbell page takes an access, and when the
Keeper takes a mailbox command and finds nothing to refuse.
-/

namespace Sys2Proof.Machine

/-- The invariant of every step: LP5X memory lists strictly rising addresses and no byte that an unlisted address reads as. -/
def State.Sound (s : State) : Prop := Memory.wf s.lp5x = true

/-- The doorbell page of context `c` takes an access of function `f` at byte `off`: the package is ready, the function enabled and its
port out of reset, the page within the function's BAR0, the context assigned to the function, and the home die not asleep (02 R29;
15 R398; 18 R463; 20 R497, R498). -/
def PageTakes (h : Hub) (f c off : Nat) : Prop :=
  ready h = true ∧ (getFn h f).enabled = true ∧ bit h.pkg.perst (f / 16) = false ∧ (pageOffset f c off).isSome = true ∧
    pageAnswers h f c = true ∧ asleep h (homeDie c) = false

/-- The register space of die `d` takes an access of function `fn`: the access reaches it, the die is not asleep, and the function is the
integrator's (15 R398; 20 R498-R501). -/
def RegTakes (h : Hub) (fn d : Nat) : Prop := regReaches h fn d = true ∧ asleep h d = false ∧ fn = integratorFn h

/-- What the loss of die `d` for a reason of 17 R441 leaves: the package does not use the die, its power state is OFF, and its memory is
gone (17 R451, R452; 15 R401). -/
def LostDie (d reason : Nat) (s u : State) : Prop :=
  u.pending = s.pending ∧ dieUp u.hub d = false ∧ u.hub.pkg.why.get d 0 = reason ∧ (getDie u.hub d).pwr.state = .off ∧
    (s.Sound → ∀ a, d * 2 ^ 34 ≤ a → a < (d + 1) * 2 ^ 34 → Memory.read u.lp5x a = 0)

/-- The hub without what reports change: contexts, functions, host memory, what was sent, dies, and fault records. -/
def Hub.rest (h : Hub) : Hub := { h with ctxs := [], fns := [], host := [], outbox := [], dies := [], flt := {} }

/-- A die without what reports change: its registers, its Survey block and its Field book. -/
def Die.rest (d : Die) : Die := { d with regs := {}, srv := {}, fbk := {} }

/-- A context without what completions and events change: its completion tail, phase, reserved slots, event numbers, coalescing and last
writes. -/
def Ctx.core (x : Ctx) : Ctx :=
  { x with cqTail := 0, phase := true, resv := 0, coal := 0, coalAt := 0, last := [], evSeq := 0, evLost := false, lostEvents := 0 }

/-- The hub once the Keeper has fetched and accepted a command of context `c`: the head is past it, a completion slot reserved (02 R32),
and the instant of the acceptance follows that of a higher context in the same nanosecond (01 R18). -/
def fetched (c : Nat) (h : Hub) : Hub := stamp c (setCtx h c (fetchOne (getCtx h c)))

/-- The record of command `c` as the Keeper accepts it now, under an opcode. -/
def taken (op : Nat) (c : Cmd) (h : Hub) : Pend :=
  { ctx := c.ctx, epoch := (getCtx h c.ctx).epoch, opcode := op, tag := c.tag.toNat, sqHead := (fetchOne (getCtx h c.ctx)).sqHead
    flags := c.flags.toNat, time := acceptAt c.ctx h }

/-- The Keeper can take command `c` from the head of its context's ring now: it may fetch it, nothing makes it wait in the ring or hold
for ORDERED, and no Keeper that has a part of it is halted (02 R26, R32, R36, R39; 22 R550). -/
def Fetches (sp : Spec) (c : Cmd) (s : State) : Prop :=
  fetchable s.hub c.ctx = true ∧ sp.waits c s.hub = false ∧ heldOff sp c s.lp5x s.hub = false ∧
    (isOrdered c.flags.toNat = false ∨ (getCtx s.hub c.ctx).resv = 0) ∧
    ∀ d ∈ partDies sp c s.lp5x (fetched c.ctx s.hub), halted (fetched c.ctx s.hub) d = false

/-- The conditions under which the Keeper refuses a command: those of its header, and those of its own. -/
def refusals (sp : Spec) (c : Cmd) (s : State) : List Ck :=
  headChecks sp c (fetched c.ctx s.hub) ++ sp.checks c s.lp5x (fetched c.ctx s.hub)

/-- The Keeper takes the command, and no condition of a refusal holds (02 R37). -/
def Accepts (sp : Spec) (c : Cmd) (s : State) : Prop := Fetches sp c s ∧ ∀ k ∈ refusals sp c s, k.bad = false

/-- The completion, or its absence, that an execution answers. -/
def answer (p : Pend) (r : Res) : Eff :=
  match r.reply with
  | none => (r.hub, r.ws)
  | some (st, off, r0, r1) => (complete p st off r0 r1 r.hub, r.ws)

/-- The machine after an accepted command whose completion is OK with RESULT0 `r0` and RESULT1 `r1`: `h` is the hub with the command's
effect, before the completion is posted. -/
def done (op : Nat) (c : Cmd) (r0 r1 : Nat) (h : Hub) (s : State) : State := { s with hub := completeOk (taken op c s.hub) r0 r1 h }

/-- The same with the command's writes to LP5X. -/
def doneEff (op : Nat) (c : Cmd) (r0 r1 : Nat) (e : Eff) (s : State) : State :=
  { s with hub := completeOk (taken op c s.hub) r0 r1 e.1, lp5x := e.2.foldl Memory.apply s.lp5x }

/-- Does a write to LP5X cover the byte at address `a`? -/
def MemWrite.covers (w : MemWrite) (a : Nat) : Prop :=
  match w with
  | .bytes b d => b ≤ a ∧ a < b + d.length
  | .zeros b n => b ≤ a ∧ a < b + n

/-- The 102 rows that are mailbox commands: what the manual fixes of the command, and the command. -/
def mailRow : Instr → Option (Spec × Cmd)
  | .nop c => some (nopSpec, c)
  | .ctxInfo c => some (ctxInfo, c)
  | .sysInfo c => some (sysInfo, c)
  | .sysTime c => some (sysTime, c)
  | .ctxWatchdog c => some (ctxWatchdog, c)
  | .ctxEventMask c => some (ctxEventMask, c)
  | .ctxAssign c => some (ctxAssign, c)
  | .ctxRevoke c => some (ctxRevoke, c)
  | .sysLock c => some (sysLock, c)
  | .memAlloc c => some (memAlloc, c)
  | .memFree c => some (memFree, c)
  | .surfCreate c => some (surfCreate, c)
  | .surfDestroy c => some (surfDestroy, c)
  | .surfGrant c => some (surfGrant, c)
  | .surfRevoke c => some (surfRevoke, c)
  | .surfQuery c => some (surfQuery, c)
  | .shareSet c => some (shareSetCmd, c)
  | .shareJoin c => some (shareJoin, c)
  | .layerCreate c => some (layerCreate, c)
  | .layerDestroy c => some (layerDestroy, c)
  | .layerGeom c => some (layerGeom, c)
  | .layerStyle c => some (layerStyle, c)
  | .layerQuery c => some (layerQuery, c)
  | .gratSet c => some (gratSet, c)
  | .gratQuery c => some (gratQuery, c)
  | .engineSpares c => some (engineSpares, c)
  | .colourAlloc c => some (colourAlloc, c)
  | .colourLoad c => some (colourLoad, c)
  | .colourFree c => some (colourFree, c)
  | .layerColour c => some (layerColour, c)
  | .layerMatrix c => some (layerMatrix, c)
  | .outputColour c => some (outputColour, c)
  | .outputLut c => some (outputLut, c)
  | .progAlloc c => some (progAlloc, c)
  | .progLoad c => some (progLoad, c)
  | .progFree c => some (progFree, c)
  | .layerProgram c => some (layerProgram, c)
  | .layerParams c => some (layerParams, c)
  | .progQuery c => some (progQuery, c)
  | .txnBegin c => some (txnBegin, c)
  | .txnCommit c => some (txnCommit, c)
  | .txnCancel c => some (txnCancel, c)
  | .txnQuery c => some (txnQuery, c)
  | .layerFence c => some (layerFence, c)
  | .tlCreate c => some (tlCreate, c)
  | .tlSignal c => some (tlSignal, c)
  | .tlDestroy c => some (tlDestroy, c)
  | .tlGrant c => some (tlGrant, c)
  | .tlQuery c => some (tlQuery, c)
  | .outConfig c => some (outConfig, c)
  | .outMode c => some (outMode, c)
  | .outBackground c => some (outBackground, c)
  | .outWriteback c => some (outWriteback, c)
  | .outStatic c => some (outStatic, c)
  | .outGroup c => some (outGroup, c)
  | .outGenlock c => some (outGenlock, c)
  | .outQuery c => some (outQuery, c)
  | .modeQuery c => some (modeQuery, c)
  | .modeWrite c => some (modeWrite, c)
  | .dimLayout c => some (dimLayoutCmd, c)
  | .dimAlgo c => some (dimAlgoCmd, c)
  | .dimTables c => some (dimTablesCmd, c)
  | .dimQuery c => some (dimQuery, c)
  | .dimRead c => some (dimRead, c)
  | .chkGrant c => some (chkGrant, c)
  | .chkConfig c => some (chkConfig, c)
  | .chkExpect c => some (chkExpect, c)
  | .chkRead c => some (chkRead, c)
  | .chkLane c => some (chkLane, c)
  | .pltJob c => some (pltJob, c)
  | .pltAbort c => some (pltAbort, c)
  | .pltQuery c => some (pltQuery, c)
  | .dmaAlloc c => some (dmaAlloc, c)
  | .dmaFree c => some (dmaFree, c)
  | .dmaSubmit c => some (dmaSubmit, c)
  | .dmaAbort c => some (dmaAbort, c)
  | .dmaQuery c => some (dmaQuery, c)
  | .lnkConfig c => some (lnkConfig, c)
  | .lnkQuery c => some (lnkQuery, c)
  | .lnkEq c => some (lnkEq, c)
  | .lnkPower c => some (lnkPower, c)
  | .lnkLoopback c => some (lnkLoopback, c)
  | .lnkCamera c => some (lnkCamera, c)
  | .lnkI2c c => some (lnkI2c, c)
  | .lnkAux c => some (lnkAux, c)
  | .lnkBacklight c => some (lnkBacklight, c)
  | .lnkDsiCmd c => some (lnkDsiCmd, c)
  | .pwrState c => some (pwrStateCmd, c)
  | .pwrLimits c => some (pwrLimits, c)
  | .pwrFloor c => some (pwrFloor, c)
  | .pwrQuery c => some (pwrQuery, c)
  | .fltRead c => some (fltRead, c)
  | .srvTest c => some (srvTest, c)
  | .srvQuery c => some (srvQuery, c)
  | .srvRestore c => some (srvRestore, c)
  | .atcLoad c => some (atcLoad, c)
  | .atcFwStage c => some (atcFwStage, c)
  | .atcFwSelect c => some (atcFwSelect, c)
  | .atcFwCommit c => some (atcFwCommit, c)
  | .atcQuery c => some (atcQuery, c)
  | .fbkRead c => some (fbkReadCmd, c)
  | .fbkQuery c => some (fbkQuery, c)
  | _ => none

end Sys2Proof.Machine
end

