-- ==== Sys2Proof/Certificates/Slice0/Obligations.lean ====
section
/-!
DEFINITION. The statements for the provers.  A statement about a command gives the machine after it: what the equation does not name is
as it was.  `Accepts`, `fetched`, `done` and `PageTakes` are in Safety.lean.
-/

open Sys2Proof Sys2Proof.Machine

/-- The block's step (the pipeline's own rule for a block): the command in front is run on the machine with the queue's rest. -/
def Obligations.StepRunsFront : Prop :=
  ∀ (c : Instr) (rest : List Instr) (s : State), s.pending = c :: rest → Machine.step s = exec c { s with pending := rest }

/-- No command ends in a fault or a refusal of the model, and exec leaves the queue alone; the idle step (log entry 8: the model's
choice). -/
def Obligations.EveryStepAnswers : Prop :=
  (∀ (i : Instr) (s : State), ∃ t, exec i s = .next t ∧ t.pending = s.pending) ∧
  ∀ s : State, s.pending = [] → Machine.step s = .next { s with hub := { s.hub with now := (s.hub.now + 1) % 2 ^ 64 } }

/-- LP5X memory keeps its canonical form over every command and over the idle step. -/
def Obligations.StepKeepsMemoryCanonical : Prop :=
  ∀ s t : State, s.Sound → Machine.step s = .next t → t.Sound

/-- State.reset. -/
def Obligations.ResetIsSound : Prop :=
  State.reset.Sound ∧ State.reset.pending = [] ∧ State.reset.lp5x = [] ∧ State.reset.hub.pkg.phase = .porst ∧
    State.reset.hub.pkg.lock = false ∧
    (∀ c, (getCtx State.reset.hub c).state = .unassigned ∧ (getCtx State.reset.hub c).sqTail = 0 ∧
      (getCtx State.reset.hub c).cqHead = 0 ∧ (getCtx State.reset.hub c).sqHead = 0 ∧ (getCtx State.reset.hub c).cqTail = 0 ∧
      (getCtx State.reset.hub c).badDoorbell = 0 ∧ (getCtx State.reset.hub c).lostEvents = 0 ∧
      (getCtx State.reset.hub c).writeWhileOpen = 0) ∧
    (∀ o, (getOut State.reset.hub o).state = .stopped) ∧
    State.reset.hub.regions = [] ∧ State.reset.hub.atlas = [] ∧ State.reset.hub.layers = [] ∧ State.reset.hub.txns = [] ∧
    State.reset.hub.tls = [] ∧ State.reset.hub.dma = []

/-- Reading after writing, for the two kinds of write that commands make. -/
def Obligations.MemoryReadsWhatWasWritten : Prop :=
  ∀ (m : List Host.Cell) (a : Nat), Memory.wf m = true →
    (∀ bs : Bytes, Memory.wf (Memory.apply m (.bytes a bs)) = true ∧
      (∀ (i : Nat) (hi : i < bs.length), Memory.read (Memory.apply m (.bytes a bs)) (a + i) = bs[i]) ∧
      ∀ x, (x < a ∨ a + bs.length ≤ x) → Memory.read (Memory.apply m (.bytes a bs)) x = Memory.read m x) ∧
    ∀ n : Nat, Memory.wf (Memory.apply m (.zeros a n)) = true ∧
      (∀ x, a ≤ x → x < a + n → Memory.read (Memory.apply m (.zeros a n)) x = lp5xDefault) ∧
      ∀ x, (x < a ∨ a + n ≤ x) → Memory.read (Memory.apply m (.zeros a n)) x = Memory.read m x

/-- The ring and the rows of the opcode table agree. -/
def Obligations.RingEntryIsRow : Prop :=
  ∀ (i : Instr) (sp : Spec) (c : Cmd) (s : State), mailRow i = some (sp, c) →
    exec (.commandFetch c.ctx [cmdRaw (BitVec.ofNat 16 sp.op) c]) s = exec i s

/-- 02, "Command layout"; 00 R7. -/
def Obligations.EntryFieldsArePlaced : Prop :=
  ∀ (op : BitVec 16) (c : Cmd),
    bits (cmdRaw op c).word.toNat 0 16 = op.toNat ∧ bits (cmdRaw op c).word.toNat 16 8 = c.flags.toNat ∧
    bits (cmdRaw op c).word.toNat 24 8 = c.layout.toNat ∧ bits (cmdRaw op c).word.toNat 32 32 = c.tag.toNat ∧
    bits (cmdRaw op c).word.toNat 64 32 = c.txn.toNat ∧ bits (cmdRaw op c).word.toNat 96 32 = c.rsvd.toNat ∧
    (∀ k, k < 48 → bits (cmdRaw op c).word.toNat (8 * (16 + k)) 8 = arg8 c (16 + k)) ∧
    rawOpcode (cmdRaw op c) = op.toNat ∧ rawCmd c.ctx (cmdRaw op c) = c

/-- The opcode table of the mailbox. -/
def Obligations.OpcodesAreDistinct : Prop :=
  (specs.map Spec.op).Nodup ∧ specs.length = 102 ∧ (∀ sp ∈ specs, sp.op < 65536) ∧
    ∀ op, op ∉ specs.map Spec.op → ∀ c m h, (specOf op).checks c m h = [ck 0x0101 0 true]

/-- A command that the Keeper may not fetch waits. -/
def Obligations.CommandWaitsInRing : Prop :=
  ∀ (i : Instr) (sp : Spec) (c : Cmd) (s : State), mailRow i = some (sp, c) →
    (ready s.hub = false ∨ dieUp s.hub (homeDie c.ctx) = false ∨ awake s.hub (homeDie c.ctx) = false ∨
      halted s.hub (homeDie c.ctx) = true ∨ keeperTest s.hub (homeDie c.ctx) = true ∨ (getCtx s.hub c.ctx).state ≠ .opened ∨
      (getCtx s.hub c.ctx).sqHead = (getCtx s.hub c.ctx).sqTail ∨ cqFree (getCtx s.hub c.ctx) = false ∨
      (getCtx s.hub c.ctx).held.isSome = true ∨ s.hub.remote.has c.ctx = true) →
    exec i s = .next s

/-- 02 R37: refusal.  What rests on a choice or an inference of the model: log entry 82. -/
def Obligations.RefusalChangesNothing : Prop :=
  ∀ (i : Instr) (sp : Spec) (c : Cmd) (s : State) (k : Ck), mailRow i = some (sp, c) → Fetches sp c s →
    firstFail sp.listed (refusals sp c s) = some k →
    ∃ t, exec i s = .next t ∧
      t.hub = complete (taken sp.op c s.hub) k.st k.off k.r0 k.r1 (fetched c.ctx s.hub) ∧ t.lp5x = s.lp5x ∧
      t.pending = s.pending ∧ t.hub.rest = (stamp c.ctx s.hub).rest ∧ t.hub.flt = s.hub.flt ∧
      (∀ x, x ≠ c.ctx → getCtx t.hub x = getCtx s.hub x) ∧
      (∀ d, (getDie t.hub d).rest = (getDie s.hub d).rest) ∧
      (getCtx t.hub c.ctx).sqHead = ((getCtx s.hub c.ctx).sqHead + 1) % sqSize (getCtx s.hub c.ctx)

/-- 02 R38, R39: the order of refusals. -/
def Obligations.RefusalRanksFirst : Prop :=
  ∀ (listed : Bool) (l : List Ck),
    (firstFail listed l = none ↔ ∀ k ∈ l, k.bad = false) ∧
    ∀ k, firstFail listed l = some k →
      k ∈ l ∧ k.bad = true ∧ ∀ x ∈ l, x.bad = true → ranksBefore (severalDies l) listed x k = false

/-- 02 R22. -/
def Obligations.PrivilegeIsChecked : Prop :=
  ∀ (i : Instr) (sp : Spec) (c : Cmd) (s : State), mailRow i = some (sp, c) → levelOf (fetched c.ctx s.hub) c.ctx < sp.level →
    ¬ Accepts sp c s ∧
    (Fetches sp c s → (∀ k ∈ refusals sp c s, k.bad = true → famRank k.st ≥ 3) →
      exec i s = .next { s with hub := complete (taken sp.op c s.hub) 0x0301 0 0 0 (fetched c.ctx s.hub) })

/-- 02 R25. -/
def Obligations.LockRefusesIntegrator : Prop :=
  ∀ (i : Instr) (sp : Spec) (c : Cmd) (s : State), mailRow i = some (sp, c) → sp.locks = true → s.hub.pkg.lock = true →
    ¬ Accepts sp c s ∧
    (Fetches sp c s → sp.level ≤ levelOf (fetched c.ctx s.hub) c.ctx →
      (∀ k ∈ refusals sp c s, k.bad = true → famRank k.st ≥ 3) →
      exec i s = .next { s with hub := complete (taken sp.op c s.hub) 0x0305 0 0 0 (fetched c.ctx s.hub) })

/-- 02 R552. -/
def Obligations.NopAndSysTime : Prop :=
  ∀ (c : Cmd) (s : State),
    (Accepts nopSpec c s → exec (.nop c) s = .next (done 0x0001 c 0 (arg64 c 16) (fetched c.ctx s.hub) s)) ∧
    (Accepts sysTime c s →
      exec (.sysTime c) s = .next (done 0x0004 c 0 (taken 0x0004 c s.hub).time (fetched c.ctx s.hub) s) ∧
      (taken 0x0004 c s.hub).time = (fetched c.ctx s.hub).now ∧
      ((s.hub.accAt.1 = s.hub.now → s.hub.accAt.2 ≤ c.ctx) → (taken 0x0004 c s.hub).time = s.hub.now)) ∧
    (bits c.flags.toNat 3 5 = 0 → isIndirect c.flags.toNat = false → c.layout = 1 → c.txn = 0 → c.rsvd = 0 →
      (Fetches nopSpec c s → argN c 24 40 ≠ 0 →
        ∃ o, 24 ≤ o ∧ o < 64 ∧
          exec (.nop c) s = .next { s with hub := complete (taken 0x0001 c s.hub) 0x0103 o 0 0 (fetched c.ctx s.hub) }) ∧
      (Fetches sysTime c s → argN c 16 48 ≠ 0 →
        ∃ o, 16 ≤ o ∧ o < 64 ∧
          exec (.sysTime c) s = .next { s with hub := complete (taken 0x0004 c s.hub) 0x0103 o 0 0 (fetched c.ctx s.hub) }))

/-- 02 R553, R554, R25, R26.  What rests on a choice or an inference of the model: log entries 32, 81. -/
def Obligations.ContextCommands : Prop :=
  ∀ (c : Cmd) (s : State),
    (Accepts ctxInfo c s →
      exec (.ctxInfo c) s = .next (done 0x0002 c
        (c.ctx + 2 ^ 12 * (getCtx s.hub c.ctx).level + 2 ^ 14 * (getCtx s.hub c.ctx).fn + 2 ^ 18 * b2n s.hub.pkg.lock)
        ((getCtx s.hub c.ctx).evMask + 2 ^ 14 * (getCtx s.hub c.ctx).wdog + 2 ^ 32 * (getCtx s.hub c.ctx).evSeq)
        (fetched c.ctx s.hub) s)) ∧
    (Accepts sysInfo c s →
      exec (.sysInfo c) s = .next (done 0x0003 c 64 0
        (ctxWrite c.ctx (arg64 c 16) (sysBlock (fetched c.ctx s.hub)) (fetched c.ctx s.hub)) s)) ∧
    (Accepts ctxWatchdog c s →
      exec (.ctxWatchdog c) s = .next (done 0x0005 c 0 0 (updCtx (fetched c.ctx s.hub) c.ctx fun x =>
        { x with wdog := arg32 c 16, wdogAt := (fetched c.ctx s.hub).now, warned := false }) s)) ∧
    (Accepts ctxEventMask c s →
      exec (.ctxEventMask c) s = .next (done 0x0006 c 0 0 (updCtx (fetched c.ctx s.hub) c.ctx fun x =>
        { x with evMask := arg16 c 16 ||| 1 }) s)) ∧
    (Accepts ctxAssign c s →
      exec (.ctxAssign c) s = .next (done 0x0010 c 0 0 (updCtx (fetched c.ctx s.hub) (arg16 c 16) fun x =>
        { state := .closed, reason := 0, level := arg8 c 19, fn := arg8 c 18, epoch := x.epoch }) s)) ∧
    (Accepts Machine.sysLock c s →
      exec (.sysLock c) s = .next (done 0x0012 c 0 0
        { fetched c.ctx s.hub with pkg := { s.hub.pkg with lock := true } } s)) ∧
    (Accepts Machine.ctxRevoke c s → (getCtx (fetched c.ctx s.hub) (arg16 c 16)).state ≠ .opened →
      exec (.ctxRevoke c) s = .next (done 0x0011 c 0 0 (updCtx (fetched c.ctx s.hub) (arg16 c 16) fun x =>
        if arg8 c 18 = 0 then { x with state := .unassigned, tear := none } else { x with state := .closed }) s)) ∧
    (Accepts Machine.ctxRevoke c s → (getCtx (fetched c.ctx s.hub) (arg16 c 16)).state = .opened →
      ∃ t, exec (.ctxRevoke c) s = .next t ∧ t.pending = s.pending ∧
        (getCtx t.hub (arg16 c 16)).state = .closing ∧ (getCtx t.hub (arg16 c 16)).reason = 8 ∧
        (getCtx t.hub (arg16 c 16)).tear = some { unassign := decide (arg8 c 18 = 0), revoke := some (taken 0x0011 c s.hub) } ∧
        ∀ k, k ≠ arg16 c 16 → (getCtx t.hub k).state = (getCtx s.hub k).state)

/-- 02 R33; the watchdog's restart: 02, CTX_WATCHDOG. -/
def Obligations.IndexWritesAreGuarded : Prop :=
  ∀ (c f : Nat) (v : BitVec 32) (s : State),
    let h := accessWakes (homeDie c) f s.hub
    let x := getCtx s.hub c
    let t := v.toNat % 65536
    let y : Ctx := if x.state = .opened then { x with wdogAt := s.hub.now, warned := false } else x
    let sq : Ctx :=
      if x.state = .opened ∧ t < sqSize x ∧
          (x.sqTail + sqSize x - x.sqHead) % sqSize x ≤ (t + sqSize x - x.sqHead) % sqSize x then { y with sqTail := t }
      else { y with badDoorbell := satInc 255 x.badDoorbell }
    let cq : Ctx :=
      if x.state = .opened ∧ t < cqSize x ∧
          (t + cqSize x - x.cqHead) % cqSize x ≤ (x.cqTail + cqSize x - x.cqHead) % cqSize x then { x with cqHead := t }
      else { x with badDoorbell := satInc 255 x.badDoorbell }
    (PageTakes s.hub f c 0 → exec (.dblSqTailWrite c f v) s = .next { s with hub := setCtx h c sq }) ∧
    (PageTakes s.hub f c 8 → exec (.dblCqHeadWrite c f v) s = .next { s with hub := setCtx h c cq })

/-- 02 R31 (R26 for what OPEN sets). -/
def Obligations.OpenChecksRings : Prop :=
  ∀ (c f : Nat) (v : BitVec 32) (s : State), PageTakes s.hub f c 0x38 → v.toNat.testBit 0 = true → v.toNat.testBit 1 = false →
    (getCtx s.hub c).state = .closed →
    let x := getCtx s.hub c
    let sq := bits x.cfg.toNat 0 4
    let cq := bits x.cfg.toNat 4 4
    let a := x.sqBase.toNat
    let b := x.cqBase.toNat
    let sizeBad := ¬ (4 ≤ sq ∧ sq ≤ 12 ∧ 4 ≤ cq ∧ cq ≤ 12)
    let baseBad := a = 0 ∨ b = 0 ∨ (a < b + 32 * 2 ^ cq ∧ b < a + 64 * 2 ^ sq)
    let vecBad := bit x.cfg.toNat 14 = true ∧ (getFn s.hub (ctxFn s.hub c)).msixSize ≤ bits x.cfg.toNat 8 6
    let masterBad := (getFn s.hub (ctxFn s.hub c)).master = false
    ∃ y : Ctx, exec (.dblCtrlOpen c f v) s = .next { s with hub := setCtx (accessWakes (homeDie c) f s.hub) c y } ∧
      (sizeBad → y = { x with reason := 1 }) ∧
      (¬ sizeBad → baseBad → y = { x with reason := 2 }) ∧
      (¬ sizeBad → ¬ baseBad → vecBad → y = { x with reason := 3 }) ∧
      (¬ sizeBad → ¬ baseBad → ¬ vecBad → masterBad → y = { x with reason := 4 }) ∧
      (¬ sizeBad → ¬ baseBad → ¬ vecBad → ¬ masterBad →
        y.state = .opened ∧ y.reason = 0 ∧ y.sqTail = 0 ∧ y.cqHead = 0 ∧ y.sqHead = 0 ∧ y.cqTail = 0 ∧ y.phase = true ∧
        y.wdog = 0 ∧ y.evMask = 0x3FFF ∧ y.evSeq = 0 ∧ y.sqBaseL = x.sqBase ∧ y.cqBaseL = x.cqBase ∧ y.cfgL = x.cfg ∧
        y.sqBase = x.sqBase ∧ y.cqBase = x.cqBase ∧ y.cfg = x.cfg ∧ y.level = x.level ∧ y.fn = x.fn)

/-- 02, "Completion layout"; R34, R36, R27. -/
def Obligations.CompletionEntryIsPosted : Prop :=
  ∀ (p : Pend) (st off r0 r1 : Nat) (h : Hub),
    let x := getCtx h p.ctx
    let t := complete p st off r0 r1 h
    let f := ctxFn h p.ctx
    let a := x.cqBaseL.toNat + 32 * x.cqTail
    t.rest = h.rest ∧ (∀ k, k ≠ p.ctx → getCtx t k = getCtx h k) ∧ (∀ k, (getCtx t k).core = (getCtx h k).core) ∧
      (∀ d, (getDie t d).rest = (getDie h d).rest) ∧ t.flt = h.flt ∧
      (x.epoch = p.epoch → mayPost x = true → ¬ (isQuiet p.flags = true ∧ st = 0) →
        hostRead f a t 32 = (leBytes 2 st ++ leBytes 2 p.opcode ++ leBytes 4 p.tag ++ leBytes 2 p.sqHead ++ leBytes 1 (b2n x.phase) ++
          leBytes 1 off ++ leBytes 4 (r0 % 2 ^ 32) ++ leBytes 8 (r1 % 2 ^ 64) ++ leBytes 8 p.time).map some ∧
        (getCtx t p.ctx).cqTail = (x.cqTail + 1) % cqSize x ∧ (getCtx t p.ctx).resv = x.resv - 1 ∧
        (getCtx t p.ctx).phase = if (x.cqTail + 1) % cqSize x = 0 then !x.phase else x.phase) ∧
      (x.epoch = p.epoch → mayPost x = true → isQuiet p.flags = true → st = 0 →
        getCtx t p.ctx = { x with resv := x.resv - 1 } ∧ t.host = h.host ∧ t.fns = h.fns ∧ t.outbox = h.outbox) ∧
      (x.epoch ≠ p.epoch ∨ mayPost x = false → getCtx t p.ctx = x ∧ t.host = h.host ∧ t.fns = h.fns ∧ t.outbox = h.outbox)

/-- 02 R41. -/
def Obligations.EventIsDeliveredOrCounted : Prop :=
  ∀ (c code r0 r1 : Nat) (h : Hub),
    let x := getCtx h c
    let t := postEvent c code r0 r1 h
    let seen := bit x.evMask (code / 256) = true ∨ code / 256 = 0
    let y := { x with evSeq := (x.evSeq + 1) % 2 ^ 32 }
    let a := x.cqBaseL.toNat + 32 * x.cqTail
    t.rest = h.rest ∧ t.dies = h.dies ∧ t.flt = h.flt ∧ (∀ k, k ≠ c → getCtx t k = getCtx h k) ∧
      (x.state ≠ .opened → t = h) ∧
      (x.state = .opened → ¬ seen → t = setCtx h c y) ∧
      (x.state = .opened → seen → cqFree x = false →
        t = setCtx h c { y with lostEvents := satInc 255 x.lostEvents, evLost := true }) ∧
      (x.state = .opened → seen → cqFree x = true →
        hostRead (ctxFn h c) a t 32 = (leBytes 2 0 ++ leBytes 2 code ++ leBytes 4 x.evSeq ++ leBytes 2 x.sqHead ++
          leBytes 1 (b2n x.phase + (2 + 4 * b2n x.evLost)) ++ leBytes 1 255 ++ leBytes 4 (r0 % 2 ^ 32) ++ leBytes 8 (r1 % 2 ^ 64) ++
          leBytes 8 h.now).map some ∧
        (getCtx t c).cqTail = (x.cqTail + 1) % cqSize x ∧ (getCtx t c).evSeq = (x.evSeq + 1) % 2 ^ 32 ∧
        (getCtx t c).evLost = false ∧ (getCtx t c).lostEvents = x.lostEvents ∧ (getCtx t c).resv = x.resv)

/-- 02 R29, R30. -/
def Obligations.RingConfigAndForeignAccess : Prop :=
  (∀ (c f off size : Nat) (v : BitVec 64) (s : State), PageTakes s.hub f c off → accessOk off size = true →
    let h := accessWakes (homeDie c) f s.hub
    let x := getCtx s.hub c
    let open' := x.state = .opened ∨ x.state = .closing
    (0x20 ≤ off → off < 0x34 → open' → exec (.dblRingConfigWrite c f off size v) s =
      .next { s with hub := setCtx h c { x with writeWhileOpen := satInc 255 x.writeWhileOpen } }) ∧
    (0x20 ≤ off → off < 0x28 → ¬ open' → exec (.dblRingConfigWrite c f off size v) s =
      .next { s with hub := setCtx h c { x with sqBase := baseBits (regHalf x.sqBase.toNat (off - 0x20) size v.toNat) } }) ∧
    (0x28 ≤ off → off < 0x30 → ¬ open' → exec (.dblRingConfigWrite c f off size v) s =
      .next { s with hub := setCtx h c { x with cqBase := baseBits (regHalf x.cqBase.toNat (off - 0x28) size v.toNat) } }) ∧
    (0x30 ≤ off → off < 0x34 → ¬ open' → exec (.dblRingConfigWrite c f off size v) s =
      .next { s with hub := setCtx h c { x with cfg := BitVec.ofNat 32 v.toNat &&& 0xFFFF7FFF } })) ∧
  (∀ (c f off a : Nat) (s : State), ready s.hub = true → (getFn s.hub f).enabled = true → bit s.hub.pkg.perst (f / 16) = false →
    pageOffset f c off = some a →
    (pageAnswers s.hub f c = false →
      exec (.doorbellAccessRefused c f off true) s = .next { s with hub := accessFault f a s.hub } ∧
      exec (.doorbellAccessRefused c f off false) s =
        .next { s with hub := send (.readData f [0, 0, 0, 0]) (accessFault f a s.hub) }) ∧
    (pageAnswers s.hub f c = true → asleep s.hub (homeDie c) = false →
      exec (.doorbellAccessRefused c f off false) s = .next (onHub (fun h =>
        send (.readData f (leBytes 4 (pageRead h c (off / 4 * 4)))) (accessWakes (homeDie c) f h)) s)))

/-- 02 R26, R27: what ends with a context ends at once, unless a command of it is accepted and not yet ordered (`ending`).
What rests on a choice or an inference of the model: log entries 4, 30, 81. -/
def Obligations.ContextsEndAndReopen : Prop :=
  let ends (s t : State) (c reason : Nat) : Prop :=
    (getCtx t.hub c).state = .closing ∧ (getCtx t.hub c).reason = reason ∧
      (getCtx t.hub c).tear = some { unassign := false, revoke := none } ∧ (getCtx t.hub c).ending = s.hub.remote.has c ∧
      (s.hub.remote.has c = false → (t.hub.txns.any fun e => e.2.owner == c) = false ∧
        (t.hub.tls.any fun e => e.2.owner == c) = false ∧ (t.hub.outs.any fun e => e.2.owner == some c) = false) ∧
      ∀ k, k ≠ c → (getCtx t.hub k).state = (getCtx s.hub k).state
  (∀ (c f : Nat) (v : BitVec 32) (s : State), PageTakes s.hub f c 0x38 → v.toNat.testBit 1 = true →
    let h := accessWakes (homeDie c) f s.hub
    let x := getCtx s.hub c
    (x.state = .opened → ∃ t, exec (.dblCtrlClose c f v) s = .next t ∧ t.pending = s.pending ∧ ends s t c 5) ∧
    (x.state = .faulted → x.ending = false →
      exec (.dblCtrlClose c f v) s = .next { s with hub := setCtx h c { x with state := .closed } }) ∧
    (x.state ≠ .opened → ¬ (x.state = .faulted ∧ x.ending = false) → exec (.dblCtrlClose c f v) s =
      .next { s with hub := setCtx h c { x with badDoorbell := satInc 255 x.badDoorbell } })) ∧
  (∀ (f : Nat) (s : State), ∃ t, exec (.functionLevelReset f) s = .next t ∧ t.pending = s.pending ∧
    (∀ k ∈ openOf s.hub f, (getCtx t.hub k).state = .closing ∧ (getCtx t.hub k).reason = 6) ∧
    (∀ k, k ∉ openOf s.hub f → (getCtx t.hub k).state = (getCtx s.hub k).state) ∧
    (f = integratorFn s.hub → ∀ p ∈ privChans s.hub, (getPriv t.hub p.1 p.2).busy = none)) ∧
  (∀ (f : Nat) (on : Bool) (s : State),
    (portEarly s.hub f = true → exec (.busMasterDisable f on) s = .next { s with hub := send (.refusal f 2) s.hub }) ∧
    (portEarly s.hub f = false → cfgTakes s.hub f = false → exec (.busMasterDisable f on) s = .next s) ∧
    (portEarly s.hub f = false → cfgTakes s.hub f = true → on = true → exec (.busMasterDisable f on) s =
      .next { s with hub := updFn s.hub f fun x => { x with master := true, enabled := true } }) ∧
    (portEarly s.hub f = false → cfgTakes s.hub f = true → on = false →
      ∃ t, exec (.busMasterDisable f on) s = .next t ∧ t.pending = s.pending ∧ (getFn t.hub f).master = false ∧
        (∀ k ∈ openOf s.hub f, (getCtx t.hub k).state = .closing ∧ (getCtx t.hub k).reason = 6) ∧
        ∀ k, k ∉ openOf s.hub f → (getCtx t.hub k).state = (getCtx s.hub k).state)) ∧
  (∀ (c : Nat) (s : State), (getCtx s.hub c).state = .opened → 0 < (getCtx s.hub c).wdog →
    ∃ t, exec (.watchdogExpiry c) s = .next t ∧ t.pending = s.pending ∧ ends s t c 7 ∧
      (getCtx s.hub c).wdogAt + 1000000 * (getCtx s.hub c).wdog ≤ t.hub.now) ∧
  (∀ (c : Nat) (a : BitVec 64) (s : State), (getCtx s.hub c).state = .opened →
    ∃ t, exec (.ringAccessError c a false) s = .next t ∧ t.pending = s.pending ∧ (getCtx t.hub c).state = .faulted ∧
      (getCtx t.hub c).reason = 9 ∧ (getCtx t.hub c).tear = none ∧
      (s.hub.remote.has c = false → t.hub.dma.any (fun q => q.2.owner == c) = false) ∧
      ∀ k, k ≠ c → (getCtx t.hub k).state = (getCtx s.hub k).state) ∧
  (∀ (c : Nat) (t : Teardown) (s : State), (getCtx s.hub c).state = .closing → (getCtx s.hub c).tear = some t →
    (getCtx s.hub c).ending = false →
    let h := setCtx s.hub c { getCtx s.hub c with state := if t.unassign then .unassigned else .closed, tear := none }
    let g := { h with dma := h.dma.filter fun q => q.2.owner != c }
    (t.revoke = none → exec (.teardownComplete c) s = .next { s with hub := g }) ∧
    (∀ p, t.revoke = some p → exec (.teardownComplete c) s = .next { s with hub := complete p 0 255 0 0 g }))

/-- 02 R42, R554.  What rests on a choice or an inference of the model: log entry 30. -/
def Obligations.ContextTimers : Prop :=
  ∀ (c : Nat) (s : State),
    let x := getCtx s.hub c
    (mayPost x = true → bit x.cfgL.toNat 14 = true → 0 < x.coal → 0 < bits x.cfgL.toNat 24 8 →
      exec (.msixCoalesceTimeout c) s = .next (onHub (fun h =>
        let g := setCtx { h with now := max h.now (x.coalAt + 4000 * bits x.cfgL.toNat 24 8) } c { x with coal := 0 }
        markMessage c g (msix (ctxFn g c) (bits x.cfgL.toNat 8 6) g)) s)) ∧
    (x.state = .opened → 0 < x.wdog → x.warned = false →
      exec (.watchdogWarn c) s = .next (onHub (fun h => postEvent c 0x0080 x.wdog (x.wdogAt + 1000000 * x.wdog)
        (setCtx { h with now := max h.now (x.wdogAt + 500000 * x.wdog) } c { x with warned := true })) s))

/-- 02 R32, R36, R39.  What rests on a choice or an inference of the model: log entries 25, 26, 82. -/
def Obligations.FetchOrderAndParts : Prop :=
  (∀ (ctx : Nat) (r : RawCmd) (s : State), Accepts (specOf (rawOpcode r)) (rawCmd ctx r) s →
    exec (.commandFetch ctx [r]) s = .next (act (fun m h =>
      let p := taken (specOf (rawOpcode r)).op (rawCmd ctx r) h
      answer p ((specOf (rawOpcode r)).run (rawCmd ctx r) p m (fetched ctx h))) s)) ∧
  (∀ (ctx q : Nat) (r : RawCmd) (s : State),
    let sp := specOf (rawOpcode r)
    let c := rawCmd ctx r
    let d := homeDie ctx
    let g := stamp ctx (setCtx s.hub ctx { getCtx s.hub ctx with held := none })
    (getCtx s.hub ctx).held = some (r, q) → (getCtx s.hub ctx).state = .opened → (getCtx s.hub ctx).resv = 1 → ready s.hub = true →
    dieUp s.hub d = true → awake s.hub d = true → halted s.hub d = false → sp.waits c s.hub = false → heldOff sp c s.lp5x s.hub = false →
    (∀ d ∈ partDies sp c s.lp5x g, halted g d = false) → (∀ k ∈ headChecks sp c g ++ sp.checks c s.lp5x g, k.bad = false) →
    exec (.orderedRelease ctx) s = .next (act (fun m _ => answer (pendOf sp.op c q g) (sp.run c (pendOf sp.op c q g) m g)) s) ∧
    (rawOpcode r = 1 → exec (.orderedRelease ctx) s = .next { s with hub := completeOk (pendOf 1 c q g) 0 (arg64 c 16) g }) ∧
    (rawOpcode r = 4 → exec (.orderedRelease ctx) s = .next { s with hub := completeOk (pendOf 4 c q g) 0 (pendOf 4 c q g).time g })) ∧
  (∀ (ctx : Nat) (raw : RawCmd) (s : State),
    let sp := specOf (rawOpcode raw)
    let c := rawCmd ctx raw
    let ds := partDies sp c s.lp5x s.hub
    let g := fetched ctx s.hub
    s.hub.remote.has ctx = false → ds ≠ [] → (isOrdered c.flags.toNat = false ∨ (getCtx s.hub ctx).resv = 0) →
    firstFail sp.listed (headChecks sp c s.hub) = none → fetchable s.hub ctx = true → sp.waits c s.hub = false →
    heldOff sp c s.lp5x s.hub = false → ∀ die, die ∉ ds → exec (.remotePartRequest ctx die raw) s = .next { s with hub :=
      { g with remote := g.remote.set ctx { raw := cmdRaw (BitVec.ofNat 16 sp.op) c, sqHead := (getCtx g ctx).sqHead, time := g.now, dies := ds },
               outbox := g.outbox ++ ds.map fun d => Sent.keeper (homeDie ctx) d 0 } }) ∧
  (∀ (ctx die : Nat) (r : Remote) (s : State), s.hub.remote.find ctx = some r → die ∈ r.dies → answered r die = false →
    dieUp s.hub die = true → halted s.hub die = false →
    let sp := specOf (rawOpcode r.raw)
    let g := stamp ctx s.hub
    let mine := (sp.checks (rawCmd ctx r.raw) s.lp5x g).filter fun k => k.die == some die
    let tells (q : Remote) : State := { s with hub := send (.keeper die (homeDie ctx) 1) { g with remote := g.remote.set ctx q } }
    (sp.waits (rawCmd ctx r.raw) s.hub = true → exec (.remotePartRequest ctx die r.raw) s = .next s) ∧
    (sp.waits (rawCmd ctx r.raw) s.hub = false → firstFail sp.listed mine = none →
      exec (.remotePartRequest ctx die r.raw) s = .next (tells { r with passed := r.passed ++ [die] })) ∧
    (∀ k, sp.waits (rawCmd ctx r.raw) s.hub = false → firstFail sp.listed mine = some k →
      exec (.remotePartRequest ctx die r.raw) s = .next (tells { r with refused := r.refused ++ [(die, k.st, k.off, k.r0, k.r1)] }))) ∧
  (∀ (ctx die : Nat) (r : Remote) (s : State), s.hub.remote.find ctx = some r → answered r die = true → r.heard.contains die = false →
    halted s.hub (homeDie ctx) = false →
    let g := { r with heard := r.heard ++ [die] }
    (r.dies.all g.heard.contains = false →
      exec (.remotePartAnswer ctx die) s = .next { s with hub := { s.hub with remote := s.hub.remote.set ctx g } }) ∧
    (r.dies.all g.heard.contains = true →
      exec (.remotePartAnswer ctx die) s = .next (act (fun m h =>
        let a := partsAnswered ctx g m { h with remote := h.remote.del ctx }
        let b := endsNow ctx (a.2.foldl Memory.apply m) a.1
        (b.1, a.2 ++ b.2)) s) ∧
      ∀ q st off r0 r1 rest, (getCtx s.hub ctx).ending = false → r.refused = (q, st, off, r0, r1) :: rest → rest = [] →
        (∀ k ∈ headChecks (specOf (rawOpcode r.raw)) (rawCmd ctx r.raw) { s.hub with remote := s.hub.remote.del ctx } ++
          (specOf (rawOpcode r.raw)).checks (rawCmd ctx r.raw) s.lp5x { s.hub with remote := s.hub.remote.del ctx },
          k.bad = true → ∃ d, k.die = some d ∧ d ∈ r.dies) →
        exec (.remotePartAnswer ctx die) s = .next (onHub (fun h =>
          complete (remotePend ctx r h) st off r0 r1 { h with remote := h.remote.del ctx }) s))) ∧
  (∀ (ctx : Nat) (r : Remote) (s : State), s.hub.remote.find ctx = some r → halted s.hub (homeDie ctx) = false →
    (getCtx s.hub ctx).ending = false →
    exec (.remoteTimeout ctx) s = .next (onHub (fun h => complete (remotePend ctx r h) 0x0802 255 0 0
      { h with now := max h.now (r.time + 100000), remote := h.remote.del ctx }) s))

/-- 03 R46-R49, R75.  What rests on a choice or an inference of the model: log entry 10. -/
def Obligations.RegionsAreAllocatedAndFreed : Prop :=
  ∀ (c : Cmd) (s : State),
    (Accepts memAlloc c s →
      let h := fetched c.ctx s.hub
      let d := arg8 c 16
      let n := arg16 c 18
      let f := ctxFn h c.ctx
      ∃ r gs w, memFind h c.ctx d n = some (r, gs) ∧ winRun (getFn h f) n = some w ∧ gs.length = n ∧
        r / 256 = d ∧ h.regions.has r = false ∧
        let reg : Region := { owner := c.ctx, granules := gs, fn := f, win := w, group := (getCtx h c.ctx).group }
        ∃ t, exec (.memAlloc c) s = .next t ∧ t.pending = s.pending ∧
          t.hub = completeOk (taken 0x0100 c s.hub) r (w * granBytes)
            (updFn { h with regions := h.regions.set r reg } f fun x => { x with win := mapRegion r w n x.win }) ∧
          (s.Sound → ∀ g ∈ gs, ∀ i, i < granBytes → Memory.read t.lp5x (d * 2 ^ 34 + g * granBytes + i) = 0) ∧
          (s.Sound → ∀ a, (∀ g ∈ gs, ¬ (d * 2 ^ 34 + g * granBytes ≤ a ∧ a < d * 2 ^ 34 + g * granBytes + granBytes)) →
            Memory.read t.lp5x a = Memory.read s.lp5x a)) ∧
    (Accepts memFree c s →
      exec (.memFree c) s = .next (done 0x0101 c 0 0 (freeRegion (arg16 c 16) (fetched c.ctx s.hub)) s))

/-- 03 R76, R78, R79.  What rests on a choice or an inference of the model: log entries 10, 11, 81. -/
def Obligations.SurfacesAndShares : Prop :=
  ∀ (c : Cmd) (s : State),
    let h := fetched c.ctx s.hub
    (Accepts surfCreate c s → ∃ ix, freeEntry h (arg16 c 16 / 256) = some ix ∧
      let e : Surf :=
        { retiring := false, gen := h.gens.get ix 1, fmt := arg16 c 18, width := arg16 c 20, height := arg16 c 22, region := arg16 c 16
          budget := arg16 c 24, planes := [(arg32 c 28, arg32 c 32), (arg32 c 36, arg32 c 40), (arg32 c 44, arg32 c 48)]
          owner := c.ctx, grants := [] }
      exec (.surfCreate c) s = .next (done 0x0110 c (ix + 65536 * h.gens.get ix 1) 0
        { h with atlas := h.atlas.set ix e, freed := h.freed.filter (· != ix) } s)) ∧
    (Accepts surfQuery c s → ∃ e, surfOf h (arg32 c 16) = some e ∧
      exec (.surfQuery c) s = .next (done 0x0114 c 64 0
        (ctxWrite c.ctx (arg64 c 24) (surfImage h c.ctx (arg32 c 16) e) h) s)) ∧
    (Accepts shareSetCmd c s →
      let e : Share := { bw := arg16 c 18, cycles := arg16 c 20, energy := arg8 c 22, mem := arg32 c 24 }
      exec (.shareSet c) s = .next (done 0x0120 c 0 0 { h with shares := h.shares.set (arg8 c 17 * 32 + arg8 c 16) e } s)) ∧
    (Accepts Machine.shareJoin c s →
      exec (.shareJoin c) s = .next (done 0x0121 c 0 0 (updCtx h (arg16 c 16) fun x => { x with group := arg8 c 18 }) s))

/-- 03 R53, R65-R68, R77.  What rests on a choice or an inference of the model: log entry 40. -/
def Obligations.RightsOnSurfaces : Prop :=
  (∀ (c : Cmd) (s : State),
    let h := fetched c.ctx s.hub
    let v := arg32 c 16
    let g := arg16 c 20
    (Accepts surfGrant c s → ∃ e, surfOf h v = some e ∧
      let h1 := { h with atlas := h.atlas.set (v % 65536) (setGrant e g (arg8 c 22)) }
      let gone := (if bit (grantOf e g) 0 && !bit (arg8 c 22) 0 then 1 else 0) + (if bit (grantOf e g) 1 && !bit (arg8 c 22) 1 then 2 else 0)
      (gone = 0 → exec (.surfGrant c) s = .next (done 0x0112 c 0 0 h1 s)) ∧
      (gone ≠ 0 → exec (.surfGrant c) s = .next (doneEff 0x0112 c 0 0
        (let q := stopUses v [(g, gone)] 0x0303 s.lp5x h1
         (tellLost v [(g, gone)] false q.1, q.2)) s))) ∧
    (Accepts Machine.surfRevoke c s → ∃ e, surfOf h v = some e ∧
      let left := (if bit (grantOf e g) 0 && !bit (arg8 c 22) 0 then 1 else 0) + (if bit (grantOf e g) 1 && !bit (arg8 c 22) 1 then 2 else 0)
      (left = grantOf e g → exec (.surfRevoke c) s = .next (done 0x0113 c 0 0 h s)) ∧
      (left ≠ grantOf e g → exec (.surfRevoke c) s = .next (doneEff 0x0113 c 0 0 (putGrant v g left s.lp5x h) s))) ∧
    (Accepts Machine.surfDestroy c s → ∃ e, surfOf h v = some e ∧ h.atlas.find (v % 65536) = some e ∧
      exec (.surfDestroy c) s = .next (doneEff 0x0111 c 0 0
        (let q := stopUses v (e.grants ++ [(e.owner, 3)]) 0x0304 s.lp5x h
         (tellLost v e.grants true { q.1 with atlas := q.1.atlas.upd (v % 65536) fun x => { x with retiring := true } }, q.2)) s))) ∧
  (∀ (ix : Nat) (e : Surf) (s : State), s.hub.atlas.find ix = some e → e.retiring = true →
    frameReads s.hub (handleOf ix e) = false → workUses s.hub (handleOf ix e) = false →
    let h := { s.hub with
      atlas := s.hub.atlas.del ix, gens := s.hub.gens.set ix (e.gen + 1), freed := s.hub.freed ++ [ix] }
    ((∃ r, h.regions.find e.region = some r ∧ r.dead = true ∧ regionUsed h e.region = false) →
      exec (.atlasEntryFree ix) s = .next { s with hub := freeRegion e.region h }) ∧
    (¬ (∃ r, h.regions.find e.region = some r ∧ r.dead = true ∧ regionUsed h e.region = false) →
      exec (.atlasEntryFree ix) s = .next { s with hub := h }))

/-- 03 R47, R48.  What rests on a choice or an inference of the model: log entry 89. -/
def Obligations.Bar2GoesThroughWindowTable : Prop :=
  ∀ (f len : Nat) (rid : BitVec 16) (off : BitVec 64) (data : List (BitVec 8)) (s : State),
    ready s.hub = true → (getFn s.hub f).enabled = true →
    let at' := fun i => bar2Addr s.hub f (off.toNat + i)
    let far := (((List.range len).filterMap fun i => (at' i).map (· / 64)).eraseDups).filter fun g => g / 2 ^ 28 ≠ f / 16
    let read (h : Hub) : State :=
      let g := remoteRead (f / 16) far s.lp5x h
      let m := remoteView g (f / 16) portUnit s.lp5x
      { s with hub := send (.readData f ((List.range len).map fun i => match at' i with | none => 0 | some a => Memory.read m a)) g }
    let value := fun i => match at' i with | none => (0 : Byte) | some a => Memory.read s.lp5x a
    ((∀ i, i < len → (at' i).isSome = true) → exec (.bar2Access f rid off false len data) s = .next (read s.hub) ∧
      (far = [] → (getDie s.hub (f / 16)).rbuf = [] →
        exec (.bar2Access f rid off false len data) s = .next { s with hub := send (.readData f ((List.range len).map value)) s.hub })) ∧
    (∀ i, i < len → at' i = none → (∀ j, j < i → (at' j).isSome = true) →
      exec (.bar2Access f rid off false len data) s = .next (read (bar2Fault f rid.toNat (off.toNat + i) s.hub))) ∧
    (∃ t, exec (.bar2Access f rid off true len data) s = .next t ∧ t.pending = s.pending ∧
      (s.Sound → (∀ a, (∀ i, i < data.length → at' i ≠ some a) → Memory.read t.lp5x a = Memory.read s.lp5x a) ∧
        ∀ i b, data[i]? = some b → (∀ j, i < j → j < data.length → at' j ≠ at' i) → ∀ a, at' i = some a → Memory.read t.lp5x a = b))

/-- 04 R82, R107, R108; 05 R141, R142; 06 R158, R159; 07 R192.  What rests on a choice or an inference of the model: log entry 81. -/
def Obligations.StagedLayerRecords : Prop :=
  ∀ (c : Cmd) (s : State),
    let h := fetched c.ctx s.hub
    let v := arg16 c 16
    let r := stagedRec h c v
    let put (x : LayerRec) : Hub := updStaged h c fun t => { t with layers := t.layers.set v x }
    (Accepts layerGeom c s → exec (.layerGeom c) s = .next (done 0x0202 c 0 0
      (let x := { r with enable := (arg8 c 18).testBit 0, live := (arg8 c 18).testBit 1, transform := arg8 c 19, source := arg32 c 20,
                         cropX := arg16 c 24, cropY := arg16 c 26, cropW := arg16 c 28, cropH := arg16 c 30,
                         dstX := argI16 c 32, dstY := argI16 c 34, dstW := arg16 c 36, dstH := arg16 c 38, zpos := arg8 c 40 }
       updStaged h c fun t => { t with layers := t.layers.set v x, geom := v :: t.geom.filter (· != v) }) s)) ∧
    (Accepts layerStyle c s → exec (.layerStyle c) s = .next (done 0x0203 c 0 0
      (put { r with blend := arg8 c 18, planeAlpha := arg16 c 20, fill := arg64 c 24, const := arg64 c 32,
                    keyLo := arg64 c 40, keyHi := arg64 c 48 }) s)) ∧
    (Accepts layerColour c s → exec (.layerColour c) s = .next (done 0x0224 c 0 0
      (put { r with csc := arg8 c 18, chroma := arg8 c 19, preLut := arg8 c 20, scaler := arg8 c 21,
                    hBank := arg8 c 22, vBank := arg8 c 23 }) s)) ∧
    (Accepts layerMatrix c s →
      let m : Mat := { c := (List.range 9).map fun i => argI16 c (20 + 2 * i), off := (List.range 3).map fun i => argI32 c (40 + 4 * i) }
      (arg8 c 18 = 1 → exec (.layerMatrix c) s = .next (done 0x0225 c 0 0 (put { r with ycc := m }) s)) ∧
      (arg8 c 18 = 2 → exec (.layerMatrix c) s = .next (done 0x0225 c 0 0 (put { r with gamut := some m }) s)) ∧
      (arg8 c 18 = 3 → exec (.layerMatrix c) s = .next (done 0x0225 c 0 0 (put { r with gamut := none }) s))) ∧
    (Accepts layerProgram c s → exec (.layerProgram c) s = .next (done 0x0244 c 0 0 (put { r with prog := arg16 c 18 }) s)) ∧
    (Accepts layerParams c s →
      let ks := (List.range 4).map fun i => arg64 c (24 + 8 * i)
      (arg8 c 18 = 0 → exec (.layerParams c) s = .next (done 0x0245 c 0 0 (put { r with ks := ks ++ r.ks.drop 4 }) s)) ∧
      (arg8 c 18 = 4 → exec (.layerParams c) s = .next (done 0x0245 c 0 0 (put { r with ks := r.ks.take 4 ++ ks }) s))) ∧
    (Accepts layerFence c s →
      (arg32 c 20 = 0 → exec (.layerFence c) s = .next (done 0x0308 c 0 0
        (updStaged (put r) c fun t => { t with fences := t.fences.del v }) s)) ∧
      (arg32 c 20 ≠ 0 → exec (.layerFence c) s = .next (done 0x0308 c 0 0
        (updStaged (put r) c fun t => { t with fences := t.fences.set v { tl := arg32 c 20, value := arg64 c 24 } }) s)))

/-- 04 R110, R113; 05 R143; 08 R227-R230; 09 R258-R260; 15 R416.  What rests on a choice or an inference of the model: log entry 81. -/
def Obligations.StagedOutputRecords : Prop :=
  ∀ (c : Cmd) (s : State),
    let h := fetched c.ctx s.hub
    let put (off : Nat) (f : OutStage → OutStage) : Hub :=
      updStaged h c fun t => { t with outs := t.outs.set (arg8 c off) (f (t.outs.get (arg8 c off) {})) }
    let m : Mat := { c := (List.range 9).map fun i => argI16 c (20 + 2 * i), off := (List.range 3).map fun i => argI32 c (40 + 4 * i) }
    (Accepts gratSet c s →
      exec (.gratSet c) s = .next (done 0x0208 c 0 0 (put 16 fun x => { x with band := some (arg8 c 17) }) s)) ∧
    (Accepts engineSpares c s → exec (.engineSpares c) s = .next (done 0x020A c 0 0
      (updStaged h c fun t => { t with spares := t.spares.set (arg8 c 16) (arg8 c 17) }) s)) ∧
    (Accepts outputColour c s → exec (.outputColour c) s = .next (done 0x0228 c 0 0
      (put 16 fun x => { x with colour := some { flags := arg8 c 17, mat := m } }) s)) ∧
    (Accepts outputLut c s → exec (.outputLut c) s = .next (done 0x0229 c 0 0
      (put 32 fun x => { x with lut := some { domain := blk8 c 0, red := blkWords c 16 4097, green := blkWords c 8210 4097,
                                              blue := blkWords c 16404 4097 } }) s)) ∧
    (Accepts outMode c s → exec (.outMode c) s = .next (done 0x0401 c 0 0
      (put 16 fun x => { x with mode := some (arg8 c 17, arg8 c 18, arg8 c 19) }) s)) ∧
    (Accepts outBackground c s → exec (.outBackground c) s = .next (done 0x0402 c 0 0
      (put 16 fun x => { x with bg := some (arg64 c 24) }) s)) ∧
    (Accepts outWriteback c s → exec (.outWriteback c) s = .next (done 0x0403 c 0 0
      (put 16 fun x => { x with wb := some (arg8 c 17, arg32 c 20) }) s)) ∧
    (Accepts outStatic c s → exec (.outStatic c) s = .next (done 0x0404 c 0 0
      (put 16 fun x => { x with static := some (arg8 c 17, arg16 c 18) }) s)) ∧
    (Accepts dimLayoutCmd c s → exec (.dimLayout c) s = .next (done 0x0500 c 0 0
      (put 16 fun x => { x with dimLayout := some { mode := arg8 c 17, delivery := arg8 c 18, zsRate := arg8 c 19, cols := arg16 c 20,
                                                    rows := arg16 c 22, txOffset := arg16 c 24 } }) s)) ∧
    (Accepts dimAlgoCmd c s → exec (.dimAlgo c) s = .next (done 0x0501 c 0 0
      (put 16 fun x => { x with dimAlgo := some { clamp := (arg8 c 17).testBit 0, rise := arg16 c 20, fall := arg16 c 22, delta := arg16 c 24,
                                                  lvlMin := arg16 c 26, lvlMax := arg16 c 28, gainMax := arg16 c 30,
                                                  thresh := arg32 c 32 } }) s)) ∧
    (Accepts dimTablesCmd c s → exec (.dimTables c) s = .next (done 0x0502 c 0 0
      (put 32 fun x => { x with dimTabs := some { e := blkWords c 16 1089, k := words32 ((c.block.drop 2208).take 324) } }) s)) ∧
    (Accepts pwrFloor c s → exec (.pwrFloor c) s = .next (done 0x0902 c 0 0
      (updStaged h c fun t => { t with floors := t.floors.set (arg8 c 16) (arg8 c 17) }) s))

/-- 04 R105, R106, R109, R111.  What rests on a choice or an inference of the model: log entries 10, 81. -/
def Obligations.LayersAreCreatedAndQueried : Prop :=
  ∀ (c : Cmd) (s : State),
    let h := fetched c.ctx s.hub
    let o := arg8 c 16
    let v := arg16 c 16
    (Accepts layerCreate c s → ∃ k, k / 1024 = o / 4 ∧ h.layers.has k = false ∧ (∀ e ∈ h.layers, k ∉ e.2.peers) ∧
      exec (.layerCreate c) s = .next (done 0x0200 c k 0
        { h with layers := h.layers.set k { out := o, peers := (peerDies h o).filterMap (freeLayerSlot h) } } s)) ∧
    (Accepts layerDestroy c s →
      exec (.layerDestroy c) s = .next (done 0x0201 c 0 0 (sweepObjects { h with layers := h.layers.del v }) s)) ∧
    (Accepts layerQuery c s → ∃ l, h.layers.find v = some l ∧
      exec (.layerQuery c) s = .next (done 0x0204 c 64 0 (ctxWrite c.ctx (arg64 c 24) (layerBlock h v l) h) s)) ∧
    (∀ e, (getOut h o).mode.or (getOut h o).relMode = some e → Accepts gratQuery c s →
      exec (.gratQuery c) s = .next (done 0x0209 c 64 0 (ctxWrite c.ctx (arg64 c 24) (gratBlock h o e) h) s))

/-- 05 R139, R140; 06 R156, R157, R160.  What rests on a choice or an inference of the model: log entries 10, 81. -/
def Obligations.ColourAndProgramObjects : Prop :=
  ∀ (c : Cmd) (s : State),
    let h := fetched c.ctx s.hub
    let g := (getCtx h c.ctx).group
    (Accepts colourAlloc c s → arg8 c 16 = 1 → ∃ i, i < 16 ∧ h.banks.has (arg8 c 17 * 16 + i) = false ∧
      exec (.colourAlloc c) s = .next (done 0x0220 c i 0
        { h with banks := h.banks.set (arg8 c 17 * 16 + i) { owner := c.ctx, group := g, horiz := bilinear, vert := bilinear } } s)) ∧
    (Accepts colourAlloc c s → arg8 c 16 = 2 → ∃ i, i < 128 ∧ h.luts.has (arg8 c 17 * 128 + i) = false ∧
      exec (.colourAlloc c) s = .next (done 0x0220 c i 0
        { h with luts := h.luts.set (arg8 c 17 * 128 + i) { owner := c.ctx, group := g, lut := identPre } } s)) ∧
    (Accepts colourLoad c s → arg8 c 32 = 1 → exec (.colourLoad c) s = .next (done 0x0221 c 0 0
      { h with banks := h.banks.upd (arg8 c 33 * 16 + arg8 c 34) fun b => { b with horiz := phases c 0, vert := phases c 1024 } } s)) ∧
    (Accepts colourLoad c s → arg8 c 32 = 2 → exec (.colourLoad c) s = .next (done 0x0221 c 0 0
      { h with luts := h.luts.upd (arg8 c 33 * 128 + arg8 c 34) fun l => { l with lut :=
        { domain := blk8 c 0, red := blkWords c 16 1025, green := blkWords c 2066 1025, blue := blkWords c 4116 1025 } } } s)) ∧
    (Accepts colourFree c s → arg8 c 16 = 1 → exec (.colourFree c) s = .next (done 0x0222 c 0 0
      { h with banks := h.banks.del (arg8 c 17 * 16 + arg8 c 18) } s)) ∧
    (Accepts colourFree c s → arg8 c 16 = 2 → exec (.colourFree c) s = .next (done 0x0222 c 0 0
      { h with luts := h.luts.del (arg8 c 17 * 128 + arg8 c 18) } s)) ∧
    (Accepts progAlloc c s → ∃ i, i < 256 ∧ h.progs.has (arg8 c 16 * 256 + i) = false ∧
      exec (.progAlloc c) s = .next (done 0x0240 c i 0
        { h with progs := h.progs.set (arg8 c 16 * 256 + i) { owner := c.ctx, group := g, words := [0xF0000000] } } s)) ∧
    (Accepts progLoad c s → exec (.progLoad c) s = .next (done 0x0241 c 0 0
      { h with progs := h.progs.upd (arg8 c 32 * 256 + arg8 c 33) fun p => { p with words := (List.range (blk8 c 0)).map (progWord c) } } s)) ∧
    (Accepts progFree c s →
      exec (.progFree c) s = .next (done 0x0242 c 0 0 { h with progs := h.progs.del (arg8 c 16 * 256 + arg8 c 17) } s)) ∧
    (Accepts progQuery c s → ∃ p, h.progs.find (arg8 c 16 * 256 + arg8 c 17) = some p ∧
      exec (.progQuery c) s = .next (done 0x0246 c p.words.length
        (committedSel h (arg8 c 16) (selProg (arg8 c 17)) + 2 ^ 32 * stagedSel h (arg8 c 16) (selProg (arg8 c 17))) h s))

/-- 04 R94-R97; 08 R214-R217.  What rests on a choice or an inference of the model: log entries 83, 86, 89. -/
def Obligations.TilesAndLines : Prop :=
  (∀ (k : Nat) (t : TileRef) (s : State), dieUp s.hub (k / 24) = true → s.hub.engines.has k = false →
    ((getDie s.hub (k / 24)).srv.engIn).testBit (k % 24) = true → nextTile s.hub k = some t →
    exec (.tileStart k) s = .next (onHub (fun h => updDie { h with engines := h.engines.set k t } (k / 24) fun x =>
      { x with zeroed := x.zeroed.filter fun z => z.1 ≠ k % 24 }) s)) ∧
  (∀ (k : Nat) (t : TileRef) (e : ModeEntry) (f : Frame) (s : State), s.hub.engines.find k = some t →
    (getOut s.hub t.out).mode = some e → (getOut s.hub t.out).frame = some f →
    let g := remoteRead (t.out / 4) (if f.source = 0 then tileGrans { s.hub with engines := s.hub.engines.del k } t.out f e t.band t.col else [])
      s.lp5x { s.hub with engines := s.hub.engines.del k }
    let m := fetchView g (t.out / 4) (k % 24) s.lp5x
    let q := fetchHub g (t.out / 4) (k % 24)
    ∃ u, exec (.tileComplete k) s = .next u ∧ u.lp5x = s.lp5x ∧ u.pending = s.pending ∧ u.hub.engines = g.engines ∧
      ((getOut u.hub t.out).bands.get t.band []).find t.col = some
        (if f.source = 0 then composeTile m q t.out f e t.band t.col else cacheTile m q t.out e t.band t.col)) ∧
  (∀ (o : Nat) (e : ModeEntry) (sc : Scan) (f : Frame) (s : State),
    let x := getOut s.hub o
    x.mode = some e → x.scan = some sc → x.frame = some f → x.state = .running → x.pllLost = false → sc.drained = true → sc.line < e.vActive →
    let px := (bandRow s.hub o e sc.line).getD (List.replicate e.hActive (bgPx x))
    ∃ u, exec (.lineStart o) s = .next u ∧ u.pending = s.pending ∧
      (getOut u.hub o).scan = some { sc with line := sc.line + 1 } ∧ (getOut u.hub o).mode = some e ∧ (getOut u.hub o).state = .running ∧
      u.lp5x = ((if f.toCache && homePipe s.hub o = o then cacheLine s.hub o e sc.line px else []) ++
        (if f.toTarget && targetHolds s.hub o then (targetLine s.hub o sc.line px).2 else [])).foldl Memory.apply s.lp5x) ∧
  (∀ (o n : Nat) (s : State), (getOut s.hub o).wbFlight = some n →
    let g := broadcast (updOut s.hub o fun x => { x with wbFlight := none })
    (∀ c, listOwner g (listOf g o) = some c →
      exec (.writebackFrameDone o) s = .next { s with hub := postEvent c 0x0482 o n g }) ∧
    (listOwner g (listOf g o) = none → exec (.writebackFrameDone o) s = .next { s with hub := g }))

/-- 01 R14; 07 R178; 08 R208, R220.  What rests on a choice or an inference of the model: log entry 33. -/
def Obligations.FrameBoundaries : Prop :=
  (∀ (o : Nat) (e : ModeEntry) (sc : Scan) (s : State),
    let x := getOut s.hub o
    x.mode = some e → x.scan = some sc → x.state = .running → sc.latched = false →
    let l := scanNs e sc (sc.vbPx + (sc.blank + e.vActive) * hTotal e) - 250000
    let h := openDecision o l (at_ l s.hub)
    let chg := x.changed = true ∨ caughtBy h o l ≠ [] ∨
      ∃ k ∈ h.layers, k.2.out = listOf h o ∧ neverStatic h k.1 (recAt h o l k.1 k.2) = true
    ∃ n b, (chg → n = 0 ∧ b = true) ∧ (¬ chg → n = satInc 65535 x.staticCount ∧ b = x.cacheStale) ∧
      exec (.latchInstant o) s = .next { s with hub := updOut h o fun x => { x with
        staticCount := n, cacheStale := b, fills := latchFills h o l, fillsOld := fillsWith h o fun _ y => y.cur
        tabAt := h.tables.get o [], changed := false, dirty := [], dirtyAt := x.dirty, scan := some { sc with latched := true } } }) ∧
  (∀ (o : Nat) (s : State), atBlank (getOut s.hub o) = false →
    (∀ m ∈ membersOf s.hub (listOf s.hub o), (getOut s.hub m).pllLost = false) → exec (.vblankStart o) s = .next s) ∧
  (∀ (o : Nat) (e : ModeEntry) (sc : Scan) (s : State),
    let x := getOut s.hub o
    x.mode = some e → x.scan = some sc → x.state = .running → sc.line = e.vActive → x.grp = 0 → x.newOwner = none → x.stopNext = false →
    x.pllLost = false → (∀ t ∈ s.hub.txns, t.2.state ≠ .armed) →
    ∃ u f z, exec (.vblankStart o) s = .next u ∧ u.lp5x = s.lp5x ∧ u.pending = s.pending ∧
      (getOut u.hub o).frameCount = (x.frameCount + 1) % 2 ^ 64 ∧ (getOut u.hub o).frame = some f ∧
      f.num = (x.frameCount + 1) % 2 ^ 64 ∧ (getOut u.hub o).scan = some z ∧ z.line = 0 ∧ z.drained = false ∧
      z.vbPx = sc.vbPx + (sc.blank + e.vActive) * hTotal e ∧ z.frames = sc.frames + 1 ∧ (getOut u.hub o).mode = some e) ∧
  (∀ (o : Nat) (sc : Scan) (s : State),
    let x := getOut s.hub o
    x.scan = some sc → x.state = .running → sc.drained = false →
    let g := updOut (at_ (sc.drainAt + 20000) s.hub) o fun x => { x with scan := some { sc with drained := true } }
    (sc.reopened = false → exec (.drainComplete o) s = .next { s with hub := dimStep o g }) ∧
    (sc.reopened = true → hasZones x = false → ∃ u, exec (.drainComplete o) s = .next u ∧ u.lp5x = s.lp5x ∧ u.pending = s.pending ∧
      u.hub.now = g.now ∧ getOut u.hub o = getOut g o ∧ ∀ q, q ≠ o → getOut u.hub q = getOut s.hub q))

/-- 07 R162, R188-R191, R184.  What rests on a choice or an inference of the model: log entries 10, 33, 80. -/
def Obligations.TransactionsBeginAndEnd : Prop :=
  (∀ (c : Cmd) (s : State),
    let h := fetched c.ctx s.hub
    (Accepts txnBegin c s → ∃ k, k / 256 = homeDie c.ctx ∧ h.txns.has k = false ∧
      exec (.txnBegin c) s = .next (done 0x0300 c (txnHandle h k) 0
        (let t : Txn := { owner := c.ctx, indep := arg8 c 16 = 1, events := (arg8 c 17).testBit 0, timeoutMs := arg32 c 20 }
         { h with txns := h.txns.set k t }) s)) ∧
    (Accepts txnCommit c s → ∃ k t, txnOf h c.ctx c.txn.toNat = some (k, t) ∧ h.txns.find k = some t ∧ t.owner = c.ctx ∧ t.state = .opened ∧
      let g := bar2Visible c.ctx h
      ((arg8 c 16).testBit 0 = true → exec (.txnCommit c) s = .next (done 0x0301 c 0 0 g s)) ∧
      ((arg8 c 16).testBit 0 = false → stagesNothing t = true → exec (.txnCommit c) s = .next (done 0x0301 c 0 0 (endTxn k g) s)) ∧
      ((arg8 c 16).testBit 0 = false → stagesNothing t = false →
        exec (.txnCommit c) s = .next { s with hub := commitTxn k (taken 0x0301 c s.hub) g } ∧
        (t.indep = false → (∃ e ∈ t.fences, fenceReached h e.2 = false ∧ e.2.signalled = none) →
          ∃ u, (commitTxn k (taken 0x0301 c s.hub) g).txns.find k = some u ∧ u.state = .waiting ∧
            u.timeout = h.now + (if t.timeoutMs = 0 then 100 else t.timeoutMs) * 1000000))) ∧
    (Accepts txnCancel c s → ∃ k t, txnOf h c.ctx c.txn.toNat = some (k, t) ∧ t.state ≠ .validating ∧ t.state ≠ .armed ∧
      (t.commit = none → exec (.txnCancel c) s = .next (done 0x0302 c 0 0 (endTxn k h) s)) ∧
      (∀ p, t.commit = some p →
        exec (.txnCancel c) s = .next (done 0x0302 c 0 0 (complete p 0x0411 255 0 0 (endTxn k h)) s))) ∧
    (Accepts txnQuery c s → ∃ k t, txnOf h c.ctx c.txn.toNat = some (k, t) ∧
      exec (.txnQuery c) s = .next (done 0x0303 c (txnImage h t) t.timeout h s))) ∧
  (∀ (k : Nat) (t : Txn) (s : State), s.hub.txns.find k = some t →
    (∃ f ∈ t.fences, f.2.signalled = none ∧ f.1 ∉ t.doneLayers) →
    (t.state = .waiting → t.commit = none →
      exec (.fenceTimeout k) s = .next { s with hub := endTxn k (at_ t.timeout s.hub) }) ∧
    (∀ p, t.state = .waiting → t.commit = some p →
      exec (.fenceTimeout k) s = .next { s with hub := complete p 0x0901 255 0 0 (endTxn k (at_ t.timeout s.hub)) }) ∧
    (t.state = .armed → exec (.fenceTimeout k) s = .next { s with hub := failFences k 0x0901 (fun _ => true) (at_ t.timeout s.hub) }))

/-- 07 R180-R184, R193, R555.  What rests on a choice or an inference of the model: log entry 10. -/
def Obligations.TimelinesAreSignalled : Prop :=
  (∀ (c : Cmd) (s : State),
    let h := fetched c.ctx s.hub
    let v := arg32 c 16
    let g := arg16 c 20
    (Accepts tlCreate c s → ∃ k, k / 1024 = arg8 c 16 ∧ h.tls.has k = false ∧
      exec (.tlCreate c) s = .next (done 0x0310 c (k + 65536 * h.tlGens.get k 1) 0
        { h with tls := h.tls.set k { owner := c.ctx, value := arg64 c 24, gen := h.tlGens.get k 1 },
                 tlFreed := h.tlFreed.filter (· != k) } s)) ∧
    (Accepts tlSignal c s → ∃ x, h.tls.find (v % 8192) = some x ∧ x.gen = v / 65536 ∧ x.owner = c.ctx ∧
      let g := bar2Visible c.ctx h
      (arg64 c 24 = x.value → exec (.tlSignal c) s = .next (done 0x0311 c 0 0 g s)) ∧
      (x.value < arg64 c 24 →
        let hit (t : Txn) (f : Nat × Fence) : Prop :=
          f.2.tl % 8192 = v % 8192 ∧ f.2.value ≤ arg64 c 24 ∧ f.2.signalled = none ∧ f.1 ∉ t.doneLayers
        ∃ q : List (Nat × Txn), q.map Prod.fst = h.txns.map Prod.fst ∧
          exec (.tlSignal c) s = .next (done 0x0311 c 0 0 ((h.txns.map Prod.fst).foldl (fun g k => applyIdle k (armIfReady k g))
            { g with tls := h.tls.set (v % 8192) { x with value := arg64 c 24 }, txns := q }) s) ∧
          ∀ e ∈ h.txns.zip q, ∃ fs : List (Nat × Fence), e.2.2 = { e.1.2 with fences := fs } ∧ fs.map Prod.fst = e.1.2.fences.map Prod.fst ∧
            ∀ p ∈ (show List (Nat × Fence) from e.1.2.fences).zip fs,
              ((e.1.2.state = .waiting ∨ e.1.2.state = .armed) ∧ hit e.1.2 p.1 → p.2.2 = { p.1.2 with signalled := some h.now }) ∧
              (¬ ((e.1.2.state = .waiting ∨ e.1.2.state = .armed) ∧ hit e.1.2 p.1) → p.2 = p.1))) ∧
    (Accepts tlDestroy c s → ∃ x, h.tls.find (v % 8192) = some x ∧
      let q := failAllFences 0x0903 (fun _ f => f.tl == v % 8192 + 65536 * x.gen) h
      exec (.tlDestroy c) s = .next (done 0x0312 c 0 0 { q with
        tls := q.tls.del (v % 8192), tlGens := q.tlGens.set (v % 8192) (x.gen + 1), tlFreed := q.tlFreed ++ [v % 8192] } s)) ∧
    (Accepts tlGrant c s → ∃ k x, tlOf h v = some (k, x) ∧
      (arg8 c 22 = 1 → g ∉ x.grants →
        exec (.tlGrant c) s = .next (done 0x0313 c 0 0 { h with tls := h.tls.set k { x with grants := x.grants ++ [g] } } s)) ∧
      (arg8 c 22 = 1 → g ∈ x.grants → exec (.tlGrant c) s = .next (done 0x0313 c 0 0 { h with tls := h.tls.set k x } s)) ∧
      (arg8 c 22 = 0 → g ∈ x.grants → exec (.tlGrant c) s = .next (done 0x0313 c 0 0
        (loseWait v g { h with tls := h.tls.set k { x with grants := x.grants.filter (· != g) } }) s)) ∧
      (arg8 c 22 = 0 → g ∉ x.grants → exec (.tlGrant c) s = .next (done 0x0313 c 0 0 h s))) ∧
    (Accepts tlQuery c s → ∃ k x, tlOf h v = some (k, x) ∧ exec (.tlQuery c) s = .next (done 0x0314 c 0 x.value h s))) ∧
  (∀ (o d : Nat) (s : State),
    let x := getOut s.hub o
    let y := getOut s.hub x.primary
    let adds (h : Hub) : Hub := updOut h x.primary fun y => { y with decided := d :: y.decided }
    (halted s.hub d = true → exec (.groupDecision o d) s = .next s) ∧
    (x.grp ≠ 0 → dieUp s.hub d = true → halted s.hub d = false → (∃ m ∈ y.members, m / 4 = d) → d ∉ y.decided →
    (y.verdict = none → exec (.groupDecision o d) s = .next (onHub adds s)) ∧
    (∀ v, y.verdict = some v → y.scan.any (fun sc => sc.stretched && sc.line == 0) = false → exec (.groupDecision o d) s = .next s) ∧
    (∀ v, y.verdict = some v → y.scan.any (fun sc => sc.stretched && sc.line == 0) = true → v.2 ≤ s.hub.now → d ≠ x.primary / 4 →
      exec (.groupDecision o d) s = .next (onHub (fun h => adds (openDecision o (h.now + 1) h)) s))))

/-- 08 R198, R199, R209, R212, R226, R231-R234.  What rests on a choice or an inference of the model: log entries 18, 81. -/
def Obligations.OutputCommands : Prop :=
  ∀ (c : Cmd) (s : State),
    let h := fetched c.ctx s.hub
    let o := arg8 c 16
    (Accepts outConfig c s →
      let fl := arg8 c 19
      let own := arg16 c 20
      let g := updOut h o fun x => { x with
        port := if fl.testBit 0 then arg8 c 17 else x.port
        cls := if fl.testBit 1 then arg8 c 18 else x.cls }
      (fl.testBit 2 = false → exec (.outConfig c) s = .next (done 0x0400 c 0 0 g s)) ∧
      (fl.testBit 2 = true → (getOut h o).owner = some own →
        exec (.outConfig c) s = .next (done 0x0400 c 0 0 (updOut g o fun x => { x with newOwner := none }) s)) ∧
      (fl.testBit 2 = true → (getOut h o).owner ≠ some own → (getOut h o).state ≠ .stopped →
        exec (.outConfig c) s = .next (done 0x0400 c 0 0 (updOut g o fun x => { x with newOwner := some own }) s)) ∧
      (fl.testBit 2 = true → (getOut h o).owner ≠ some own → (getOut h o).state = .stopped →
        exec (.outConfig c) s = .next (done 0x0400 c 0 0
          (updOut (freeList o (updOut g o fun x => { x with newOwner := some own })) o fun x =>
            { x with owner := some own, newOwner := none, changed := true }) s))) ∧
    (Accepts outGroup c s → arg8 c 16 = 0 →
      let p := arg8 c 20
      let g := (getOut h p).members.foldl (fun g m => updOut g m leaveGroup) h
      exec (.outGroup c) s = .next (done 0x0408 c 0 0
        (sweepObjects { g with layers := g.layers.map fun e => if e.2.out = p then (e.1, { e.2 with peers := [] }) else e }) s)) ∧
    (Accepts outGroup c s → arg8 c 16 ≠ 0 →
      let ms := (List.range (arg8 c 17)).map fun i => arg8 c (20 + i)
      ∃ g, exec (.outGroup c) s = .next (done 0x0408 c 0 0 g s) ∧
        (∀ i, i < ms.length → (getOut g (ms.getD i 0)).grp = arg8 c 16 ∧ (getOut g (ms.getD i 0)).primary = ms.headD 0 ∧
          (getOut g (ms.getD i 0)).index = i) ∧
        (∀ k, k ∉ ms → getOut g k = getOut h k)) ∧
    (Accepts outGenlock c s →
      let on := arg8 c 17 = 1
      exec (.outGenlock c) s = .next (done 0x0409 c 0 0
        (genlockGoes o (if on then 1 else 0) (updOut h o fun x => { x with gen := { x.gen with
          on := on, edge := arg8 c 18, offset := argI32 c 20, good := 0, lastEdge := h.now } })) s)) ∧
    (Accepts outQuery c s →
      exec (.outQuery c) s = .next (done 0x0410 c 64 0 (ctxWrite c.ctx (arg64 c 24) (outBlock h o) h) s)) ∧
    (Accepts modeQuery c s → ∃ e, modeOf h (arg8 c 16) = some e ∧
      exec (.modeQuery c) s = .next (done 0x0411 c 64 0 (ctxWrite c.ctx (arg64 c 24)
        (modeImage e ++ leBytes 8 (pixelHz e) ++ leBytes 8 (framePeriod e) ++ leBytes 16 0) h) s)) ∧
    (Accepts modeWrite c s →
      let w := writeOn (writeOrder h) [(6, 0, arg8 c 16, argBytes c 16 32)] h
      exec (.modeWrite c) s = .next (
        if w.2 then done 0x0412 c 0 0 { w.1 with modes := w.1.modes.set (arg8 c 16) (entryOfBytes (argBytes c 16 32)) } s
        else { s with hub := complete (taken 0x0412 c s.hub) 0x0706 255 0 0 w.1 }))

/-- 08 R200, R205, R208, R222, R223.  What rests on a choice or an inference of the model: log entries 81, 83, 84. -/
def Obligations.OutputsStartAndStop : Prop :=
  (∀ (o : Nat) (s : State), (getOut s.hub o).state = .stopping →
    ∃ u, exec (.outputStopped o) s = .next u ∧ u.lp5x = s.lp5x ∧ u.pending = s.pending ∧ (getOut u.hub o).state = .stopped ∧
      (getOut u.hub o).pll = 0xFF ∧ (getOut u.hub o).cache = [] ∧ (getOut u.hub o).cols = [] ∧ (getOut u.hub o).tabAt = [] ∧ (getOut u.hub o).scan = none ∧
      (getOut u.hub o).frame = none ∧ (getOut u.hub o).banks = []) ∧
  (∀ (o : Nat) (e : ModeEntry) (s : State),
    let x := getOut s.hub o
    (x.state = .starting ∨ x.state = .changing) → x.grp = 0 → x.mode = some e → startReady s.hub o = true → x.newOwner = none →
    x.gen.on = false → x.pllLost = false → (∀ t ∈ s.hub.txns, t.2.state ≠ .armed) →
    let t := (startTime s.hub o + 999) / 1000 * 1000
    ∃ u f z, exec (.modeStart o) s = .next u ∧ u.lp5x = s.lp5x ∧ u.pending = s.pending ∧ u.hub.now = max s.hub.now t ∧
      (getOut u.hub o).state = .running ∧ (getOut u.hub o).frameCount = (x.frameCount + 1) % 2 ^ 64 ∧
      (getOut u.hub o).frame = some f ∧ f.num = (x.frameCount + 1) % 2 ^ 64 ∧
      (getOut u.hub o).scan = some z ∧ z.s0 = t ∧ z.line = 0 ∧ z.vbPx = 0 ∧ z.drained = false ∧ z.frames = 1) ∧
  (∀ (o : Nat) (e : ModeEntry) (sc : Scan) (f : Frame) (s : State),
    let x := getOut s.hub o
    x.mode = some e → x.scan = some sc → x.frame = some f → x.state = .running → x.grp = 0 → sc.stretched = true → sc.line = 0 →
    changeAtHand s.hub o = true → s.hub.now < scanNs e sc (sc.vbPx + vBlank e * hTotal e) →
    ∃ u, exec (.stretchReopen o) s = .next u ∧ u.lp5x = s.lp5x ∧ u.pending = s.pending ∧ u.hub.now = s.hub.now ∧
      getOut u.hub o = { x with
        bands := [], wbRows := [], cacheFull := false, dim := { x.dim with acc := [] }
        frame := some { f with source := 0, toCache := x.q > 1 && f.num % x.q == 0 }
        scan := some { sc with stretched := false, blank := vBlank e } } ∧
      (∀ k t, u.hub.engines.find k = some t → t.out ≠ o) ∧ ∀ q, q ≠ o → getOut u.hub q = getOut s.hub q) ∧
  (∀ (o : Nat) (e : ModeEntry) (sc : Scan) (f : Frame) (s : State),
    let x := getOut s.hub o
    x.mode = some e → x.scan = some sc → x.frame = some f → x.state = .running → x.psr = false → sc.line = e.vActive → f.source ≠ 0 →
    f.notSent = false → f.truncated = false → mayRefresh s.hub o e = true →
    exec (.psrEntry o) s = .next (onHub (fun h => updOut h o fun x => { x with psr := true }) s))

/-- 08 R213.  What rests on a choice or an inference of the model: log entry 48. -/
def Obligations.GenlockFollowsEdges : Prop :=
  (∀ (o : Nat) (e : ModeEntry) (sc : Scan) (s : State),
    let h := s.hub
    let x := getOut h o
    let t : Int := (h.now : Int) + x.gen.offset
    let err := min (t - (scanNs e sc sc.vbPx : Int)).natAbs (t - (nextBlank e sc : Int)).natAbs
    let line := pxNs e (hTotal e)
    let good := if err ≤ line then x.gen.good + 1 else 0
    groupHead h o = o → x.gen.on = true → x.state = .running → x.mode = some e → x.scan = some sc → startGroup h o = [] →
    hasExtVsync h (o / 4) = true → -1000 ≤ x.gen.ppm → x.gen.ppm ≤ 1000 →
    ∃ u, exec (.extVsyncEdge o) s = .next u ∧ u.lp5x = s.lp5x ∧ u.pending = s.pending ∧
      (getOut u.hub o).gen.lastEdge = h.now ∧ (getOut u.hub o).gen.ppm - x.gen.ppm ≤ 50 ∧ x.gen.ppm - (getOut u.hub o).gen.ppm ≤ 50 ∧
      -1000 ≤ (getOut u.hub o).gen.ppm ∧ (getOut u.hub o).gen.ppm ≤ 1000 ∧
      (x.gen.state = 2 → (getOut u.hub o).gen.state = (if 4 * line ≤ err then 1 else 2)) ∧
      (x.gen.state ≠ 2 → (getOut u.hub o).gen.state = (if 16 ≤ good then 2 else 1)) ∧
      (x.gen.state ≠ 2 → (getOut u.hub o).gen.good = good)) ∧
  (∀ (o : Nat) (e : ModeEntry) (s : State),
    let x := getOut s.hub o
    groupHead s.hub o = o → x.gen.on = true → x.state = .running → x.mode = some e → (x.gen.state = 1 ∨ x.gen.state = 2) →
    startGroup s.hub o = [] →
    let g := updOut (at_ (x.gen.lastEdge + 4 * framePeriod e) s.hub) o fun x => { x with gen := { x.gen with good := 0, state := 3 } }
    (∀ c, listOwner g (listOf g o) = some c →
      exec (.genlockFreewheel o) s = .next { s with hub := postEvent c 0x0483 (o + 256 * 3) g.now g }) ∧
    (listOwner g (listOf g o) = none → exec (.genlockFreewheel o) s = .next { s with hub := g }))

/-- 09 R254, R255, R261, R262.  What rests on a choice or an inference of the model: log entries 41, 47. -/
def Obligations.DimmingIsReadAndSent : Prop :=
  (∀ (c : Cmd) (s : State),
    let h := fetched c.ctx s.hub
    let o := arg8 c 16
    (Accepts Machine.dimQuery c s →
      exec (.dimQuery c) s = .next (done 0x0508 c 64 0 (ctxWrite c.ctx (arg64 c 24) (dimBlock h o) h) s)) ∧
    (∀ st, Accepts Machine.dimRead c s → (getOut h o).dim.steps.getLast? = some st →
      let bs := (List.range (arg16 c 22)).flatMap fun i => zoneContent (arg8 c 17) st (arg16 c 20 + i)
      exec (.dimRead c) s = .next (done 0x0509 c (arg32 c 32) 0 (ctxWrite c.ctx (arg64 c 24) bs h) s)) ∧
    (Accepts Machine.dimRead c s → (getOut h o).dim.steps = [] →
      ∃ bs : Bytes, bs.length = arg32 c 32 ∧ exec (.dimRead c) s = .next (done 0x0509 c (arg32 c 32) 0
        (ctxWrite c.ctx (arg64 c 24) bs { h with freeIx := h.freeIx + arg32 c 32 }) s))) ∧
  (∀ (o : Nat) (e : ModeEntry) (sc : Scan) (s : State),
    let x := getOut s.hub o
    x.mode = some e → x.scan = some sc → x.state = .running → x.dim.layout.mode = 2 → sc.drained = true → x.dim.pktSent = false →
    let zs := x.dim.layout.delivery.testBit 0
    let inb := x.dim.layout.delivery.testBit 1 && portSends s.hub o
    let pkt := zonePacket s.hub o
    let counted := if zs || inb then satInc 0xFFFFFFFF x.dim.packets else x.dim.packets
    (inb = false → exec (.zonePacketTransmit o) s = .next (onHub (fun h =>
      let g := at_ (scanNs e sc (packetPx x e sc)) h
      updOut { g with outbox := g.outbox ++ (if zs then [Sent.zone o (zsPeriod x.dim.layout.zsRate) (zsEdges pkt)] else []) } o fun x =>
        { x with dim := { x.dim with pktSent := true, packets := counted } }) s)) ∧
    (inb = true → ∃ u z, exec (.zonePacketTransmit o) s = .next u ∧ u.lp5x = s.lp5x ∧ u.pending = s.pending ∧
      getOut u.hub o = { x with dim := { x.dim with pktSent := true, packets := counted, inBand := z } } ∧
      (z = none ∨ ∃ n, z = some (pkt, 16 * n)) ∧
      (zs = true → Sent.zone o (zsPeriod x.dim.layout.zsRate) (zsEdges pkt) ∈ u.hub.outbox) ∧ ∀ q, q ≠ o → getOut u.hub q = getOut s.hub q))

/-- 10 R276-R284.  What rests on a choice or an inference of the model: log entry 42. -/
def Obligations.CheckCommands : Prop :=
  (∀ (c : Cmd) (s : State),
    let h := fetched c.ctx s.hub
    let o := arg8 c 16
    let ch := arg8 c 17
    let v := arg16 c 18
    (Accepts Machine.chkGrant c s →
      let new := if v = 0xFFFF then none else some v
      ((getOut h o).chk.holder = new → exec (.chkGrant c) s = .next (done 0x0600 c 0 0 h s)) ∧
      ((getOut h o).chk.holder ≠ new → ∃ g, exec (.chkGrant c) s = .next (done 0x0600 c 0 0 g s) ∧ g.host = h.host ∧ g.outbox = h.outbox ∧
        getOut g o = { getOut h o with chk := { (getOut h o).chk with holder := new, expect := [], ops := [] } })) ∧
    (Accepts Machine.chkConfig c s →
      let n := chkFirst h o
      let k : ChkCfg := { flags := arg8 c 18, width := arg8 c 19, x := arg16 c 20, y := arg16 c 22, w := arg16 c 24, h := arg16 c 26,
                          poly := arg64 c 32, init := arg64 c 40 }
      exec (.chkConfig c) s = .next (done 0x0601 c ((getOut h o).chk.expect.countP fun e => e.1 == ch && n ≤ e.2.1) n
        (updOut h o fun x => { x with chk := { x.chk with
          next := (x.chk.next.filter fun e => e.1 != ch || (latchPassed h o && decide (e.2.2 < nextLatch h o))) ++
            [(ch, if (arg8 c 18).testBit 0 then some k else none, h.now)] } }) s)) ∧
    (Accepts Machine.chkExpect c s → exec (.chkExpect c) s = .next (done 0x0602 c 0 0
      (updOut h o fun x => { x with chk := { x.chk with
        expect := (x.chk.expect.filter fun e => !(e.1 == ch && e.2.1 == arg64 c 24)) ++ [(ch, arg64 c 24, arg64 c 32)] } }) s)) ∧
    (Accepts Machine.chkRead c s →
      exec (.chkRead c) s = .next (done 0x0603 c 256 0 (ctxWrite c.ctx (arg64 c 24) (chkBlock h o) h) s)) ∧
    (Accepts Machine.chkLane c s →
      let p : LaneOp :=
        { ch := ch, write := arg8 c 18 = 1, y := arg16 c 20, frame := arg64 c 24, value := arg64 c 32, pend := some (taken 0x0604 c s.hub) }
      exec (.chkLane c) s = .next (onHub (fun _ => updOut h o fun x => { x with chk := { x.chk with ops := x.chk.ops ++ [p] } }) s))) ∧
  (∀ (o ch : Nat) (e : ModeEntry) (sc : Scan) (f : Frame) (s : State),
    let x := getOut s.hub o
    x.mode = some e → x.scan = some sc → x.frame = some f → f.notSent = false → f.truncated = false →
    let k := lineSentWhole x.chk
    let cap (p : LaneOp) : Bool := decide (p.frame = f.num ∧ p.write = false ∧ p.y + 1 = sc.line ∧ p.ch = ch)
    let pre (p : LaneOp) : Bool := decide (p.frame = f.num ∧ p.write = true ∧ p.y = sc.line ∧ p.ch = ch)
    (x.chk.ops.filter cap ≠ [] →
      exec (.chkLaneCapture o ch) s = .next (onHub (fun h =>
        (x.chk.ops.filter cap).foldl (endOp 0 (k.lanes.get ch (match chanCfg x.chk.cfg ch with | none => 0 | some k => k.init)))
          (updOut (at_ (scanNs e sc (linePx e sc (sc.line - 1) + e.hActive)) h) o fun x =>
            { x with chk := { k with ops := x.chk.ops.filter fun p => !cap p } })) s)) ∧
    (∀ p k, x.chk.ops.filter pre = [p] → chanCfg x.chk.cfg ch = some k →
      exec (.chkLanePreset o ch) s = .next (onHub (fun h =>
        endOp 0 0 (updOut (at_ (scanNs e sc (linePx e sc sc.line)) (captureOps o (fun _ => true) h)) o fun x =>
          { x with
            frame := some { f with preset := true },
            chk := { x.chk with ops := x.chk.ops.filter (fun p => !pre p), lanes := x.chk.lanes.set ch (p.value % 2 ^ k.width) } }) p) s)))

/-- 10 R269-R274.  What rests on a choice or an inference of the model: log entries 84, 90. -/
def Obligations.CheckResultsAreFinal : Prop :=
  ∀ (o : Nat) (link : Option (BitVec 32)) (v : FrameVals) (s : State), (getOut s.hub o).chk.ended = some v →
    let k := (getOut s.hub o).chk
    let sent := v.flags.testBit 3 = false
    let final (ch : Nat) : Nat := match chanCfg v.cfg ch with | none => 0 | some k => chanValue k (v.lanes.get ch k.init)
    let open' := v.flags.testBit 0 = false ∧ v.flags.testBit 2 = false ∧ sent ∧ v.flags.testBit 4 = false ∧ v.flags.testBit 6 = false
    let lv := (link.map BitVec.toNat).getD (final 17)
    let hits := k.expect.filter fun e => e.2.1 == v.num && v.cfg.has e.1
    let bads := hits.filter fun e => final e.1 != e.2.2
    ∃ u r, exec (.checkResultFinal o link) s = .next u ∧ u.lp5x = s.lp5x ∧ u.pending = s.pending ∧
      (∀ q, q ≠ o → getOut u.hub q = getOut s.hub q) ∧ (getOut u.hub o).chk.res = r ∧ (getOut u.hub o).chk.ended = none ∧
      r.frame = v.num ∧ r.time = s.hub.now ∧
      (sent → r.region = (List.range 16).map final ∧ r.frameValue = final 16 ∧ r.linkValue = lv) ∧
      (¬ sent → r.region = List.replicate 16 0 ∧ r.frameValue = 0 ∧ r.linkValue = 0) ∧
      (∀ ch, ch < 16 → (r.compared.testBit ch = true ↔ open' ∧ ∃ e ∈ hits, e.1 = ch) ∧
        (r.mismatched.testBit ch = true ↔ open' ∧ ∃ e ∈ bads, e.1 = ch)) ∧
      r.flags = v.flags + (if sent ∧ v.flags.testBit 6 = false ∧ final 16 ≠ lv then 32 else 0) ∧
      (open' → (getOut u.hub o).chk.mismatches = satAdd 0xFFFFFFFF k.mismatches bads.length) ∧
      (∀ e ∈ (getOut u.hub o).chk.expect, v.num < e.2.1)

/-- 11 R287-R302.  What rests on a choice or an inference of the model: log entries 37, 89. -/
def Obligations.PlotterJobs : Prop :=
  (∀ (c : Cmd) (s : State),
    let h := fetched c.ctx s.hub
    let d := arg8 c 16
    (Accepts Machine.pltJob c s → exec (.pltJob c) s = .next (onHub (fun _ =>
      updDie (bar2Visible c.ctx h) (blkN c 8 4 % 65536 / 8192) fun x =>
        { x with plt := { x.plt with jobs := x.plt.jobs ++ [jobOf c (taken 0x0700 c s.hub)] } }) s)) ∧
    (Accepts Machine.pltAbort c s →
      let ds := if d = 0xFF then upDies h else [d]
      exec (.pltAbort c) s = .next (doneEff 0x0701 c (ds.map fun d => (getDie h d).plt.jobs.countP fun j => j.pend.ctx == c.ctx).sum 0
        (stopJobsOn ds (fun j => if j.pend.ctx = c.ctx then some 0x0411 else none) s.lp5x h) s)) ∧
    (Accepts Machine.pltQuery c s → ∃ n, exec (.pltQuery c) s =
        .next (done 0x0702 c ((getDie h d).plt.jobs.countP fun j => j.pend.ctx == c.ctx) n h s) ∧
      (∀ e k, (getDie h d).plt.charged.find c.ctx = some (e, k) → e = (getCtx h c.ctx).epoch → n = k) ∧
      ((getDie h d).plt.charged.find c.ctx = none → n = 0))) ∧
  (∀ (d i : Nat) (j : Job) (ds : Surf) (ss : Option Surf) (s : State),
    let x := (getDie s.hub d).plt
    plotterRuns s.hub d = true → x.busy = false → nextJob s.hub d = some i → x.jobs[i]? = some j → j.drawn = 0 → j.done = 0 →
    jobSurfs s.hub j = some (ds, ss) →
    let rest := x.jobs.eraseIdx i
    let n := min 4096 (costOf j ds (jobSteps j ds ss))
    let j' : Job := { j with drawn := n }
    let g0 := updDie s.hub d fun y => { y with plt := { y.plt with jobs := j :: rest, busy := true } }
    let g := remoteRead d ((paidSteps j' ds (jobSteps j ds ss) []).flatMap (stepGrans g0 d j' ds ss)) s.lp5x
      (chargeJob d j.pend n (drawTokens d j.pend.ctx n g0))
    let r := runSteps g ds ss (jobSteps j ds ss) [] (remoteView g d 0 s.lp5x) j'
    ∃ u, exec (.plotterJobStart d) s = .next u ∧ u.pending = s.pending ∧ u.lp5x = r.2.foldl Memory.apply s.lp5x ∧
      (getDie u.hub d).plt.jobs = r.1 :: rest ∧ (getDie u.hub d).plt.busy = true ∧ r.1.drawn = n ∧ r.1.pend = j.pend ∧ r.1.marked = j.marked ∧
      (getDie u.hub d).plt.charged = (getDie (chargeJob d j.pend n s.hub) d).plt.charged ∧ u.hub.ctxs = s.hub.ctxs) ∧
  (∀ (d : Nat) (j : Job) (rest : List Job) (ds : Surf) (ss : Option Surf) (s : State),
    let x := (getDie s.hub d).plt
    let n := min 4096 (costOf j ds (jobSteps j ds ss) - j.drawn)
    plotterRuns s.hub d = true → x.busy = true → x.jobs = j :: rest → jobSurfs s.hub j = some (ds, ss) → 0 < n →
    hasTokens s.hub d j.pend.ctx n = true →
    let ks := jobSteps j ds ss
    let j' : Job := { j with drawn := j.drawn + n }
    let g := remoteRead d ((paidSteps j' ds (ks.drop j.done) (ks.take j.done)).flatMap (stepGrans s.hub d j' ds ss)) s.lp5x
      (chargeJob d j.pend n (drawTokens d j.pend.ctx n s.hub))
    let r := runSteps g ds ss (ks.drop j.done) (ks.take j.done) (remoteView g d 0 s.lp5x) j'
    ∃ u, exec (.plotterSliceResume d) s = .next u ∧ u.pending = s.pending ∧ u.lp5x = r.2.foldl Memory.apply s.lp5x ∧
      (getDie u.hub d).plt.jobs = r.1 :: rest ∧ (getDie u.hub d).plt.busy = true ∧ r.1.drawn = j.drawn + n ∧ r.1.pend = j.pend ∧
      (getDie u.hub d).plt.charged = (getDie (chargeJob d j.pend n s.hub) d).plt.charged ∧ u.hub.ctxs = s.hub.ctxs) ∧
  (∀ (d : Nat) (j : Job) (rest : List Job) (s : State),
    let x := (getDie s.hub d).plt
    let mark (h : Hub) : Hub := postEvent j.pend.ctx 0x0780 j.dst (j.wmLine + 2 ^ 32 * j.pend.tag) h
    plotterRuns s.hub d = true → x.busy = true → x.jobs = j :: rest →
    (j.flags.testBit 0 = true → j.marked = false → markReached s.hub j = true →
      exec (.pltWatermark d) s = .next (onHub (fun h => mark (broadcast
        (updDie h d fun x => { x with plt := { x.plt with jobs := { j with marked := true } :: rest } }))) s)) ∧
    ((jobPlan s.hub j).2 ≤ j.drawn → (jobPlan s.hub j).1.length ≤ j.done →
      let own := j.flags.testBit 0 = true ∧ j.marked = false
      let b := broadcast s.hub
      let off (h : Hub) : Hub := endJob 0 j (updDie h d fun x => { x with plt := { x.plt with jobs := rest, busy := false } })
      (¬ own → j.flags.testBit 1 = false → exec (.plotterJobComplete d) s = .next { s with hub := off b }) ∧
      (own → j.flags.testBit 1 = false → exec (.plotterJobComplete d) s = .next { s with hub := off (mark b) }) ∧
      (∀ k t, ¬ own → j.flags.testBit 1 = true → tlOf (off b) j.tl = some (k, t) →
        exec (.plotterJobComplete d) s = .next { s with hub := signalTl k j.value (off b) }) ∧
      (j.flags.testBit 1 = false → ∃ u, exec (.plotterJobComplete d) s = .next u ∧ (getDie u.hub d).plt.jobs = rest ∧
        (getDie u.hub d).plt.busy = false ∧ (getDie u.hub d).rbuf = [])))

/-- 12 R304-R327.  What rests on a choice or an inference of the model: log entries 10, 38, 89. -/
def Obligations.DmaClientChannels : Prop :=
  (∀ (c : Cmd) (s : State),
    let h := fetched c.ctx s.hub
    let k := arg8 c 16
    (Accepts Machine.dmaAlloc c s → ∃ i, i / 32 = k ∧ 4 ≤ i % 32 ∧ h.dma.has i = false ∧
      let x : DmaChan :=
        { owner := c.ctx, group := (getCtx h c.ctx).group, cqLog := arg8 c 17, rate := arg16 c 18, tl := arg32 c 20, base := arg64 c 24 }
      exec (.dmaAlloc c) s = .next (done 0x0800 c i 0 { h with dma := h.dma.set i x } s)) ∧
    (Accepts Machine.dmaFree c s → exec (.dmaFree c) s = .next (done 0x0801 c 0 0 { h with dma := h.dma.del k } s)) ∧
    (Accepts Machine.dmaSubmit c s →
      let a := submitArgs c
      ∃ x, h.dma.find a.1 = some x ∧ x.owner = c.ctx ∧ (x.dead = true → ∃ st off, st ∈ statusCodes ∧ exec (.dmaSubmit c) s =
        .next { s with hub := complete (taken 0x0802 c s.hub) st off 0 0 { h with freeIx := h.freeIx + 1 } }) ∧ (x.dead = false →
        let ds := (submitDescs c).zipIdx.map fun e => descOf e.1 ((x.seq + e.2) % 2 ^ 32)
        exec (.dmaSubmit c) s = .next (done 0x0802 c x.seq 0
          (updChan (bar2Visible c.ctx h) a.1 fun x => { x with head := a.2.2, queue := x.queue ++ ds, seq := (x.seq + a.2.1) % 2 ^ 32 }) s))) ∧
    (Accepts Machine.dmaAbort c s → ∃ x, h.dma.find k = some x ∧
      exec (.dmaAbort c) s = .next (done 0x0803 c x.queue.length 0 (stopChan k 0x0411 h) s)) ∧
    (Accepts Machine.dmaQuery c s → ∃ x, h.dma.find k = some x ∧
      exec (.dmaQuery c) s = .next (done 0x0804 c (x.queue.length + 65536 * x.tail) x.charged h s))) ∧
  (∀ (d ch : Nat) (x : DmaChan) (q : DmaDesc) (rest : List DmaDesc) (s : State),
    let k := d * 32 + ch
    let sliced (h : Hub) (r : DmaRun) (ds ss : Surf) (u : State) : Prop :=
      let down := descDescends q ds ss
      let n := min 4096 (descCost q down (descEnd (remoteView h (k / 32) (dmaUnit (k % 32)) s.lp5x) h q ds ss r) - r.drawn)
      let h1 := drawTokens (k / 32) x.owner n h
      let h2 := remoteRead (k / 32) (descGrans h1 (k / 32) q ds ss down r.moved (paidBytes q down (r.drawn + n) 1100 r.moved)) s.lp5x h1
      let w := chunksRun h2 q ds ss down 1100 (remoteView h2 (k / 32) (dmaUnit (k % 32)) s.lp5x) { r with drawn := r.drawn + n }
      0 < n → hasTokens h (k / 32) x.owner n = true →
        u.lp5x = w.2.foldl Memory.apply s.lp5x ∧ (q.op = 3 → u.lp5x = s.lp5x) ∧ r.moved ≤ w.1.moved ∧ w.1.drawn = r.drawn + n ∧
          u.hub.dma.find k = some { x with run := some w.1, charged := satAdd (2 ^ 64 - 1) x.charged n } ∧ u.hub.ctxs = s.hub.ctxs
    s.hub.dma.find k = some x → x.queue = q :: rest → plotterRuns s.hub (k / 32) = true →
    (x.run = none → descStart s.hub x.owner q ≠ 0 → exec (.dmaDescriptorStart d ch) s = .next (onHub (fun h =>
      descEnds k (descStart s.hub x.owner q) 0 none q
        (updChan (if q.flags.testBit 0 then broadcast h else h) k fun x => { x with queue := rest })) s)) ∧
    (x.run = none → descStart s.hub x.owner q = 0 → ∀ ds ss, descSurfs s.hub q = some (ds, ss) →
      ∃ u, exec (.dmaDescriptorStart d ch) s = .next u ∧ u.pending = s.pending ∧
        sliced (updChan s.hub k fun x => { x with run := some {} }) {} ds ss u) ∧
    (∀ r ds ss, x.run = some r → descSurfs s.hub q = some (ds, ss) →
      ∃ u, exec (.dmaSliceResume d ch) s = .next u ∧ u.pending = s.pending ∧ sliced s.hub r ds ss u)) ∧
  (∀ (d ch : Nat) (x : DmaChan) (q : DmaDesc) (rest : List DmaDesc) (r : DmaRun) (s : State),
    let k := d * 32 + ch
    s.hub.dma.find k = some x → x.queue = q :: rest → x.run = some r → (r.moved = q.len ∨ r.diff.isSome = true) → dieUp s.hub (k / 32) = true →
    let b := if q.flags.testBit 0 || q.flags.testBit 2 then broadcast s.hub else s.hub
    let u := descEnds k 0 r.moved r.diff q (updChan b k fun x => { x with queue := rest, run := none })
    exec (.dmaDescriptorComplete d ch) s = .next { s with hub := u } ∧
    (q.flags.testBit 1 = false → q.flags.testBit 2 = false → mayPost (getCtx s.hub x.owner) = true → x.dead = false →
      hostRead (ctxFn s.hub x.owner) ((x.base + 32 * x.tail) % 2 ^ 64) u 32 = (leBytes 2 0 ++ leBytes 1 q.op ++
        leBytes 1 (b2n x.phase + 2 * b2n r.diff.isSome) ++ leBytes 4 q.seq ++ leBytes 4 (if q.op = 3 then 0 else r.moved) ++
        leBytes 4 (r.diff.getD 0xFFFFFFFF) ++ leBytes 8 s.hub.now ++ leBytes 8 0).map some ∧
      ∃ y, u.dma.find k = some y ∧ y.tail = (x.tail + 1) % 2 ^ x.cqLog ∧
        y.phase = (if (x.tail + 1) % 2 ^ x.cqLog = 0 then !x.phase else x.phase) ∧ y.queue = rest ∧ y.run = none))

/-- 12 R320-R323.  What rests on a choice or an inference of the model: log entries 38, 39, 89. -/
def Obligations.PrivilegedDma : Prop :=
  (∀ (fn d ch : Nat) (v : BitVec 32) (s : State), RegTakes s.hub fn d → ch < 4 →
    let h := accessWakes d fn s.hub
    let x := getPriv h d ch
    let p := updPriv h d ch fun x => { x with ctrl := v.toNat % 8 }
    let b := updPriv h d ch fun x => { x with ignored := satInc 255 x.ignored }
    (x.busy = none → v.toNat.testBit 8 = true → v.toNat.testBit 9 = false →
      let st := privCheck p x.src x.dst x.len (v.toNat % 4)
      (st ≠ 0 → exec (.dmaCtrlGo fn d ch v) s = .next { s with hub := privEnds d ch st 0 0xFFFFFFFF p }) ∧
      (st = 0 → exec (.dmaCtrlGo fn d ch v) s = .next (onHub (fun _ =>
        updPriv p d ch fun x => { x with busy := some (x.src, x.dst, x.len, v.toNat % 8, x.pattern) }) s))) ∧
    (x.busy.isSome = true → v.toNat.testBit 9 = false → exec (.dmaCtrlGo fn d ch v) s = .next { s with hub := b }) ∧
    (x.busy.isSome = true → v.toNat.testBit 9 = true →
      exec (.dmaCtrlAbort fn d ch v) s = .next (act (fun m _ => privStop d ch 0x0411 m b) s) ∧
      ∃ q, exec (.dmaCtrlAbort fn d ch v) s = .next q ∧ getPriv q.hub d ch =
        { getPriv b d ch with busy := none, last := 0x0411, bytes := (getPriv q.hub d ch).bytes, mismatch := 0xFFFFFFFF, done := (x.done + 1) % 65536 })) ∧
  (∀ (d ch src dst len ctrl pat : Nat) (s : State), (getPriv s.hub d ch).busy = some (src, dst, len, ctrl, pat) →
    let op := bits ctrl 0 2
    let g := remoteRead d (privGrans d src dst len op) s.lp5x s.hub
    let w := privRun (privView d ch src dst len op s.lp5x g).1 src dst len op pat len
    let own := (getDie s.hub d).rbuf = [] ∧ src / 2 ^ 34 = d ∧ dst / 2 ^ 34 = d ∧ reachesSystem s.hub src len = false ∧
      reachesSystem s.hub dst len = false
    ∃ u, exec (.privDmaComplete d ch) s = .next u ∧ u.pending = s.pending ∧ u.lp5x = w.1.foldl Memory.apply s.lp5x ∧
      (own → w = privRun s.lp5x src dst len op pat len) ∧ (op = 3 → u.lp5x = s.lp5x) ∧
      getPriv u.hub d ch = { getPriv s.hub d ch with
        busy := none, last := 0, bytes := if op = 3 then 0 else len, mismatch := w.2.getD 0xFFFFFFFF,
        done := ((getPriv s.hub d ch).done + 1) % 65536 }) ∧
  (∀ (fn d ch off : Nat) (v : BitVec 64) (s : State), RegTakes s.hub fn d → ch < 4 →
    let h := accessWakes d fn s.hub
    let w := v.toNat % 2 ^ 32
    let put (f : PrivDma → PrivDma) : Prop := exec (.privDmaRegisterWrite fn d ch off 4 v) s = .next { s with hub := updPriv h d ch f }
    ((getPriv h d ch).busy.isSome = true → off < 0x14 → off % 4 = 0 → put fun x => { x with ignored := satInc 255 x.ignored }) ∧
    ((getPriv h d ch).busy = none →
      (off = 0x00 → put fun x => { x with src := x.src / 2 ^ 32 * 2 ^ 32 + w }) ∧
      (off = 0x04 → put fun x => { x with src := x.src % 2 ^ 32 + w % 32 * 2 ^ 32 }) ∧
      (off = 0x08 → put fun x => { x with dst := x.dst / 2 ^ 32 * 2 ^ 32 + w }) ∧
      (off = 0x0C → put fun x => { x with dst := x.dst % 2 ^ 32 + w % 32 * 2 ^ 32 }) ∧
      (off = 0x10 → put fun x => { x with len := w }) ∧
      (off = 0x18 → put fun x => { x with pattern := x.pattern / 2 ^ 32 * 2 ^ 32 + w }) ∧
      (off = 0x1C → put fun x => { x with pattern := x.pattern % 2 ^ 32 + w * 2 ^ 32 })))

/-- 13 R366-R372.  What rests on a choice or an inference of the model: log entries 52, 53, 81. -/
def Obligations.LinkCommands : Prop :=
  ∀ (c : Cmd) (s : State),
    let h := fetched c.ctx s.hub
    let k := portArg c
    let p := getPort h k
    (Accepts lnkConfig c s → ∃ g, exec (.lnkConfig c) s = .next (done 0x0D00 c 0 0 g s) ∧
      (let q := getPort g k
       q.kind = arg8 c 18 ∧ q.options = arg8 c 19 ∧ q.lanes = arg8 c 20 ∧ q.dpRate = arg8 c 21 ∧ q.dsiRate = arg16 c 22 ∧
         q.rateTx = arg8 c 24 ∧ q.rateRx = arg8 c 25 ∧ q.dozeIdle = (if arg16 c 26 = 0 then 100 else arg16 c 26) ∧
         q.fomMin = (if arg8 c 28 = 0 then 96 else arg8 c 28) ∧ q.camOwner = arg16 c 30 ∧
         (arg8 c 18 = 0 → p.kind ≠ 0 → q.state = .off) ∧
         (4 ≤ arg8 c 17 → arg8 c 18 ≠ 0 → p.kind = 0 → q.state = .seek) ∧
         (arg8 c 17 < 2 → arg8 c 18 ≠ 0 → p.kind = 0 → p.sink = false → q.state = .alone) ∧
         (arg8 c 17 = 2 → arg8 c 18 ≠ 0 → p.kind ≠ arg8 c 18 → q.state = .up) ∧
         (p.kind = arg8 c 18 → p.rateTx = arg8 c 24 → p.rateRx = arg8 c 25 → q.state = p.state))) ∧
    (Accepts lnkQuery c s → exec (.lnkQuery c) s = .next (done 0x0D01 c 64 0
      (let g := lnkFresh k h
       ctxWrite c.ctx (arg64 c 24) (lnkImage k (getPort g k)) g) s)) ∧
    (Accepts lnkEq c s → exec (.lnkEq c) s = .next (done 0x0D02 c 0 0
      (let f (l : Nat) (x : Lane) : Lane :=
        if (arg8 c 18).testBit l = false then x
        else if arg8 c 19 = 0 then { x with stale := 4, fir := [arg8 c 20, arg8 c 21, arg8 c 22] }
        else if arg8 c 19 = 1 then { x with
          stale := 4, fixed := true, adapting := false, ctle := arg8 c 23, dfe := (List.range 4).map fun i => signed 8 (arg8 c (24 + i)) }
        else { x with stale := 4, fixed := false, adapting := true }
       updPort h k fun p => { p with lane0 := f 0 p.lane0, lane1 := f 1 p.lane1 }) s)) ∧
    (Accepts lnkPower c s →
      (arg8 c 18 = 2 → p.state = .up → exec (.lnkPower c) s = .next (done 0x0D03 c 0 0
        (linkGoes k .deep 1 (updPort (leaveUp k h) k fun p => { p with
          lane0 := { p.lane0 with rx := 0, fom := 0, adapting := false }, lane1 := { p.lane1 with rx := 0, fom := 0, adapting := false } })) s)) ∧
      (arg8 c 18 = 2 → p.state ≠ .up → exec (.lnkPower c) s = .next (done 0x0D03 c 0 0 h s)) ∧
      (arg8 c 18 = 0 → p.state = .up → exec (.lnkPower c) s = .next (done 0x0D03 c 0 0 h s)) ∧
      (arg8 c 18 = 0 → p.state ≠ .up →
        let g := updPort h k fun x => { x with wakeCmds := x.wakeCmds ++ [taken 0x0D03 c s.hub] }
        exec (.lnkPower c) s = .next { s with hub := if p.state = .deep then enterSeek k 1 g else g })) ∧
    (Accepts lnkLoopback c s →
      let t : LoopTest := { mode := arg8 c 18, lanes := arg8 c 19, duration := arg32 c 20, start := h.now,
                            cmd := some (taken 0x0D04 c s.hub), accepted := false }
      (arg8 c 18 = 3 → exec (.lnkLoopback c) s = .next { s with hub := sendLoop k 0 (updPort h k fun x => { x with test := some t }) }) ∧
      (arg8 c 18 ≠ 3 → exec (.lnkLoopback c) s = .next (onHub (fun _ =>
        linkGoes k .loop 1 (updPort h k fun x => { x with test := some { t with accepted := true }, txDoze := false })) s))) ∧
    (Accepts Machine.lnkCamera c s →
      (arg8 c 18 = 0 → ∃ g, exec (.lnkCamera c) s = .next (done 0x0D05 c 0 0 g s) ∧ (getPort g k).cam = none ∧
        (getPort g k).camNext = none ∧ (getPort g k).camFrame = none ∧ (getPort g k).camK = 0) ∧
      (arg8 c 18 = 1 → ∃ cfg g, camCfg h c = some cfg ∧
        exec (.lnkCamera c) s = .next (done 0x0D05 c (ceilDiv (1000 * cfg.wLine) (arg32 c 20)) 0 g s) ∧
        (p.cam = none → (getPort g k).cam = some cfg ∧ (getPort g k).camK = 0 ∧ (getPort g k).camNext = p.camNext) ∧
        (p.cam.isSome = true → (getPort g k).cam = p.cam ∧ (getPort g k).camK = p.camK ∧ (getPort g k).camNext = some cfg) ∧
        (getPort g k).camFrame = p.camFrame ∧ ∀ q, q ≠ k → getPort g q = getPort h q))

/-- 13 R352, R362, R363, R365, R370, R371.  What rests on a choice or an inference of the model: log entry 54. -/
def Obligations.LinkRequests : Prop :=
  (∀ (c : Cmd) (s : State),
    let h := fetched c.ctx s.hub
    let k := portArg c
    (Accepts Machine.lnkI2c c s →
      let x := getPort h k
      let r : I2cReq := { cmd := taken 0x0D06 c s.hub, id := x.i2cId, buf := arg64 c 56, msg := [x.i2cId, arg8 c 18, arg8 c 20, arg8 c 21,
        arg8 c 19, 0, 0, 0].map (BitVec.ofNat 8) ++ argBytes c 24 (arg8 c 20) }
      let g := updPort h k fun x => { x with i2cId := (x.i2cId + 1) % 256, i2c := x.i2c ++ [r] }
      exec (.lnkI2c c) s = .next { s with hub := if x.i2c = [] then sendMessage k 0x78 2 r.msg g else g }) ∧
    (Accepts Machine.lnkAux c s →
      let req := leBytes 1 (arg8 c 18) ++ leBytes 1 (arg8 c 19) ++ leBytes 4 (arg32 c 20) ++ (if arg8 c 18 = 1 then argBytes c 24 (arg8 c 19) else [])
      let g := updPort h k fun x => { x with aux := x.aux ++ [(taken 0x0D07 c s.hub, arg8 c 18, req)] }
      exec (.lnkAux c) s = .next { s with hub := if (getPort h k).aux = [] then send (.bus k 2 req) g else g }) ∧
    (Accepts Machine.lnkBacklight c s →
      (portBusy h k = true → exec (.lnkBacklight c) s = .next (onHub (fun _ =>
        updPort h k fun x => { x with light := x.light ++ [(arg16 c 18, arg8 c 20, taken 0x0D08 c s.hub)] }) s)) ∧
      (portBusy h k = false → exec (.lnkBacklight c) s = .next (done 0x0D08 c 0 0
        (send (.bus k 5 (leBytes 2 (arg16 c 18 / 2 ^ (16 - (getPort h k).sinkBits)) ++ leBytes 1 (arg8 c 20))) h) s))) ∧
    (Accepts Machine.lnkDsiCmd c s →
      let k := arg8 c 16 * 8 + 2
      let read := (arg8 c 19).testBit 1
      let bs := leBytes 1 (arg8 c 17) ++ leBytes 1 (arg8 c 19) ++ leBytes 1 (if read then arg8 c 22 else 0) ++ argBytes c 24 (arg16 c 20)
      let p := taken 0x0D09 c s.hub
      (portBusy h k = true → exec (.lnkDsiCmd c) s = .next (onHub (fun _ =>
        updPort h k fun x => { x with dsiWait := x.dsiWait ++ [(bs, read, p)] }) s)) ∧
      (portBusy h k = false → read = false → exec (.lnkDsiCmd c) s = .next (done 0x0D09 c 0 0 (send (.bus k 3 bs) h) s)) ∧
      (portBusy h k = false → read = true → exec (.lnkDsiCmd c) s = .next (onHub (fun _ =>
        updPort (send (.bus k 3 bs) h) k fun x => { x with dsiRead := x.dsiRead ++ [p] }) s)))) ∧
  (∀ (k : Nat) (data : List (BitVec 8)) (s : State),
    let p := getPort s.hub k
    (∀ r rest, carries s.hub k = true → p.rxDoze = false → p.i2c = r :: rest → leNat (data.take 1) = r.id →
      let n := leNat ((data.drop 3).take 1)
      let bs := (data.drop 8).take n
      let res := leNat ((data.drop 1).take 1) + 256 * leNat ((data.drop 2).take 1) + 65536 * n
      let g := updPort s.hub k fun p => { p with i2c := rest }
      let may := bs ≠ [] ∧ (getCtx s.hub r.cmd.ctx).epoch = r.cmd.epoch
      (¬ may → exec (.i2cRsp k data) s = .next { s with hub := sendI2c k (completeOk r.cmd res 0 g) }) ∧
      (may → exec (.i2cRsp k data) s = .next { s with hub := sendI2c k (completeOk r.cmd res 0 (ctxWrite r.cmd.ctx r.buf bs g)) })) ∧
    (∀ q op b rest, p.aux = (q, op, b) :: rest → leNat (data.take 1) = 2 → p.auxTries < 7 → exec (.auxReply k data) s =
      .next (onHub (fun h => send (.bus k 2 b) (updPort h k fun x => { x with auxTries := x.auxTries + 1 })) s)) ∧
    (∀ q op b rest, p.aux = (q, op, b) :: rest → leNat (data.take 1) ≠ 2 ∨ 7 ≤ p.auxTries → exec (.auxReply k data) s =
      .next (onHub (fun h => sendAux k (completeOk q (leNat (data.take 1)) (if op = 0 then leNat ((data.drop 1).take 8) else 0)
        (updPort h k fun x => { x with aux := rest, auxTries := 0 }))) s)) ∧
    (∀ q rest, p.dsiRead = q :: rest → exec (.dsiReadResponse k data) s = .next (onHub (fun h =>
      completeOk q 0 (msgN data 0 8) (updPort h k fun x => { x with dsiRead := rest })) s)) ∧
    (∀ t q op b rest, firstWait (waiting s.hub k) = some (t, 3) → p.aux = (q, op, b) :: rest →
      exec (.commandTimeout k) s = .next (onHub (fun h =>
        sendAux k (complete q 0x0801 255 0 0 (updPort (at_ t h) k fun x => { x with aux := rest, auxTries := 0 }))) s)) ∧
    (∀ t r rest, firstWait (waiting s.hub k) = some (t, 0) → p.i2c = r :: rest →
      exec (.commandTimeout k) s = .next (onHub (fun h =>
        sendI2c k (complete r.cmd 0x0801 255 0 0 (updPort (at_ t h) k fun x => { x with i2c := rest }))) s)) ∧
    (∀ t q rest, firstWait (waiting s.hub k) = some (t, 4) → p.dsiRead = q :: rest →
      exec (.commandTimeout k) s = .next (onHub (fun h =>
        complete q 0x0801 255 0 0 (updPort (at_ t h) k fun x => { x with dsiRead := rest })) s)) ∧
    (∀ t q rest, firstWait (waiting s.hub k) = some (t, 1) → p.wakeCmds = q :: rest →
      exec (.commandTimeout k) s = .next (onHub (fun h =>
        complete q 0x0803 255 0 0 (updPort (at_ t h) k fun x => { x with wakeCmds := rest })) s)) ∧
    (∀ t w q, firstWait (waiting s.hub k) = some (t, 2) → p.test = some w → w.cmd = some q →
      exec (.commandTimeout k) s = .next (onHub (fun h =>
        complete q 0x0803 255 0 0 (updPort (at_ t h) k fun x => { x with test := none })) s)))

/-- 13 R339-R345.  What rests on a choice or an inference of the model: log entries 49, 81. -/
def Obligations.TraverseTrains : Prop :=
  (∀ (k r : Nat) (st : LinkState) (h : Hub),
    getPort (linkGoes k st r h) k = { getPort h k with state := st, stateTime := h.now } ∧
    (∀ q, q ≠ k → getPort (linkGoes k st r h) q = getPort h q) ∧
    getPort (enterSeek k r h) k = { getPort h k with
      state := .seek, stateTime := h.now, t0 := h.now, lockAt := 0, txDoze := false, rxDoze := false,
      lane0 := { (getPort h k).lane0 with rx := 0, fom := 0, adapting := false }
      lane1 := { (getPort h k).lane1 with rx := 0, fom := 0, adapting := false } }) ∧
  (∀ (k l : Nat) (s : State), 4 ≤ k % 8 →
    let p := getPort s.hub k
    (p.state = .seek → (l = 0 → p.lane1.rx = 2) → (l ≠ 0 → p.lane0.rx = 2) → p.lane0.rx ≤ 2 → p.lane1.rx ≤ 2 →
      exec (.laneBlockLock k l) s = .next (onHub (fun h => linkGoes k .adapt 1 (updPort h k fun p => { p with
        lane0 := { p.lane0 with rx := 2, adapting := true }, lane1 := { p.lane1 with rx := 2, adapting := true }, lockAt := h.now })) s)) ∧
    (p.state = .seek → l = 0 → p.lane1.rx < 2 → exec (.laneBlockLock k l) s =
      .next (onHub (fun h => updPort h k fun p => { p with lane0 := { p.lane0 with rx := max p.lane0.rx 2 } }) s)) ∧
    (p.state = .adapt → exec (.adaptTimeout k) s = .next (onHub (fun h => linkGoes k .weak 4 (at_ (p.lockAt + 10000000) h)) s)) ∧
    ((p.state = .seek ∨ p.state = .adapt ∨ p.state = .wait) →
      exec (.trainingTimeout k true) s = .next (onHub (fun h => linkGoes k .weak 4 (at_ (p.t0 + 20000000) h)) s) ∧
      exec (.trainingTimeout k false) s = .next (onHub (fun h =>
        let g := trainSend 1 k (linkGoes k .alone 3 (updPort (at_ (p.t0 + 20000000) h) k fun p => { p with
          lane0 := { p.lane0 with rx := 0, fom := 0, adapting := false }, lane1 := { p.lane1 with rx := 0, fom := 0, adapting := false } }))
        if p.kind.testBit 2 then enumOnward g else g) s)) ∧
    (p.state = .alone → exec (.signalDetect k l) s = .next (onHub (enterSeek k 1) s)) ∧
    (p.state = .alone → p.stateTime ≤ s.hub.now → ∃ u n, exec (.aloneBurst k) s = .next u ∧ u.lp5x = s.lp5x ∧ u.pending = s.pending ∧
      u.hub.ports = s.hub.ports ∧ u.hub.now = p.stateTime + 100000000 * n ∧ s.hub.now < u.hub.now ∧ u.hub.now ≤ s.hub.now + 100000000 ∧
      u.hub.outbox.length = s.hub.outbox.length + 2) ∧
    (p.state = .deep → (asleep s.hub (k / 8) = true ∨ (getDie s.hub (k / 8)).pwr.state = .entering) →
      exec (.signalDetect k l) s = .next (onHub (wakeEvent (k / 8) 4) s)) ∧
    (p.state = .deep → (getDie s.hub (k / 8)).pwr.state = .run → exec (.signalDetect k l) s = .next (onHub (enterSeek k 1) s)) ∧
    (p.state = .weak → exec (.weakRetry k) s = .next (onHub (fun h => enterSeek k 1 (at_ (p.stateTime + 100000000) h)) s)) ∧
    (∀ why, p.state = .up → why ≤ 4 → p.rxDoze = false →
      exec (.linkLoss k why) s = .next (onHub (fun h =>
        let g := updPort h k fun p => { p with retrains := satInc (2 ^ 32 - 1) p.retrains }
        faultReport (k / 8) 0x0703 (unitId 5 (k / 8) (k % 8)) (unitId 5 (k / 8) (k % 8)) 2 (enterSeek k 2 (leaveUp k g))) s)) ∧
    (∀ a b dfe, p.rxDoze = false → 2 ≤ p.lane0.rx → a ≤ 32 → b ≤ 32 → (p.state ≠ .up ∨ p.options.testBit 2 = false ∨ p.lane0.fixed = true) →
      let fom := min (4 * (a + b)) 255
      let rx := if p.state = .adapt ∧ p.lane0.adapting = false ∧ p.fomMin ≤ fom then 3 else p.lane0.rx
      let put (h : Hub) : Hub :=
        updPort h k fun p => { p with lane0 := { p.lane0 with fom := fom, stale := p.lane0.stale - 1, rx := rx } }
      let both := p.state = .adapt ∧ rx = 3 ∧ p.lane1.rx = 3
      (both → exec (.fomWindowEnd k 0 a b dfe) s = .next (onHub (fun h => trainSend 1 k (linkGoes k .wait 1 (put h))) s)) ∧
      (¬ both → exec (.fomWindowEnd k 0 a b dfe) s = .next (onHub put s)))) ∧
  (∀ (k l n : Nat) (foms : List (BitVec 8)) (dfes : List (BitVec 32)) (fom : BitVec 8) (dfe : BitVec 32) (s : State),
    4 ≤ k % 8 → l < 2 → foms.length ≤ 16 → dfes.length = foms.length →
    let p := getPort s.hub k
    p.state = .adapt → foms[n]? = some fom → dfes[n]? = some dfe → (∀ t ∈ foms, t.toNat ≤ fom.toNat) →
    (∀ i t, i < n → foms[i]? = some t → t.toNat < fom.toNat) →
    let tap (i : Nat) : Int := max (-31) (min 31 (signed 8 (bits dfe.toNat (8 * i) 8)))
    let new (x : Lane) : Lane :=
      { x with fom := fom.toNat, rx := if p.fomMin ≤ fom.toNat then 3 else 2, adapting := false
               ctle := if x.fixed then x.ctle else n, dfe := if x.fixed then x.dfe else [tap 0, tap 1, tap 2, tap 3] }
    let put (h : Hub) : Hub :=
      updPort h k fun p => if l = 0 then { p with lane0 := new p.lane0 } else { p with lane1 := new p.lane1 }
    let both := p.fomMin ≤ fom.toNat ∧ (if l = 0 then p.lane1.rx else p.lane0.rx) = 3
    let locked := 2 ≤ (if l = 0 then p.lane0.rx else p.lane1.rx)
    (locked → both → exec (.laneAdapted k l foms dfes) s = .next (onHub (fun h => trainSend 1 k (linkGoes k .wait 1 (put h))) s)) ∧
    (locked → ¬ both → exec (.laneAdapted k l foms dfes) s = .next (onHub put s)) ∧
    (¬ locked → exec (.laneAdapted k l foms dfes) s = .next s)) ∧
  (∀ (k : Nat) (data : List (BitVec 8)) (s : State), 4 ≤ k % 8 → (getPort s.hub k).state = .wait →
    ∃ u, exec (.partnerAdapted k data) s = .next u ∧ u.lp5x = s.lp5x ∧ u.pending = s.pending ∧
      (getPort u.hub k).state = .up ∧ (getPort u.hub k).stateTime = s.hub.now ∧ (getPort u.hub k).wakeCmds = [] ∧
      (getPort u.hub k).partnerId = leNat ((data.drop 7).take 4) ∧
      (getPort u.hub k).lane0.partnerFom = leNat ((data.drop 2).take 1) ∧ (getPort u.hub k).lane1.partnerFom = leNat ((data.drop 17).take 1))

/-- 13 R347-R356.  What rests on a choice or an inference of the model: log entries 41, 49, 51, 56. -/
def Obligations.TraverseStreams : Prop :=
  (∀ (k : Nat) (data : List (BitVec 8)) (s : State), carries s.hub k = true →
    let p := getPort s.hub k
    (p.txDoze = false → p.options.testBit 0 = true → portBusy s.hub k = false → camRuns p = false → p.farHeld = false →
      ∃ u, exec (.dozeEntry k) s = .next u ∧
      u.lp5x = s.lp5x ∧ u.pending = s.pending ∧ u.hub.now = max s.hub.now (p.lastTx + 1000 * p.dozeIdle) ∧
      getPort u.hub k = { p with txDoze := true } ∧ (∀ q, q ≠ k → getPort u.hub q = getPort s.hub q) ∧
      u.hub.outbox = s.hub.outbox ++ List.replicate 8 (Sent.trv k 0xA5 (List.replicate 16 0xA5))) ∧
    (p.txDoze = true ∨ portBusy s.hub k = true ∨ camRuns p = true ∨ p.farHeld = true → exec (.dozeEntry k) s = .next s) ∧
    (p.txDoze = true → ∃ u, exec (.dozeExit k) s = .next u ∧ u.lp5x = s.lp5x ∧ u.pending = s.pending ∧
      getPort u.hub k = { p with txDoze := false } ∧ (∀ q, q ≠ k → getPort u.hub q = getPort s.hub q) ∧
      u.hub.outbox.length = s.hub.outbox.length + 16) ∧
    (p.txDoze = false → exec (.dozeExit k) s = .next s) ∧
    exec (.dozeReceived k) s = .next (onHub (fun h => updPort h k fun p => { p with rxDoze := true }) s) ∧
    (p.options.testBit 1 = true → portOut s.hub k = none → p.cam = none → p.camNext = none →
      ∃ u, exec (.loopRequest k) s = .next u ∧ u.lp5x = s.lp5x ∧ u.pending = s.pending ∧
        (getPort u.hub k).farHeld = true ∧ (getPort u.hub k).rxDoze = false ∧ Sent.trv k 0xB4 (ctlBlock 0xB4 [2]) ∈ u.hub.outbox) ∧
    ((p.options.testBit 1 = false ∨ portOut s.hub k ≠ none ∨ p.cam.isSome = true ∨ p.camNext.isSome = true) →
      ∃ u, exec (.loopRequest k) s = .next u ∧ u.lp5x = s.lp5x ∧ u.pending = s.pending ∧
        (getPort u.hub k).farHeld = p.farHeld ∧ (getPort u.hub k).rxDoze = false ∧ Sent.trv k 0xB4 (ctlBlock 0xB4 [3]) ∈ u.hub.outbox) ∧
    (p.rxDoze = false → exec (.loopRelease k) s = .next (onHub (fun h => updPort h k fun p => { p with farHeld := false }) s)) ∧
    (∀ t, p.test = some t → t.accepted = false → leNat (data.take 1) = 2 → exec (.loopAnswer k data) s = .next (onHub (fun h =>
      linkGoes k .loop 1 (updPort h k fun p => { p with test := some { t with start := h.now, accepted := true }, txDoze := false })) s)) ∧
    (∀ t q, p.test = some t → t.accepted = false → t.cmd = some q → leNat (data.take 1) = 3 → exec (.loopAnswer k data) s =
      .next (onHub (fun h => complete q 0x0403 255 0 0 (updPort h k fun x => { x with test := none })) s)) ∧
    (p.rxDoze = false → exec (.backStatus k data) s =
      .next (onHub (fun h => updPort h k fun p => { p with partnerStatus := leNat (data.take 1) }) s)) ∧
    (busOnPads s.hub (k / 8) = false → exec (.i2cReq k data) s = .next (onHub (fun h =>
      sendMessage k 0x78 3 (leBytes 1 (leNat (data.take 1)) ++ [3, 0, 0, 0, 0, 0, 0]) (streamHeard k h)) s)) ∧
    (busOnPads s.hub (k / 8) = true → ∃ u, exec (.i2cReq k data) s = .next u ∧ u.lp5x = s.lp5x ∧ u.pending = s.pending ∧
      u.hub.ctxs = s.hub.ctxs ∧ u.hub.freeIx = s.hub.freeIx + 3 + min 32 (leNat ((data.drop 3).take 1)) ∧
      Sent.bus k 4 (data.take 5 ++ (data.drop 8).take (leNat ((data.drop 2).take 1))) ∈ u.hub.outbox) ∧
    (∀ o, portOut s.hub k = some o → p.kind.testBit 0 = true → (getOut s.hub o).state = .stopped →
      exec (.videoOffRepeat k) s = .next (onHub (fun h =>
        let h := at_ (p.offAt + 100000000) h
        videoOff k (getOut s.hub o).frameCount (updPort h k fun p => { p with offAt := h.now })) s))) ∧
  (∀ (k e0 e1 : Nat) (n : BitVec 64) (t : LoopTest) (q : Pend) (s : State),
    let p := getPort s.hub k
    p.state = .loop → p.test = some t → t.accepted = true → t.cmd = some q →
    let e (l v : Nat) : Nat := if t.lanes.testBit l then min v 0xFFFF else 0
    exec (.loopbackEnd k e0 e1 n) s = .next (onHub (fun h => completeOk q (e 0 e0 + 65536 * e 1 e1) n.toNat
      (let g := updPort (at_ (t.start + 1000 * t.duration) h) k fun x => { x with test := none }
       if t.mode = 2 then enterSeek k 1 g else if t.mode = 3 then sendLoop k 1 (linkGoes k .up 1 g) else linkGoes k .up 1 g)) s)) ∧
  (∀ (k : Nat) (data : List (BitVec 8)) (c : CamCfg) (s : State),
    let p := getPort s.hub k
    carries s.hub k = true → p.kind.testBit 1 = true → p.cam = some c →
    (p.camNext = none → p.camFrame = none →
      let fits := ∃ t, camTarget s.hub c p.camK = some t ∧ leNat (data.take 2) = t.width ∧ leNat ((data.drop 2).take 2) = t.height ∧
        leNat ((data.drop 4).take 2) = t.fmt
      let q : Port := { p with rxDoze := false, camK := p.camK + 1 }
      ∃ u, exec (.cameraVideoFrame k data) s = .next u ∧ u.lp5x = s.lp5x ∧ u.pending = s.pending ∧
        (fits → getPort u.hub k = { q with camFrame := some { k := p.camK, ignored := false } } ∧ u.hub.ctxs = s.hub.ctxs) ∧
        (¬ fits → getPort u.hub k =
          { q with camFrame := some { k := p.camK, ignored := true }, camFaults := (p.camFaults + 1) % 2 ^ 32 })) ∧
    (∀ f t, p.camFrame = some f → f.ignored = false → f.full = false → camTarget s.hub c f.k = some t → (fmtD t.fmt).crated = false →
      let pl := leNat (data.take 1)
      let len := leNat ((data.drop 1).take 2)
      let y := leNat ((data.drop 3).take 2)
      let n := rowBytes (fmtD t.fmt) t.width pl
      pl < camPlanes t.fmt → y < planeLines (fmtD t.fmt) t.height pl → len = ceilDiv n 16 → data.length = 15 + 16 * len →
      (pl, y) ∉ f.got →
      let w := planeWrite s.hub t pl (y * (t.planes.getD pl (0, 0)).2) ((data.drop 15).take n)
      ∃ u, exec (.cameraVideoLine k data) s = .next u ∧ u.pending = s.pending ∧ u.lp5x = w.foldl Memory.apply s.lp5x ∧
        getPort u.hub k = { p with rxDoze := false, camFrame := some { f with
          got := (pl, y) :: f.got, full := !f.bad && decide (f.got.length + 1 = planeLineCount t) } }) ∧
    (∀ f, p.camFrame = some f → f.full = true →
      let g := broadcast (updPort s.hub k fun p => { p with camFrame := none, camFrames := (p.camFrames + 1) % 2 ^ 32 })
      (tlOf g c.tl = none → exec (.cameraFrameComplete k) s = .next { s with hub := g }) ∧
      (∀ i x, tlOf g c.tl = some (i, x) →
        exec (.cameraFrameComplete k) s = .next { s with hub := signalTl i (max x.value ((c.base + f.k + 1) % 2 ^ 64)) g }))) ∧
  (∀ (k : Nat) (data : List (BitVec 8)) (s : State), chainUp s.hub k = true →
    let p := getPort s.hub k
    let t := chainTime s.hub
    (s.hub.chain.down = some k → exec (.timeRequestSend k) s = .next (onHub (fun h =>
      let h := at_ (p.timeReq + 1000000) h
      sendBlock k 0x96 (leBytes 3 0 ++ leBytes 8 (chainTime h) ++ leBytes 4 p.timeSeq) []
        (updPort h k fun p => { p with timeReq := h.now, timeSeq := (p.timeSeq + 1) % 2 ^ 32 })) s)) ∧
    (s.hub.chain.up = some k → p.rxDoze = false → exec (.timeRequest k data) s = .next (onHub
      (sendBlock k 0x96 (leBytes 1 1 ++ leBytes 2 1 ++ leBytes 8 t ++ leBytes 4 (leNat ((data.drop 8).take 4)))
        (leBytes 8 t ++ leBytes 8 (leNat (data.take 8)))) s)) ∧
    (s.hub.chain.down = some k → ∃ θ : Int,
      (let n (j : Nat) : Int := signed 64 (leNat ((data.drop j).take 8))
       let sum := (n 12 - n 20) + (n 0 - signed 64 t)
       (sum % 2 = 0 → 2 * θ = sum) ∧ (sum % 2 ≠ 0 → 2 * θ = sum - 1 ∨ 2 * θ = sum + 1)) ∧
      ∃ g, g.chain = s.hub.chain ∧ g.freeIx = s.hub.freeIx + 1 ∧ exec (.timeReply k data) s =
        .next { s with hub := sendMgmt k 5 (leBytes 8 (unsigned 64 θ) ++ leBytes 4 (leNat ((data.drop 8).take 4))) g }))

/-- 13 R359-R361.  What rests on a choice or an inference of the model: log entry 52. -/
def Obligations.DisplayPortEvents : Prop :=
  ∀ (k : Nat) (s : State), k % 8 < 2 →
    let p := getPort s.hub k
    (∀ lanes rate caps width granX granY, dieUp s.hub (k / 8) = true → unitRetired s.hub (unitId 5 (k / 8) (k % 8)) = false →
      let q := { p with sink := true, sinkLanes := lanes, sinkRate := rate, sinkCaps := caps % 16, sinkBits := max 1 (min 16 width),
                        sinkGran := (max 1 granX, max 1 granY), trained := none, inUse := (0, 0), training := none }
      (p.kind = 0 → exec (.dpHotPlug k lanes rate caps (width, granX, granY)) s = .next (onHub (fun h => updPort h k fun _ => q) s)) ∧
      (p.kind ≠ 0 → exec (.dpHotPlug k lanes rate caps (width, granX, granY)) s = .next (onHub (fun h => linkGoes k .seek 6 (updPort h k fun _ =>
        { q with training := some (if 4 ≤ lanes then 4 else if 2 ≤ lanes then 2 else 1, min 4 (max 1 rate)) })) s))) ∧
    (p.sink = true → ∃ u, exec (.dpUnplug k) s = .next u ∧ u.lp5x = s.lp5x ∧ u.pending = s.pending ∧
      (getPort u.hub k).sink = false ∧ (getPort u.hub k).trained = none ∧ (getPort u.hub k).training = none ∧
      (p.kind ≠ 0 → (getPort u.hub k).state = .alone) ∧ (p.kind = 0 → (getPort u.hub k).state = p.state) ∧
      (∀ o, portOut s.hub k = some o → (getOut u.hub o).psr = false)) ∧
    (p.sink = true → p.kind ≠ 0 →
      (p.state = .up → unitRetired s.hub (unitId 5 (k / 8) (k % 8)) = false → exec (.dpHpdIrq k true false) s = .next (onHub (fun h =>
        linkGoes k .seek 2 (updPort (cutFrame k h) k fun p => { p with training := some p.inUse })) s)) ∧
      exec (.dpHpdIrq k false false) s = .next s ∧
      ∃ u, exec (.dpHpdIrq k false true) s = .next u ∧ u.lp5x = s.lp5x ∧ u.pending = s.pending ∧
        getPort u.hub k = { p with psrOff := true } ∧ ∀ o, portOut s.hub k = some o → (getOut u.hub o).psr = false) ∧
    (∀ cfg lanes rate, p.training = some cfg → p.sink = true →
      let carries := ∀ o e, portOut s.hub k = some o → (getOut s.hub o).mode = some e → dpFits e (getOut s.hub o).bpc lanes rate = true
      (p.trained = none → (lanes = 1 ∨ lanes = 2 ∨ lanes = 4) → 1 ≤ rate → rate ≤ 4 →
        (carries → exec (.dpTrainingEnd k true lanes rate) s = .next (onHub (fun h => linkGoes k .up 1 (updPort h k fun p =>
          { p with training := none, inUse := (lanes, rate), trained := some (lanes, rate) })) s)) ∧
        (¬ carries → exec (.dpTrainingEnd k true lanes rate) s = .next (onHub (fun h => linkGoes k .down 2 (updPort h k fun p =>
          { p with training := none, trained := some (lanes, rate) })) s))) ∧
      (p.trained = none → exec (.dpTrainingEnd k false lanes rate) s = .next (onHub (fun h =>
        linkGoes k .down 2 (updPort h k fun p => { p with training := none })) s)) ∧
      (p.trained.isSome = true → portOut s.hub k = none → (lanes = 1 ∨ lanes = 2 ∨ lanes = 4) → 1 ≤ rate → rate ≤ 4 →
        exec (.dpTrainingEnd k true lanes rate) s = .next (onHub (fun h => linkGoes k .up 1 (updPort h k fun p =>
          { p with training := none, inUse := (lanes, rate) })) s)))

/-- 18 R465-R471.  What rests on a choice or an inference of the model: log entry 56. -/
def Obligations.ChainMessages : Prop :=
  (∀ (k : Nat) (data : List (BitVec 8)) (s : State), chainUp s.hub k = true → ready s.hub = true → (getPort s.hub k).rxDoze = false →
    let c := s.hub.chain
    let pos := leNat (data.take 1)
    (c.head = true → exec (.enumReq k data) s = .next (onHub (sendMgmt k 3 (leBytes 1 2)) s)) ∧
    (c.head = false → 4 ≤ pos → exec (.enumReq k data) s = .next (onHub (sendMgmt k 3 (leBytes 1 1)) s)) ∧
    (c.head = false → pos < 4 → ¬ (c.enumerated = true ∧ c.up = some k ∧ c.pos = pos) →
      ∃ u, exec (.enumReq k data) s = .next u ∧ u.lp5x = s.lp5x ∧ u.pending = s.pending ∧ u.hub.chain.pos = pos ∧
        u.hub.chain.enumerated = true ∧ u.hub.chain.up = some k ∧ u.hub.chain.upSide = some k ∧ u.hub.chain.down = none ∧ u.hub.chain.aligned = false ∧
        u.hub.chain.headDev = leNat ((data.drop 4).take 4)) ∧
    (c.head = false → pos < 4 → c.enumerated = true → c.up = some k → c.pos = pos →
      ∃ u asking askAt len, exec (.enumReq k data) s = .next u ∧ u.lp5x = s.lp5x ∧ u.pending = s.pending ∧
        u.hub.chain = { c with asking := asking, askAt := askAt, len := len }) ∧
    (c.asking = true → downPort s.hub = some k →
      exec (.enumReqRetry k) s = .next (onHub (fun h => sendEnum k (at_ (c.askAt + 1000000) h)) s) ∧
      (sendEnum k s.hub).chain = { c with asking := true, askAt := s.hub.now }) ∧
    (c.asking = true → downPort s.hub = some k →
      exec (.enumAck k data) s = .next (onHub (fun h => { h with chain := { c with asking := false, down := some k } }) s) ∧
      ∃ v u, exec (.enumReject k data) s = .next u ∧ u.hub =
        (let g := { s.hub with chain := { c with asking := false }, freeIx := s.hub.freeIx + 1 }
         let e := chainEvent (if pos = 1 then 6 else 5) (faultReport (k / 8) 0x0703 (unitId 5 (k / 8) (k % 8)) (unitId 5 (k / 8) (k % 8)) v g)
         if c.head then e else chainLength (c.pos + 1) e)) ∧
    (c.down = some k → 1 ≤ pos → pos ≤ 4 → ∃ u, exec (.chainEnd k data) s = .next u ∧ u.lp5x = s.lp5x ∧ u.pending = s.pending ∧
      u.hub = chainLength pos s.hub ∧ u.hub.chain = { c with len := if c.up = none ∧ c.head = false then pos - c.pos else pos })) ∧
  (∀ (s : State), ready s.hub = true → s.hub.chain.down = none → (s.hub.chain.enumerated = false ∨ s.hub.chain.head = true) →
    exec .chainEnumTimeout s = .next (onHub (fun h =>
      chainEvent 2 { at_ (h.pkg.readyAt + 60000000) h with chain := { h.chain with pos := 0, len := 1 } }) s)) ∧
  (∀ (k : Nat) (data : List (BitVec 8)) (s : State), chainUp s.hub k = true → (getPort s.hub k).rxDoze = false →
    let c := s.hub.chain
    let num := leNat ((data.drop 1).take 1)
    (c.up = some k →
      let θ := signed 64 (leNat (data.take 8))
      let good := if θ.natAbs ≤ 6 then min 16 (c.good + 1) else 0
      ∃ al : Bool, exec (.timeOfs k data) s = .next (onHub (fun h => { h with
        freeIx := h.freeIx + 1
        chain := { c with
          ofs := if c.set then chainOfs s.hub else chainOfs s.hub - θ
          todo := if c.set then -θ else 0, ofsAt := s.hub.now, set := true, good := good, aligned := al } }) s) ∧
        (c.aligned = true → al = true) ∧ (c.aligned = false → good < 16 → al = false) ∧ (c.pos = 1 → good = 16 → al = true)) ∧
    (c.up = some k → leNat (data.take 1) = 1 →
      (∀ d, c.down = some d → exec (.bcast k data) s = .next (onHub (fun h =>
        sendMgmt d 6 (data.take 16) { h with chain := { c with barrier := some num } }) s)) ∧
      (c.down = none → exec (.bcast k data) s = .next (onHub (fun h =>
        sendMgmt k 7 (leBytes 1 0 ++ leBytes 1 num) { h with chain := { c with barrier := none } }) s))) ∧
    (c.up = some k → leNat (data.take 1) = 2 → c.down = none →
      ∃ u, exec (.bcast k data) s = .next u ∧ u.lp5x = s.lp5x ∧ u.pending = s.pending ∧ u.hub.chain = c ∧
        (getDie u.hub s.hub.pkg.principal).kpr.snapState = 1 ∧
        (getDie u.hub s.hub.pkg.principal).kpr.armed = some (leNat ((data.drop 8).take 8), 2)) ∧
    (c.down = some k → c.barrier = some num →
      (c.up = none → exec (.barrierAck k data) s = .next (onHub (fun h => { h with chain := { c with barrier := none } }) s)) ∧
      (∀ u, c.up = some u → chainUp s.hub u = true → exec (.barrierAck k data) s = .next (onHub (fun h =>
        sendMgmt u 7 (leBytes 1 0 ++ leBytes 1 num) { h with chain := { c with barrier := none } }) s))))

/-- 15 R392-R399, R416-R419.  What rests on a choice or an inference of the model: log entries 57, 85. -/
def Obligations.PowerStates : Prop :=
  (∀ (c : Cmd) (s : State),
    let h := fetched c.ctx s.hub
    let d := arg8 c 16
    let t := arg8 c 17
    let p := taken 0x0900 c s.hub
    (Accepts pwrStateCmd c s → t ≠ 0 →
      let ds := if d = 0xFF then (upDies h).filter fun e => !asleep h e else [d]
      (firstRefusal h ds = none → exec (.pwrState c) s = .next { s with hub := ds.foldl (startEntry t p) h }) ∧
      (∀ e k i, firstRefusal h ds = some (e, k, i) → exec (.pwrState c) s = .next (onHub (fun _ =>
        complete p 0x0408 16 (k + 256 * e + 65536 * i) 0
          (updPwr h e fun x => { x with refused := satInc 255 x.refused, refKind := k, refReq := t, refIndex := i })) s))) ∧
    (Accepts pwrStateCmd c s → t = 0 →
      let ds := (if d = 0xFF then upDies h else [d]).filter fun e => !awake h e
      (ds = [] → exec (.pwrState c) s = .next (done 0x0900 c 0 0 h s)) ∧
      (ds ≠ [] → exec (.pwrState c) s = .next (onHub (fun _ => ds.foldl (fun h e => wakeEvent e 2 h)
        (ds.foldl (fun h e => updPwr h e fun x => { x with runCmds := x.runCmds ++ [p] }) h)) s))) ∧
    (Accepts Machine.pwrLimits c s →
      (d = 0xFF → exec (.pwrLimits c) s = .next (done 0x0901 c 0 0 { h with pkg := { h.pkg with pkgMw := arg32 c 24 } } s)) ∧
      (d ≠ 0xFF → exec (.pwrLimits c) s = .next (done 0x0901 c 0 0
        (updPwr h d fun x => { x with limit := arg16 c 20, floorMw := arg16 c 22 }) s))) ∧
    (Accepts Machine.pwrQuery c s →
      exec (.pwrQuery c) s = .next (done 0x0903 c 64 0 (ctxWrite c.ctx (arg64 c 24) (pwrBlock h d) h) s))) ∧
  (∀ (d : Nat) (e : PwrEntry) (s : State),
    let p := (getDie s.hub d).pwr
    dieUp s.hub d = true → p.entry = some e → p.state = .entering → entryReady s.hub d e.target = true → (e.target = 2 ∨ e.target = 3) →
    ∃ u, exec (.pwrEntryCommit d) s = .next u ∧ u.lp5x = s.lp5x ∧ u.pending = s.pending ∧
      (let q := (getDie u.hub d).pwr
       q.entries = (p.entries + 1) % 65536 ∧ q.commitAt = s.hub.now ∧ q.entry = none ∧ (getDie u.hub d).fbk.suspended = true ∧
        q.l1 = true ∧ (getDie u.hub d).clk.root.locked = false ∧
        (e.wake = none → q.state = (if e.target = 2 then PwrState.sleep else PwrState.deep)) ∧
        (∀ w, e.wake = some w → q.state = .exiting ∧ q.lastWake = w + 1))) ∧
  (∀ (d cause : Nat) (s : State),
    let p := (getDie s.hub d).pwr
    dieUp s.hub d = true → (p.wakeEn.testBit cause = true ∨ cause = 1) → cause ≤ 5 → cause ≠ 3 → (cause = 5 → p.level ≠ 0) →
    (asleep s.hub d = true → exec (.wakeEvent d cause) s =
      .next (onHub (fun h => pwrGoes d .exiting (updPwr h d fun x => { x with lastWake := cause + 1 })) s)) ∧
    (∀ e, p.state = .entering → p.entry = some e → exec (.wakeEvent d cause) s = .next (onHub (fun h => updPwr h d fun x =>
      { x with entry := some { e with wake := if e.wake.isNone then some cause else e.wake } }) s)) ∧
    (p.state = .run → exec (.wakeEvent d cause) s = .next s)) ∧
  (∀ (d : Nat) (s : State),
    let p := (getDie s.hub d).pwr
    (dieUp s.hub d = true → asleep s.hub d = true → p.wakeTimer ≠ 0 → p.wakeEn.testBit 3 = true →
      let wakes (t : Nat) (h : Hub) : Hub := pwrGoes d .exiting (updPwr (at_ (p.commitAt + t) h) d fun x => { x with lastWake := 4 })
      ((getDie s.hub d).clk.xtalOk = true →
        exec (.wakeEvent d 3) s = .next (onHub (wakes (p.wakeTimer * (30517 * 64 + 37) / 64)) s)) ∧
      ((getDie s.hub d).clk.xtalOk = false → ∃ t, 28409 * p.wakeTimer ≤ t ∧ t ≤ 34723 * p.wakeTimer ∧
        exec (.wakeEvent d 3) s = .next (onHub (fun h => wakes t { h with freeIx := h.freeIx + 1 }) s))) ∧
    (dieUp s.hub d = true → p.state = .exiting → (getDie s.hub d).clk.root.locked = true →
      ∃ u, exec (.pwrExitComplete d) s = .next u ∧ u.lp5x = s.lp5x ∧ u.pending = s.pending ∧ (getDie u.hub d).pwr.state = .run ∧
        (getDie u.hub d).pwr.wakes = satInc 255 p.wakes ∧ (getDie u.hub d).clk.aligned = true ∧
        (getDie u.hub d).fbk.suspended = false ∧ ∀ n, n < 12 → (sensorOf (getDie u.hub d).pwr n).valid = false) ∧
    (dieUp s.hub d = true → powered s.hub = true →
      (p.state = .run → exec (.idleEnter d) s = .next (onHub (fun h => updPwr h d fun x => { x with state := .idle }) s)) ∧
      (p.state = .idle → exec (.idleExit d) s = .next (onHub (fun h => updPwr h d fun x => { x with state := .run }) s))))

/-- 15 R400-R411.  What rests on a choice or an inference of the model: log entry 58. -/
def Obligations.HeatAndBudget : Prop :=
  (∀ (d n : Nat) (v : BitVec 12) (s : State),
    let p := (getDie s.hub d).pwr
    let t := signed 12 v.toNat
    n < 12 → dieUp s.hub d = true → powered s.hub = true → p.state ≠ .off →
    ∃ u, exec (.sensorConversion d n v) s = .next u ∧ u.lp5x = s.lp5x ∧ u.pending = s.pending ∧
      (let q := (getDie u.hub d).pwr
       sensorOf q n = { temp := v.toNat, valid := decide (2 ≤ (sensorOf p n).seen), seen := min 2 ((sensorOf p n).seen + 1) } ∧
        (∀ k, k ≠ n → sensorOf q k = sensorOf p k) ∧
        (1120 ≤ t → q.shutdown = true ∧ q.level = 3) ∧
        (t < 1120 → q.shutdown = p.shutdown ∧
          (hottest q = none → q.level = p.level) ∧
          (∀ w, hottest q = some w → q.maxTemp = unsigned 12 w.2 ∧ q.maxSensor = w.1 ∧
            (p.level = 3 → q.level = 3) ∧
            (p.level ≠ 3 → (944 ≤ w.2 ∨ (p.level = 2 ∧ 920 ≤ w.2) → q.level = 2) ∧
              (w.2 < 944 → ¬ (p.level = 2 ∧ 920 ≤ w.2) → (920 ≤ w.2 ∨ (1 ≤ p.level ∧ 896 ≤ w.2)) → q.level = 1) ∧
              (w.2 < 896 → q.level = 0) ∧ (w.2 < 920 → p.level = 0 → q.level = 0)))))) ∧
  (∀ (d : Nat) (s : State), powered s.hub = true →
    (dieUp s.hub d = true →
      ((getDie s.hub d).pwr.shutdown = true → ∃ u, exec (.thermalShutdown d) s = .next u ∧ LostDie d 1 s u) ∧
      ∃ u, exec (.analogueTrip d) s = .next u ∧ LostDie d 2 s u) ∧
    (dieUp s.hub d = false → exec (.thermalShutdown d) s = .next s ∧ exec (.analogueTrip d) s = .next s)) ∧
  (∀ (d : Nat) (s : State), dieUp s.hub d = true → ready s.hub = true → awake s.hub d = true →
    let p := (getDie s.hub d).pwr
    let g := updPwr s.hub d fun x => { x with allow := nextAllow p, budget := nextAllow p }
    let dm := demandOf (heldViews g)
    let r := nextRung (getDie g d).pwr (topRung g dm d) (fun r => estimate g dm (camResvs g) d r (rungStep r)) (nextAllow p : Nat)
    ∃ u, exec (.powerTick d) s = .next u ∧ u.lp5x = s.lp5x ∧ u.pending = s.pending ∧
      (let q := (getDie u.hub d).pwr
       q.allow = nextAllow p ∧ q.budget = nextAllow p ∧
        (hottest p = none → q.allow = p.allow) ∧
        (∀ w, hottest p = some w → p.floorMw ≤ p.limit →
          (944 ≤ w.2 → q.allow = min (max (p.allow - 500) p.floorMw) p.limit) ∧
          (w.2 < 896 → q.allow = min (max (p.allow + 250) p.floorMw) p.limit) ∧
          (896 ≤ w.2 → w.2 < 944 → q.allow = min (max p.allow p.floorMw) p.limit)) ∧
        ((getDie s.hub d).kdbg.halted = none → q.rung = r.1 ∧ q.below = r.2.1 ∧ q.short = r.2.2) ∧
        ((getDie s.hub d).kdbg.halted.isSome = true → q.rung = p.rung ∧ q.below = p.below) ∧
        q.pool = rungPool q.rung ∧ q.step = p.step ∧
        (p.stepTo = none →
          (rungStep q.rung < p.step → q.stepTo = some (p.step - 1) ∧ q.volt = p.step - 1 ∧ s.hub.now + 2000 ≤ q.rampEnd) ∧
          (p.step < rungStep q.rung → q.stepTo = some (p.step + 1) ∧ q.volt = p.volt) ∧
          (p.step = rungStep q.rung → q.stepTo = none ∧ q.volt = p.volt)))) ∧
  (∀ (d t : Nat) (s : State), dieUp s.hub d = true → awake s.hub d = true → (getDie s.hub d).pwr.stepTo = some t →
    let p := (getDie s.hub d).pwr
    let left (n : Nat) : Option Nat := if n = t then none else some t
    (t < p.step → exec (.clockStepSwitch d) s = .next (onHub (fun h =>
      updPwr (at_ p.rampEnd h) d fun x => { x with step := p.step - 1, stepTo := left (p.step - 1) }) s)) ∧
    (t = p.step → exec (.clockStepSwitch d) s = .next (onHub (fun h => updPwr h d fun x => { x with stepTo := none }) s)) ∧
    (p.step < t → exec (.clockStepSwitch d) s = .next (onHub (fun h => updPwr h d fun x =>
      { x with
        step := p.step + 1, stepTo := left (p.step + 1), volt := p.step + 1, vid := stepVid (p.step + 1)
        rampEnd := h.now + 1000 * (max (stepVid (p.step + 1)) p.vid - min (stepVid (p.step + 1)) p.vid) }) s)))

/-- 16 R425-R438.  What rests on a choice or an inference of the model: log entries 8, 60, 88. -/
def Obligations.ClocksAndPlls : Prop :=
  (∀ (d i : Nat) (s : State), locking s.hub d i = true →
    let p := getPll s.hub d i
    (∃ u, exec (.pllLock d i) s = .next u ∧ u.lp5x = s.lp5x ∧ u.pending = s.pending ∧
      getPll u.hub d i = { p with locked := true, bypass := false, refOk := true, lockAt := s.hub.now } ∧
      (getDie u.hub d).clk.vidOk = true) ∧
    (∃ u, exec (.pllLockTimeout d i) s = .next u ∧ u.lp5x = s.lp5x ∧ u.pending = s.pending ∧
      u.hub.now = max s.hub.now (p.progAt + 300000) ∧ (getPll u.hub d i).timeouts = satInc 255 p.timeouts ∧
      (getPll u.hub d i).attempts = p.attempts + 1 ∧ (getPll u.hub d i).locked = false ∧ (getPll u.hub d i).progAt = u.hub.now) ∧
    (∃ u, exec (.pllRelockRetry d i) s = .next u ∧ u.lp5x = s.lp5x ∧ u.pending = s.pending ∧
      u.hub.now = max s.hub.now (p.progAt + 1000000) ∧ (getPll u.hub d i).attempts = p.attempts + 1 ∧
      (getPll u.hub d i).timeouts = p.timeouts ∧ (getPll u.hub d i).locked = false ∧ (getPll u.hub d i).progAt = u.hub.now)) ∧
  (∀ (d i : Nat) (s : State), dieUp s.hub d = true → (i = 1 ∨ i = 2) → (getPll s.hub d i).locked = true →
    ∃ u, exec (.pllLockLoss d i) s = .next u ∧ u.lp5x = s.lp5x ∧ u.pending = s.pending ∧
      (getPll u.hub d i).losses = satInc 255 (getPll s.hub d i).losses ∧ (getPll u.hub d i).locked = false ∧
      (getPll u.hub d i).bypass = true ∧ (getPll u.hub d i).attempts = 1 ∧ ∀ o e sc, (getOut s.hub o).pll = i - 1 → o / 4 = d → o < 32 →
        (getOut s.hub o).state = .running → (getOut s.hub o).mode = some e → (getOut s.hub o).scan = some sc →
        (sc.line = 0 → (getOut u.hub o).state = .changing) ∧
        (sc.line ≠ 0 → (getOut u.hub o).state = .running ∧ (getOut u.hub o).pllLost = true)) ∧
  (∀ (d : Nat) (s : State), dieUp s.hub d = true → powered s.hub = true → (getPll s.hub d 0).locked = true →
    let g := updPll d 0 (fun p => { p with losses := satInc 255 p.losses, locked := false, bypass := true, refOk := true,
                                           progAt := s.hub.now, attempts := 1 }) (pllFault d 0 0x0704 s.hub)
    exec (.pllLockLoss d 0) s = .next (act (fun m _ => dieLost d 3 m
      (updDie g d fun x => { x with clk := { x.clk with sysOk := true, rcActive := true, aligned := false, rootOn := 0xFC0 } })) s) ∧
    ∃ u, exec (.pllLockLoss d 0) s = .next u ∧ LostDie d 3 s u ∧ (getPll u.hub d 0).locked = false ∧
      (getDie u.hub d).clk.rcActive = true) ∧
  (∀ (d i : Nat) (s : State), powered s.hub = true → dieUp s.hub d = true → i ≠ 0 →
    ∃ u, exec (.referenceMissing d i) s = .next u ∧ u.lp5x = s.lp5x ∧ u.pending = s.pending ∧
      ∀ e ∈ upDies s.hub, (getDie u.hub e).clk.vidOk = false) ∧
  (∀ (d : Nat) (s : State), dieUp s.hub d = true →
    (powered s.hub = true → (getDie s.hub d).clk.xtalOk = true → exec (.xtalLoss d) s =
      .next (onHub (fun h => updDie h d fun x => { x with clk := { x.clk with xtalOk := false, xtalLost := true } }) s)) ∧
    (awake s.hub d = true → (getDie s.hub d).clk.root.locked = true → 5 ≤ (getDie s.hub d).kpr.step →
      let c := (getDie s.hub d).clk
      let o : Int := if 0 < c.tbOff then c.tbOff - 1 else c.tbOff + 1
      (d = s.hub.pkg.principal → exec (.timebaseCorrection d) s = .next s) ∧
      (d ≠ s.hub.pkg.principal → c.tbOff = 0 → exec (.timebaseCorrection d) s =
        .next (onHub (fun h => updDie h d fun x => { x with clk := { x.clk with aligned := true } }) s)) ∧
      (d ≠ s.hub.pkg.principal → c.tbOff ≠ 0 → exec (.timebaseCorrection d) s =
        .next (onHub (fun h => let g := at_ (c.corrAt + 1000) h
          updDie g d fun x => { x with clk := { x.clk with tbOff := o, corrAt := g.now, aligned := decide (o.natAbs ≤ 2) } }) s)))) ∧
  (∀ (fn d i : Nat) (v : BitVec 32) (s : State), RegTakes s.hub fn d →
    let h := accessWakes d fn s.hub
    let w := v.toNat
    let set (f : Pll → Pll) : Hub := updDie h d fun x => { x with clk := x.clk.setPll i (f (x.clk.pll i)) }
    (i ≤ 2 →
      (i ≠ 0 → bits w 4 6 ≤ 50 → bits w 10 3 ≤ 6 → exec (.pllRegisterWrite fn d i 0x08 v) s = .next (onHub (fun _ =>
        set fun p => { p with sscEn := w.testBit 0, spread := bits w 4 6, fmod := bits w 10 3 }) s)) ∧
      ((i = 0 ∨ 50 < bits w 4 6 ∨ 6 < bits w 10 3) → exec (.pllRegisterWrite fn d i 0x08 v) s = .next (onHub (fun _ =>
        set fun p => { p with ignored := satInc 255 p.ignored }) s)) ∧
      (i ≠ 0 → w % 65536 ≠ 0 →
        exec (.pllRegisterWrite fn d i 0x0C v) s = .next (onHub (fun _ => set fun p => { p with seed := w % 65536 }) s)) ∧
      exec (.pllRegisterWrite fn d i 0x14 v) s = .next (onHub (fun _ =>
        set fun p => { p with losses := bits w 0 8, timeouts := bits w 8 8, ignored := bits w 16 8 }) s)) ∧
    (i < 2 →
      (bits w 0 3 ≤ 5 → exec (.clkOutWrite fn d i v) s = .next (onHub (fun _ => updDie h d fun x =>
        { x with clk := { x.clk with outs := x.clk.outs.set i (bits w 0 3 + 16 * bits w 4 2 + 256 * bits w 8 8) } }) s)) ∧
      (5 < bits w 0 3 → exec (.clkOutWrite fn d i v) s = .next (onHub (fun _ =>
        updPll d 0 (fun p => { p with ignored := satInc 255 p.ignored }) h) s))))

/-- 17 R440-R445, R451, R456.  What rests on a choice or an inference of the model: log entries 63, 87. -/
def Obligations.FaultRecords : Prop :=
  (∀ (d : Nat) (cause : BitVec 16) (unit rep : BitVec 32) (det : BitVec 64) (s : State), powered s.hub = true → dieUp s.hub d = true →
    (cause.toNat ≠ 0x0701 ∨ unitClass unit.toNat ≠ 3) →
    let is (w : DieWin) : Bool := w.cause == cause.toNat && w.unit == unit.toNat
    let ws := (getDie s.hub d).srv.wins
    ∃ u, exec (.faultReport d cause unit rep det) s = .next u ∧ u.lp5x = s.lp5x ∧ u.pending = s.pending ∧
      (ws.any is = true → (getDie u.hub d).srv.wins = ws.map fun w => if is w then w.join rep.toNat s.hub.now else w) ∧
      (ws.any is = false → (s.hub.flt.wins.any fun p => p.held && is p.win) = false →
        recentlyPosted s.hub cause.toNat unit.toNat = false → ws.length < 32 →
        (getDie u.hub d).srv.wins = ws ++ [{
          cause := cause.toNat, unit := unit.toNat, reporters := 1, firstRep := rep.toNat,
          lastRep := rep.toNat, firstTime := s.hub.now, lastTime := s.hub.now, detail := det.toNat, action := 0 }])) ∧
  (∀ (d : Nat) (unit rep : BitVec 32) (det : BitVec 64) (s : State),
    let r := unitDie rep.toNat
    let i := unitInst rep.toNat
    powered s.hub = true → unitClass unit.toNat = 3 → unitInst unit.toNat = lpChannel det.toNat →
    (unitClass rep.toNat = 1 → s.hub.engines.has (24 * r + i) = true →
      ∃ u, exec (.faultReport d 0x0701 unit rep det) s = .next u ∧ u.lp5x = s.lp5x ∧ u.pending = s.pending ∧
        u.hub.engines = s.hub.engines ∧
        (getDie u.hub r).zeroed = (getDie s.hub r).zeroed ++ [(i, (unitDie unit.toNat * 2 ^ 34 + det.toNat) / 64)]) ∧
    (∀ j rest, unitClass rep.toNat = 8 → (getDie s.hub r).plt.jobs = j :: rest → (getDie s.hub r).plt.busy = true → j.line = [] →
      ∃ u, exec (.faultReport d 0x0701 unit rep det) s = .next u ∧ u.lp5x = s.lp5x ∧ u.pending = s.pending ∧
        (getDie u.hub r).plt.jobs = rest ∧ (getDie u.hub r).plt.busy = false) ∧
    (unitClass rep.toNat = 9 → i < 4 → (getPriv s.hub r i).busy.isSome = true →
      ∃ u, exec (.faultReport d 0x0701 unit rep det) s = .next u ∧ u.pending = s.pending ∧ (getPriv u.hub r i).busy = none ∧
        (getPriv u.hub r i).last = 0x0701)) ∧
  (∀ (d : Nat) (cause : BitVec 16) (unit : BitVec 32) (w : DieWin) (s : State),
    (getDie s.hub d).srv.wins.find? (·.is cause.toNat unit.toNat) = some w →
    ∃ u a, exec (.dieWindowClose d cause unit) s = .next u ∧ u.lp5x = s.lp5x ∧ u.pending = s.pending ∧
      u.hub.now = max s.hub.now (w.firstTime + 2000) ∧ u.hub.flt.transit = s.hub.flt.transit ++ [(d, { w with action := w.action ||| a })] ∧
      (getDie u.hub d).srv.wins = (getDie s.hub d).srv.wins.filter (fun x => !x.is cause.toNat unit.toNat) ∧
      (getDie u.hub d).srv.windows = ((getDie s.hub d).srv.windows + 1) % 65536 ∧ (namesTest w = false → a = 0)) ∧
  (∀ (d : Nat) (cause : BitVec 16) (unit : BitVec 32) (e : Nat × DieWin) (s : State),
    (s.hub.flt.transit.find? fun e => e.1 == d && e.2.is cause.toNat unit.toNat) = some e →
    (s.hub.flt.wins.any fun p => p.win.is cause.toNat unit.toNat) = false → s.hub.flt.wins.length < 64 →
    recentlyPosted s.hub cause.toNat unit.toNat = false →
    exec (.faultDieRecord d cause unit) s = .next (onHub (fun h => { h with flt := { h.flt with
      transit := h.flt.transit.erase e
      wins := h.flt.wins ++ [{ win := e.2, dies := 2 ^ d, openAt := h.now, held := false }] } }) s)) ∧
  (∀ (cause : BitVec 16) (unit : BitVec 32) (p : PkgWin) (s : State),
    let told (t : Nat) (u : State) : Prop :=
      u.lp5x = s.lp5x ∧ u.pending = s.pending ∧ u.hub.now = max s.hub.now t ∧ u.hub.flt.wins = s.hub.flt.wins.erase p ∧
        u.hub.flt.seq = (s.hub.flt.seq + 1) % 2 ^ 32 ∧ u.hub.flt.dropped = 0 ∧
        u.hub.flt.records = ((s.hub.flt.seq, faultBytes p s.hub.flt.seq s.hub.flt.dropped) :: s.hub.flt.records).take 256
    ((s.hub.flt.wins.find? fun p => !p.held && p.win.is cause.toNat unit.toNat) = some p →
      ∃ u, exec (.packageWindowClose cause unit) s = .next u ∧ told (p.openAt + 10000) u) ∧
    ((s.hub.flt.wins.find? fun p => p.held && p.win.is cause.toNat unit.toNat) = some p →
      ∃ u, exec (.heldRecordExpiry cause unit) s = .next u ∧ told (p.win.firstTime + 10000000) u)) ∧
  (∀ (c : Cmd) (s : State), Accepts Machine.fltRead c s →
    let h := fetched c.ctx s.hub
    ∃ r ∈ h.flt.records, r.1 = arg32 c 16 ∧ exec (.fltRead c) s = .next (done 0x0A00 c 64 0 (ctxWrite c.ctx (arg64 c 24) r.2 h) s)) ∧
  (∀ (d reason : Nat) (s : State), powered s.hub = true → dieUp s.hub d = true → 1 ≤ reason → reason ≤ 7 →
    ∃ u, exec (.dieLoss d reason) s = .next u ∧ LostDie d reason s u ∧ u.hub = (dieLost d reason s.lp5x s.hub).1)

/-- 17 R446-R457.  What rests on a choice or an inference of the model: log entries 64, 84. -/
def Obligations.SurveyTests : Prop :=
  (∀ (unit : BitVec 32) (q : SrvReq) (s : State),
    let w := unit.toNat
    let d := unitDie w
    let v := (getDie s.hub d).srv
    (v.queue.find? fun r => laneOf r.unit == laneOf w) = some q → q.unit = w → (v.tests.any fun t => laneOf t.req.unit == laneOf w) = false →
    dieUp s.hub d = true → awake s.hub d = true →
    (mayTest s.hub w = false → exec (.surveyTestStart d unit) s = .next s) ∧
    (mayTest s.hub w = true → ∃ u f, exec (.surveyTestStart d unit) s = .next u ∧ u.lp5x = s.lp5x ∧ u.pending = s.pending ∧
      (getDie u.hub d).srv.tests = v.tests ++ [{ req := { q with fenced := none }, start := s.hub.now, fence := f }] ∧
      (getDie u.hub d).srv.queue = v.queue.filter (fun r => r.unit != w) ∧ (getDie u.hub d).srv.cTests = satInc 255 v.cTests ∧
      (∀ g, q.fenced = some g → f = g ∧ (getDie u.hub d).srv.engIn = v.engIn) ∧
      (∀ e b, q.fenced = none → unitEngine w = some e → v.engSpare.testBit e = false → v.engIn.testBit e = true →
        (wingOf e).find? (bit v.engSpare) = some b →
        f = { spare := some b, wasSpare := false } ∧ (getDie u.hub d).srv.engIn = v.engIn - 2 ^ e + 2 ^ b ∧
          (getDie u.hub d).srv.engSpare = v.engSpare - 2 ^ b))) ∧
  (∀ (unit : BitVec 32) (pass : Bool) (t : SrvTest) (s : State),
    let w := unit.toNat
    let d := unitDie w
    let old := unitRec (getDie s.hub d).srv w
    let kept := old.transients.filter fun e => decide (t.req.time < e.1 + 10000000000)
    let trans := if pass then addTransient w t.req.time t.req.detail kept else kept
    let code := if pass = false then 2 else if 3 ≤ trans.length then 4 else 1
    (getDie s.hub d).srv.tests.find? (fun t => t.req.unit == w) = some t → awake s.hub d = true →
    let g := tellVerdict t.req code trans.length (updSrv (at_ (t.start + testNs w) s.hub) d fun v => { v with
      tests := v.tests.filter fun x => x.req.unit != w
      units := (v.units.filter fun x => x.unit != w) ++
        [{ old with transients := trans, lastVerdict := max s.hub.now (t.start + testNs w), retired := decide (code ≠ 1) }]
      cTransient := if code = 1 then satInc 255 v.cTransient else v.cTransient
      cLasting := if code = 1 then v.cLasting else satInc 255 v.cLasting })
    let g := if unitClass w = 1 then nextSerial w t.req.seq g else g
    (code = 1 → exec (.surveyVerdict d unit pass) s = .next { s with hub := unitBack w t.fence g }) ∧
    (code ≠ 1 → exec (.surveyVerdict d unit pass) s = .next (act (fun m _ => retire w t.fence m g) s)) ∧
    (∀ e, code ≠ 1 → unitEngine w = some e → ∃ u, exec (.surveyVerdict d unit pass) s = .next u ∧ u.lp5x = s.lp5x ∧
      u.pending = s.pending ∧ (getDie u.hub d).srv.engRetired = (getDie s.hub d).srv.engRetired ||| 2 ^ e ∧
      (getDie u.hub d).srv.cLasting = satInc 255 (getDie s.hub d).srv.cLasting) ∧
    (code ≠ 1 → dieUp s.hub d = true → unitClass w = 3 → ∃ u, exec (.surveyVerdict d unit pass) s = .next u ∧ LostDie d 5 s u)) ∧
  (∀ (c : Cmd) (s : State),
    let h := fetched c.ctx s.hub
    let w := arg32 c 16
    let p := taken 0x0A10 c s.hub
    (Accepts Machine.srvTest c s →
      (surveyed h w = false → exec (.srvTest c) s = .next (onHub (fun _ => updSrv h (unitDie w) fun v => { v with
        queue := insertReq { unit := w, seq := some 0xFFFFFFFF, time := h.now, detail := none, cmds := [p] } v.queue }) s)) ∧
      (surveyed h w = true →
        let add (r : SrvReq) : SrvReq := if r.unit = w then { r with cmds := r.cmds ++ [p] } else r
        exec (.srvTest c) s = .next (onHub (fun _ => updSrv h (unitDie w) fun v => { v with
          queue := v.queue.map add, tests := v.tests.map fun t => { t with req := add t.req } }) s))) ∧
    (Accepts Machine.srvQuery c s →
      let r := unitRec (getDie h (unitDie w)).srv w
      exec (.srvQuery c) s = .next (done 0x0A11 c
        (unitState h w + 256 * (r.transients.countP fun e => decide (h.now < e.1 + 10000000000))) r.lastVerdict h s)) ∧
    (Accepts Machine.srvRestore c s →
      let r := restoreAll (restoreList h w) h
      exec (.srvRestore c) s = .next (if r.2 then done 0x0A12 c (restoreList h w).length 0 r.1 s
        else { s with hub := complete (taken 0x0A12 c s.hub) 0x0706 255 0 0 r.1 })))

/-- 18 R459-R463, R472.  What rests on a choice or an inference of the model: log entries 8, 45, 65. -/
def Obligations.StartOfThePackage : Prop :=
  (∀ s : State, ∃ u, exec .porstNAssert s = .next u ∧ u.pending = s.pending ∧ u.hub.pkg.phase = .porst ∧ u.hub.ctxs = [] ∧
    u.hub.regions = [] ∧ u.hub.atlas = [] ∧ u.hub.layers = [] ∧ u.hub.txns = [] ∧ u.hub.outs = [] ∧ u.hub.ports = [] ∧ u.hub.dma = [] ∧
    (s.Sound → ∀ a, a < 2 ^ 37 → Memory.read u.lp5x a = 0)) ∧
  (∀ s : State,
    let started (u : State) : Prop := u.lp5x = s.lp5x ∧ u.pending = s.pending ∧ u.hub.now = 0 ∧ u.hub.pkg.phase = .starting ∧
      ∀ d ∈ upDies s.hub, (getDie u.hub d).kpr.step = 1
    (s.hub.pkg.phase = .porst → ∃ u, exec .porstNRelease s = .next u ∧ started u) ∧
    (s.hub.pkg.phase = .off → ∃ u, exec .offWake s = .next u ∧ started u) ∧
    (s.hub.pkg.phase ≠ .porst → exec .porstNRelease s = .next s) ∧ (s.hub.pkg.phase ≠ .off → exec .offWake s = .next s)) ∧
  (∀ (d : Nat) (s : State), s.hub.pkg.phase = .starting → d ∈ siteList s.hub → (getDie s.hub d).kpr.step = 1 → dieUp s.hub d = true →
    (getDie s.hub d).clk.root.locked = false →
    ∃ u, exec (.pllLock d 0) s = .next u ∧ u.lp5x = s.lp5x ∧ u.pending = s.pending ∧ (getDie u.hub d).kpr.step = 2 ∧
      (getPll u.hub d 0).locked = true ∧ (getPll u.hub d 0).bypass = false) ∧
  (∀ (d : Nat) (s : State), s.hub.pkg.phase = .starting → d ∈ upDies s.hub → (getDie s.hub d).kpr.step = 2 → held5 s.hub = false →
    let g := bootDie d s.hub
    (getDie g d).atc.inRom = false →
    let x := getDie g d
    let q := { g with pkg := { g.pkg with
      reported := g.pkg.reported ||| 2 ^ d
      reports := g.pkg.reports.set d
        { stepping := 0xB0, fw := x.regs.fw, image := x.atc.image, selected := x.atc.image == selectWord x.atc d } } }
    ((∃ e ∈ upDies s.hub, q.pkg.reported.testBit e = false) → exec (.dieReport d) s = .next { s with hub := q }) ∧
    ((∀ e ∈ upDies s.hub, q.pkg.reported.testBit e = true) → exec (.dieReport d) s = .next (act (fun m _ => holdReports m q) s) ∧
      (∀ p, (upDies s.hub).head? = some p → (∀ e ∈ upDies s.hub, (getDie q e).regs.fw = (getDie q d).regs.fw ∧
          retiredDie (provided (alignAll (namePrincipal p q))) e = 0) → ∃ u, exec (.dieReport d) s = .next u ∧
        u.pending = s.pending ∧ u.hub.pkg.principal = p ∧ upDies u.hub = upDies s.hub ∧
        ∀ e ∈ upDies s.hub, (getDie u.hub e).kpr.step = 6 ∧ (getDie u.hub e).clk.aligned = true))) ∧
  (∀ s : State, s.hub.pkg.phase = .starting → held5 s.hub = true →
    ∃ u, exec .packageReady s = .next u ∧ u.lp5x = s.lp5x ∧ u.pending = s.pending ∧ u.hub.pkg.phase = .ready ∧
      u.hub.pkg.readyAt = s.hub.now ∧ ∀ d ∈ upDies s.hub, (getDie u.hub d).kpr.step = 9) ∧
  (∀ (d : Nat) (s : State), s.hub.pkg.phase ≠ .starting → exec (.dieReport d) s = .next s ∧ exec .packageReady s = .next s)

/-- 18 R471-R477; 21 R525.  What rests on a choice or an inference of the model: log entries 44, 45, 56, 66, 67. -/
def Obligations.ResetsAndSnapshot : Prop :=
  (∀ (fn : Nat) (v : BitVec 32) (s : State),
    let d := s.hub.pkg.principal
    RegTakes s.hub fn d →
    let h := accessWakes d fn s.hub
    let w := v.toNat
    let g := updKpr h d fun k => { k with target := bits w 2 3, key := w / 65536 }
    ((w.testBit 0 = true ∨ w.testBit 1 = true) → w / 65536 ≠ 0xB007 →
      exec (.kprResetPkg fn d v) s = .next (onHub (fun _ => updKpr h d fun k => { k with ignored := satInc 255 k.ignored }) s)) ∧
    (w.testBit 0 = true → w / 65536 = 0xB007 → exec (.kprResetPkg fn d v) s = .next (act (fun _ _ => warmReset g) s) ∧
      ∃ u, exec (.kprResetPkg fn d v) s = .next u ∧ u.pending = s.pending ∧ u.hub.pkg.phase = .starting ∧ u.hub.ctxs = [] ∧
        (∀ e, e < 8 → h.pkg.sites.testBit e = true → (getDie u.hub e).kpr.warm = satInc 255 (getDie h e).kpr.warm) ∧
        (s.Sound → ∀ a, a < 2 ^ 37 → Memory.read u.lp5x a = 0)) ∧
    (w.testBit 0 = false → w.testBit 1 = true → w / 65536 = 0xB007 →
      let t := bits w 2 3
      ((t = d ∨ h.pkg.sites.testBit t = false ∨ h.pkg.resets.has t = true) → exec (.kprResetDie fn d v) s = .next (onHub (fun _ =>
        updKpr h d fun k => { k with ignored := satInc 255 k.ignored }) s)) ∧
      (t ≠ d → h.pkg.sites.testBit t = true → h.pkg.resets.has t = false → asleep h t = false →
        exec (.kprResetDie fn d v) s = .next (act (fun m _ => startDieReset t m g) s) ∧
        ∃ u, exec (.kprResetDie fn d v) s = .next u ∧ u.pending = s.pending ∧ u.hub.pkg.resets.find t = some h.now ∧
          (getDie u.hub t).kpr.step = 1 ∧ (getDie u.hub d).kpr.dieResets = satInc 255 (getDie h d).kpr.dieResets ∧
          (dieUp h t = true → dieUp u.hub t = false ∧
            (s.Sound → ∀ a, t * 2 ^ 34 ≤ a → a < (t + 1) * 2 ^ 34 → Memory.read u.lp5x a = 0)))) ∧
    (w.testBit 0 = true → bits w 1 2 < 2 → (getDie h d).kpr.snapAt ≥ h.now + broadcastNs h (bits w 1 2) →
      exec (.kprSnapArm fn d v) s = .next (onHub (fun _ => snapGoes 1 0 (updKpr h d fun k =>
        { k with scope := bits w 1 2, armed := some (k.snapAt, bits w 1 2) })) s))) ∧
  (∀ (d : Nat) (s : State), s.hub.pkg.resets.has d = true → s.hub.pkg.why.get d 0 ≠ 1 → s.hub.pkg.why.get d 0 ≠ 2 →
    let g := bootDie d s.hub
    (((getDie g d).atc.inRom = true ∨ (getDie g d).regs.fw ≠ (getDie g g.pkg.principal).regs.fw ∨ retiredDie g d ≠ 0) →
      exec (.dieRejoin d) s = .next { s with hub := g }) ∧
    ((getDie g d).atc.inRom = false → (getDie g d).regs.fw = (getDie g g.pkg.principal).regs.fw → retiredDie g d = 0 →
      exec (.dieRejoin d) s = .next { s with hub := rejoined d g })) ∧
  (∀ (d t : Nat) (s : State), s.hub.pkg.resets.find d = some t →
    exec (.dieRejoinTimeout d) s = .next (onHub (fun h =>
      let g := at_ (t + 30000000) h
      let p := h.pkg.principal
      sysDie d 3 (faultReport p 0x0707 (unitId 0x0D d 0) (unitId 0x0B p 0) 7
        { g with pkg := { g.pkg with
            resets := g.pkg.resets.del d
            why := if g.pkg.why.get d 0 = 1 ∨ g.pkg.why.get d 0 = 2 then g.pkg.why else g.pkg.why.set d 7 } })) s)) ∧
  (∀ (d : Nat) (s : State),
    let ends (u : State) : Prop := u.pending = s.pending ∧
      (∀ c, (getCtx s.hub c).state = .opened → ctxFn s.hub c / 16 = d → (getCtx u.hub c).state = .closing ∧ (getCtx u.hub c).reason = 6) ∧
      (∀ c, ¬ ((getCtx s.hub c).state = .opened ∧ ctxFn s.hub c / 16 = d) → (getCtx u.hub c).state = (getCtx s.hub c).state) ∧
      (integratorFn s.hub / 16 = d → ∀ p ∈ privChans s.hub, (getPriv u.hub p.1 p.2).busy = none)
    (∃ u, exec (.pciePerst d true) s = .next u ∧ u.hub.pkg.perst = s.hub.pkg.perst ||| 2 ^ d ∧ ends u) ∧
    exec (.pciePerst d false) s =
      .next { s with hub := { s.hub with pkg := { s.hub.pkg with perst := s.hub.pkg.perst &&& (255 - 2 ^ d) } } } ∧
    ∃ u, exec (.pcieHotReset d) s = .next u ∧ u.hub.pkg.perst = s.hub.pkg.perst ∧ ends u) ∧
  (∀ (t scope : Nat) (s : State),
    let p := s.hub.pkg.principal
    let i := if scope = 2 then max s.hub.now (chainInstant s.hub t) else t
    (getDie s.hub p).kpr.armed = some (t, scope) →
    ∃ u, exec .snapshotInstant s = .next u ∧ u.lp5x = s.lp5x ∧ u.pending = s.pending ∧ u.hub.now = max s.hub.now i ∧
      (getDie u.hub p).kpr.armed = none ∧ (getDie u.hub p).kpr.snapState = 2 ∧ u.hub.outs = s.hub.outs ∧
      ∀ d ∈ (if scope = 0 then [p] else upDies s.hub), d ≠ p ∨ scope = 0 →
        (getDie u.hub d).kpr.frames = ((List.range 4).map fun j => (getOut s.hub (4 * d + j)).frameCount) ∧
        (getDie u.hub d).kpr.lines = ((List.range 4).map fun j => lineAt (getOut s.hub (4 * d + j)) i))

/-- 19 R479, R488-R492, R494, R495.  What rests on a choice or an inference of the model: log entries 21, 23, 91. -/
def Obligations.AtticCommands : Prop :=
  (∀ (c : Cmd) (s : State),
    let h := fetched c.ctx s.hub
    let fails (op : Nat) (g : Hub) : State := { s with hub := complete (taken op c s.hub) 0x0706 255 0 0 g }
    (Accepts Machine.atcLoad c s →
      let w := loadImage (splitRecs (arg32 c 24 / 64) ((bufBytes c (arg32 c 24)).drop 64)) h
      exec (.atcLoad c) s = .next (if w.2.1 then done 0x0B00 c w.2.2 0 w.1 s else fails 0x0B00 w.1)) ∧
    (Fetches Machine.atcFwStage c s → (∀ k ∈ refusals Machine.atcFwStage c s, k.st ≠ 0x0308 → k.bad = false) →
      let b := bufBytes c (arg32 c 24)
      let w := (upDies h).foldl (stageOn b) (h, true)
      exec (.atcFwStage c) s = .next (
        if imgSigned b = false then { s with hub := complete (taken 0x0B01 c s.hub) 0x0308 255 0 0 h }
        else if w.2 then done 0x0B01 c 0 0 w.1 s else fails 0x0B01 (unstage w.1)) ∧
      ∃ u, exec (.atcFwStage c) s = .next u ∧ ∀ d k, k < 90112 →
        let a := (getDie s.hub d).atc
        let b := (getDie u.hub d).atc
        let run := slotBase (1 - idleSlot a)
        b.words.get (run + k) 0 = a.words.get (run + k) 0 ∧ slotImg b (1 - idleSlot a) = slotImg a (1 - idleSlot a)) ∧
    (Accepts Machine.atcFwSelect c s →
      let w := (upDies h).foldl (fun (r : Hub × Bool) d => let w := writeKey d 0xF2 (arg8 c 16) r.1; (w.1, w.2 && r.2)) (h, true)
      exec (.atcFwSelect c) s = .next (if w.2 then done 0x0B02 c 0 0 w.1 s else fails 0x0B02 w.1) ∧
      if w.2 then ∀ d ∈ upDies h, selectWord (getDie w.1 d).atc d = arg8 c 16 else True) ∧
    (Accepts Machine.atcFwCommit c s →
      let w := (upDies h).foldl raiseSvn (h, true)
      let p := w.1.pkg.principal
      exec (.atcFwCommit c) s = .next (
        if w.2 then done 0x0B03 c ((svnMin (getDie w.1 p).atc p).getD 0) 0 w.1 s else fails 0x0B03 w.1) ∧
      if w.2 then ∀ d ∈ upDies h, (getDie h d).atc.svn < 2 ^ 32 → ∃ m, svnMin (getDie w.1 d).atc d = some m ∧ (getDie h d).atc.svn ≤ m
      else True) ∧
    (Accepts Machine.atcQuery c s →
      let d := arg8 c 16
      let a := (getDie h d).atc
      ∃ b : Bytes, exec (.atcQuery c) s = .next (done 0x0B04 c 64 0 (ctxWrite c.ctx (arg64 c 24) b h) s) ∧ b.length = 64 ∧
        (a.image < 2 → leNat (b.take 1) = a.image + 2 * selectWord a d) ∧
        leNat ((b.drop 1).take 1) = b2n a.locked + 2 * b2n a.unlocked + 4 * b2n a.barred ∧
        leNat ((b.drop 2).take 2) = atcFree h d ∧ leNat ((b.drop 4).take 4) = (svnMin a d).getD 0 ∧
        (slotValid a d 0 = false → (b.drop 8).take 8 = List.replicate 8 0) ∧ (slotValid a d 1 = false → (b.drop 16).take 8 = List.replicate 8 0) ∧
        leNat ((b.drop 24).take 8) = a.written % 2 ^ 64 ∧ b.drop 32 = List.replicate 32 0)) ∧
  (∀ (fn d : Nat) (v : BitVec 32) (s : State), RegTakes s.hub fn d → (getDie s.hub d).atc.inRom = false →
    let h := accessWakes d fn s.hub
    let a := (getDie h d).atc
    let is (i : Instr) (g : Hub) : Prop := exec i s = .next { s with hub := g }
    let starts (write : Bool) : Hub := updAtc h d fun a => { a with busy := some { write := write, addr := a.addr, data := a.data } }
    let counted : Hub := updAtc h d fun a => { a with ignored := satInc 255 a.ignored }
    (v.toNat % 4 = 1 →
      (a.busy = none → is (.atcCtrlRead fn d v) (starts false)) ∧ (a.busy.isSome = true → is (.atcCtrlRead fn d v) counted) ∧
      is (.atcDbgChallenge fn d v) (updAtc { h with freeIx := h.freeIx + 16 } d fun a =>
        { a with nonce := (List.range 16).map (fun i => Config.freeByte (h.freeIx + i)), fresh := true })) ∧
    (v.toNat % 4 = 2 →
      (a.locked = false → a.busy = none → is (.atcCtrlWrite fn d v) (starts true)) ∧
      (a.locked = false → a.busy.isSome = true → is (.atcCtrlWrite fn d v) counted) ∧
      (a.locked = true → is (.atcCtrlWrite fn d v) (accessFault fn (d * 0x100000 + 0x700) counted)) ∧
      (a.barred = true → ∃ u, exec (.atcDbgSubmit fn d v) s = .next u ∧ (getDie u.hub d).atc = a) ∧
      (a.barred = false → is (.atcDbgSubmit fn d v) (updAtc h d fun a => if dbgOk a d then { a with unlocked := true, fresh := false }
        else { a with fresh := false, dbgFails := satInc 255 a.dbgFails, fails := a.fails + 1, barred := decide (a.fails ≥ 2) }))) ∧
    (∃ u, exec (.atcLockWrite fn d v) s = .next u ∧ u.lp5x = s.lp5x ∧ u.pending = s.pending ∧
      (getDie u.hub d).atc.rawLock = (a.rawLock || v.toNat.testBit 0) ∧ (getDie u.hub d).atc.persist = (a.persist || v.toNat.testBit 1) ∧
      (getDie u.hub d).atc.locked = (a.locked || v.toNat.testBit 0 || v.toNat.testBit 1) ∧
      (v.toNat.testBit 1 = false → (getDie u.hub d).atc.words = a.words) ∧
      (a.rawLock = true → v.toNat.testBit 0 = false →
        (getDie u.hub d).regs.lockErr = satInc 255 (getDie h d).regs.lockErr ∧ (getDie u.hub d).regs.lockOff = 0x718))) ∧
  (∀ (d : Nat) (r : RawAcc) (s : State), (getDie s.hub d).atc.busy = some r →
    let a := (getDie s.hub d).atc
    ∃ u, exec (.atcRawDone d) s = .next u ∧ u.lp5x = s.lp5x ∧ u.pending = s.pending ∧ (getDie u.hub d).atc.busy = none ∧
      (r.write = false → (getDie u.hub d).atc = { a with busy := none, data := rawRead a d r.addr s.hub.freeIx }) ∧
      (r.write = true → ∀ w, atcWord (getDie u.hub d).atc d w = if w = r.addr then BitVec.ofNat 64 r.data else atcWord a d w))

/-- 20 R500-R513; 03 R47; 21 R527, R528, R534.  What rests on a choice or an inference of the model: log entries 27, 68, 74. -/
def Obligations.RegistersAndPins : Prop :=
  (∀ (fn d off size : Nat) (v : BitVec 64) (s : State), regReaches s.hub fn d = true → asleep s.hub d = false → d < 8 → off < 0x2100 →
    off / 0x100 ≠ 5 → off / 0x100 ≠ 7 →
    let h := accessWakes d fn s.hub
    let is (g : Hub) : Prop := exec (.registerWrite fn (d * 0x100000 + off) size v) s = .next { s with hub := g }
    (fn ≠ integratorFn s.hub → is (accessFault fn (d * 0x100000 + off) h)) ∧
    (fn = integratorFn s.hub → accessOk off size = false → is (accSizeError d h)) ∧
    (fn = integratorFn s.hub → size = 4 → off % 4 = 0 →
      (off = 0x18 → is (updDie h d fun x => { x with regs := { x.regs with scratch := v.setWidth 32 } })) ∧
      (off < 0x18 → is (accessFault fn (d * 0x100000 + off) h)) ∧
      (off / 0x100 = 6 → is h) ∧
      ∀ n, n < 13 → off = 0x240 + 4 * n →
        is (updDie h d fun x => { x with regs := { x.regs with intAck := x.regs.intAck.set n (v.toNat / 2 ^ 16 % 2 ^ 16) } }))) ∧
  (∀ (fn d off n : Nat) (v : BitVec 64) (s : State), RegTakes s.hub fn d → d < 8 → n < 32 → off % 4 = 0 → off < 0x2100 →
    let h := accessWakes d fn s.hub
    let w := (regReadWord fn d off h).1
    let toAlias := exec (.bitAliasWrite fn (0x800000 + d * 0x200000 + off * 32 + n * 4) 4 v) s
    (off / 0x100 = 2 → (cntMask off).testBit n = false →
      toAlias = exec (.registerWrite fn (d * 0x100000 + off) 4 (BitVec.ofNat 64 (withBit w n (v.toNat.testBit 0)))) s) ∧
    ((cntMask off).testBit n = true → off / 0x100 ≠ 5 → off / 0x100 ≠ 7 → toAlias = .next (onHub (fun _ => intEvent d 12 (updDie h d fun x =>
      { x with regs := { x.regs with accAlias := satInc 255 x.regs.accAlias } })) s))) ∧
  (∀ (fn d : Nat) (v : BitVec 32) (s : State), RegTakes s.hub fn d →
    let h := accessWakes d fn s.hub
    let r := (getDie h d).regs
    ∃ u, exec (.intEnWrite fn d v) s = .next u ∧ u.lp5x = s.lp5x ∧ u.pending = s.pending ∧
      (getDie u.hub d).regs.intEn = v.toNat % 2 ^ 13 ∧ (getDie u.hub d).regs.intCount = r.intCount ∧
      (∀ n, n < 13 → v.toNat.testBit n = true → r.intEn.testBit n = false → intPending r n = true → r.intMsix = true →
        intBad h d = false → r.intOpen = none → (getDie u.hub d).regs.intOpen = some h.now)) ∧
  (∀ (d t : Nat) (s : State), (getDie s.hub d).regs.intOpen = some t → dieUp s.hub d = true →
    let r := (getDie s.hub d).regs
    let f := integratorFn s.hub
    ∃ u, exec (.intMsixMessage d) s = .next u ∧ u.lp5x = s.lp5x ∧ u.pending = s.pending ∧ u.hub.now = max s.hub.now (t + 1000) ∧
      (getDie u.hub d).regs = { r with intOpen := none } ∧
      (r.intMsix = true → r.intVec < (getFn s.hub f).msixSize → f < 128 →
        ((getFn s.hub f).vecMask.testBit r.intVec = false → u.hub.outbox = s.hub.outbox ++ [.msix f r.intVec]) ∧
        ((getFn s.hub f).vecMask.testBit r.intVec = true →
          u.hub.outbox = s.hub.outbox ∧ (getFn u.hub f).vecPend = (getFn s.hub f).vecPend ||| 2 ^ r.intVec)) ∧
      (r.intMsix = false → u.hub.outbox = s.hub.outbox)) ∧
  (∀ (fn vec size : Nat) (s : State), fnAnswers s.hub fn = true →
    let x := getFn s.hub fn
    (vec < 64 → vec < x.msixSize →
      exec (.msixTableWrite fn vec true) s = .next (onHub (fun h => updFn h fn fun x => { x with vecMask := x.vecMask ||| 2 ^ vec }) s) ∧
      ∃ u, exec (.msixTableWrite fn vec false) s = .next u ∧ u.lp5x = s.lp5x ∧ u.pending = s.pending ∧
        (∀ k, k < 64 → (getFn u.hub fn).vecMask.testBit k = (x.vecMask.testBit k && decide (k ≠ vec))) ∧
        (getFn u.hub fn).vecPend.testBit vec = false ∧
        u.hub.outbox = s.hub.outbox ++ if x.vecPend.testBit vec then [.msix fn vec] else []) ∧
    (28 ≤ size → size ≤ 34 → exec (.resizableBarWrite fn size) s = .next (onHub (fun h => updFn h fn fun x => { x with bar2Log := size }) s)) ∧
    ((size < 28 ∨ 34 < size) → exec (.resizableBarWrite fn size) s = .next s)) ∧
  (∀ (fn d pad : Nat) (v : BitVec 32) (s : State), RegTakes s.hub fn d → pad < 24 →
    let h := accessWakes d fn s.hub
    let p := (getDie h d).pmx
    let f := v.toNat % 16
    let no := 13 ≤ f ∨ (2 ≤ f ∧ f ≤ 8 ∧ ∃ k, k < 24 ∧ k ≠ pad ∧ (p.pads.get k {}).func = f)
    let is (g : Pmx → Pmx) : Prop := exec (.pmxPadWrite fn d pad v) s = .next { s with hub := updPmx h d g }
    (no → is fun p => { p with ignored := satInc 255 p.ignored }) ∧
    (¬ no → is fun p => { p with pads := p.pads.set pad { p.pads.get pad {} with
      func := f, pull := v.toNat / 16 % 4, drive := v.toNat / 64 % 4, slow := v.toNat.testBit 8 } })) ∧
  (∀ (d : Nat) (s : State), powered s.hub = true → dieUp s.hub d = true → awake s.hub d = true →
    ∃ u, exec (.pmxFunctionChange d) s = .next u ∧ u.lp5x = s.lp5x ∧ u.pending = s.pending ∧
      (getDie u.hub d).pmx.outNow = (getDie s.hub d).pmx.out ∧
      ∀ k p, (getDie s.hub d).pmx.pads.find k = some p → (getDie u.hub d).pmx.pads.find k = some { p with
        active := p.func, now := (p.pull, p.drive, p.slow),
        zUntil := if padInput p.active = padInput p.func then p.zUntil else s.hub.now + 10 }) ∧
  (∀ (d rail : Nat) (s : State), powered s.hub = true →
    (dieUp s.hub d = true → (rail < 4 ∨ (rail = 4 ∧ awake s.hub d = true)) →
      ∃ u, exec (.supplyFault d rail) s = .next u ∧ LostDie d 7 s u) ∧
    (rail = 5 → ∃ u, exec (.supplyFault d rail) s = .next u ∧ u.pending = s.pending ∧ u.hub.pkg.phase = .porst ∧ u.hub.ctxs = []))

/-- 22 R542, R545-R550.  What rests on a choice or an inference of the model: log entries 71, 72, 73, 75. -/
def Obligations.FieldBookAndJtag : Prop :=
  (∀ (d : Nat) (s : State), dieUp s.hub d = true → awake s.hub d = true →
    let f := (getDie s.hub d).fbk
    f.buf ≠ [] → f.buf.length ≤ 1024 → f.buf.length ≤ f.head →
    ∃ u, exec (.fbkFlush d) s = .next u ∧ u.lp5x = s.lp5x ∧ u.pending = s.pending ∧
      u.hub.now = (if 512 ≤ f.buf.length then s.hub.now else max s.hub.now (f.oldest + 1000000)) ∧
      (getDie u.hub d).fbk = { f with
        buf := [], ring := (getDie u.hub d).fbk.ring, tail := max f.tail (f.head - 262144), flushes := (f.flushes + 1) % 65536 } ∧
      ∀ (i : Nat) (hi : i < f.buf.length),
        (getDie u.hub d).fbk.ring.get ((f.head - f.buf.length + i) % 262144) [] = f.buf[i]) ∧
  (∀ (fn d : Nat) (v : BitVec 32) (s : State), RegTakes s.hub fn d →
    let h := accessWakes d fn s.hub
    let set (f : Fbk) : Fbk := { f with srcEn := v.toNat % 1024 ||| 1, mode := v.toNat.testBit 16, stopped := f.stopped && v.toNat.testBit 16 }
    ∃ u, exec (.fbkCtrlFlush fn d v) s = .next u ∧ u.lp5x = s.lp5x ∧ u.pending = s.pending ∧
      (getDie u.hub d).fbk = (if v.toNat.testBit 17 then fbkFlushed (set (getDie h d).fbk) else set (getDie h d).fbk) ∧
      ∀ e, e ≠ d → getDie u.hub e = getDie h e) ∧
  (∀ (c : Cmd) (s : State),
    let h := fetched c.ctx s.hub
    let d := arg8 c 16
    (Accepts Machine.fbkReadCmd c s →
      let g := fbkFlush d h
      let f := (getDie g d).fbk
      let l := (List.range (min (arg16 c 18) (f.head - arg64 c 24))).map fun i => f.ring.get ((arg64 c 24 + i) % 262144) []
      (l = [] → exec (.fbkRead c) s = .next (done 0x0C00 c 0 0 g s)) ∧
      (l ≠ [] → exec (.fbkRead c) s = .next (done 0x0C00 c l.length 0 (ctxWrite c.ctx (arg64 c 32) l.flatten g) s))) ∧
    (Accepts Machine.fbkQuery c s →
      let f := (getDie h d).fbk
      exec (.fbkQuery c) s = .next (done 0x0C01 c (f.dropped + 65536 * b2n f.stopped) f.head h s))) ∧
  (∀ (dr : List Bool) (s : State),
    let porst := s.hub.pkg.phase = .porst
    let cells := 7 + 144 * ((List.range 8).filter (bit s.hub.pkg.sites)).length
    let by1 (i : Instr) (ir : Nat) : Prop := dr ≠ [] →
      ∃ u, exec i s = .next u ∧ u.lp5x = s.lp5x ∧ u.pending = s.pending ∧ u.hub.dies = s.hub.dies ∧ u.hub.jtag.ir = ir ∧
        u.hub.jtag.tdo = false :: dr.dropLast ∧ some u.hub.jtag.bypass = dr.getLast?
    let through (i : Instr) (ir : Nat) : Prop := dr.length = cells →
      ∃ u, exec i s = .next u ∧ u.lp5x = s.lp5x ∧ u.pending = s.pending ∧ u.hub.dies = s.hub.dies ∧ u.hub.jtag.ir = ir ∧
        u.hub.jtag.tdo.length = cells ∧ u.hub.jtag.bsr = dr
    by1 (.jtagBypass dr) 0xFF ∧ by1 (.jtagHighz dr) 0x03 ∧ by1 (.jtagClamp dr) 0x04 ∧ (¬ porst → by1 (.jtagExtest dr) 0x00) ∧
    through (.jtagSamplePreload dr) 0x01 ∧ (porst → through (.jtagExtest dr) 0x00) ∧
    (dr.length = 32 → ∃ u, exec (.jtagIdcode dr) s = .next u ∧ u.lp5x = s.lp5x ∧ u.pending = s.pending ∧ u.hub.dies = s.hub.dies ∧
      u.hub.jtag.tdo = (List.range 32).map fun i => (0x1530074F + 0x1000 * s.hub.pkg.part).testBit i)) ∧
  (∀ (dr : BitVec 89) (s : State),
    let off := (dr.extractLsb' 64 20).toNat
    let d := (dr.extractLsb' 84 3).toNat
    let write := dr.getLsbD 87
    let size := if dr.getLsbD 88 then 8 else 4
    let a := (getDie s.hub d).atc
    ∃ u, exec (.jtagRegacc dr) s = .next u ∧ u.pending = s.pending ∧ u.hub.jtag.ir = 0x10 ∧
      u.hub.jtag.tdo.take 80 = (List.range 64).map (fun i => s.hub.jtag.accData.getLsbD i) ++
        (List.range 16).map (fun i => s.hub.jtag.accStatus.testBit i) ∧
      (accessOk off size = false → u.lp5x = s.lp5x ∧ u.hub.jtag.accStatus = 0x0105) ∧
      (accessOk off size = true → a.unlocked = false → lockPermits off write = false →
        u.lp5x = s.lp5x ∧ u.hub.jtag.accStatus = 0x0307 ∧ u.hub.dies = s.hub.dies) ∧
      (accessOk off size = true → (a.unlocked = true ∨ lockPermits off write = true) → u.hub.jtag.accStatus = 0 ∧
        (write = false → off / 0x100 = 0 → size = 4 → jtagReaches s.hub d off = true → asleep s.hub d = false →
          u.lp5x = s.lp5x ∧ u.hub.dies = s.hub.dies ∧ u.hub.jtag.accData = BitVec.ofNat 64 (idRead32 s.hub d off)))) ∧
  (∀ (d addr : Nat) (x : BitVec 64) (s : State),
    ((getDie s.hub d).atc.unlocked = false → ∀ req, ∃ u, exec (.jtagKdebug d req addr x) s = .next u ∧ u.lp5x = s.lp5x ∧
      u.pending = s.pending ∧ u.hub.dies = s.hub.dies ∧ u.hub.jtag.accStatus = 0x0307) ∧
    ((getDie s.hub d).atc.unlocked = true → jtagReaches s.hub d 0 = true → awake s.hub d = true →
      (∃ u, exec (.jtagKdebug d 0 addr x) s = .next u ∧ u.lp5x = s.lp5x ∧ u.pending = s.pending ∧ halted u.hub d = true) ∧
      ∃ u, exec (.jtagKdebug d 1 addr x) s = .next u ∧ u.lp5x = s.lp5x ∧ u.pending = s.pending ∧ halted u.hub d = false)) ∧
  (∀ (d t : Nat) (s : State), (getDie s.hub d).kdbg.halted = some t → dieUp s.hub d = true →
    ∃ u, exec (.keeperHaltTimeout d) s = .next u ∧ LostDie d 7 s u ∧ t + 1000001 ≤ u.hub.now)
end

