-- ==== Sys2Proof/Laws/State.lean ====
section
/-!
SUPPORT. One lemma for each field of the hub under each basic update of the hub, and what the updates leave of the machine.
-/

namespace Sys2Proof.Machine

/-! ### The machine under an action -/

@[simp] theorem act_pending (f : List Host.Cell → Hub → Eff) (s : State) : (act f s).pending = s.pending := rfl
@[simp] theorem act_hub (f : List Host.Cell → Hub → Eff) (s : State) : (act f s).hub = (f s.lp5x s.hub).1 := rfl
@[simp] theorem act_lp5x (f : List Host.Cell → Hub → Eff) (s : State) :
    (act f s).lp5x = (f s.lp5x s.hub).2.foldl Memory.apply s.lp5x := rfl
@[simp] theorem onHub_pending (f : Hub → Hub) (s : State) : (onHub f s).pending = s.pending := rfl
@[simp] theorem onHub_hub (f : Hub → Hub) (s : State) : (onHub f s).hub = f s.hub := rfl
@[simp] theorem onHub_lp5x (f : Hub → Hub) (s : State) : (onHub f s).lp5x = s.lp5x := rfl

/-! ### setCtx -/

@[simp] theorem setCtx_now (h : Hub) (c : Nat) (x : Ctx) : (setCtx h c x).now = h.now := rfl
@[simp] theorem setCtx_accAt (h : Hub) (c : Nat) (x : Ctx) : (setCtx h c x).accAt = h.accAt := rfl
@[simp] theorem setCtx_freeIx (h : Hub) (c : Nat) (x : Ctx) : (setCtx h c x).freeIx = h.freeIx := rfl
@[simp] theorem setCtx_outbox (h : Hub) (c : Nat) (x : Ctx) : (setCtx h c x).outbox = h.outbox := rfl
@[simp] theorem setCtx_pkg (h : Hub) (c : Nat) (x : Ctx) : (setCtx h c x).pkg = h.pkg := rfl
@[simp] theorem setCtx_dies (h : Hub) (c : Nat) (x : Ctx) : (setCtx h c x).dies = h.dies := rfl
@[simp] theorem setCtx_fns (h : Hub) (c : Nat) (x : Ctx) : (setCtx h c x).fns = h.fns := rfl
@[simp] theorem setCtx_host (h : Hub) (c : Nat) (x : Ctx) : (setCtx h c x).host = h.host := rfl
@[simp] theorem setCtx_remote (h : Hub) (c : Nat) (x : Ctx) : (setCtx h c x).remote = h.remote := rfl
@[simp] theorem setCtx_flt (h : Hub) (c : Nat) (x : Ctx) : (setCtx h c x).flt = h.flt := rfl
@[simp] theorem setCtx_jtag (h : Hub) (c : Nat) (x : Ctx) : (setCtx h c x).jtag = h.jtag := rfl
@[simp] theorem setCtx_chain (h : Hub) (c : Nat) (x : Ctx) : (setCtx h c x).chain = h.chain := rfl
@[simp] theorem setCtx_dma (h : Hub) (c : Nat) (x : Ctx) : (setCtx h c x).dma = h.dma := rfl
@[simp] theorem setCtx_regions (h : Hub) (c : Nat) (x : Ctx) : (setCtx h c x).regions = h.regions := rfl
@[simp] theorem setCtx_atlas (h : Hub) (c : Nat) (x : Ctx) : (setCtx h c x).atlas = h.atlas := rfl
@[simp] theorem setCtx_gens (h : Hub) (c : Nat) (x : Ctx) : (setCtx h c x).gens = h.gens := rfl
@[simp] theorem setCtx_freed (h : Hub) (c : Nat) (x : Ctx) : (setCtx h c x).freed = h.freed := rfl
@[simp] theorem setCtx_shares (h : Hub) (c : Nat) (x : Ctx) : (setCtx h c x).shares = h.shares := rfl
@[simp] theorem setCtx_layers (h : Hub) (c : Nat) (x : Ctx) : (setCtx h c x).layers = h.layers := rfl
@[simp] theorem setCtx_banks (h : Hub) (c : Nat) (x : Ctx) : (setCtx h c x).banks = h.banks := rfl
@[simp] theorem setCtx_luts (h : Hub) (c : Nat) (x : Ctx) : (setCtx h c x).luts = h.luts := rfl
@[simp] theorem setCtx_progs (h : Hub) (c : Nat) (x : Ctx) : (setCtx h c x).progs = h.progs := rfl
@[simp] theorem setCtx_txns (h : Hub) (c : Nat) (x : Ctx) : (setCtx h c x).txns = h.txns := rfl
@[simp] theorem setCtx_txnGens (h : Hub) (c : Nat) (x : Ctx) : (setCtx h c x).txnGens = h.txnGens := rfl
@[simp] theorem setCtx_armCount (h : Hub) (c : Nat) (x : Ctx) : (setCtx h c x).armCount = h.armCount := rfl
@[simp] theorem setCtx_valCount (h : Hub) (c : Nat) (x : Ctx) : (setCtx h c x).valCount = h.valCount := rfl
@[simp] theorem setCtx_tables (h : Hub) (c : Nat) (x : Ctx) : (setCtx h c x).tables = h.tables := rfl
@[simp] theorem setCtx_tls (h : Hub) (c : Nat) (x : Ctx) : (setCtx h c x).tls = h.tls := rfl
@[simp] theorem setCtx_tlGens (h : Hub) (c : Nat) (x : Ctx) : (setCtx h c x).tlGens = h.tlGens := rfl
@[simp] theorem setCtx_tlFreed (h : Hub) (c : Nat) (x : Ctx) : (setCtx h c x).tlFreed = h.tlFreed := rfl
@[simp] theorem setCtx_outs (h : Hub) (c : Nat) (x : Ctx) : (setCtx h c x).outs = h.outs := rfl
@[simp] theorem setCtx_modes (h : Hub) (c : Nat) (x : Ctx) : (setCtx h c x).modes = h.modes := rfl
@[simp] theorem setCtx_ports (h : Hub) (c : Nat) (x : Ctx) : (setCtx h c x).ports = h.ports := rfl
@[simp] theorem setCtx_engines (h : Hub) (c : Nat) (x : Ctx) : (setCtx h c x).engines = h.engines := rfl

/-! ### updCtx -/

@[simp] theorem updCtx_now (h : Hub) (c : Nat) (f : Ctx → Ctx) : (updCtx h c f).now = h.now := rfl
@[simp] theorem updCtx_accAt (h : Hub) (c : Nat) (f : Ctx → Ctx) : (updCtx h c f).accAt = h.accAt := rfl
@[simp] theorem updCtx_freeIx (h : Hub) (c : Nat) (f : Ctx → Ctx) : (updCtx h c f).freeIx = h.freeIx := rfl
@[simp] theorem updCtx_outbox (h : Hub) (c : Nat) (f : Ctx → Ctx) : (updCtx h c f).outbox = h.outbox := rfl
@[simp] theorem updCtx_pkg (h : Hub) (c : Nat) (f : Ctx → Ctx) : (updCtx h c f).pkg = h.pkg := rfl
@[simp] theorem updCtx_dies (h : Hub) (c : Nat) (f : Ctx → Ctx) : (updCtx h c f).dies = h.dies := rfl
@[simp] theorem updCtx_fns (h : Hub) (c : Nat) (f : Ctx → Ctx) : (updCtx h c f).fns = h.fns := rfl
@[simp] theorem updCtx_host (h : Hub) (c : Nat) (f : Ctx → Ctx) : (updCtx h c f).host = h.host := rfl
@[simp] theorem updCtx_remote (h : Hub) (c : Nat) (f : Ctx → Ctx) : (updCtx h c f).remote = h.remote := rfl
@[simp] theorem updCtx_flt (h : Hub) (c : Nat) (f : Ctx → Ctx) : (updCtx h c f).flt = h.flt := rfl
@[simp] theorem updCtx_jtag (h : Hub) (c : Nat) (f : Ctx → Ctx) : (updCtx h c f).jtag = h.jtag := rfl
@[simp] theorem updCtx_chain (h : Hub) (c : Nat) (f : Ctx → Ctx) : (updCtx h c f).chain = h.chain := rfl
@[simp] theorem updCtx_dma (h : Hub) (c : Nat) (f : Ctx → Ctx) : (updCtx h c f).dma = h.dma := rfl
@[simp] theorem updCtx_regions (h : Hub) (c : Nat) (f : Ctx → Ctx) : (updCtx h c f).regions = h.regions := rfl
@[simp] theorem updCtx_atlas (h : Hub) (c : Nat) (f : Ctx → Ctx) : (updCtx h c f).atlas = h.atlas := rfl
@[simp] theorem updCtx_gens (h : Hub) (c : Nat) (f : Ctx → Ctx) : (updCtx h c f).gens = h.gens := rfl
@[simp] theorem updCtx_freed (h : Hub) (c : Nat) (f : Ctx → Ctx) : (updCtx h c f).freed = h.freed := rfl
@[simp] theorem updCtx_shares (h : Hub) (c : Nat) (f : Ctx → Ctx) : (updCtx h c f).shares = h.shares := rfl
@[simp] theorem updCtx_layers (h : Hub) (c : Nat) (f : Ctx → Ctx) : (updCtx h c f).layers = h.layers := rfl
@[simp] theorem updCtx_banks (h : Hub) (c : Nat) (f : Ctx → Ctx) : (updCtx h c f).banks = h.banks := rfl
@[simp] theorem updCtx_luts (h : Hub) (c : Nat) (f : Ctx → Ctx) : (updCtx h c f).luts = h.luts := rfl
@[simp] theorem updCtx_progs (h : Hub) (c : Nat) (f : Ctx → Ctx) : (updCtx h c f).progs = h.progs := rfl
@[simp] theorem updCtx_txns (h : Hub) (c : Nat) (f : Ctx → Ctx) : (updCtx h c f).txns = h.txns := rfl
@[simp] theorem updCtx_txnGens (h : Hub) (c : Nat) (f : Ctx → Ctx) : (updCtx h c f).txnGens = h.txnGens := rfl
@[simp] theorem updCtx_armCount (h : Hub) (c : Nat) (f : Ctx → Ctx) : (updCtx h c f).armCount = h.armCount := rfl
@[simp] theorem updCtx_valCount (h : Hub) (c : Nat) (f : Ctx → Ctx) : (updCtx h c f).valCount = h.valCount := rfl
@[simp] theorem updCtx_tables (h : Hub) (c : Nat) (f : Ctx → Ctx) : (updCtx h c f).tables = h.tables := rfl
@[simp] theorem updCtx_tls (h : Hub) (c : Nat) (f : Ctx → Ctx) : (updCtx h c f).tls = h.tls := rfl
@[simp] theorem updCtx_tlGens (h : Hub) (c : Nat) (f : Ctx → Ctx) : (updCtx h c f).tlGens = h.tlGens := rfl
@[simp] theorem updCtx_tlFreed (h : Hub) (c : Nat) (f : Ctx → Ctx) : (updCtx h c f).tlFreed = h.tlFreed := rfl
@[simp] theorem updCtx_outs (h : Hub) (c : Nat) (f : Ctx → Ctx) : (updCtx h c f).outs = h.outs := rfl
@[simp] theorem updCtx_modes (h : Hub) (c : Nat) (f : Ctx → Ctx) : (updCtx h c f).modes = h.modes := rfl
@[simp] theorem updCtx_ports (h : Hub) (c : Nat) (f : Ctx → Ctx) : (updCtx h c f).ports = h.ports := rfl
@[simp] theorem updCtx_engines (h : Hub) (c : Nat) (f : Ctx → Ctx) : (updCtx h c f).engines = h.engines := rfl

/-! ### updDie -/

@[simp] theorem updDie_now (h : Hub) (d : Nat) (f : Die → Die) : (updDie h d f).now = h.now := rfl
@[simp] theorem updDie_accAt (h : Hub) (d : Nat) (f : Die → Die) : (updDie h d f).accAt = h.accAt := rfl
@[simp] theorem updDie_freeIx (h : Hub) (d : Nat) (f : Die → Die) : (updDie h d f).freeIx = h.freeIx := rfl
@[simp] theorem updDie_outbox (h : Hub) (d : Nat) (f : Die → Die) : (updDie h d f).outbox = h.outbox := rfl
@[simp] theorem updDie_pkg (h : Hub) (d : Nat) (f : Die → Die) : (updDie h d f).pkg = h.pkg := rfl
@[simp] theorem updDie_ctxs (h : Hub) (d : Nat) (f : Die → Die) : (updDie h d f).ctxs = h.ctxs := rfl
@[simp] theorem updDie_fns (h : Hub) (d : Nat) (f : Die → Die) : (updDie h d f).fns = h.fns := rfl
@[simp] theorem updDie_host (h : Hub) (d : Nat) (f : Die → Die) : (updDie h d f).host = h.host := rfl
@[simp] theorem updDie_remote (h : Hub) (d : Nat) (f : Die → Die) : (updDie h d f).remote = h.remote := rfl
@[simp] theorem updDie_flt (h : Hub) (d : Nat) (f : Die → Die) : (updDie h d f).flt = h.flt := rfl
@[simp] theorem updDie_jtag (h : Hub) (d : Nat) (f : Die → Die) : (updDie h d f).jtag = h.jtag := rfl
@[simp] theorem updDie_chain (h : Hub) (d : Nat) (f : Die → Die) : (updDie h d f).chain = h.chain := rfl
@[simp] theorem updDie_dma (h : Hub) (d : Nat) (f : Die → Die) : (updDie h d f).dma = h.dma := rfl
@[simp] theorem updDie_regions (h : Hub) (d : Nat) (f : Die → Die) : (updDie h d f).regions = h.regions := rfl
@[simp] theorem updDie_atlas (h : Hub) (d : Nat) (f : Die → Die) : (updDie h d f).atlas = h.atlas := rfl
@[simp] theorem updDie_gens (h : Hub) (d : Nat) (f : Die → Die) : (updDie h d f).gens = h.gens := rfl
@[simp] theorem updDie_freed (h : Hub) (d : Nat) (f : Die → Die) : (updDie h d f).freed = h.freed := rfl
@[simp] theorem updDie_shares (h : Hub) (d : Nat) (f : Die → Die) : (updDie h d f).shares = h.shares := rfl
@[simp] theorem updDie_layers (h : Hub) (d : Nat) (f : Die → Die) : (updDie h d f).layers = h.layers := rfl
@[simp] theorem updDie_banks (h : Hub) (d : Nat) (f : Die → Die) : (updDie h d f).banks = h.banks := rfl
@[simp] theorem updDie_luts (h : Hub) (d : Nat) (f : Die → Die) : (updDie h d f).luts = h.luts := rfl
@[simp] theorem updDie_progs (h : Hub) (d : Nat) (f : Die → Die) : (updDie h d f).progs = h.progs := rfl
@[simp] theorem updDie_txns (h : Hub) (d : Nat) (f : Die → Die) : (updDie h d f).txns = h.txns := rfl
@[simp] theorem updDie_txnGens (h : Hub) (d : Nat) (f : Die → Die) : (updDie h d f).txnGens = h.txnGens := rfl
@[simp] theorem updDie_armCount (h : Hub) (d : Nat) (f : Die → Die) : (updDie h d f).armCount = h.armCount := rfl
@[simp] theorem updDie_valCount (h : Hub) (d : Nat) (f : Die → Die) : (updDie h d f).valCount = h.valCount := rfl
@[simp] theorem updDie_tables (h : Hub) (d : Nat) (f : Die → Die) : (updDie h d f).tables = h.tables := rfl
@[simp] theorem updDie_tls (h : Hub) (d : Nat) (f : Die → Die) : (updDie h d f).tls = h.tls := rfl
@[simp] theorem updDie_tlGens (h : Hub) (d : Nat) (f : Die → Die) : (updDie h d f).tlGens = h.tlGens := rfl
@[simp] theorem updDie_tlFreed (h : Hub) (d : Nat) (f : Die → Die) : (updDie h d f).tlFreed = h.tlFreed := rfl
@[simp] theorem updDie_outs (h : Hub) (d : Nat) (f : Die → Die) : (updDie h d f).outs = h.outs := rfl
@[simp] theorem updDie_modes (h : Hub) (d : Nat) (f : Die → Die) : (updDie h d f).modes = h.modes := rfl
@[simp] theorem updDie_ports (h : Hub) (d : Nat) (f : Die → Die) : (updDie h d f).ports = h.ports := rfl
@[simp] theorem updDie_engines (h : Hub) (d : Nat) (f : Die → Die) : (updDie h d f).engines = h.engines := rfl

/-! ### updFn -/

@[simp] theorem updFn_now (h : Hub) (f : Nat) (g : Fn → Fn) : (updFn h f g).now = h.now := rfl
@[simp] theorem updFn_accAt (h : Hub) (f : Nat) (g : Fn → Fn) : (updFn h f g).accAt = h.accAt := rfl
@[simp] theorem updFn_freeIx (h : Hub) (f : Nat) (g : Fn → Fn) : (updFn h f g).freeIx = h.freeIx := rfl
@[simp] theorem updFn_outbox (h : Hub) (f : Nat) (g : Fn → Fn) : (updFn h f g).outbox = h.outbox := rfl
@[simp] theorem updFn_pkg (h : Hub) (f : Nat) (g : Fn → Fn) : (updFn h f g).pkg = h.pkg := rfl
@[simp] theorem updFn_dies (h : Hub) (f : Nat) (g : Fn → Fn) : (updFn h f g).dies = h.dies := rfl
@[simp] theorem updFn_ctxs (h : Hub) (f : Nat) (g : Fn → Fn) : (updFn h f g).ctxs = h.ctxs := rfl
@[simp] theorem updFn_host (h : Hub) (f : Nat) (g : Fn → Fn) : (updFn h f g).host = h.host := rfl
@[simp] theorem updFn_remote (h : Hub) (f : Nat) (g : Fn → Fn) : (updFn h f g).remote = h.remote := rfl
@[simp] theorem updFn_flt (h : Hub) (f : Nat) (g : Fn → Fn) : (updFn h f g).flt = h.flt := rfl
@[simp] theorem updFn_jtag (h : Hub) (f : Nat) (g : Fn → Fn) : (updFn h f g).jtag = h.jtag := rfl
@[simp] theorem updFn_chain (h : Hub) (f : Nat) (g : Fn → Fn) : (updFn h f g).chain = h.chain := rfl
@[simp] theorem updFn_dma (h : Hub) (f : Nat) (g : Fn → Fn) : (updFn h f g).dma = h.dma := rfl
@[simp] theorem updFn_regions (h : Hub) (f : Nat) (g : Fn → Fn) : (updFn h f g).regions = h.regions := rfl
@[simp] theorem updFn_atlas (h : Hub) (f : Nat) (g : Fn → Fn) : (updFn h f g).atlas = h.atlas := rfl
@[simp] theorem updFn_gens (h : Hub) (f : Nat) (g : Fn → Fn) : (updFn h f g).gens = h.gens := rfl
@[simp] theorem updFn_freed (h : Hub) (f : Nat) (g : Fn → Fn) : (updFn h f g).freed = h.freed := rfl
@[simp] theorem updFn_shares (h : Hub) (f : Nat) (g : Fn → Fn) : (updFn h f g).shares = h.shares := rfl
@[simp] theorem updFn_layers (h : Hub) (f : Nat) (g : Fn → Fn) : (updFn h f g).layers = h.layers := rfl
@[simp] theorem updFn_banks (h : Hub) (f : Nat) (g : Fn → Fn) : (updFn h f g).banks = h.banks := rfl
@[simp] theorem updFn_luts (h : Hub) (f : Nat) (g : Fn → Fn) : (updFn h f g).luts = h.luts := rfl
@[simp] theorem updFn_progs (h : Hub) (f : Nat) (g : Fn → Fn) : (updFn h f g).progs = h.progs := rfl
@[simp] theorem updFn_txns (h : Hub) (f : Nat) (g : Fn → Fn) : (updFn h f g).txns = h.txns := rfl
@[simp] theorem updFn_txnGens (h : Hub) (f : Nat) (g : Fn → Fn) : (updFn h f g).txnGens = h.txnGens := rfl
@[simp] theorem updFn_armCount (h : Hub) (f : Nat) (g : Fn → Fn) : (updFn h f g).armCount = h.armCount := rfl
@[simp] theorem updFn_valCount (h : Hub) (f : Nat) (g : Fn → Fn) : (updFn h f g).valCount = h.valCount := rfl
@[simp] theorem updFn_tables (h : Hub) (f : Nat) (g : Fn → Fn) : (updFn h f g).tables = h.tables := rfl
@[simp] theorem updFn_tls (h : Hub) (f : Nat) (g : Fn → Fn) : (updFn h f g).tls = h.tls := rfl
@[simp] theorem updFn_tlGens (h : Hub) (f : Nat) (g : Fn → Fn) : (updFn h f g).tlGens = h.tlGens := rfl
@[simp] theorem updFn_tlFreed (h : Hub) (f : Nat) (g : Fn → Fn) : (updFn h f g).tlFreed = h.tlFreed := rfl
@[simp] theorem updFn_outs (h : Hub) (f : Nat) (g : Fn → Fn) : (updFn h f g).outs = h.outs := rfl
@[simp] theorem updFn_modes (h : Hub) (f : Nat) (g : Fn → Fn) : (updFn h f g).modes = h.modes := rfl
@[simp] theorem updFn_ports (h : Hub) (f : Nat) (g : Fn → Fn) : (updFn h f g).ports = h.ports := rfl
@[simp] theorem updFn_engines (h : Hub) (f : Nat) (g : Fn → Fn) : (updFn h f g).engines = h.engines := rfl

/-! ### updOut -/

@[simp] theorem updOut_now (h : Hub) (o : Nat) (f : Output → Output) : (updOut h o f).now = h.now := rfl
@[simp] theorem updOut_accAt (h : Hub) (o : Nat) (f : Output → Output) : (updOut h o f).accAt = h.accAt := rfl
@[simp] theorem updOut_freeIx (h : Hub) (o : Nat) (f : Output → Output) : (updOut h o f).freeIx = h.freeIx := rfl
@[simp] theorem updOut_outbox (h : Hub) (o : Nat) (f : Output → Output) : (updOut h o f).outbox = h.outbox := rfl
@[simp] theorem updOut_pkg (h : Hub) (o : Nat) (f : Output → Output) : (updOut h o f).pkg = h.pkg := rfl
@[simp] theorem updOut_dies (h : Hub) (o : Nat) (f : Output → Output) : (updOut h o f).dies = h.dies := rfl
@[simp] theorem updOut_ctxs (h : Hub) (o : Nat) (f : Output → Output) : (updOut h o f).ctxs = h.ctxs := rfl
@[simp] theorem updOut_fns (h : Hub) (o : Nat) (f : Output → Output) : (updOut h o f).fns = h.fns := rfl
@[simp] theorem updOut_host (h : Hub) (o : Nat) (f : Output → Output) : (updOut h o f).host = h.host := rfl
@[simp] theorem updOut_remote (h : Hub) (o : Nat) (f : Output → Output) : (updOut h o f).remote = h.remote := rfl
@[simp] theorem updOut_flt (h : Hub) (o : Nat) (f : Output → Output) : (updOut h o f).flt = h.flt := rfl
@[simp] theorem updOut_jtag (h : Hub) (o : Nat) (f : Output → Output) : (updOut h o f).jtag = h.jtag := rfl
@[simp] theorem updOut_chain (h : Hub) (o : Nat) (f : Output → Output) : (updOut h o f).chain = h.chain := rfl
@[simp] theorem updOut_dma (h : Hub) (o : Nat) (f : Output → Output) : (updOut h o f).dma = h.dma := rfl
@[simp] theorem updOut_regions (h : Hub) (o : Nat) (f : Output → Output) : (updOut h o f).regions = h.regions := rfl
@[simp] theorem updOut_atlas (h : Hub) (o : Nat) (f : Output → Output) : (updOut h o f).atlas = h.atlas := rfl
@[simp] theorem updOut_gens (h : Hub) (o : Nat) (f : Output → Output) : (updOut h o f).gens = h.gens := rfl
@[simp] theorem updOut_freed (h : Hub) (o : Nat) (f : Output → Output) : (updOut h o f).freed = h.freed := rfl
@[simp] theorem updOut_shares (h : Hub) (o : Nat) (f : Output → Output) : (updOut h o f).shares = h.shares := rfl
@[simp] theorem updOut_layers (h : Hub) (o : Nat) (f : Output → Output) : (updOut h o f).layers = h.layers := rfl
@[simp] theorem updOut_banks (h : Hub) (o : Nat) (f : Output → Output) : (updOut h o f).banks = h.banks := rfl
@[simp] theorem updOut_luts (h : Hub) (o : Nat) (f : Output → Output) : (updOut h o f).luts = h.luts := rfl
@[simp] theorem updOut_progs (h : Hub) (o : Nat) (f : Output → Output) : (updOut h o f).progs = h.progs := rfl
@[simp] theorem updOut_txns (h : Hub) (o : Nat) (f : Output → Output) : (updOut h o f).txns = h.txns := rfl
@[simp] theorem updOut_txnGens (h : Hub) (o : Nat) (f : Output → Output) : (updOut h o f).txnGens = h.txnGens := rfl
@[simp] theorem updOut_armCount (h : Hub) (o : Nat) (f : Output → Output) : (updOut h o f).armCount = h.armCount := rfl
@[simp] theorem updOut_valCount (h : Hub) (o : Nat) (f : Output → Output) : (updOut h o f).valCount = h.valCount := rfl
@[simp] theorem updOut_tables (h : Hub) (o : Nat) (f : Output → Output) : (updOut h o f).tables = h.tables := rfl
@[simp] theorem updOut_tls (h : Hub) (o : Nat) (f : Output → Output) : (updOut h o f).tls = h.tls := rfl
@[simp] theorem updOut_tlGens (h : Hub) (o : Nat) (f : Output → Output) : (updOut h o f).tlGens = h.tlGens := rfl
@[simp] theorem updOut_tlFreed (h : Hub) (o : Nat) (f : Output → Output) : (updOut h o f).tlFreed = h.tlFreed := rfl
@[simp] theorem updOut_modes (h : Hub) (o : Nat) (f : Output → Output) : (updOut h o f).modes = h.modes := rfl
@[simp] theorem updOut_ports (h : Hub) (o : Nat) (f : Output → Output) : (updOut h o f).ports = h.ports := rfl
@[simp] theorem updOut_engines (h : Hub) (o : Nat) (f : Output → Output) : (updOut h o f).engines = h.engines := rfl

/-! ### updPort -/

@[simp] theorem updPort_now (h : Hub) (k : Nat) (f : Port → Port) : (updPort h k f).now = h.now := rfl
@[simp] theorem updPort_accAt (h : Hub) (k : Nat) (f : Port → Port) : (updPort h k f).accAt = h.accAt := rfl
@[simp] theorem updPort_freeIx (h : Hub) (k : Nat) (f : Port → Port) : (updPort h k f).freeIx = h.freeIx := rfl
@[simp] theorem updPort_outbox (h : Hub) (k : Nat) (f : Port → Port) : (updPort h k f).outbox = h.outbox := rfl
@[simp] theorem updPort_pkg (h : Hub) (k : Nat) (f : Port → Port) : (updPort h k f).pkg = h.pkg := rfl
@[simp] theorem updPort_dies (h : Hub) (k : Nat) (f : Port → Port) : (updPort h k f).dies = h.dies := rfl
@[simp] theorem updPort_ctxs (h : Hub) (k : Nat) (f : Port → Port) : (updPort h k f).ctxs = h.ctxs := rfl
@[simp] theorem updPort_fns (h : Hub) (k : Nat) (f : Port → Port) : (updPort h k f).fns = h.fns := rfl
@[simp] theorem updPort_host (h : Hub) (k : Nat) (f : Port → Port) : (updPort h k f).host = h.host := rfl
@[simp] theorem updPort_remote (h : Hub) (k : Nat) (f : Port → Port) : (updPort h k f).remote = h.remote := rfl
@[simp] theorem updPort_flt (h : Hub) (k : Nat) (f : Port → Port) : (updPort h k f).flt = h.flt := rfl
@[simp] theorem updPort_jtag (h : Hub) (k : Nat) (f : Port → Port) : (updPort h k f).jtag = h.jtag := rfl
@[simp] theorem updPort_chain (h : Hub) (k : Nat) (f : Port → Port) : (updPort h k f).chain = h.chain := rfl
@[simp] theorem updPort_dma (h : Hub) (k : Nat) (f : Port → Port) : (updPort h k f).dma = h.dma := rfl
@[simp] theorem updPort_regions (h : Hub) (k : Nat) (f : Port → Port) : (updPort h k f).regions = h.regions := rfl
@[simp] theorem updPort_atlas (h : Hub) (k : Nat) (f : Port → Port) : (updPort h k f).atlas = h.atlas := rfl
@[simp] theorem updPort_gens (h : Hub) (k : Nat) (f : Port → Port) : (updPort h k f).gens = h.gens := rfl
@[simp] theorem updPort_freed (h : Hub) (k : Nat) (f : Port → Port) : (updPort h k f).freed = h.freed := rfl
@[simp] theorem updPort_shares (h : Hub) (k : Nat) (f : Port → Port) : (updPort h k f).shares = h.shares := rfl
@[simp] theorem updPort_layers (h : Hub) (k : Nat) (f : Port → Port) : (updPort h k f).layers = h.layers := rfl
@[simp] theorem updPort_banks (h : Hub) (k : Nat) (f : Port → Port) : (updPort h k f).banks = h.banks := rfl
@[simp] theorem updPort_luts (h : Hub) (k : Nat) (f : Port → Port) : (updPort h k f).luts = h.luts := rfl
@[simp] theorem updPort_progs (h : Hub) (k : Nat) (f : Port → Port) : (updPort h k f).progs = h.progs := rfl
@[simp] theorem updPort_txns (h : Hub) (k : Nat) (f : Port → Port) : (updPort h k f).txns = h.txns := rfl
@[simp] theorem updPort_txnGens (h : Hub) (k : Nat) (f : Port → Port) : (updPort h k f).txnGens = h.txnGens := rfl
@[simp] theorem updPort_armCount (h : Hub) (k : Nat) (f : Port → Port) : (updPort h k f).armCount = h.armCount := rfl
@[simp] theorem updPort_valCount (h : Hub) (k : Nat) (f : Port → Port) : (updPort h k f).valCount = h.valCount := rfl
@[simp] theorem updPort_tables (h : Hub) (k : Nat) (f : Port → Port) : (updPort h k f).tables = h.tables := rfl
@[simp] theorem updPort_tls (h : Hub) (k : Nat) (f : Port → Port) : (updPort h k f).tls = h.tls := rfl
@[simp] theorem updPort_tlGens (h : Hub) (k : Nat) (f : Port → Port) : (updPort h k f).tlGens = h.tlGens := rfl
@[simp] theorem updPort_tlFreed (h : Hub) (k : Nat) (f : Port → Port) : (updPort h k f).tlFreed = h.tlFreed := rfl
@[simp] theorem updPort_outs (h : Hub) (k : Nat) (f : Port → Port) : (updPort h k f).outs = h.outs := rfl
@[simp] theorem updPort_modes (h : Hub) (k : Nat) (f : Port → Port) : (updPort h k f).modes = h.modes := rfl
@[simp] theorem updPort_engines (h : Hub) (k : Nat) (f : Port → Port) : (updPort h k f).engines = h.engines := rfl

/-! ### send -/

@[simp] theorem send_now (h : Hub) (x : Sent) : (send x h).now = h.now := rfl
@[simp] theorem send_accAt (h : Hub) (x : Sent) : (send x h).accAt = h.accAt := rfl
@[simp] theorem send_freeIx (h : Hub) (x : Sent) : (send x h).freeIx = h.freeIx := rfl
@[simp] theorem send_pkg (h : Hub) (x : Sent) : (send x h).pkg = h.pkg := rfl
@[simp] theorem send_dies (h : Hub) (x : Sent) : (send x h).dies = h.dies := rfl
@[simp] theorem send_ctxs (h : Hub) (x : Sent) : (send x h).ctxs = h.ctxs := rfl
@[simp] theorem send_fns (h : Hub) (x : Sent) : (send x h).fns = h.fns := rfl
@[simp] theorem send_host (h : Hub) (x : Sent) : (send x h).host = h.host := rfl
@[simp] theorem send_remote (h : Hub) (x : Sent) : (send x h).remote = h.remote := rfl
@[simp] theorem send_flt (h : Hub) (x : Sent) : (send x h).flt = h.flt := rfl
@[simp] theorem send_jtag (h : Hub) (x : Sent) : (send x h).jtag = h.jtag := rfl
@[simp] theorem send_chain (h : Hub) (x : Sent) : (send x h).chain = h.chain := rfl
@[simp] theorem send_dma (h : Hub) (x : Sent) : (send x h).dma = h.dma := rfl
@[simp] theorem send_regions (h : Hub) (x : Sent) : (send x h).regions = h.regions := rfl
@[simp] theorem send_atlas (h : Hub) (x : Sent) : (send x h).atlas = h.atlas := rfl
@[simp] theorem send_gens (h : Hub) (x : Sent) : (send x h).gens = h.gens := rfl
@[simp] theorem send_freed (h : Hub) (x : Sent) : (send x h).freed = h.freed := rfl
@[simp] theorem send_shares (h : Hub) (x : Sent) : (send x h).shares = h.shares := rfl
@[simp] theorem send_layers (h : Hub) (x : Sent) : (send x h).layers = h.layers := rfl
@[simp] theorem send_banks (h : Hub) (x : Sent) : (send x h).banks = h.banks := rfl
@[simp] theorem send_luts (h : Hub) (x : Sent) : (send x h).luts = h.luts := rfl
@[simp] theorem send_progs (h : Hub) (x : Sent) : (send x h).progs = h.progs := rfl
@[simp] theorem send_txns (h : Hub) (x : Sent) : (send x h).txns = h.txns := rfl
@[simp] theorem send_txnGens (h : Hub) (x : Sent) : (send x h).txnGens = h.txnGens := rfl
@[simp] theorem send_armCount (h : Hub) (x : Sent) : (send x h).armCount = h.armCount := rfl
@[simp] theorem send_valCount (h : Hub) (x : Sent) : (send x h).valCount = h.valCount := rfl
@[simp] theorem send_tables (h : Hub) (x : Sent) : (send x h).tables = h.tables := rfl
@[simp] theorem send_tls (h : Hub) (x : Sent) : (send x h).tls = h.tls := rfl
@[simp] theorem send_tlGens (h : Hub) (x : Sent) : (send x h).tlGens = h.tlGens := rfl
@[simp] theorem send_tlFreed (h : Hub) (x : Sent) : (send x h).tlFreed = h.tlFreed := rfl
@[simp] theorem send_outs (h : Hub) (x : Sent) : (send x h).outs = h.outs := rfl
@[simp] theorem send_modes (h : Hub) (x : Sent) : (send x h).modes = h.modes := rfl
@[simp] theorem send_ports (h : Hub) (x : Sent) : (send x h).ports = h.ports := rfl
@[simp] theorem send_engines (h : Hub) (x : Sent) : (send x h).engines = h.engines := rfl

/-! ### at_ -/

@[simp] theorem at__accAt (h : Hub) (t : Nat) : (at_ t h).accAt = h.accAt := rfl
@[simp] theorem at__freeIx (h : Hub) (t : Nat) : (at_ t h).freeIx = h.freeIx := rfl
@[simp] theorem at__outbox (h : Hub) (t : Nat) : (at_ t h).outbox = h.outbox := rfl
@[simp] theorem at__pkg (h : Hub) (t : Nat) : (at_ t h).pkg = h.pkg := rfl
@[simp] theorem at__dies (h : Hub) (t : Nat) : (at_ t h).dies = h.dies := rfl
@[simp] theorem at__ctxs (h : Hub) (t : Nat) : (at_ t h).ctxs = h.ctxs := rfl
@[simp] theorem at__fns (h : Hub) (t : Nat) : (at_ t h).fns = h.fns := rfl
@[simp] theorem at__host (h : Hub) (t : Nat) : (at_ t h).host = h.host := rfl
@[simp] theorem at__remote (h : Hub) (t : Nat) : (at_ t h).remote = h.remote := rfl
@[simp] theorem at__flt (h : Hub) (t : Nat) : (at_ t h).flt = h.flt := rfl
@[simp] theorem at__jtag (h : Hub) (t : Nat) : (at_ t h).jtag = h.jtag := rfl
@[simp] theorem at__chain (h : Hub) (t : Nat) : (at_ t h).chain = h.chain := rfl
@[simp] theorem at__dma (h : Hub) (t : Nat) : (at_ t h).dma = h.dma := rfl
@[simp] theorem at__regions (h : Hub) (t : Nat) : (at_ t h).regions = h.regions := rfl
@[simp] theorem at__atlas (h : Hub) (t : Nat) : (at_ t h).atlas = h.atlas := rfl
@[simp] theorem at__gens (h : Hub) (t : Nat) : (at_ t h).gens = h.gens := rfl
@[simp] theorem at__freed (h : Hub) (t : Nat) : (at_ t h).freed = h.freed := rfl
@[simp] theorem at__shares (h : Hub) (t : Nat) : (at_ t h).shares = h.shares := rfl
@[simp] theorem at__layers (h : Hub) (t : Nat) : (at_ t h).layers = h.layers := rfl
@[simp] theorem at__banks (h : Hub) (t : Nat) : (at_ t h).banks = h.banks := rfl
@[simp] theorem at__luts (h : Hub) (t : Nat) : (at_ t h).luts = h.luts := rfl
@[simp] theorem at__progs (h : Hub) (t : Nat) : (at_ t h).progs = h.progs := rfl
@[simp] theorem at__txns (h : Hub) (t : Nat) : (at_ t h).txns = h.txns := rfl
@[simp] theorem at__txnGens (h : Hub) (t : Nat) : (at_ t h).txnGens = h.txnGens := rfl
@[simp] theorem at__armCount (h : Hub) (t : Nat) : (at_ t h).armCount = h.armCount := rfl
@[simp] theorem at__valCount (h : Hub) (t : Nat) : (at_ t h).valCount = h.valCount := rfl
@[simp] theorem at__tables (h : Hub) (t : Nat) : (at_ t h).tables = h.tables := rfl
@[simp] theorem at__tls (h : Hub) (t : Nat) : (at_ t h).tls = h.tls := rfl
@[simp] theorem at__tlGens (h : Hub) (t : Nat) : (at_ t h).tlGens = h.tlGens := rfl
@[simp] theorem at__tlFreed (h : Hub) (t : Nat) : (at_ t h).tlFreed = h.tlFreed := rfl
@[simp] theorem at__outs (h : Hub) (t : Nat) : (at_ t h).outs = h.outs := rfl
@[simp] theorem at__modes (h : Hub) (t : Nat) : (at_ t h).modes = h.modes := rfl
@[simp] theorem at__ports (h : Hub) (t : Nat) : (at_ t h).ports = h.ports := rfl
@[simp] theorem at__engines (h : Hub) (t : Nat) : (at_ t h).engines = h.engines := rfl

/-! ### hostWrite -/

@[simp] theorem hostWrite_now (h : Hub) (f a : Nat) (bs : Bytes) : (hostWrite f a bs h).now = h.now := rfl
@[simp] theorem hostWrite_accAt (h : Hub) (f a : Nat) (bs : Bytes) : (hostWrite f a bs h).accAt = h.accAt := rfl
@[simp] theorem hostWrite_freeIx (h : Hub) (f a : Nat) (bs : Bytes) : (hostWrite f a bs h).freeIx = h.freeIx := rfl
@[simp] theorem hostWrite_outbox (h : Hub) (f a : Nat) (bs : Bytes) : (hostWrite f a bs h).outbox = h.outbox := rfl
@[simp] theorem hostWrite_pkg (h : Hub) (f a : Nat) (bs : Bytes) : (hostWrite f a bs h).pkg = h.pkg := rfl
@[simp] theorem hostWrite_dies (h : Hub) (f a : Nat) (bs : Bytes) : (hostWrite f a bs h).dies = h.dies := rfl
@[simp] theorem hostWrite_ctxs (h : Hub) (f a : Nat) (bs : Bytes) : (hostWrite f a bs h).ctxs = h.ctxs := rfl
@[simp] theorem hostWrite_fns (h : Hub) (f a : Nat) (bs : Bytes) : (hostWrite f a bs h).fns = h.fns := rfl
@[simp] theorem hostWrite_remote (h : Hub) (f a : Nat) (bs : Bytes) : (hostWrite f a bs h).remote = h.remote := rfl
@[simp] theorem hostWrite_flt (h : Hub) (f a : Nat) (bs : Bytes) : (hostWrite f a bs h).flt = h.flt := rfl
@[simp] theorem hostWrite_jtag (h : Hub) (f a : Nat) (bs : Bytes) : (hostWrite f a bs h).jtag = h.jtag := rfl
@[simp] theorem hostWrite_chain (h : Hub) (f a : Nat) (bs : Bytes) : (hostWrite f a bs h).chain = h.chain := rfl
@[simp] theorem hostWrite_dma (h : Hub) (f a : Nat) (bs : Bytes) : (hostWrite f a bs h).dma = h.dma := rfl
@[simp] theorem hostWrite_regions (h : Hub) (f a : Nat) (bs : Bytes) : (hostWrite f a bs h).regions = h.regions := rfl
@[simp] theorem hostWrite_atlas (h : Hub) (f a : Nat) (bs : Bytes) : (hostWrite f a bs h).atlas = h.atlas := rfl
@[simp] theorem hostWrite_gens (h : Hub) (f a : Nat) (bs : Bytes) : (hostWrite f a bs h).gens = h.gens := rfl
@[simp] theorem hostWrite_freed (h : Hub) (f a : Nat) (bs : Bytes) : (hostWrite f a bs h).freed = h.freed := rfl
@[simp] theorem hostWrite_shares (h : Hub) (f a : Nat) (bs : Bytes) : (hostWrite f a bs h).shares = h.shares := rfl
@[simp] theorem hostWrite_layers (h : Hub) (f a : Nat) (bs : Bytes) : (hostWrite f a bs h).layers = h.layers := rfl
@[simp] theorem hostWrite_banks (h : Hub) (f a : Nat) (bs : Bytes) : (hostWrite f a bs h).banks = h.banks := rfl
@[simp] theorem hostWrite_luts (h : Hub) (f a : Nat) (bs : Bytes) : (hostWrite f a bs h).luts = h.luts := rfl
@[simp] theorem hostWrite_progs (h : Hub) (f a : Nat) (bs : Bytes) : (hostWrite f a bs h).progs = h.progs := rfl
@[simp] theorem hostWrite_txns (h : Hub) (f a : Nat) (bs : Bytes) : (hostWrite f a bs h).txns = h.txns := rfl
@[simp] theorem hostWrite_txnGens (h : Hub) (f a : Nat) (bs : Bytes) : (hostWrite f a bs h).txnGens = h.txnGens := rfl
@[simp] theorem hostWrite_armCount (h : Hub) (f a : Nat) (bs : Bytes) : (hostWrite f a bs h).armCount = h.armCount := rfl
@[simp] theorem hostWrite_valCount (h : Hub) (f a : Nat) (bs : Bytes) : (hostWrite f a bs h).valCount = h.valCount := rfl
@[simp] theorem hostWrite_tables (h : Hub) (f a : Nat) (bs : Bytes) : (hostWrite f a bs h).tables = h.tables := rfl
@[simp] theorem hostWrite_tls (h : Hub) (f a : Nat) (bs : Bytes) : (hostWrite f a bs h).tls = h.tls := rfl
@[simp] theorem hostWrite_tlGens (h : Hub) (f a : Nat) (bs : Bytes) : (hostWrite f a bs h).tlGens = h.tlGens := rfl
@[simp] theorem hostWrite_tlFreed (h : Hub) (f a : Nat) (bs : Bytes) : (hostWrite f a bs h).tlFreed = h.tlFreed := rfl
@[simp] theorem hostWrite_outs (h : Hub) (f a : Nat) (bs : Bytes) : (hostWrite f a bs h).outs = h.outs := rfl
@[simp] theorem hostWrite_modes (h : Hub) (f a : Nat) (bs : Bytes) : (hostWrite f a bs h).modes = h.modes := rfl
@[simp] theorem hostWrite_ports (h : Hub) (f a : Nat) (bs : Bytes) : (hostWrite f a bs h).ports = h.ports := rfl
@[simp] theorem hostWrite_engines (h : Hub) (f a : Nat) (bs : Bytes) : (hostWrite f a bs h).engines = h.engines := rfl

end Sys2Proof.Machine
end

