-- ==== Sys2Proof/Laws/Tab.lean ====
section
/-!
SUPPORT. Tables: reading after writing at the same number and at another, and the same for contexts, dies, functions, outputs and ports.
-/

namespace Sys2Proof.Machine

variable {α : Type}

theorem Tab.find_set_same (t : Tab α) (i : Nat) (v : α) : (t.set i v).find i = some v := by
  induction t with
  | nil => simp [Tab.set, Tab.find]
  | cons e r ih =>
    obtain ⟨k, w⟩ := e
    unfold Tab.set
    split
    · simp [Tab.find]
    · rename_i hk
      split
      · simp [Tab.find]
      · simp [Tab.find, hk, ih]

theorem Tab.find_set_ne (t : Tab α) (i j : Nat) (v : α) (hij : j ≠ i) : (t.set i v).find j = t.find j := by
  induction t with
  | nil => simp [Tab.set, Tab.find, Ne.symm hij]
  | cons e r ih =>
    obtain ⟨k, w⟩ := e
    unfold Tab.set
    split
    · rename_i hk
      subst hk
      simp [Tab.find, Ne.symm hij]
    · split
      · simp [Tab.find, Ne.symm hij]
      · simp [Tab.find, ih]

theorem Tab.find_set (t : Tab α) (i j : Nat) (v : α) : (t.set i v).find j = if j = i then some v else t.find j := by
  split
  · rename_i h
    subst h
    exact Tab.find_set_same t j v
  · rename_i h
    exact Tab.find_set_ne t i j v h

@[simp] theorem Tab.get_set_same (t : Tab α) (i : Nat) (v d : α) : (t.set i v).get i d = v := by
  simp [Tab.get, Tab.find_set_same]

theorem Tab.get_set_ne (t : Tab α) (i j : Nat) (v d : α) (hij : j ≠ i) : (t.set i v).get j d = t.get j d := by
  simp [Tab.get, Tab.find_set_ne t i j v hij]

theorem Tab.get_of_find (t : Tab α) (i : Nat) (v d : α) (hf : t.find i = some v) : t.get i d = v := by
  simp [Tab.get, hf]

theorem Tab.find_del_same (t : Tab α) (i : Nat) : (t.del i).find i = none := by
  induction t with
  | nil => rfl
  | cons e r ih =>
    obtain ⟨k, w⟩ := e
    by_cases hk : k = i
    · simpa [Tab.del, hk] using ih
    · simpa [Tab.del, hk, Tab.find] using ih

theorem Tab.find_del_ne (t : Tab α) (i j : Nat) (hij : j ≠ i) : (t.del i).find j = t.find j := by
  induction t with
  | nil => rfl
  | cons e r ih =>
    obtain ⟨k, w⟩ := e
    by_cases hk : k = i
    · subst hk
      simpa [Tab.del, Tab.find, Ne.symm hij] using ih
    · by_cases hj : k = j
      · simp [Tab.del, Tab.find, hj, hij]
      · simpa [Tab.del, hk, Tab.find, hj] using ih

@[simp] theorem Tab.set_set (t : Tab α) (i : Nat) (v w : α) : (t.set i v).set i w = t.set i w := by
  induction t with
  | nil => simp [Tab.set]
  | cons e r ih =>
    obtain ⟨k, u⟩ := e
    by_cases hk : k = i
    · simp [Tab.set, hk]
    · by_cases hl : i < k
      · simp [Tab.set, hk, hl]
      · simp [Tab.set, hk, hl, ih]

/-! ### Contexts, dies, functions, outputs, ports -/

@[simp] theorem setCtx_setCtx (h : Hub) (c : Nat) (x y : Ctx) : setCtx (setCtx h c x) c y = setCtx h c y := by
  simp [setCtx]

@[simp] theorem updDie_updDie (h : Hub) (d : Nat) (f g : Die → Die) : updDie (updDie h d f) d g = updDie h d fun x => g (f x) := by
  simp [updDie, getDie]

@[simp] theorem updOut_updOut (h : Hub) (o : Nat) (f g : Output → Output) :
    updOut (updOut h o f) o g = updOut h o fun x => g (f x) := by
  simp [updOut, getOut]

@[simp] theorem updPort_updPort (h : Hub) (k : Nat) (f g : Port → Port) :
    updPort (updPort h k f) k g = updPort h k fun x => g (f x) := by
  simp [updPort, getPort]



@[simp] theorem getCtx_setCtx (h : Hub) (c : Nat) (x : Ctx) : getCtx (setCtx h c x) c = x := by
  simp [getCtx, setCtx]

theorem getCtx_setCtx_ne (h : Hub) (c k : Nat) (x : Ctx) (hk : k ≠ c) : getCtx (setCtx h c x) k = getCtx h k :=
  Tab.get_set_ne h.ctxs c k x {} hk

@[simp] theorem getCtx_updCtx (h : Hub) (c : Nat) (f : Ctx → Ctx) : getCtx (updCtx h c f) c = f (getCtx h c) :=
  getCtx_setCtx h c _

theorem getCtx_updCtx_ne (h : Hub) (c k : Nat) (f : Ctx → Ctx) (hk : k ≠ c) : getCtx (updCtx h c f) k = getCtx h k :=
  getCtx_setCtx_ne h c k _ hk

@[simp] theorem getDie_updDie (h : Hub) (d : Nat) (f : Die → Die) : getDie (updDie h d f) d = f (getDie h d) := by
  simp [getDie, updDie]

theorem getDie_updDie_ne (h : Hub) (d k : Nat) (f : Die → Die) (hk : k ≠ d) : getDie (updDie h d f) k = getDie h k :=
  Tab.get_set_ne h.dies d k _ {} hk

@[simp] theorem getFn_updFn (h : Hub) (f : Nat) (g : Fn → Fn) : getFn (updFn h f g) f = g (getFn h f) := by
  simp [getFn, updFn]

theorem getFn_updFn_ne (h : Hub) (f k : Nat) (g : Fn → Fn) (hk : k ≠ f) : getFn (updFn h f g) k = getFn h k :=
  Tab.get_set_ne h.fns f k _ _ hk

@[simp] theorem getOut_updOut (h : Hub) (o : Nat) (f : Output → Output) : getOut (updOut h o f) o = f (getOut h o) := by
  simp [getOut, updOut]

theorem getOut_updOut_ne (h : Hub) (o k : Nat) (f : Output → Output) (hk : k ≠ o) : getOut (updOut h o f) k = getOut h k :=
  Tab.get_set_ne h.outs o k _ {} hk

@[simp] theorem getPort_updPort (h : Hub) (p : Nat) (f : Port → Port) : getPort (updPort h p f) p = f (getPort h p) := by
  simp [getPort, updPort]

theorem getPort_updPort_ne (h : Hub) (p k : Nat) (f : Port → Port) (hk : k ≠ p) : getPort (updPort h p f) k = getPort h k :=
  Tab.get_set_ne h.ports p k _ {} hk

/-! ### What one update leaves of the other groups -/

@[simp] theorem getDie_updCtx (h : Hub) (c d : Nat) (f : Ctx → Ctx) : getDie (updCtx h c f) d = getDie h d := rfl
@[simp] theorem getDie_setCtx (h : Hub) (c d : Nat) (x : Ctx) : getDie (setCtx h c x) d = getDie h d := rfl
@[simp] theorem getDie_updFn (h : Hub) (k d : Nat) (f : Fn → Fn) : getDie (updFn h k f) d = getDie h d := rfl
@[simp] theorem getDie_updOut (h : Hub) (o d : Nat) (f : Output → Output) : getDie (updOut h o f) d = getDie h d := rfl
@[simp] theorem getDie_updPort (h : Hub) (k d : Nat) (f : Port → Port) : getDie (updPort h k f) d = getDie h d := rfl
@[simp] theorem getDie_send (h : Hub) (x : Sent) (d : Nat) : getDie (send x h) d = getDie h d := rfl
@[simp] theorem getCtx_updDie (h : Hub) (c d : Nat) (f : Die → Die) : getCtx (updDie h d f) c = getCtx h c := rfl
@[simp] theorem getCtx_updFn (h : Hub) (c k : Nat) (f : Fn → Fn) : getCtx (updFn h k f) c = getCtx h c := rfl
@[simp] theorem getCtx_updOut (h : Hub) (c o : Nat) (f : Output → Output) : getCtx (updOut h o f) c = getCtx h c := rfl
@[simp] theorem getCtx_updPort (h : Hub) (c k : Nat) (f : Port → Port) : getCtx (updPort h k f) c = getCtx h c := rfl
@[simp] theorem getCtx_send (h : Hub) (x : Sent) (c : Nat) : getCtx (send x h) c = getCtx h c := rfl
@[simp] theorem getCtx_hostWrite (h : Hub) (f a c : Nat) (bs : Bytes) : getCtx (hostWrite f a bs h) c = getCtx h c := rfl
@[simp] theorem getFn_updCtx (h : Hub) (c k : Nat) (f : Ctx → Ctx) : getFn (updCtx h c f) k = getFn h k := rfl
@[simp] theorem getFn_setCtx (h : Hub) (c k : Nat) (x : Ctx) : getFn (setCtx h c x) k = getFn h k := rfl
@[simp] theorem getFn_updDie (h : Hub) (d k : Nat) (f : Die → Die) : getFn (updDie h d f) k = getFn h k := rfl
@[simp] theorem getOut_updDie (h : Hub) (d o : Nat) (f : Die → Die) : getOut (updDie h d f) o = getOut h o := rfl
@[simp] theorem getOut_updCtx (h : Hub) (c o : Nat) (f : Ctx → Ctx) : getOut (updCtx h c f) o = getOut h o := rfl
@[simp] theorem getOut_updPort (h : Hub) (k o : Nat) (f : Port → Port) : getOut (updPort h k f) o = getOut h o := rfl
@[simp] theorem getPort_updDie (h : Hub) (d k : Nat) (f : Die → Die) : getPort (updDie h d f) k = getPort h k := rfl
@[simp] theorem getPort_updCtx (h : Hub) (c k : Nat) (f : Ctx → Ctx) : getPort (updCtx h c f) k = getPort h k := rfl
@[simp] theorem getPort_updOut (h : Hub) (o k : Nat) (f : Output → Output) : getPort (updOut h o f) k = getPort h k := rfl
@[simp] theorem getPort_send (h : Hub) (x : Sent) (k : Nat) : getPort (send x h) k = getPort h k := rfl

end Sys2Proof.Machine
end

