-- ==== Sys2Proof/Laws/Report.lean ====
section
/-!
SUPPORT. What the shared operations of reporting can change: messages, events, completions, Field book records, interrupts and fault
reports leave the rest of the hub as it was, and of each die all but its registers, Survey block and Field book.
-/

namespace Sys2Proof.Machine

@[simp] theorem rest_setCtx (h : Hub) (c : Nat) (x : Ctx) : (setCtx h c x).rest = h.rest := rfl
@[simp] theorem rest_updCtx (h : Hub) (c : Nat) (f : Ctx → Ctx) : (updCtx h c f).rest = h.rest := rfl
@[simp] theorem rest_updDie (h : Hub) (d : Nat) (f : Die → Die) : (updDie h d f).rest = h.rest := rfl
@[simp] theorem rest_updFn (h : Hub) (k : Nat) (f : Fn → Fn) : (updFn h k f).rest = h.rest := rfl
@[simp] theorem rest_send (h : Hub) (x : Sent) : (send x h).rest = h.rest := rfl
@[simp] theorem rest_hostWrite (h : Hub) (f a : Nat) (bs : Bytes) : (hostWrite f a bs h).rest = h.rest := rfl
@[simp] theorem rest_ctxPut (h : Hub) (c a : Nat) (bs : Bytes) : (ctxPut c a bs h).rest = h.rest := rfl
@[simp] theorem rest_ctxWrite (h : Hub) (c a : Nat) (bs : Bytes) : (ctxWrite c a bs h).rest = h.rest := by
  unfold ctxWrite
  split <;> simp
@[simp] theorem rest_flt (h : Hub) (f : Flt) : Hub.rest { h with flt := f } = h.rest := rfl

/-! ### Messages -/

@[simp] theorem rest_msix (f vec : Nat) (h : Hub) : (msix f vec h).rest = h.rest := by
  unfold msix
  simp only
  split
  · rfl
  · split <;> rfl

theorem msix_frame (f vec : Nat) (h : Hub) : (msix f vec h).ctxs = h.ctxs ∧ (msix f vec h).dies = h.dies ∧
    (msix f vec h).host = h.host ∧ (msix f vec h).flt = h.flt := by
  unfold msix
  simp only
  split
  · exact ⟨rfl, rfl, rfl, rfl⟩
  · split <;> exact ⟨rfl, rfl, rfl, rfl⟩

@[simp] theorem msix_ctxs (f vec : Nat) (h : Hub) : (msix f vec h).ctxs = h.ctxs := (msix_frame f vec h).1
@[simp] theorem msix_dies (f vec : Nat) (h : Hub) : (msix f vec h).dies = h.dies := (msix_frame f vec h).2.1
@[simp] theorem msix_host (f vec : Nat) (h : Hub) : (msix f vec h).host = h.host := (msix_frame f vec h).2.2.1
@[simp] theorem msix_flt (f vec : Nat) (h : Hub) : (msix f vec h).flt = h.flt := (msix_frame f vec h).2.2.2

/-! ### Entries, events and completions -/

@[simp] theorem rest_coalesce (c : Nat) (h : Hub) : (coalesce c h).rest = h.rest := by
  unfold coalesce
  simp only
  split
  · rfl
  · split <;> simp

@[simp] theorem dies_coalesce (c : Nat) (h : Hub) : (coalesce c h).dies = h.dies := by
  unfold coalesce
  simp only
  split
  · rfl
  · split <;> simp

@[simp] theorem flt_coalesce (c : Nat) (h : Hub) : (coalesce c h).flt = h.flt := by
  unfold coalesce
  simp only
  split
  · rfl
  · split <;> simp

theorem getCtx_coalesce_ne (c k : Nat) (h : Hub) (hk : k ≠ c) : getCtx (coalesce c h) k = getCtx h k := by
  unfold coalesce
  simp only
  split
  · rfl
  · split
    · unfold getCtx
      rw [msix_ctxs]
      exact getCtx_setCtx_ne h c k _ hk
    · exact getCtx_setCtx_ne h c k _ hk

theorem getCtx_ctxPut_ne (c k a : Nat) (bs : Bytes) (h : Hub) (hk : k ≠ c) : getCtx (ctxPut c a bs h) k = getCtx h k :=
  getCtx_setCtx_ne h c k _ hk

@[simp] theorem rest_markMessage (c : Nat) (b a : Hub) : (markMessage c b a).rest = a.rest := rfl
@[simp] theorem dies_markMessage (c : Nat) (b a : Hub) : (markMessage c b a).dies = a.dies := rfl
@[simp] theorem flt_markMessage (c : Nat) (b a : Hub) : (markMessage c b a).flt = a.flt := rfl

theorem getCtx_markMessage_ne (c k : Nat) (b a : Hub) (hk : k ≠ c) : getCtx (markMessage c b a) k = getCtx a k :=
  getCtx_setCtx_ne a c k _ hk

@[simp] theorem rest_postEntry (c st op tag sqHead cflags err r0 r1 time : Nat) (h : Hub) :
    (postEntry c st op tag sqHead cflags err r0 r1 time h).rest = h.rest := by
  simp [postEntry]

@[simp] theorem dies_postEntry (c st op tag sqHead cflags err r0 r1 time : Nat) (h : Hub) :
    (postEntry c st op tag sqHead cflags err r0 r1 time h).dies = h.dies := by
  simp [postEntry, ctxPut]

@[simp] theorem flt_postEntry (c st op tag sqHead cflags err r0 r1 time : Nat) (h : Hub) :
    (postEntry c st op tag sqHead cflags err r0 r1 time h).flt = h.flt := by
  simp [postEntry, ctxPut]

theorem getCtx_postEntry_ne (c k st op tag sqHead cflags err r0 r1 time : Nat) (h : Hub) (hk : k ≠ c) :
    getCtx (postEntry c st op tag sqHead cflags err r0 r1 time h) k = getCtx h k := by
  simp only [postEntry]
  rw [getCtx_markMessage_ne c k _ _ hk, getCtx_coalesce_ne c k _ hk, getCtx_updCtx_ne _ c k _ hk, getCtx_ctxPut_ne c k _ _ h hk]

@[simp] theorem rest_postEventAt (time c code r0 r1 : Nat) (h : Hub) : (postEventAt time c code r0 r1 h).rest = h.rest := by
  unfold postEventAt
  simp only
  split
  · rfl
  · split
    · rfl
    · split <;> simp

@[simp] theorem dies_postEventAt (time c code r0 r1 : Nat) (h : Hub) : (postEventAt time c code r0 r1 h).dies = h.dies := by
  unfold postEventAt
  simp only
  split
  · rfl
  · split
    · rfl
    · split <;> simp

@[simp] theorem flt_postEventAt (time c code r0 r1 : Nat) (h : Hub) : (postEventAt time c code r0 r1 h).flt = h.flt := by
  unfold postEventAt
  simp only
  split
  · rfl
  · split
    · rfl
    · split <;> simp

/-- An event to a context leaves every other context as it was. -/
theorem getCtx_postEventAt_ne (time c k code r0 r1 : Nat) (h : Hub) (hk : k ≠ c) :
    getCtx (postEventAt time c code r0 r1 h) k = getCtx h k := by
  unfold postEventAt
  simp only
  split
  · rfl
  · split
    · exact getCtx_setCtx_ne h c k _ hk
    · split
      · exact getCtx_setCtx_ne h c k _ hk
      · rw [getCtx_postEntry_ne _ _ _ _ _ _ _ _ _ _ _ _ hk, getCtx_setCtx_ne h c k _ hk]

@[simp] theorem rest_postEvent (c code r0 r1 : Nat) (h : Hub) : (postEvent c code r0 r1 h).rest = h.rest :=
  rest_postEventAt h.now c code r0 r1 h
@[simp] theorem dies_postEvent (c code r0 r1 : Nat) (h : Hub) : (postEvent c code r0 r1 h).dies = h.dies :=
  dies_postEventAt h.now c code r0 r1 h
@[simp] theorem flt_postEvent (c code r0 r1 : Nat) (h : Hub) : (postEvent c code r0 r1 h).flt = h.flt :=
  flt_postEventAt h.now c code r0 r1 h

@[simp] theorem rest_postEvents (cs : List Nat) (code r0 r1 : Nat) (h : Hub) : (postEvents cs code r0 r1 h).rest = h.rest := by
  unfold postEvents
  induction cs generalizing h with
  | nil => rfl
  | cons c t ih => rw [List.foldl_cons, ih, rest_postEvent]

@[simp] theorem dies_postEvents (cs : List Nat) (code r0 r1 : Nat) (h : Hub) : (postEvents cs code r0 r1 h).dies = h.dies := by
  unfold postEvents
  induction cs generalizing h with
  | nil => rfl
  | cons c t ih => rw [List.foldl_cons, ih, dies_postEvent]

@[simp] theorem flt_postEvents (cs : List Nat) (code r0 r1 : Nat) (h : Hub) : (postEvents cs code r0 r1 h).flt = h.flt := by
  unfold postEvents
  induction cs generalizing h with
  | nil => rfl
  | cons c t ih => rw [List.foldl_cons, ih, flt_postEvent]

/-- Events to several contexts leave the contexts that are not named as they were. -/
theorem getCtx_postEvents_ne (cs : List Nat) (k code r0 r1 : Nat) (h : Hub) (hk : k ∉ cs) :
    getCtx (postEvents cs code r0 r1 h) k = getCtx h k := by
  unfold postEvents
  induction cs generalizing h with
  | nil => rfl
  | cons c t ih =>
    simp only [List.mem_cons, not_or] at hk
    rw [List.foldl_cons, ih _ hk.2]
    exact getCtx_postEventAt_ne _ c k code r0 r1 h hk.1

/-! ### Field book records -/

@[simp] theorem rest_fbkRecord (d src typ a0 a1 : Nat) (h : Hub) : (fbkRecord d src typ a0 a1 h).rest = h.rest := by
  unfold fbkRecord
  split <;> rfl

@[simp] theorem getCtx_fbkRecord (d src typ a0 a1 c : Nat) (h : Hub) : getCtx (fbkRecord d src typ a0 a1 h) c = getCtx h c := by
  unfold fbkRecord
  split <;> rfl

@[simp] theorem getFn_fbkRecord (d src typ a0 a1 k : Nat) (h : Hub) : getFn (fbkRecord d src typ a0 a1 h) k = getFn h k := by
  unfold fbkRecord
  split <;> rfl

theorem getDie_fbkRecord_rest (d src typ a0 a1 k : Nat) (h : Hub) :
    (getDie (fbkRecord d src typ a0 a1 h) k).rest = (getDie h k).rest := by
  unfold fbkRecord
  split
  · by_cases hk : k = d
    · subst hk
      rw [getDie_updDie]
      rfl
    · rw [getDie_updDie_ne h d k _ hk]
  · rfl

@[simp] theorem rest_complete (p : Pend) (st off r0 r1 : Nat) (h : Hub) : (complete p st off r0 r1 h).rest = h.rest := by
  unfold complete
  simp only
  split
  · simp
  · split <;> simp

theorem getCtx_complete_ne (p : Pend) (st off r0 r1 k : Nat) (h : Hub) (hk : k ≠ p.ctx) :
    getCtx (complete p st off r0 r1 h) k = getCtx h k := by
  unfold complete
  simp only
  split
  · simp
  · split
    · rw [getCtx_setCtx_ne _ p.ctx k _ hk, getCtx_fbkRecord]
    · rw [getCtx_postEntry_ne _ _ _ _ _ _ _ _ _ _ _ _ hk, getCtx_setCtx_ne _ p.ctx k _ hk, getCtx_fbkRecord]

theorem getDie_complete_rest (p : Pend) (st off r0 r1 k : Nat) (h : Hub) :
    (getDie (complete p st off r0 r1 h) k).rest = (getDie h k).rest := by
  unfold complete
  simp only
  split
  · exact getDie_fbkRecord_rest _ _ _ _ _ _ _
  · split
    · exact getDie_fbkRecord_rest _ _ _ _ _ _ _
    · unfold getDie
      rw [dies_postEntry]
      exact getDie_fbkRecord_rest _ _ _ _ _ _ _

/-! ### What entries leave of their own context -/

theorem core_setCtx (h : Hub) (c k : Nat) (x : Ctx) (hx : x.core = (getCtx h c).core) :
    (getCtx (setCtx h c x) k).core = (getCtx h k).core := by
  by_cases hk : k = c
  · subst hk
    rw [getCtx_setCtx, hx]
  · rw [getCtx_setCtx_ne h c k x hk]

theorem core_updCtx (h : Hub) (c k : Nat) (f : Ctx → Ctx) (hf : ∀ x, (f x).core = x.core) :
    (getCtx (updCtx h c f) k).core = (getCtx h k).core := core_setCtx h c k _ (hf _)

@[simp] theorem getCtx_msix (f vec c : Nat) (h : Hub) : getCtx (msix f vec h) c = getCtx h c := by
  unfold getCtx
  rw [msix_ctxs]

@[simp] theorem core_coalesce (c k : Nat) (h : Hub) : (getCtx (coalesce c h) k).core = (getCtx h k).core := by
  unfold coalesce
  simp only
  split
  · rfl
  · split
    · rw [getCtx_msix]
      exact core_setCtx h c k _ rfl
    · exact core_setCtx h c k _ rfl

@[simp] theorem core_ctxPut (c k a : Nat) (bs : Bytes) (h : Hub) : (getCtx (ctxPut c a bs h) k).core = (getCtx h k).core :=
  core_setCtx h c k _ rfl

@[simp] theorem core_ctxWrite (c k a : Nat) (bs : Bytes) (h : Hub) : (getCtx (ctxWrite c a bs h) k).core = (getCtx h k).core := by
  unfold ctxWrite
  split
  · exact core_ctxPut c k a bs h
  · rfl

@[simp] theorem core_markMessage (c k : Nat) (b a : Hub) : (getCtx (markMessage c b a) k).core = (getCtx a k).core :=
  core_setCtx a c k _ rfl

@[simp] theorem core_postEntry (c st op tag sqHead cflags err r0 r1 time k : Nat) (h : Hub) :
    (getCtx (postEntry c st op tag sqHead cflags err r0 r1 time h) k).core = (getCtx h k).core := by
  simp only [postEntry]
  rw [core_markMessage, core_coalesce, core_updCtx, core_ctxPut]
  intro x
  rfl

/-- A completion leaves every context as it was but for what entries change. -/
@[simp] theorem core_complete (p : Pend) (st off r0 r1 k : Nat) (h : Hub) :
    (getCtx (complete p st off r0 r1 h) k).core = (getCtx h k).core := by
  unfold complete
  simp only
  have step : ∀ r, (getCtx (setCtx (fbkRecord (homeDie p.ctx) 1 0x0101 (p.opcode + 65536 * st) (p.ctx + 4096 * p.tag) h) p.ctx
      { getCtx (fbkRecord (homeDie p.ctx) 1 0x0101 (p.opcode + 65536 * st) (p.ctx + 4096 * p.tag) h) p.ctx with resv := r }) k).core =
      (getCtx h k).core := by
    intro r
    rw [core_setCtx, getCtx_fbkRecord]
    rfl
  split
  · rw [getCtx_fbkRecord]
  · split
    · exact step _
    · rw [core_postEntry]
      exact step _

@[simp] theorem core_postEventAt (time c code r0 r1 k : Nat) (h : Hub) :
    (getCtx (postEventAt time c code r0 r1 h) k).core = (getCtx h k).core := by
  unfold postEventAt
  simp only
  split
  · rfl
  · split
    · exact core_setCtx h c k _ rfl
    · split
      · exact core_setCtx h c k _ rfl
      · rw [core_postEntry]
        exact core_setCtx h c k _ rfl

/-- An event leaves every context as it was but for what entries change. -/
@[simp] theorem core_postEvent (c code r0 r1 k : Nat) (h : Hub) :
    (getCtx (postEvent c code r0 r1 h) k).core = (getCtx h k).core := core_postEventAt h.now c code r0 r1 k h

@[simp] theorem core_postEvents (cs : List Nat) (code r0 r1 k : Nat) (h : Hub) :
    (getCtx (postEvents cs code r0 r1 h) k).core = (getCtx h k).core := by
  unfold postEvents
  induction cs generalizing h with
  | nil => rfl
  | cons c t ih => rw [List.foldl_cons, ih, core_postEvent]

/-! ### Interrupts -/

@[simp] theorem rest_intRaise (d : Nat) (h : Hub) : (intRaise d h).rest = h.rest := by
  unfold intRaise
  simp only
  split <;> rfl

theorem getDie_intRaise_rest (d k : Nat) (h : Hub) : (getDie (intRaise d h) k).rest = (getDie h k).rest := by
  unfold intRaise
  simp only
  split
  · by_cases hk : k = d
    · subst hk
      rw [getDie_updDie]
      rfl
    · rw [getDie_updDie_ne h d k _ hk]
  · rfl

@[simp] theorem rest_intEvent (d n : Nat) (h : Hub) : (intEvent d n h).rest = h.rest := by
  unfold intEvent
  split
  · rfl
  · simp only
    split <;> simp

theorem getDie_intEvent_rest (d n k : Nat) (h : Hub) : (getDie (intEvent d n h) k).rest = (getDie h k).rest := by
  unfold intEvent
  split
  · rfl
  · have step : (getDie (updDie h d fun x =>
        { x with regs := { x.regs with intCount := x.regs.intCount.set n ((x.regs.intCount.get n 0 + 1) % 65536) } }) k).rest =
        (getDie h k).rest := by
      by_cases hk : k = d
      · subst hk
        rw [getDie_updDie]
        rfl
      · rw [getDie_updDie_ne h d k _ hk]
    simp only
    split
    · rw [getDie_intRaise_rest, step]
    · exact step

@[simp] theorem intEvent_ctxs (d n : Nat) (h : Hub) : (intEvent d n h).ctxs = h.ctxs := by
  unfold intEvent intRaise
  simp only
  split
  · rfl
  · split
    · split <;> rfl
    · rfl

/-! ### Fault reports -/

@[simp] theorem rest_dropErrors (d n : Nat) (h : Hub) : (dropErrors d n h).rest = h.rest := rfl

@[simp] theorem rest_faultReport (d cause unit reporter detail : Nat) (h : Hub) :
    (faultReport d cause unit reporter detail h).rest = h.rest := by
  unfold faultReport
  split
  · rfl
  · simp only
    have step : (if cause == 0x0306 then intEvent d 12 h else h).rest = h.rest := by
      split <;> simp
    generalize (if cause == 0x0306 then intEvent d 12 h else h) = g at step ⊢
    split
    · exact step
    · split
      · exact step
      · split
        · split
          · exact step
          · exact step
        · split
          · exact step
          · exact step

@[simp] theorem rest_accessFault (f bar0 : Nat) (h : Hub) : (accessFault f bar0 h).rest = h.rest := rest_faultReport _ _ _ _ _ h


/-! ### Fields of hubs that agree but for reports -/

theorem now_of_rest {a b : Hub} (e : a.rest = b.rest) : a.now = b.now := (congrArg Hub.now e :)
theorem accAt_of_rest {a b : Hub} (e : a.rest = b.rest) : a.accAt = b.accAt := (congrArg Hub.accAt e :)
theorem freeIx_of_rest {a b : Hub} (e : a.rest = b.rest) : a.freeIx = b.freeIx := (congrArg Hub.freeIx e :)
theorem pkg_of_rest {a b : Hub} (e : a.rest = b.rest) : a.pkg = b.pkg := (congrArg Hub.pkg e :)
theorem remote_of_rest {a b : Hub} (e : a.rest = b.rest) : a.remote = b.remote := (congrArg Hub.remote e :)
theorem jtag_of_rest {a b : Hub} (e : a.rest = b.rest) : a.jtag = b.jtag := (congrArg Hub.jtag e :)
theorem chain_of_rest {a b : Hub} (e : a.rest = b.rest) : a.chain = b.chain := (congrArg Hub.chain e :)
theorem dma_of_rest {a b : Hub} (e : a.rest = b.rest) : a.dma = b.dma := (congrArg Hub.dma e :)
theorem regions_of_rest {a b : Hub} (e : a.rest = b.rest) : a.regions = b.regions := (congrArg Hub.regions e :)
theorem atlas_of_rest {a b : Hub} (e : a.rest = b.rest) : a.atlas = b.atlas := (congrArg Hub.atlas e :)
theorem gens_of_rest {a b : Hub} (e : a.rest = b.rest) : a.gens = b.gens := (congrArg Hub.gens e :)
theorem freed_of_rest {a b : Hub} (e : a.rest = b.rest) : a.freed = b.freed := (congrArg Hub.freed e :)
theorem shares_of_rest {a b : Hub} (e : a.rest = b.rest) : a.shares = b.shares := (congrArg Hub.shares e :)
theorem layers_of_rest {a b : Hub} (e : a.rest = b.rest) : a.layers = b.layers := (congrArg Hub.layers e :)
theorem banks_of_rest {a b : Hub} (e : a.rest = b.rest) : a.banks = b.banks := (congrArg Hub.banks e :)
theorem luts_of_rest {a b : Hub} (e : a.rest = b.rest) : a.luts = b.luts := (congrArg Hub.luts e :)
theorem progs_of_rest {a b : Hub} (e : a.rest = b.rest) : a.progs = b.progs := (congrArg Hub.progs e :)
theorem txns_of_rest {a b : Hub} (e : a.rest = b.rest) : a.txns = b.txns := (congrArg Hub.txns e :)
theorem txnGens_of_rest {a b : Hub} (e : a.rest = b.rest) : a.txnGens = b.txnGens := (congrArg Hub.txnGens e :)
theorem armCount_of_rest {a b : Hub} (e : a.rest = b.rest) : a.armCount = b.armCount := (congrArg Hub.armCount e :)
theorem valCount_of_rest {a b : Hub} (e : a.rest = b.rest) : a.valCount = b.valCount := (congrArg Hub.valCount e :)
theorem tables_of_rest {a b : Hub} (e : a.rest = b.rest) : a.tables = b.tables := (congrArg Hub.tables e :)
theorem tls_of_rest {a b : Hub} (e : a.rest = b.rest) : a.tls = b.tls := (congrArg Hub.tls e :)
theorem tlGens_of_rest {a b : Hub} (e : a.rest = b.rest) : a.tlGens = b.tlGens := (congrArg Hub.tlGens e :)
theorem tlFreed_of_rest {a b : Hub} (e : a.rest = b.rest) : a.tlFreed = b.tlFreed := (congrArg Hub.tlFreed e :)
theorem outs_of_rest {a b : Hub} (e : a.rest = b.rest) : a.outs = b.outs := (congrArg Hub.outs e :)
theorem modes_of_rest {a b : Hub} (e : a.rest = b.rest) : a.modes = b.modes := (congrArg Hub.modes e :)
theorem ports_of_rest {a b : Hub} (e : a.rest = b.rest) : a.ports = b.ports := (congrArg Hub.ports e :)
theorem engines_of_rest {a b : Hub} (e : a.rest = b.rest) : a.engines = b.engines := (congrArg Hub.engines e :)

/-! ### What coalesce leaves -/

@[simp] theorem coalesce_now (c : Nat) (h : Hub) :
    (coalesce c h).now = h.now := now_of_rest (rest_coalesce c h)
@[simp] theorem coalesce_accAt (c : Nat) (h : Hub) :
    (coalesce c h).accAt = h.accAt := accAt_of_rest (rest_coalesce c h)
@[simp] theorem coalesce_freeIx (c : Nat) (h : Hub) :
    (coalesce c h).freeIx = h.freeIx := freeIx_of_rest (rest_coalesce c h)
@[simp] theorem coalesce_pkg (c : Nat) (h : Hub) :
    (coalesce c h).pkg = h.pkg := pkg_of_rest (rest_coalesce c h)
@[simp] theorem coalesce_remote (c : Nat) (h : Hub) :
    (coalesce c h).remote = h.remote := remote_of_rest (rest_coalesce c h)
@[simp] theorem coalesce_jtag (c : Nat) (h : Hub) :
    (coalesce c h).jtag = h.jtag := jtag_of_rest (rest_coalesce c h)
@[simp] theorem coalesce_chain (c : Nat) (h : Hub) :
    (coalesce c h).chain = h.chain := chain_of_rest (rest_coalesce c h)
@[simp] theorem coalesce_dma (c : Nat) (h : Hub) :
    (coalesce c h).dma = h.dma := dma_of_rest (rest_coalesce c h)
@[simp] theorem coalesce_regions (c : Nat) (h : Hub) :
    (coalesce c h).regions = h.regions := regions_of_rest (rest_coalesce c h)
@[simp] theorem coalesce_atlas (c : Nat) (h : Hub) :
    (coalesce c h).atlas = h.atlas := atlas_of_rest (rest_coalesce c h)
@[simp] theorem coalesce_gens (c : Nat) (h : Hub) :
    (coalesce c h).gens = h.gens := gens_of_rest (rest_coalesce c h)
@[simp] theorem coalesce_freed (c : Nat) (h : Hub) :
    (coalesce c h).freed = h.freed := freed_of_rest (rest_coalesce c h)
@[simp] theorem coalesce_shares (c : Nat) (h : Hub) :
    (coalesce c h).shares = h.shares := shares_of_rest (rest_coalesce c h)
@[simp] theorem coalesce_layers (c : Nat) (h : Hub) :
    (coalesce c h).layers = h.layers := layers_of_rest (rest_coalesce c h)
@[simp] theorem coalesce_banks (c : Nat) (h : Hub) :
    (coalesce c h).banks = h.banks := banks_of_rest (rest_coalesce c h)
@[simp] theorem coalesce_luts (c : Nat) (h : Hub) :
    (coalesce c h).luts = h.luts := luts_of_rest (rest_coalesce c h)
@[simp] theorem coalesce_progs (c : Nat) (h : Hub) :
    (coalesce c h).progs = h.progs := progs_of_rest (rest_coalesce c h)
@[simp] theorem coalesce_txns (c : Nat) (h : Hub) :
    (coalesce c h).txns = h.txns := txns_of_rest (rest_coalesce c h)
@[simp] theorem coalesce_txnGens (c : Nat) (h : Hub) :
    (coalesce c h).txnGens = h.txnGens := txnGens_of_rest (rest_coalesce c h)
@[simp] theorem coalesce_armCount (c : Nat) (h : Hub) :
    (coalesce c h).armCount = h.armCount := armCount_of_rest (rest_coalesce c h)
@[simp] theorem coalesce_valCount (c : Nat) (h : Hub) :
    (coalesce c h).valCount = h.valCount := valCount_of_rest (rest_coalesce c h)
@[simp] theorem coalesce_tables (c : Nat) (h : Hub) :
    (coalesce c h).tables = h.tables := tables_of_rest (rest_coalesce c h)
@[simp] theorem coalesce_tls (c : Nat) (h : Hub) :
    (coalesce c h).tls = h.tls := tls_of_rest (rest_coalesce c h)
@[simp] theorem coalesce_tlGens (c : Nat) (h : Hub) :
    (coalesce c h).tlGens = h.tlGens := tlGens_of_rest (rest_coalesce c h)
@[simp] theorem coalesce_tlFreed (c : Nat) (h : Hub) :
    (coalesce c h).tlFreed = h.tlFreed := tlFreed_of_rest (rest_coalesce c h)
@[simp] theorem coalesce_outs (c : Nat) (h : Hub) :
    (coalesce c h).outs = h.outs := outs_of_rest (rest_coalesce c h)
@[simp] theorem coalesce_modes (c : Nat) (h : Hub) :
    (coalesce c h).modes = h.modes := modes_of_rest (rest_coalesce c h)
@[simp] theorem coalesce_ports (c : Nat) (h : Hub) :
    (coalesce c h).ports = h.ports := ports_of_rest (rest_coalesce c h)
@[simp] theorem coalesce_engines (c : Nat) (h : Hub) :
    (coalesce c h).engines = h.engines := engines_of_rest (rest_coalesce c h)

/-! ### What msix leaves -/

@[simp] theorem msix_now (f vec : Nat) (h : Hub) :
    (msix f vec h).now = h.now := now_of_rest (rest_msix f vec h)
@[simp] theorem msix_accAt (f vec : Nat) (h : Hub) :
    (msix f vec h).accAt = h.accAt := accAt_of_rest (rest_msix f vec h)
@[simp] theorem msix_freeIx (f vec : Nat) (h : Hub) :
    (msix f vec h).freeIx = h.freeIx := freeIx_of_rest (rest_msix f vec h)
@[simp] theorem msix_pkg (f vec : Nat) (h : Hub) :
    (msix f vec h).pkg = h.pkg := pkg_of_rest (rest_msix f vec h)
@[simp] theorem msix_remote (f vec : Nat) (h : Hub) :
    (msix f vec h).remote = h.remote := remote_of_rest (rest_msix f vec h)
@[simp] theorem msix_jtag (f vec : Nat) (h : Hub) :
    (msix f vec h).jtag = h.jtag := jtag_of_rest (rest_msix f vec h)
@[simp] theorem msix_chain (f vec : Nat) (h : Hub) :
    (msix f vec h).chain = h.chain := chain_of_rest (rest_msix f vec h)
@[simp] theorem msix_dma (f vec : Nat) (h : Hub) :
    (msix f vec h).dma = h.dma := dma_of_rest (rest_msix f vec h)
@[simp] theorem msix_regions (f vec : Nat) (h : Hub) :
    (msix f vec h).regions = h.regions := regions_of_rest (rest_msix f vec h)
@[simp] theorem msix_atlas (f vec : Nat) (h : Hub) :
    (msix f vec h).atlas = h.atlas := atlas_of_rest (rest_msix f vec h)
@[simp] theorem msix_gens (f vec : Nat) (h : Hub) :
    (msix f vec h).gens = h.gens := gens_of_rest (rest_msix f vec h)
@[simp] theorem msix_freed (f vec : Nat) (h : Hub) :
    (msix f vec h).freed = h.freed := freed_of_rest (rest_msix f vec h)
@[simp] theorem msix_shares (f vec : Nat) (h : Hub) :
    (msix f vec h).shares = h.shares := shares_of_rest (rest_msix f vec h)
@[simp] theorem msix_layers (f vec : Nat) (h : Hub) :
    (msix f vec h).layers = h.layers := layers_of_rest (rest_msix f vec h)
@[simp] theorem msix_banks (f vec : Nat) (h : Hub) :
    (msix f vec h).banks = h.banks := banks_of_rest (rest_msix f vec h)
@[simp] theorem msix_luts (f vec : Nat) (h : Hub) :
    (msix f vec h).luts = h.luts := luts_of_rest (rest_msix f vec h)
@[simp] theorem msix_progs (f vec : Nat) (h : Hub) :
    (msix f vec h).progs = h.progs := progs_of_rest (rest_msix f vec h)
@[simp] theorem msix_txns (f vec : Nat) (h : Hub) :
    (msix f vec h).txns = h.txns := txns_of_rest (rest_msix f vec h)
@[simp] theorem msix_txnGens (f vec : Nat) (h : Hub) :
    (msix f vec h).txnGens = h.txnGens := txnGens_of_rest (rest_msix f vec h)
@[simp] theorem msix_armCount (f vec : Nat) (h : Hub) :
    (msix f vec h).armCount = h.armCount := armCount_of_rest (rest_msix f vec h)
@[simp] theorem msix_valCount (f vec : Nat) (h : Hub) :
    (msix f vec h).valCount = h.valCount := valCount_of_rest (rest_msix f vec h)
@[simp] theorem msix_tables (f vec : Nat) (h : Hub) :
    (msix f vec h).tables = h.tables := tables_of_rest (rest_msix f vec h)
@[simp] theorem msix_tls (f vec : Nat) (h : Hub) :
    (msix f vec h).tls = h.tls := tls_of_rest (rest_msix f vec h)
@[simp] theorem msix_tlGens (f vec : Nat) (h : Hub) :
    (msix f vec h).tlGens = h.tlGens := tlGens_of_rest (rest_msix f vec h)
@[simp] theorem msix_tlFreed (f vec : Nat) (h : Hub) :
    (msix f vec h).tlFreed = h.tlFreed := tlFreed_of_rest (rest_msix f vec h)
@[simp] theorem msix_outs (f vec : Nat) (h : Hub) :
    (msix f vec h).outs = h.outs := outs_of_rest (rest_msix f vec h)
@[simp] theorem msix_modes (f vec : Nat) (h : Hub) :
    (msix f vec h).modes = h.modes := modes_of_rest (rest_msix f vec h)
@[simp] theorem msix_ports (f vec : Nat) (h : Hub) :
    (msix f vec h).ports = h.ports := ports_of_rest (rest_msix f vec h)
@[simp] theorem msix_engines (f vec : Nat) (h : Hub) :
    (msix f vec h).engines = h.engines := engines_of_rest (rest_msix f vec h)

/-! ### What postEntry leaves -/

@[simp] theorem postEntry_now (c st op tag sqHead cflags err r0 r1 time : Nat) (h : Hub) :
    (postEntry c st op tag sqHead cflags err r0 r1 time h).now = h.now := now_of_rest (rest_postEntry c st op tag sqHead cflags err r0 r1 time h)
@[simp] theorem postEntry_accAt (c st op tag sqHead cflags err r0 r1 time : Nat) (h : Hub) :
    (postEntry c st op tag sqHead cflags err r0 r1 time h).accAt = h.accAt := accAt_of_rest (rest_postEntry c st op tag sqHead cflags err r0 r1 time h)
@[simp] theorem postEntry_freeIx (c st op tag sqHead cflags err r0 r1 time : Nat) (h : Hub) :
    (postEntry c st op tag sqHead cflags err r0 r1 time h).freeIx = h.freeIx := freeIx_of_rest (rest_postEntry c st op tag sqHead cflags err r0 r1 time h)
@[simp] theorem postEntry_pkg (c st op tag sqHead cflags err r0 r1 time : Nat) (h : Hub) :
    (postEntry c st op tag sqHead cflags err r0 r1 time h).pkg = h.pkg := pkg_of_rest (rest_postEntry c st op tag sqHead cflags err r0 r1 time h)
@[simp] theorem postEntry_remote (c st op tag sqHead cflags err r0 r1 time : Nat) (h : Hub) :
    (postEntry c st op tag sqHead cflags err r0 r1 time h).remote = h.remote := remote_of_rest (rest_postEntry c st op tag sqHead cflags err r0 r1 time h)
@[simp] theorem postEntry_jtag (c st op tag sqHead cflags err r0 r1 time : Nat) (h : Hub) :
    (postEntry c st op tag sqHead cflags err r0 r1 time h).jtag = h.jtag := jtag_of_rest (rest_postEntry c st op tag sqHead cflags err r0 r1 time h)
@[simp] theorem postEntry_chain (c st op tag sqHead cflags err r0 r1 time : Nat) (h : Hub) :
    (postEntry c st op tag sqHead cflags err r0 r1 time h).chain = h.chain := chain_of_rest (rest_postEntry c st op tag sqHead cflags err r0 r1 time h)
@[simp] theorem postEntry_dma (c st op tag sqHead cflags err r0 r1 time : Nat) (h : Hub) :
    (postEntry c st op tag sqHead cflags err r0 r1 time h).dma = h.dma := dma_of_rest (rest_postEntry c st op tag sqHead cflags err r0 r1 time h)
@[simp] theorem postEntry_regions (c st op tag sqHead cflags err r0 r1 time : Nat) (h : Hub) :
    (postEntry c st op tag sqHead cflags err r0 r1 time h).regions = h.regions := regions_of_rest (rest_postEntry c st op tag sqHead cflags err r0 r1 time h)
@[simp] theorem postEntry_atlas (c st op tag sqHead cflags err r0 r1 time : Nat) (h : Hub) :
    (postEntry c st op tag sqHead cflags err r0 r1 time h).atlas = h.atlas := atlas_of_rest (rest_postEntry c st op tag sqHead cflags err r0 r1 time h)
@[simp] theorem postEntry_gens (c st op tag sqHead cflags err r0 r1 time : Nat) (h : Hub) :
    (postEntry c st op tag sqHead cflags err r0 r1 time h).gens = h.gens := gens_of_rest (rest_postEntry c st op tag sqHead cflags err r0 r1 time h)
@[simp] theorem postEntry_freed (c st op tag sqHead cflags err r0 r1 time : Nat) (h : Hub) :
    (postEntry c st op tag sqHead cflags err r0 r1 time h).freed = h.freed := freed_of_rest (rest_postEntry c st op tag sqHead cflags err r0 r1 time h)
@[simp] theorem postEntry_shares (c st op tag sqHead cflags err r0 r1 time : Nat) (h : Hub) :
    (postEntry c st op tag sqHead cflags err r0 r1 time h).shares = h.shares := shares_of_rest (rest_postEntry c st op tag sqHead cflags err r0 r1 time h)
@[simp] theorem postEntry_layers (c st op tag sqHead cflags err r0 r1 time : Nat) (h : Hub) :
    (postEntry c st op tag sqHead cflags err r0 r1 time h).layers = h.layers := layers_of_rest (rest_postEntry c st op tag sqHead cflags err r0 r1 time h)
@[simp] theorem postEntry_banks (c st op tag sqHead cflags err r0 r1 time : Nat) (h : Hub) :
    (postEntry c st op tag sqHead cflags err r0 r1 time h).banks = h.banks := banks_of_rest (rest_postEntry c st op tag sqHead cflags err r0 r1 time h)
@[simp] theorem postEntry_luts (c st op tag sqHead cflags err r0 r1 time : Nat) (h : Hub) :
    (postEntry c st op tag sqHead cflags err r0 r1 time h).luts = h.luts := luts_of_rest (rest_postEntry c st op tag sqHead cflags err r0 r1 time h)
@[simp] theorem postEntry_progs (c st op tag sqHead cflags err r0 r1 time : Nat) (h : Hub) :
    (postEntry c st op tag sqHead cflags err r0 r1 time h).progs = h.progs := progs_of_rest (rest_postEntry c st op tag sqHead cflags err r0 r1 time h)
@[simp] theorem postEntry_txns (c st op tag sqHead cflags err r0 r1 time : Nat) (h : Hub) :
    (postEntry c st op tag sqHead cflags err r0 r1 time h).txns = h.txns := txns_of_rest (rest_postEntry c st op tag sqHead cflags err r0 r1 time h)
@[simp] theorem postEntry_txnGens (c st op tag sqHead cflags err r0 r1 time : Nat) (h : Hub) :
    (postEntry c st op tag sqHead cflags err r0 r1 time h).txnGens = h.txnGens := txnGens_of_rest (rest_postEntry c st op tag sqHead cflags err r0 r1 time h)
@[simp] theorem postEntry_armCount (c st op tag sqHead cflags err r0 r1 time : Nat) (h : Hub) :
    (postEntry c st op tag sqHead cflags err r0 r1 time h).armCount = h.armCount := armCount_of_rest (rest_postEntry c st op tag sqHead cflags err r0 r1 time h)
@[simp] theorem postEntry_valCount (c st op tag sqHead cflags err r0 r1 time : Nat) (h : Hub) :
    (postEntry c st op tag sqHead cflags err r0 r1 time h).valCount = h.valCount := valCount_of_rest (rest_postEntry c st op tag sqHead cflags err r0 r1 time h)
@[simp] theorem postEntry_tables (c st op tag sqHead cflags err r0 r1 time : Nat) (h : Hub) :
    (postEntry c st op tag sqHead cflags err r0 r1 time h).tables = h.tables := tables_of_rest (rest_postEntry c st op tag sqHead cflags err r0 r1 time h)
@[simp] theorem postEntry_tls (c st op tag sqHead cflags err r0 r1 time : Nat) (h : Hub) :
    (postEntry c st op tag sqHead cflags err r0 r1 time h).tls = h.tls := tls_of_rest (rest_postEntry c st op tag sqHead cflags err r0 r1 time h)
@[simp] theorem postEntry_tlGens (c st op tag sqHead cflags err r0 r1 time : Nat) (h : Hub) :
    (postEntry c st op tag sqHead cflags err r0 r1 time h).tlGens = h.tlGens := tlGens_of_rest (rest_postEntry c st op tag sqHead cflags err r0 r1 time h)
@[simp] theorem postEntry_tlFreed (c st op tag sqHead cflags err r0 r1 time : Nat) (h : Hub) :
    (postEntry c st op tag sqHead cflags err r0 r1 time h).tlFreed = h.tlFreed := tlFreed_of_rest (rest_postEntry c st op tag sqHead cflags err r0 r1 time h)
@[simp] theorem postEntry_outs (c st op tag sqHead cflags err r0 r1 time : Nat) (h : Hub) :
    (postEntry c st op tag sqHead cflags err r0 r1 time h).outs = h.outs := outs_of_rest (rest_postEntry c st op tag sqHead cflags err r0 r1 time h)
@[simp] theorem postEntry_modes (c st op tag sqHead cflags err r0 r1 time : Nat) (h : Hub) :
    (postEntry c st op tag sqHead cflags err r0 r1 time h).modes = h.modes := modes_of_rest (rest_postEntry c st op tag sqHead cflags err r0 r1 time h)
@[simp] theorem postEntry_ports (c st op tag sqHead cflags err r0 r1 time : Nat) (h : Hub) :
    (postEntry c st op tag sqHead cflags err r0 r1 time h).ports = h.ports := ports_of_rest (rest_postEntry c st op tag sqHead cflags err r0 r1 time h)
@[simp] theorem postEntry_engines (c st op tag sqHead cflags err r0 r1 time : Nat) (h : Hub) :
    (postEntry c st op tag sqHead cflags err r0 r1 time h).engines = h.engines := engines_of_rest (rest_postEntry c st op tag sqHead cflags err r0 r1 time h)

/-! ### What postEventAt leaves -/

@[simp] theorem postEventAt_now (time c code r0 r1 : Nat) (h : Hub) :
    (postEventAt time c code r0 r1 h).now = h.now := now_of_rest (rest_postEventAt time c code r0 r1 h)
@[simp] theorem postEventAt_accAt (time c code r0 r1 : Nat) (h : Hub) :
    (postEventAt time c code r0 r1 h).accAt = h.accAt := accAt_of_rest (rest_postEventAt time c code r0 r1 h)
@[simp] theorem postEventAt_freeIx (time c code r0 r1 : Nat) (h : Hub) :
    (postEventAt time c code r0 r1 h).freeIx = h.freeIx := freeIx_of_rest (rest_postEventAt time c code r0 r1 h)
@[simp] theorem postEventAt_pkg (time c code r0 r1 : Nat) (h : Hub) :
    (postEventAt time c code r0 r1 h).pkg = h.pkg := pkg_of_rest (rest_postEventAt time c code r0 r1 h)
@[simp] theorem postEventAt_remote (time c code r0 r1 : Nat) (h : Hub) :
    (postEventAt time c code r0 r1 h).remote = h.remote := remote_of_rest (rest_postEventAt time c code r0 r1 h)
@[simp] theorem postEventAt_jtag (time c code r0 r1 : Nat) (h : Hub) :
    (postEventAt time c code r0 r1 h).jtag = h.jtag := jtag_of_rest (rest_postEventAt time c code r0 r1 h)
@[simp] theorem postEventAt_chain (time c code r0 r1 : Nat) (h : Hub) :
    (postEventAt time c code r0 r1 h).chain = h.chain := chain_of_rest (rest_postEventAt time c code r0 r1 h)
@[simp] theorem postEventAt_dma (time c code r0 r1 : Nat) (h : Hub) :
    (postEventAt time c code r0 r1 h).dma = h.dma := dma_of_rest (rest_postEventAt time c code r0 r1 h)
@[simp] theorem postEventAt_regions (time c code r0 r1 : Nat) (h : Hub) :
    (postEventAt time c code r0 r1 h).regions = h.regions := regions_of_rest (rest_postEventAt time c code r0 r1 h)
@[simp] theorem postEventAt_atlas (time c code r0 r1 : Nat) (h : Hub) :
    (postEventAt time c code r0 r1 h).atlas = h.atlas := atlas_of_rest (rest_postEventAt time c code r0 r1 h)
@[simp] theorem postEventAt_gens (time c code r0 r1 : Nat) (h : Hub) :
    (postEventAt time c code r0 r1 h).gens = h.gens := gens_of_rest (rest_postEventAt time c code r0 r1 h)
@[simp] theorem postEventAt_freed (time c code r0 r1 : Nat) (h : Hub) :
    (postEventAt time c code r0 r1 h).freed = h.freed := freed_of_rest (rest_postEventAt time c code r0 r1 h)
@[simp] theorem postEventAt_shares (time c code r0 r1 : Nat) (h : Hub) :
    (postEventAt time c code r0 r1 h).shares = h.shares := shares_of_rest (rest_postEventAt time c code r0 r1 h)
@[simp] theorem postEventAt_layers (time c code r0 r1 : Nat) (h : Hub) :
    (postEventAt time c code r0 r1 h).layers = h.layers := layers_of_rest (rest_postEventAt time c code r0 r1 h)
@[simp] theorem postEventAt_banks (time c code r0 r1 : Nat) (h : Hub) :
    (postEventAt time c code r0 r1 h).banks = h.banks := banks_of_rest (rest_postEventAt time c code r0 r1 h)
@[simp] theorem postEventAt_luts (time c code r0 r1 : Nat) (h : Hub) :
    (postEventAt time c code r0 r1 h).luts = h.luts := luts_of_rest (rest_postEventAt time c code r0 r1 h)
@[simp] theorem postEventAt_progs (time c code r0 r1 : Nat) (h : Hub) :
    (postEventAt time c code r0 r1 h).progs = h.progs := progs_of_rest (rest_postEventAt time c code r0 r1 h)
@[simp] theorem postEventAt_txns (time c code r0 r1 : Nat) (h : Hub) :
    (postEventAt time c code r0 r1 h).txns = h.txns := txns_of_rest (rest_postEventAt time c code r0 r1 h)
@[simp] theorem postEventAt_txnGens (time c code r0 r1 : Nat) (h : Hub) :
    (postEventAt time c code r0 r1 h).txnGens = h.txnGens := txnGens_of_rest (rest_postEventAt time c code r0 r1 h)
@[simp] theorem postEventAt_armCount (time c code r0 r1 : Nat) (h : Hub) :
    (postEventAt time c code r0 r1 h).armCount = h.armCount := armCount_of_rest (rest_postEventAt time c code r0 r1 h)
@[simp] theorem postEventAt_valCount (time c code r0 r1 : Nat) (h : Hub) :
    (postEventAt time c code r0 r1 h).valCount = h.valCount := valCount_of_rest (rest_postEventAt time c code r0 r1 h)
@[simp] theorem postEventAt_tables (time c code r0 r1 : Nat) (h : Hub) :
    (postEventAt time c code r0 r1 h).tables = h.tables := tables_of_rest (rest_postEventAt time c code r0 r1 h)
@[simp] theorem postEventAt_tls (time c code r0 r1 : Nat) (h : Hub) :
    (postEventAt time c code r0 r1 h).tls = h.tls := tls_of_rest (rest_postEventAt time c code r0 r1 h)
@[simp] theorem postEventAt_tlGens (time c code r0 r1 : Nat) (h : Hub) :
    (postEventAt time c code r0 r1 h).tlGens = h.tlGens := tlGens_of_rest (rest_postEventAt time c code r0 r1 h)
@[simp] theorem postEventAt_tlFreed (time c code r0 r1 : Nat) (h : Hub) :
    (postEventAt time c code r0 r1 h).tlFreed = h.tlFreed := tlFreed_of_rest (rest_postEventAt time c code r0 r1 h)
@[simp] theorem postEventAt_outs (time c code r0 r1 : Nat) (h : Hub) :
    (postEventAt time c code r0 r1 h).outs = h.outs := outs_of_rest (rest_postEventAt time c code r0 r1 h)
@[simp] theorem postEventAt_modes (time c code r0 r1 : Nat) (h : Hub) :
    (postEventAt time c code r0 r1 h).modes = h.modes := modes_of_rest (rest_postEventAt time c code r0 r1 h)
@[simp] theorem postEventAt_ports (time c code r0 r1 : Nat) (h : Hub) :
    (postEventAt time c code r0 r1 h).ports = h.ports := ports_of_rest (rest_postEventAt time c code r0 r1 h)
@[simp] theorem postEventAt_engines (time c code r0 r1 : Nat) (h : Hub) :
    (postEventAt time c code r0 r1 h).engines = h.engines := engines_of_rest (rest_postEventAt time c code r0 r1 h)

/-! ### What postEvent leaves -/

@[simp] theorem postEvent_now (c code r0 r1 : Nat) (h : Hub) :
    (postEvent c code r0 r1 h).now = h.now := now_of_rest (rest_postEvent c code r0 r1 h)
@[simp] theorem postEvent_accAt (c code r0 r1 : Nat) (h : Hub) :
    (postEvent c code r0 r1 h).accAt = h.accAt := accAt_of_rest (rest_postEvent c code r0 r1 h)
@[simp] theorem postEvent_freeIx (c code r0 r1 : Nat) (h : Hub) :
    (postEvent c code r0 r1 h).freeIx = h.freeIx := freeIx_of_rest (rest_postEvent c code r0 r1 h)
@[simp] theorem postEvent_pkg (c code r0 r1 : Nat) (h : Hub) :
    (postEvent c code r0 r1 h).pkg = h.pkg := pkg_of_rest (rest_postEvent c code r0 r1 h)
@[simp] theorem postEvent_remote (c code r0 r1 : Nat) (h : Hub) :
    (postEvent c code r0 r1 h).remote = h.remote := remote_of_rest (rest_postEvent c code r0 r1 h)
@[simp] theorem postEvent_jtag (c code r0 r1 : Nat) (h : Hub) :
    (postEvent c code r0 r1 h).jtag = h.jtag := jtag_of_rest (rest_postEvent c code r0 r1 h)
@[simp] theorem postEvent_chain (c code r0 r1 : Nat) (h : Hub) :
    (postEvent c code r0 r1 h).chain = h.chain := chain_of_rest (rest_postEvent c code r0 r1 h)
@[simp] theorem postEvent_dma (c code r0 r1 : Nat) (h : Hub) :
    (postEvent c code r0 r1 h).dma = h.dma := dma_of_rest (rest_postEvent c code r0 r1 h)
@[simp] theorem postEvent_regions (c code r0 r1 : Nat) (h : Hub) :
    (postEvent c code r0 r1 h).regions = h.regions := regions_of_rest (rest_postEvent c code r0 r1 h)
@[simp] theorem postEvent_atlas (c code r0 r1 : Nat) (h : Hub) :
    (postEvent c code r0 r1 h).atlas = h.atlas := atlas_of_rest (rest_postEvent c code r0 r1 h)
@[simp] theorem postEvent_gens (c code r0 r1 : Nat) (h : Hub) :
    (postEvent c code r0 r1 h).gens = h.gens := gens_of_rest (rest_postEvent c code r0 r1 h)
@[simp] theorem postEvent_freed (c code r0 r1 : Nat) (h : Hub) :
    (postEvent c code r0 r1 h).freed = h.freed := freed_of_rest (rest_postEvent c code r0 r1 h)
@[simp] theorem postEvent_shares (c code r0 r1 : Nat) (h : Hub) :
    (postEvent c code r0 r1 h).shares = h.shares := shares_of_rest (rest_postEvent c code r0 r1 h)
@[simp] theorem postEvent_layers (c code r0 r1 : Nat) (h : Hub) :
    (postEvent c code r0 r1 h).layers = h.layers := layers_of_rest (rest_postEvent c code r0 r1 h)
@[simp] theorem postEvent_banks (c code r0 r1 : Nat) (h : Hub) :
    (postEvent c code r0 r1 h).banks = h.banks := banks_of_rest (rest_postEvent c code r0 r1 h)
@[simp] theorem postEvent_luts (c code r0 r1 : Nat) (h : Hub) :
    (postEvent c code r0 r1 h).luts = h.luts := luts_of_rest (rest_postEvent c code r0 r1 h)
@[simp] theorem postEvent_progs (c code r0 r1 : Nat) (h : Hub) :
    (postEvent c code r0 r1 h).progs = h.progs := progs_of_rest (rest_postEvent c code r0 r1 h)
@[simp] theorem postEvent_txns (c code r0 r1 : Nat) (h : Hub) :
    (postEvent c code r0 r1 h).txns = h.txns := txns_of_rest (rest_postEvent c code r0 r1 h)
@[simp] theorem postEvent_txnGens (c code r0 r1 : Nat) (h : Hub) :
    (postEvent c code r0 r1 h).txnGens = h.txnGens := txnGens_of_rest (rest_postEvent c code r0 r1 h)
@[simp] theorem postEvent_armCount (c code r0 r1 : Nat) (h : Hub) :
    (postEvent c code r0 r1 h).armCount = h.armCount := armCount_of_rest (rest_postEvent c code r0 r1 h)
@[simp] theorem postEvent_valCount (c code r0 r1 : Nat) (h : Hub) :
    (postEvent c code r0 r1 h).valCount = h.valCount := valCount_of_rest (rest_postEvent c code r0 r1 h)
@[simp] theorem postEvent_tables (c code r0 r1 : Nat) (h : Hub) :
    (postEvent c code r0 r1 h).tables = h.tables := tables_of_rest (rest_postEvent c code r0 r1 h)
@[simp] theorem postEvent_tls (c code r0 r1 : Nat) (h : Hub) :
    (postEvent c code r0 r1 h).tls = h.tls := tls_of_rest (rest_postEvent c code r0 r1 h)
@[simp] theorem postEvent_tlGens (c code r0 r1 : Nat) (h : Hub) :
    (postEvent c code r0 r1 h).tlGens = h.tlGens := tlGens_of_rest (rest_postEvent c code r0 r1 h)
@[simp] theorem postEvent_tlFreed (c code r0 r1 : Nat) (h : Hub) :
    (postEvent c code r0 r1 h).tlFreed = h.tlFreed := tlFreed_of_rest (rest_postEvent c code r0 r1 h)
@[simp] theorem postEvent_outs (c code r0 r1 : Nat) (h : Hub) :
    (postEvent c code r0 r1 h).outs = h.outs := outs_of_rest (rest_postEvent c code r0 r1 h)
@[simp] theorem postEvent_modes (c code r0 r1 : Nat) (h : Hub) :
    (postEvent c code r0 r1 h).modes = h.modes := modes_of_rest (rest_postEvent c code r0 r1 h)
@[simp] theorem postEvent_ports (c code r0 r1 : Nat) (h : Hub) :
    (postEvent c code r0 r1 h).ports = h.ports := ports_of_rest (rest_postEvent c code r0 r1 h)
@[simp] theorem postEvent_engines (c code r0 r1 : Nat) (h : Hub) :
    (postEvent c code r0 r1 h).engines = h.engines := engines_of_rest (rest_postEvent c code r0 r1 h)

/-! ### What postEvents leaves -/

@[simp] theorem postEvents_now (cs : List Nat) (code r0 r1 : Nat) (h : Hub) :
    (postEvents cs code r0 r1 h).now = h.now := now_of_rest (rest_postEvents cs code r0 r1 h)
@[simp] theorem postEvents_accAt (cs : List Nat) (code r0 r1 : Nat) (h : Hub) :
    (postEvents cs code r0 r1 h).accAt = h.accAt := accAt_of_rest (rest_postEvents cs code r0 r1 h)
@[simp] theorem postEvents_freeIx (cs : List Nat) (code r0 r1 : Nat) (h : Hub) :
    (postEvents cs code r0 r1 h).freeIx = h.freeIx := freeIx_of_rest (rest_postEvents cs code r0 r1 h)
@[simp] theorem postEvents_pkg (cs : List Nat) (code r0 r1 : Nat) (h : Hub) :
    (postEvents cs code r0 r1 h).pkg = h.pkg := pkg_of_rest (rest_postEvents cs code r0 r1 h)
@[simp] theorem postEvents_remote (cs : List Nat) (code r0 r1 : Nat) (h : Hub) :
    (postEvents cs code r0 r1 h).remote = h.remote := remote_of_rest (rest_postEvents cs code r0 r1 h)
@[simp] theorem postEvents_jtag (cs : List Nat) (code r0 r1 : Nat) (h : Hub) :
    (postEvents cs code r0 r1 h).jtag = h.jtag := jtag_of_rest (rest_postEvents cs code r0 r1 h)
@[simp] theorem postEvents_chain (cs : List Nat) (code r0 r1 : Nat) (h : Hub) :
    (postEvents cs code r0 r1 h).chain = h.chain := chain_of_rest (rest_postEvents cs code r0 r1 h)
@[simp] theorem postEvents_dma (cs : List Nat) (code r0 r1 : Nat) (h : Hub) :
    (postEvents cs code r0 r1 h).dma = h.dma := dma_of_rest (rest_postEvents cs code r0 r1 h)
@[simp] theorem postEvents_regions (cs : List Nat) (code r0 r1 : Nat) (h : Hub) :
    (postEvents cs code r0 r1 h).regions = h.regions := regions_of_rest (rest_postEvents cs code r0 r1 h)
@[simp] theorem postEvents_atlas (cs : List Nat) (code r0 r1 : Nat) (h : Hub) :
    (postEvents cs code r0 r1 h).atlas = h.atlas := atlas_of_rest (rest_postEvents cs code r0 r1 h)
@[simp] theorem postEvents_gens (cs : List Nat) (code r0 r1 : Nat) (h : Hub) :
    (postEvents cs code r0 r1 h).gens = h.gens := gens_of_rest (rest_postEvents cs code r0 r1 h)
@[simp] theorem postEvents_freed (cs : List Nat) (code r0 r1 : Nat) (h : Hub) :
    (postEvents cs code r0 r1 h).freed = h.freed := freed_of_rest (rest_postEvents cs code r0 r1 h)
@[simp] theorem postEvents_shares (cs : List Nat) (code r0 r1 : Nat) (h : Hub) :
    (postEvents cs code r0 r1 h).shares = h.shares := shares_of_rest (rest_postEvents cs code r0 r1 h)
@[simp] theorem postEvents_layers (cs : List Nat) (code r0 r1 : Nat) (h : Hub) :
    (postEvents cs code r0 r1 h).layers = h.layers := layers_of_rest (rest_postEvents cs code r0 r1 h)
@[simp] theorem postEvents_banks (cs : List Nat) (code r0 r1 : Nat) (h : Hub) :
    (postEvents cs code r0 r1 h).banks = h.banks := banks_of_rest (rest_postEvents cs code r0 r1 h)
@[simp] theorem postEvents_luts (cs : List Nat) (code r0 r1 : Nat) (h : Hub) :
    (postEvents cs code r0 r1 h).luts = h.luts := luts_of_rest (rest_postEvents cs code r0 r1 h)
@[simp] theorem postEvents_progs (cs : List Nat) (code r0 r1 : Nat) (h : Hub) :
    (postEvents cs code r0 r1 h).progs = h.progs := progs_of_rest (rest_postEvents cs code r0 r1 h)
@[simp] theorem postEvents_txns (cs : List Nat) (code r0 r1 : Nat) (h : Hub) :
    (postEvents cs code r0 r1 h).txns = h.txns := txns_of_rest (rest_postEvents cs code r0 r1 h)
@[simp] theorem postEvents_txnGens (cs : List Nat) (code r0 r1 : Nat) (h : Hub) :
    (postEvents cs code r0 r1 h).txnGens = h.txnGens := txnGens_of_rest (rest_postEvents cs code r0 r1 h)
@[simp] theorem postEvents_armCount (cs : List Nat) (code r0 r1 : Nat) (h : Hub) :
    (postEvents cs code r0 r1 h).armCount = h.armCount := armCount_of_rest (rest_postEvents cs code r0 r1 h)
@[simp] theorem postEvents_valCount (cs : List Nat) (code r0 r1 : Nat) (h : Hub) :
    (postEvents cs code r0 r1 h).valCount = h.valCount := valCount_of_rest (rest_postEvents cs code r0 r1 h)
@[simp] theorem postEvents_tables (cs : List Nat) (code r0 r1 : Nat) (h : Hub) :
    (postEvents cs code r0 r1 h).tables = h.tables := tables_of_rest (rest_postEvents cs code r0 r1 h)
@[simp] theorem postEvents_tls (cs : List Nat) (code r0 r1 : Nat) (h : Hub) :
    (postEvents cs code r0 r1 h).tls = h.tls := tls_of_rest (rest_postEvents cs code r0 r1 h)
@[simp] theorem postEvents_tlGens (cs : List Nat) (code r0 r1 : Nat) (h : Hub) :
    (postEvents cs code r0 r1 h).tlGens = h.tlGens := tlGens_of_rest (rest_postEvents cs code r0 r1 h)
@[simp] theorem postEvents_tlFreed (cs : List Nat) (code r0 r1 : Nat) (h : Hub) :
    (postEvents cs code r0 r1 h).tlFreed = h.tlFreed := tlFreed_of_rest (rest_postEvents cs code r0 r1 h)
@[simp] theorem postEvents_outs (cs : List Nat) (code r0 r1 : Nat) (h : Hub) :
    (postEvents cs code r0 r1 h).outs = h.outs := outs_of_rest (rest_postEvents cs code r0 r1 h)
@[simp] theorem postEvents_modes (cs : List Nat) (code r0 r1 : Nat) (h : Hub) :
    (postEvents cs code r0 r1 h).modes = h.modes := modes_of_rest (rest_postEvents cs code r0 r1 h)
@[simp] theorem postEvents_ports (cs : List Nat) (code r0 r1 : Nat) (h : Hub) :
    (postEvents cs code r0 r1 h).ports = h.ports := ports_of_rest (rest_postEvents cs code r0 r1 h)
@[simp] theorem postEvents_engines (cs : List Nat) (code r0 r1 : Nat) (h : Hub) :
    (postEvents cs code r0 r1 h).engines = h.engines := engines_of_rest (rest_postEvents cs code r0 r1 h)

/-! ### What fbkRecord leaves -/

@[simp] theorem fbkRecord_now (d src typ a0 a1 : Nat) (h : Hub) :
    (fbkRecord d src typ a0 a1 h).now = h.now := now_of_rest (rest_fbkRecord d src typ a0 a1 h)
@[simp] theorem fbkRecord_accAt (d src typ a0 a1 : Nat) (h : Hub) :
    (fbkRecord d src typ a0 a1 h).accAt = h.accAt := accAt_of_rest (rest_fbkRecord d src typ a0 a1 h)
@[simp] theorem fbkRecord_freeIx (d src typ a0 a1 : Nat) (h : Hub) :
    (fbkRecord d src typ a0 a1 h).freeIx = h.freeIx := freeIx_of_rest (rest_fbkRecord d src typ a0 a1 h)
@[simp] theorem fbkRecord_pkg (d src typ a0 a1 : Nat) (h : Hub) :
    (fbkRecord d src typ a0 a1 h).pkg = h.pkg := pkg_of_rest (rest_fbkRecord d src typ a0 a1 h)
@[simp] theorem fbkRecord_remote (d src typ a0 a1 : Nat) (h : Hub) :
    (fbkRecord d src typ a0 a1 h).remote = h.remote := remote_of_rest (rest_fbkRecord d src typ a0 a1 h)
@[simp] theorem fbkRecord_jtag (d src typ a0 a1 : Nat) (h : Hub) :
    (fbkRecord d src typ a0 a1 h).jtag = h.jtag := jtag_of_rest (rest_fbkRecord d src typ a0 a1 h)
@[simp] theorem fbkRecord_chain (d src typ a0 a1 : Nat) (h : Hub) :
    (fbkRecord d src typ a0 a1 h).chain = h.chain := chain_of_rest (rest_fbkRecord d src typ a0 a1 h)
@[simp] theorem fbkRecord_dma (d src typ a0 a1 : Nat) (h : Hub) :
    (fbkRecord d src typ a0 a1 h).dma = h.dma := dma_of_rest (rest_fbkRecord d src typ a0 a1 h)
@[simp] theorem fbkRecord_regions (d src typ a0 a1 : Nat) (h : Hub) :
    (fbkRecord d src typ a0 a1 h).regions = h.regions := regions_of_rest (rest_fbkRecord d src typ a0 a1 h)
@[simp] theorem fbkRecord_atlas (d src typ a0 a1 : Nat) (h : Hub) :
    (fbkRecord d src typ a0 a1 h).atlas = h.atlas := atlas_of_rest (rest_fbkRecord d src typ a0 a1 h)
@[simp] theorem fbkRecord_gens (d src typ a0 a1 : Nat) (h : Hub) :
    (fbkRecord d src typ a0 a1 h).gens = h.gens := gens_of_rest (rest_fbkRecord d src typ a0 a1 h)
@[simp] theorem fbkRecord_freed (d src typ a0 a1 : Nat) (h : Hub) :
    (fbkRecord d src typ a0 a1 h).freed = h.freed := freed_of_rest (rest_fbkRecord d src typ a0 a1 h)
@[simp] theorem fbkRecord_shares (d src typ a0 a1 : Nat) (h : Hub) :
    (fbkRecord d src typ a0 a1 h).shares = h.shares := shares_of_rest (rest_fbkRecord d src typ a0 a1 h)
@[simp] theorem fbkRecord_layers (d src typ a0 a1 : Nat) (h : Hub) :
    (fbkRecord d src typ a0 a1 h).layers = h.layers := layers_of_rest (rest_fbkRecord d src typ a0 a1 h)
@[simp] theorem fbkRecord_banks (d src typ a0 a1 : Nat) (h : Hub) :
    (fbkRecord d src typ a0 a1 h).banks = h.banks := banks_of_rest (rest_fbkRecord d src typ a0 a1 h)
@[simp] theorem fbkRecord_luts (d src typ a0 a1 : Nat) (h : Hub) :
    (fbkRecord d src typ a0 a1 h).luts = h.luts := luts_of_rest (rest_fbkRecord d src typ a0 a1 h)
@[simp] theorem fbkRecord_progs (d src typ a0 a1 : Nat) (h : Hub) :
    (fbkRecord d src typ a0 a1 h).progs = h.progs := progs_of_rest (rest_fbkRecord d src typ a0 a1 h)
@[simp] theorem fbkRecord_txns (d src typ a0 a1 : Nat) (h : Hub) :
    (fbkRecord d src typ a0 a1 h).txns = h.txns := txns_of_rest (rest_fbkRecord d src typ a0 a1 h)
@[simp] theorem fbkRecord_txnGens (d src typ a0 a1 : Nat) (h : Hub) :
    (fbkRecord d src typ a0 a1 h).txnGens = h.txnGens := txnGens_of_rest (rest_fbkRecord d src typ a0 a1 h)
@[simp] theorem fbkRecord_armCount (d src typ a0 a1 : Nat) (h : Hub) :
    (fbkRecord d src typ a0 a1 h).armCount = h.armCount := armCount_of_rest (rest_fbkRecord d src typ a0 a1 h)
@[simp] theorem fbkRecord_valCount (d src typ a0 a1 : Nat) (h : Hub) :
    (fbkRecord d src typ a0 a1 h).valCount = h.valCount := valCount_of_rest (rest_fbkRecord d src typ a0 a1 h)
@[simp] theorem fbkRecord_tables (d src typ a0 a1 : Nat) (h : Hub) :
    (fbkRecord d src typ a0 a1 h).tables = h.tables := tables_of_rest (rest_fbkRecord d src typ a0 a1 h)
@[simp] theorem fbkRecord_tls (d src typ a0 a1 : Nat) (h : Hub) :
    (fbkRecord d src typ a0 a1 h).tls = h.tls := tls_of_rest (rest_fbkRecord d src typ a0 a1 h)
@[simp] theorem fbkRecord_tlGens (d src typ a0 a1 : Nat) (h : Hub) :
    (fbkRecord d src typ a0 a1 h).tlGens = h.tlGens := tlGens_of_rest (rest_fbkRecord d src typ a0 a1 h)
@[simp] theorem fbkRecord_tlFreed (d src typ a0 a1 : Nat) (h : Hub) :
    (fbkRecord d src typ a0 a1 h).tlFreed = h.tlFreed := tlFreed_of_rest (rest_fbkRecord d src typ a0 a1 h)
@[simp] theorem fbkRecord_outs (d src typ a0 a1 : Nat) (h : Hub) :
    (fbkRecord d src typ a0 a1 h).outs = h.outs := outs_of_rest (rest_fbkRecord d src typ a0 a1 h)
@[simp] theorem fbkRecord_modes (d src typ a0 a1 : Nat) (h : Hub) :
    (fbkRecord d src typ a0 a1 h).modes = h.modes := modes_of_rest (rest_fbkRecord d src typ a0 a1 h)
@[simp] theorem fbkRecord_ports (d src typ a0 a1 : Nat) (h : Hub) :
    (fbkRecord d src typ a0 a1 h).ports = h.ports := ports_of_rest (rest_fbkRecord d src typ a0 a1 h)
@[simp] theorem fbkRecord_engines (d src typ a0 a1 : Nat) (h : Hub) :
    (fbkRecord d src typ a0 a1 h).engines = h.engines := engines_of_rest (rest_fbkRecord d src typ a0 a1 h)

/-! ### What complete leaves -/

@[simp] theorem complete_now (p : Pend) (st off r0 r1 : Nat) (h : Hub) :
    (complete p st off r0 r1 h).now = h.now := now_of_rest (rest_complete p st off r0 r1 h)
@[simp] theorem complete_accAt (p : Pend) (st off r0 r1 : Nat) (h : Hub) :
    (complete p st off r0 r1 h).accAt = h.accAt := accAt_of_rest (rest_complete p st off r0 r1 h)
@[simp] theorem complete_freeIx (p : Pend) (st off r0 r1 : Nat) (h : Hub) :
    (complete p st off r0 r1 h).freeIx = h.freeIx := freeIx_of_rest (rest_complete p st off r0 r1 h)
@[simp] theorem complete_pkg (p : Pend) (st off r0 r1 : Nat) (h : Hub) :
    (complete p st off r0 r1 h).pkg = h.pkg := pkg_of_rest (rest_complete p st off r0 r1 h)
@[simp] theorem complete_remote (p : Pend) (st off r0 r1 : Nat) (h : Hub) :
    (complete p st off r0 r1 h).remote = h.remote := remote_of_rest (rest_complete p st off r0 r1 h)
@[simp] theorem complete_jtag (p : Pend) (st off r0 r1 : Nat) (h : Hub) :
    (complete p st off r0 r1 h).jtag = h.jtag := jtag_of_rest (rest_complete p st off r0 r1 h)
@[simp] theorem complete_chain (p : Pend) (st off r0 r1 : Nat) (h : Hub) :
    (complete p st off r0 r1 h).chain = h.chain := chain_of_rest (rest_complete p st off r0 r1 h)
@[simp] theorem complete_dma (p : Pend) (st off r0 r1 : Nat) (h : Hub) :
    (complete p st off r0 r1 h).dma = h.dma := dma_of_rest (rest_complete p st off r0 r1 h)
@[simp] theorem complete_regions (p : Pend) (st off r0 r1 : Nat) (h : Hub) :
    (complete p st off r0 r1 h).regions = h.regions := regions_of_rest (rest_complete p st off r0 r1 h)
@[simp] theorem complete_atlas (p : Pend) (st off r0 r1 : Nat) (h : Hub) :
    (complete p st off r0 r1 h).atlas = h.atlas := atlas_of_rest (rest_complete p st off r0 r1 h)
@[simp] theorem complete_gens (p : Pend) (st off r0 r1 : Nat) (h : Hub) :
    (complete p st off r0 r1 h).gens = h.gens := gens_of_rest (rest_complete p st off r0 r1 h)
@[simp] theorem complete_freed (p : Pend) (st off r0 r1 : Nat) (h : Hub) :
    (complete p st off r0 r1 h).freed = h.freed := freed_of_rest (rest_complete p st off r0 r1 h)
@[simp] theorem complete_shares (p : Pend) (st off r0 r1 : Nat) (h : Hub) :
    (complete p st off r0 r1 h).shares = h.shares := shares_of_rest (rest_complete p st off r0 r1 h)
@[simp] theorem complete_layers (p : Pend) (st off r0 r1 : Nat) (h : Hub) :
    (complete p st off r0 r1 h).layers = h.layers := layers_of_rest (rest_complete p st off r0 r1 h)
@[simp] theorem complete_banks (p : Pend) (st off r0 r1 : Nat) (h : Hub) :
    (complete p st off r0 r1 h).banks = h.banks := banks_of_rest (rest_complete p st off r0 r1 h)
@[simp] theorem complete_luts (p : Pend) (st off r0 r1 : Nat) (h : Hub) :
    (complete p st off r0 r1 h).luts = h.luts := luts_of_rest (rest_complete p st off r0 r1 h)
@[simp] theorem complete_progs (p : Pend) (st off r0 r1 : Nat) (h : Hub) :
    (complete p st off r0 r1 h).progs = h.progs := progs_of_rest (rest_complete p st off r0 r1 h)
@[simp] theorem complete_txns (p : Pend) (st off r0 r1 : Nat) (h : Hub) :
    (complete p st off r0 r1 h).txns = h.txns := txns_of_rest (rest_complete p st off r0 r1 h)
@[simp] theorem complete_txnGens (p : Pend) (st off r0 r1 : Nat) (h : Hub) :
    (complete p st off r0 r1 h).txnGens = h.txnGens := txnGens_of_rest (rest_complete p st off r0 r1 h)
@[simp] theorem complete_armCount (p : Pend) (st off r0 r1 : Nat) (h : Hub) :
    (complete p st off r0 r1 h).armCount = h.armCount := armCount_of_rest (rest_complete p st off r0 r1 h)
@[simp] theorem complete_valCount (p : Pend) (st off r0 r1 : Nat) (h : Hub) :
    (complete p st off r0 r1 h).valCount = h.valCount := valCount_of_rest (rest_complete p st off r0 r1 h)
@[simp] theorem complete_tables (p : Pend) (st off r0 r1 : Nat) (h : Hub) :
    (complete p st off r0 r1 h).tables = h.tables := tables_of_rest (rest_complete p st off r0 r1 h)
@[simp] theorem complete_tls (p : Pend) (st off r0 r1 : Nat) (h : Hub) :
    (complete p st off r0 r1 h).tls = h.tls := tls_of_rest (rest_complete p st off r0 r1 h)
@[simp] theorem complete_tlGens (p : Pend) (st off r0 r1 : Nat) (h : Hub) :
    (complete p st off r0 r1 h).tlGens = h.tlGens := tlGens_of_rest (rest_complete p st off r0 r1 h)
@[simp] theorem complete_tlFreed (p : Pend) (st off r0 r1 : Nat) (h : Hub) :
    (complete p st off r0 r1 h).tlFreed = h.tlFreed := tlFreed_of_rest (rest_complete p st off r0 r1 h)
@[simp] theorem complete_outs (p : Pend) (st off r0 r1 : Nat) (h : Hub) :
    (complete p st off r0 r1 h).outs = h.outs := outs_of_rest (rest_complete p st off r0 r1 h)
@[simp] theorem complete_modes (p : Pend) (st off r0 r1 : Nat) (h : Hub) :
    (complete p st off r0 r1 h).modes = h.modes := modes_of_rest (rest_complete p st off r0 r1 h)
@[simp] theorem complete_ports (p : Pend) (st off r0 r1 : Nat) (h : Hub) :
    (complete p st off r0 r1 h).ports = h.ports := ports_of_rest (rest_complete p st off r0 r1 h)
@[simp] theorem complete_engines (p : Pend) (st off r0 r1 : Nat) (h : Hub) :
    (complete p st off r0 r1 h).engines = h.engines := engines_of_rest (rest_complete p st off r0 r1 h)

/-! ### What intEvent leaves -/

@[simp] theorem intEvent_now (d n : Nat) (h : Hub) :
    (intEvent d n h).now = h.now := now_of_rest (rest_intEvent d n h)
@[simp] theorem intEvent_accAt (d n : Nat) (h : Hub) :
    (intEvent d n h).accAt = h.accAt := accAt_of_rest (rest_intEvent d n h)
@[simp] theorem intEvent_freeIx (d n : Nat) (h : Hub) :
    (intEvent d n h).freeIx = h.freeIx := freeIx_of_rest (rest_intEvent d n h)
@[simp] theorem intEvent_pkg (d n : Nat) (h : Hub) :
    (intEvent d n h).pkg = h.pkg := pkg_of_rest (rest_intEvent d n h)
@[simp] theorem intEvent_remote (d n : Nat) (h : Hub) :
    (intEvent d n h).remote = h.remote := remote_of_rest (rest_intEvent d n h)
@[simp] theorem intEvent_jtag (d n : Nat) (h : Hub) :
    (intEvent d n h).jtag = h.jtag := jtag_of_rest (rest_intEvent d n h)
@[simp] theorem intEvent_chain (d n : Nat) (h : Hub) :
    (intEvent d n h).chain = h.chain := chain_of_rest (rest_intEvent d n h)
@[simp] theorem intEvent_dma (d n : Nat) (h : Hub) :
    (intEvent d n h).dma = h.dma := dma_of_rest (rest_intEvent d n h)
@[simp] theorem intEvent_regions (d n : Nat) (h : Hub) :
    (intEvent d n h).regions = h.regions := regions_of_rest (rest_intEvent d n h)
@[simp] theorem intEvent_atlas (d n : Nat) (h : Hub) :
    (intEvent d n h).atlas = h.atlas := atlas_of_rest (rest_intEvent d n h)
@[simp] theorem intEvent_gens (d n : Nat) (h : Hub) :
    (intEvent d n h).gens = h.gens := gens_of_rest (rest_intEvent d n h)
@[simp] theorem intEvent_freed (d n : Nat) (h : Hub) :
    (intEvent d n h).freed = h.freed := freed_of_rest (rest_intEvent d n h)
@[simp] theorem intEvent_shares (d n : Nat) (h : Hub) :
    (intEvent d n h).shares = h.shares := shares_of_rest (rest_intEvent d n h)
@[simp] theorem intEvent_layers (d n : Nat) (h : Hub) :
    (intEvent d n h).layers = h.layers := layers_of_rest (rest_intEvent d n h)
@[simp] theorem intEvent_banks (d n : Nat) (h : Hub) :
    (intEvent d n h).banks = h.banks := banks_of_rest (rest_intEvent d n h)
@[simp] theorem intEvent_luts (d n : Nat) (h : Hub) :
    (intEvent d n h).luts = h.luts := luts_of_rest (rest_intEvent d n h)
@[simp] theorem intEvent_progs (d n : Nat) (h : Hub) :
    (intEvent d n h).progs = h.progs := progs_of_rest (rest_intEvent d n h)
@[simp] theorem intEvent_txns (d n : Nat) (h : Hub) :
    (intEvent d n h).txns = h.txns := txns_of_rest (rest_intEvent d n h)
@[simp] theorem intEvent_txnGens (d n : Nat) (h : Hub) :
    (intEvent d n h).txnGens = h.txnGens := txnGens_of_rest (rest_intEvent d n h)
@[simp] theorem intEvent_armCount (d n : Nat) (h : Hub) :
    (intEvent d n h).armCount = h.armCount := armCount_of_rest (rest_intEvent d n h)
@[simp] theorem intEvent_valCount (d n : Nat) (h : Hub) :
    (intEvent d n h).valCount = h.valCount := valCount_of_rest (rest_intEvent d n h)
@[simp] theorem intEvent_tables (d n : Nat) (h : Hub) :
    (intEvent d n h).tables = h.tables := tables_of_rest (rest_intEvent d n h)
@[simp] theorem intEvent_tls (d n : Nat) (h : Hub) :
    (intEvent d n h).tls = h.tls := tls_of_rest (rest_intEvent d n h)
@[simp] theorem intEvent_tlGens (d n : Nat) (h : Hub) :
    (intEvent d n h).tlGens = h.tlGens := tlGens_of_rest (rest_intEvent d n h)
@[simp] theorem intEvent_tlFreed (d n : Nat) (h : Hub) :
    (intEvent d n h).tlFreed = h.tlFreed := tlFreed_of_rest (rest_intEvent d n h)
@[simp] theorem intEvent_outs (d n : Nat) (h : Hub) :
    (intEvent d n h).outs = h.outs := outs_of_rest (rest_intEvent d n h)
@[simp] theorem intEvent_modes (d n : Nat) (h : Hub) :
    (intEvent d n h).modes = h.modes := modes_of_rest (rest_intEvent d n h)
@[simp] theorem intEvent_ports (d n : Nat) (h : Hub) :
    (intEvent d n h).ports = h.ports := ports_of_rest (rest_intEvent d n h)
@[simp] theorem intEvent_engines (d n : Nat) (h : Hub) :
    (intEvent d n h).engines = h.engines := engines_of_rest (rest_intEvent d n h)

/-! ### What faultReport leaves -/

@[simp] theorem faultReport_now (d cause unit reporter detail : Nat) (h : Hub) :
    (faultReport d cause unit reporter detail h).now = h.now := now_of_rest (rest_faultReport d cause unit reporter detail h)
@[simp] theorem faultReport_accAt (d cause unit reporter detail : Nat) (h : Hub) :
    (faultReport d cause unit reporter detail h).accAt = h.accAt := accAt_of_rest (rest_faultReport d cause unit reporter detail h)
@[simp] theorem faultReport_freeIx (d cause unit reporter detail : Nat) (h : Hub) :
    (faultReport d cause unit reporter detail h).freeIx = h.freeIx := freeIx_of_rest (rest_faultReport d cause unit reporter detail h)
@[simp] theorem faultReport_pkg (d cause unit reporter detail : Nat) (h : Hub) :
    (faultReport d cause unit reporter detail h).pkg = h.pkg := pkg_of_rest (rest_faultReport d cause unit reporter detail h)
@[simp] theorem faultReport_remote (d cause unit reporter detail : Nat) (h : Hub) :
    (faultReport d cause unit reporter detail h).remote = h.remote := remote_of_rest (rest_faultReport d cause unit reporter detail h)
@[simp] theorem faultReport_jtag (d cause unit reporter detail : Nat) (h : Hub) :
    (faultReport d cause unit reporter detail h).jtag = h.jtag := jtag_of_rest (rest_faultReport d cause unit reporter detail h)
@[simp] theorem faultReport_chain (d cause unit reporter detail : Nat) (h : Hub) :
    (faultReport d cause unit reporter detail h).chain = h.chain := chain_of_rest (rest_faultReport d cause unit reporter detail h)
@[simp] theorem faultReport_dma (d cause unit reporter detail : Nat) (h : Hub) :
    (faultReport d cause unit reporter detail h).dma = h.dma := dma_of_rest (rest_faultReport d cause unit reporter detail h)
@[simp] theorem faultReport_regions (d cause unit reporter detail : Nat) (h : Hub) :
    (faultReport d cause unit reporter detail h).regions = h.regions := regions_of_rest (rest_faultReport d cause unit reporter detail h)
@[simp] theorem faultReport_atlas (d cause unit reporter detail : Nat) (h : Hub) :
    (faultReport d cause unit reporter detail h).atlas = h.atlas := atlas_of_rest (rest_faultReport d cause unit reporter detail h)
@[simp] theorem faultReport_gens (d cause unit reporter detail : Nat) (h : Hub) :
    (faultReport d cause unit reporter detail h).gens = h.gens := gens_of_rest (rest_faultReport d cause unit reporter detail h)
@[simp] theorem faultReport_freed (d cause unit reporter detail : Nat) (h : Hub) :
    (faultReport d cause unit reporter detail h).freed = h.freed := freed_of_rest (rest_faultReport d cause unit reporter detail h)
@[simp] theorem faultReport_shares (d cause unit reporter detail : Nat) (h : Hub) :
    (faultReport d cause unit reporter detail h).shares = h.shares := shares_of_rest (rest_faultReport d cause unit reporter detail h)
@[simp] theorem faultReport_layers (d cause unit reporter detail : Nat) (h : Hub) :
    (faultReport d cause unit reporter detail h).layers = h.layers := layers_of_rest (rest_faultReport d cause unit reporter detail h)
@[simp] theorem faultReport_banks (d cause unit reporter detail : Nat) (h : Hub) :
    (faultReport d cause unit reporter detail h).banks = h.banks := banks_of_rest (rest_faultReport d cause unit reporter detail h)
@[simp] theorem faultReport_luts (d cause unit reporter detail : Nat) (h : Hub) :
    (faultReport d cause unit reporter detail h).luts = h.luts := luts_of_rest (rest_faultReport d cause unit reporter detail h)
@[simp] theorem faultReport_progs (d cause unit reporter detail : Nat) (h : Hub) :
    (faultReport d cause unit reporter detail h).progs = h.progs := progs_of_rest (rest_faultReport d cause unit reporter detail h)
@[simp] theorem faultReport_txns (d cause unit reporter detail : Nat) (h : Hub) :
    (faultReport d cause unit reporter detail h).txns = h.txns := txns_of_rest (rest_faultReport d cause unit reporter detail h)
@[simp] theorem faultReport_txnGens (d cause unit reporter detail : Nat) (h : Hub) :
    (faultReport d cause unit reporter detail h).txnGens = h.txnGens := txnGens_of_rest (rest_faultReport d cause unit reporter detail h)
@[simp] theorem faultReport_armCount (d cause unit reporter detail : Nat) (h : Hub) :
    (faultReport d cause unit reporter detail h).armCount = h.armCount := armCount_of_rest (rest_faultReport d cause unit reporter detail h)
@[simp] theorem faultReport_valCount (d cause unit reporter detail : Nat) (h : Hub) :
    (faultReport d cause unit reporter detail h).valCount = h.valCount := valCount_of_rest (rest_faultReport d cause unit reporter detail h)
@[simp] theorem faultReport_tables (d cause unit reporter detail : Nat) (h : Hub) :
    (faultReport d cause unit reporter detail h).tables = h.tables := tables_of_rest (rest_faultReport d cause unit reporter detail h)
@[simp] theorem faultReport_tls (d cause unit reporter detail : Nat) (h : Hub) :
    (faultReport d cause unit reporter detail h).tls = h.tls := tls_of_rest (rest_faultReport d cause unit reporter detail h)
@[simp] theorem faultReport_tlGens (d cause unit reporter detail : Nat) (h : Hub) :
    (faultReport d cause unit reporter detail h).tlGens = h.tlGens := tlGens_of_rest (rest_faultReport d cause unit reporter detail h)
@[simp] theorem faultReport_tlFreed (d cause unit reporter detail : Nat) (h : Hub) :
    (faultReport d cause unit reporter detail h).tlFreed = h.tlFreed := tlFreed_of_rest (rest_faultReport d cause unit reporter detail h)
@[simp] theorem faultReport_outs (d cause unit reporter detail : Nat) (h : Hub) :
    (faultReport d cause unit reporter detail h).outs = h.outs := outs_of_rest (rest_faultReport d cause unit reporter detail h)
@[simp] theorem faultReport_modes (d cause unit reporter detail : Nat) (h : Hub) :
    (faultReport d cause unit reporter detail h).modes = h.modes := modes_of_rest (rest_faultReport d cause unit reporter detail h)
@[simp] theorem faultReport_ports (d cause unit reporter detail : Nat) (h : Hub) :
    (faultReport d cause unit reporter detail h).ports = h.ports := ports_of_rest (rest_faultReport d cause unit reporter detail h)
@[simp] theorem faultReport_engines (d cause unit reporter detail : Nat) (h : Hub) :
    (faultReport d cause unit reporter detail h).engines = h.engines := engines_of_rest (rest_faultReport d cause unit reporter detail h)

end Sys2Proof.Machine
end

