-- ==== Sys2Proof/Laws/HostMemory.lean ====
section
/-!
SUPPORT. Host memory as the hub writes it: bytes written are the bytes read, and bytes of other addresses are as they were.
-/

namespace Sys2Proof.Machine

/-- Host memory outside the bytes that a write addresses is as it was. -/
theorem hostPut_find_ne (f : Nat) (bs : Bytes) (a k : Nat) (t : Tab Byte)
    (hk : ∀ i, i < bs.length → k ≠ f * 2 ^ 64 + (a + i) % 2 ^ 64) : (hostPut f a bs t).find k = t.find k := by
  induction bs generalizing a t with
  | nil => rfl
  | cons b r ih =>
    simp only [hostPut]
    rw [ih (a + 1) _ (fun i hi => by
      rw [show a + 1 + i = a + (i + 1) by omega]
      exact hk (i + 1) (by simpa using hi))]
    exact Tab.find_set_ne t _ k b (by simpa using hk 0 (by simp))

/-- Bytes written to host memory are the bytes read. -/
theorem hostRead_hostPut (f : Nat) (bs : Bytes) (a : Nat) (h : Hub) (hl : bs.length ≤ 2 ^ 64) :
    hostRead f a { h with host := hostPut f a bs h.host } bs.length = bs.map some := by
  suffices hs : ∀ (bs : Bytes) (a : Nat) (t : Tab Byte) (g : Hub), bs.length ≤ 2 ^ 64 → g.host = hostPut f a bs t →
      hostRead f a g bs.length = bs.map some from hs bs a h.host _ hl rfl
  intro bs
  induction bs with
  | nil => intros; rfl
  | cons b r ih =>
    intro a t g hlen hg
    simp only [List.length_cons] at hlen
    simp only [List.length_cons, hostRead, List.map_cons]
    congr 1
    · rw [hg]
      simp only [hostPut]
      rw [hostPut_find_ne, Tab.find_set_same]
      intro i hi
      omega
    · exact ih (a + 1) (t.set (f * 2 ^ 64 + a % 2 ^ 64) b) g (by omega) hg

theorem leBytes_length (n v : Nat) : (leBytes n v).length = n := by
  induction n generalizing v with
  | zero => rfl
  | succ k ih => simp [leBytes, ih]

theorem entryBytes_length (st op tag sqHead cflags err r0 r1 time : Nat) :
    (entryBytes st op tag sqHead cflags err r0 r1 time).length = 32 := by
  simp [entryBytes, leBytes_length]

theorem hostRead_congr (f a n : Nat) (g h : Hub) (e : g.host = h.host) : hostRead f a g n = hostRead f a h n := by
  induction n generalizing a with
  | zero => rfl
  | succ k ih => simp [hostRead, e, ih]

/-! ### The entry that a context posts -/

theorem coalesce_ctx (c : Nat) (h : Hub) : ∃ a b, getCtx (coalesce c h) c = { getCtx h c with coal := a, coalAt := b } := by
  unfold coalesce
  simp only
  split
  · exact ⟨_, _, rfl⟩
  · split
    · rw [getCtx_msix, getCtx_setCtx]
      exact ⟨_, _, rfl⟩
    · rw [getCtx_setCtx]
      exact ⟨_, _, rfl⟩

theorem coalesce_host (c : Nat) (h : Hub) : (coalesce c h).host = h.host := by
  unfold coalesce
  simp only
  split
  · rfl
  · split <;> simp

theorem getCtx_ctxPut (c a : Nat) (bs : Bytes) (h : Hub) :
    ∃ l, getCtx (ctxPut c a bs h) c = { getCtx h c with last := l } := by
  unfold ctxPut
  exact ⟨_, getCtx_setCtx h c _⟩

@[simp] theorem markMessage_host (c : Nat) (b a : Hub) : (markMessage c b a).host = a.host := rfl

theorem getCtx_markMessage (c : Nat) (b a : Hub) : ∃ l, getCtx (markMessage c b a) c = { getCtx a c with last := l } := by
  unfold markMessage
  exact ⟨_, getCtx_updCtx a c _⟩

/-- Posting an entry: its 32 bytes are in the next slot, the tail has advanced, and the phase turns at the wrap. -/
theorem postEntry_spec (c st op tag sqHead cflags err r0 r1 time : Nat) (h : Hub) :
    hostRead (ctxFn h c) ((getCtx h c).cqBaseL.toNat + 32 * (getCtx h c).cqTail)
        (postEntry c st op tag sqHead cflags err r0 r1 time h) 32 =
      (entryBytes st op tag sqHead (b2n (getCtx h c).phase + cflags) err r0 r1 time).map some ∧
    ∃ a b l, getCtx (postEntry c st op tag sqHead cflags err r0 r1 time h) c =
      { getCtx h c with
        cqTail := ((getCtx h c).cqTail + 1) % cqSize (getCtx h c)
        phase := if ((getCtx h c).cqTail + 1) % cqSize (getCtx h c) = 0 then !(getCtx h c).phase else (getCtx h c).phase
        coal := a, coalAt := b, last := l } := by
  have hl := entryBytes_length st op tag sqHead (b2n (getCtx h c).phase + cflags) err r0 r1 time
  unfold postEntry
  simp only
  generalize entryBytes st op tag sqHead (b2n (getCtx h c).phase + cflags) err r0 r1 time = bs at hl ⊢
  constructor
  · have e := hostRead_hostPut (ctxFn h c) bs ((getCtx h c).cqBaseL.toNat + 32 * (getCtx h c).cqTail) h (by rw [hl]; decide)
    rw [hl] at e
    rw [← e]
    apply hostRead_congr
    rw [markMessage_host, coalesce_host, updCtx_host]
    simp only [ctxPut, hostWrite, setCtx_host]
  · obtain ⟨a, b, e⟩ := coalesce_ctx c (updCtx (ctxPut c ((getCtx h c).cqBaseL.toNat + 32 * (getCtx h c).cqTail) bs h) c fun x =>
      { x with cqTail := (x.cqTail + 1) % cqSize x, phase := if (x.cqTail + 1) % cqSize x = 0 then !x.phase else x.phase })
    obtain ⟨l, hw⟩ := getCtx_ctxPut c ((getCtx h c).cqBaseL.toNat + 32 * (getCtx h c).cqTail) bs h
    obtain ⟨l', hm⟩ := getCtx_markMessage c
      (updCtx (ctxPut c ((getCtx h c).cqBaseL.toNat + 32 * (getCtx h c).cqTail) bs h) c fun x =>
        { x with cqTail := (x.cqTail + 1) % cqSize x, phase := if (x.cqTail + 1) % cqSize x = 0 then !x.phase else x.phase })
      (coalesce c (updCtx (ctxPut c ((getCtx h c).cqBaseL.toNat + 32 * (getCtx h c).cqTail) bs h) c fun x =>
        { x with cqTail := (x.cqTail + 1) % cqSize x, phase := if (x.cqTail + 1) % cqSize x = 0 then !x.phase else x.phase }))
    refine ⟨a, b, l', hm.trans ?_⟩
    rw [e, getCtx_updCtx, hw]
    rfl

end Sys2Proof.Machine
end

