-- ==== Sys2Proof/Laws/Mail.lean ====
section
/-!
SUPPORT. What the run of a mailbox command can do: nothing, a refusal, or the command's execution; and the order of refusals.
-/

namespace Sys2Proof.Machine

/-! ### The failure to report -/

theorem firstFail_fold_some (bd ls : Bool) (l : List Ck) (b : Ck) :
    ∃ k, l.foldl (fun best k => match best with
      | none => some k
      | some b => if ranksBefore bd ls k b then some k else some b) (some b) = some k := by
  induction l generalizing b with
  | nil => exact ⟨b, rfl⟩
  | cons k t ih =>
    simp only [List.foldl_cons]
    split
    · exact ih k
    · exact ih b

/-- No failure is reported exactly where no check fails. -/
theorem firstFail_eq_none (listed : Bool) (l : List Ck) : firstFail listed l = none ↔ ∀ k ∈ l, k.bad = false := by
  constructor
  · intro h k hk
    cases hb : k.bad with
    | false => rfl
    | true =>
      exfalso
      have hm : k ∈ l.filter Ck.bad := List.mem_filter.mpr ⟨hk, hb⟩
      unfold firstFail at h
      simp only at h
      cases hl : l.filter Ck.bad with
      | nil => simp [hl] at hm
      | cons a t =>
        rw [hl] at h
        obtain ⟨k', hk'⟩ := firstFail_fold_some (severalDies l) listed t a
        exact absurd (hk'.symm.trans h) (by simp)
  · intro h
    have he : l.filter Ck.bad = [] := List.filter_eq_nil_iff.mpr fun k hk => by simp [h k hk]
    unfold firstFail
    simp [he]

theorem firstFail_fold_mem (bd ls : Bool) (l : List Ck) (b : Option Ck) (k : Ck)
    (h : l.foldl (fun best k => match best with
      | none => some k
      | some b => if ranksBefore bd ls k b then some k else some b) b = some k) : b = some k ∨ k ∈ l := by
  induction l generalizing b with
  | nil => exact Or.inl h
  | cons a t ih =>
    simp only [List.foldl_cons] at h
    rcases ih _ h with hb | hm
    · cases b with
      | none => exact Or.inr (by simp_all)
      | some b =>
        simp only at hb
        split at hb
        · exact Or.inr (by simp_all)
        · exact Or.inl hb
    · exact Or.inr (List.mem_cons_of_mem a hm)

/-- The failure that is reported is one of the checks, and fails. -/
theorem firstFail_mem (listed : Bool) (l : List Ck) (k : Ck) (h : firstFail listed l = some k) : k ∈ l ∧ k.bad = true := by
  unfold firstFail at h
  rcases firstFail_fold_mem _ _ _ _ _ h with hn | hm
  · exact absurd hn (by simp)
  · exact List.mem_filter.mp hm

/-! ### The run of a command -/

@[simp] theorem answer_okRes (p : Pend) (h : Hub) (r0 r1 : Nat) (ws : List MemWrite) :
    answer p (okRes h r0 r1 ws) = (completeOk p r0 r1 h, ws) := rfl
@[simp] theorem answer_failRes (p : Pend) (h : Hub) (st off r0 r1 : Nat) :
    answer p (failRes h st off r0 r1) = (complete p st off r0 r1 h, []) := rfl
@[simp] theorem answer_laterRes (p : Pend) (h : Hub) (ws : List MemWrite) : answer p (laterRes h ws) = (h, ws) := rfl

theorem getCtx_fetched (c : Nat) (h : Hub) : getCtx (fetched c h) c = fetchOne (getCtx h c) := getCtx_setCtx h c _

theorem pendOf_fetched (op : Nat) (c : Cmd) (h : Hub) :
    pendOf op c (fetchOne (getCtx h c.ctx)).sqHead (fetched c.ctx h) = taken op c h := by
  unfold pendOf taken
  rw [getCtx_fetched]
  rfl

/-- A command that the Keeper cannot take changes nothing. -/
theorem mail_waits (sp : Spec) (c : Cmd) (s : State)
    (hw : fetchable s.hub c.ctx = false ∨ sp.waits c s.hub = true ∨ heldOff sp c s.lp5x s.hub = true) : mail sp c s = s := by
  have : mailStep sp c s.lp5x s.hub = (s.hub, []) := by
    unfold mailStep
    rcases hw with h | h | h <;> simp [h]
  unfold mail act
  rw [this]
  rfl

theorem mailStep_fetches (sp : Spec) (c : Cmd) (s : State) (hf : Fetches sp c s) :
    mailStep sp c s.lp5x s.hub = orderCmd sp c (taken sp.op c s.hub) s.lp5x (fetched c.ctx s.hub) := by
  obtain ⟨h1, h2, h3, h4, h5⟩ := hf
  have hv : (partDies sp c s.lp5x (fetched c.ctx s.hub)).any (halted (fetched c.ctx s.hub)) = false := by
    simp only [List.any_eq_false]
    intro d hd
    simp [h5 d hd]
  have h6 : (isOrdered c.flags.toNat && decide ((getCtx s.hub c.ctx).resv > 0)) = false := by
    rcases h4 with h | h <;> simp [h]
  unfold mailStep
  simp only [h1, h2, h3, h6, Bool.not_true, Bool.or_self, Bool.false_eq_true, ↓reduceIte]
  unfold acceptCmd
  simp only [show stamp c.ctx (setCtx s.hub c.ctx (fetchOne (getCtx s.hub c.ctx))) = fetched c.ctx s.hub from rfl, hv, Bool.false_and,
    Bool.false_eq_true, ↓reduceIte, pendOf_fetched]

/-- A command that draws a refusal: its completion, and nothing else. -/
theorem mail_refused (sp : Spec) (c : Cmd) (s : State) (hf : Fetches sp c s) (k : Ck)
    (hk : firstFail sp.listed (refusals sp c s) = some k) :
    mail sp c s = onHub (fun h => complete (taken sp.op c h) k.st k.off k.r0 k.r1 (fetched c.ctx h)) s := by
  unfold mail act
  rw [mailStep_fetches sp c s hf]
  unfold orderCmd
  rw [show firstFail sp.listed (headChecks sp c (fetched c.ctx s.hub) ++ sp.checks c s.lp5x (fetched c.ctx s.hub)) = some k from hk]
  rfl

/-- A command that draws no refusal is executed. -/
theorem mail_accepts (sp : Spec) (c : Cmd) (s : State) (ha : Accepts sp c s) :
    mail sp c s = act (fun m h => answer (taken sp.op c h) (sp.run c (taken sp.op c h) m (fetched c.ctx h))) s := by
  have hn : firstFail sp.listed (headChecks sp c (fetched c.ctx s.hub) ++ sp.checks c s.lp5x (fetched c.ctx s.hub)) = none :=
    (firstFail_eq_none _ _).mpr ha.2
  unfold mail act
  rw [mailStep_fetches sp c s ha.1]
  unfold orderCmd answer
  rw [hn]
  try (cases hr : (sp.run c (taken sp.op c s.hub) s.lp5x (fetched c.ctx s.hub)).reply <;> simp only [hr])

end Sys2Proof.Machine
end

