-- ==== Sys2Proof/Laws/Memory.lean ====
section
/-!
SUPPORT. LP5X memory: every operation keeps the canonical form, a byte written is the byte read, and every other byte is as it was.
-/

namespace Sys2Proof.Machine

/-! ### The canonical form -/

theorem Memory.wfFrom_mono (lo lo' : Nat) (hl : lo' ≤ lo) (m : List Host.Cell) (hm : Memory.wfFrom lo m = true) :
    Memory.wfFrom lo' m = true := by
  cases m with
  | nil => rfl
  | cons e t =>
    obtain ⟨a, b⟩ := e
    simp only [Memory.wfFrom, Bool.and_eq_true, decide_eq_true_eq] at hm ⊢
    exact ⟨⟨by omega, hm.1.2⟩, hm.2⟩

theorem Memory.wfFrom_write (m : List Host.Cell) (lo a : Nat) (b : Byte) (hl : lo ≤ a) (hm : Memory.wfFrom lo m = true) :
    Memory.wfFrom lo (Memory.write m a b) = true := by
  induction m generalizing lo with
  | nil =>
    unfold Memory.write
    split
    · rfl
    · rename_i hb
      simp [Memory.wfFrom, hl, hb]
  | cons e t ih =>
    obtain ⟨k, c⟩ := e
    simp only [Memory.wfFrom, Bool.and_eq_true, decide_eq_true_eq] at hm
    obtain ⟨⟨hk, hc⟩, ht⟩ := hm
    unfold Memory.write
    split
    · simp only [Memory.wfFrom, Bool.and_eq_true, decide_eq_true_eq]
      exact ⟨⟨hk, hc⟩, ih (k + 1) (by omega) ht⟩
    · rename_i hka
      by_cases hb : b = lp5xDefault <;> by_cases he : k = a <;> simp only [hb, he, ↓reduceIte]
      · exact Memory.wfFrom_mono _ _ (by omega) t ht
      · simp only [Memory.wfFrom, Bool.and_eq_true, decide_eq_true_eq]
        exact ⟨⟨hk, hc⟩, ht⟩
      · subst he
        simp only [Memory.wfFrom, Bool.and_eq_true, decide_eq_true_eq]
        exact ⟨⟨hl, by simp [hb]⟩, ht⟩
      · simp only [Memory.wfFrom, Bool.and_eq_true, decide_eq_true_eq]
        exact ⟨⟨hl, by simp [hb]⟩, ⟨by omega, hc⟩, ht⟩

theorem Memory.wf_write (m : List Host.Cell) (a : Nat) (b : Byte) (hm : Memory.wf m = true) :
    Memory.wf (Memory.write m a b) = true := Memory.wfFrom_write m 0 a b (Nat.zero_le a) hm

theorem Memory.wf_writeBytes (bs : Bytes) (m : List Host.Cell) (a : Nat) (hm : Memory.wf m = true) :
    Memory.wf (Memory.writeBytes m a bs) = true := by
  induction bs generalizing m a with
  | nil => exact hm
  | cons b t ih => exact ih _ _ (Memory.wf_write m a b hm)

theorem Memory.wfFrom_filter (p : Host.Cell → Bool) (m : List Host.Cell) (lo : Nat) (hm : Memory.wfFrom lo m = true) :
    Memory.wfFrom lo (m.filter p) = true := by
  induction m generalizing lo with
  | nil => rfl
  | cons e t ih =>
    obtain ⟨k, c⟩ := e
    simp only [Memory.wfFrom, Bool.and_eq_true, decide_eq_true_eq] at hm
    obtain ⟨⟨hk, hc⟩, ht⟩ := hm
    by_cases hp : p (k, c) = true
    · rw [List.filter_cons_of_pos hp]
      simp only [Memory.wfFrom, Bool.and_eq_true, decide_eq_true_eq]
      exact ⟨⟨hk, hc⟩, ih (k + 1) ht⟩
    · rw [List.filter_cons_of_neg hp]
      exact ih lo (Memory.wfFrom_mono (k + 1) lo (by omega) t ht)

theorem Memory.wf_zero (m : List Host.Cell) (a n : Nat) (hm : Memory.wf m = true) : Memory.wf (Memory.zero m a n) = true :=
  Memory.wfFrom_filter _ m 0 hm

theorem Memory.wf_apply (m : List Host.Cell) (w : MemWrite) (hm : Memory.wf m = true) : Memory.wf (Memory.apply m w) = true := by
  cases w with
  | bytes a d => exact Memory.wf_writeBytes d m a hm
  | zeros a n => exact Memory.wf_zero m a n hm

theorem Memory.wf_foldl (ws : List MemWrite) (m : List Host.Cell) (hm : Memory.wf m = true) :
    Memory.wf (ws.foldl Memory.apply m) = true := by
  induction ws generalizing m with
  | nil => exact hm
  | cons w t ih => exact ih _ (Memory.wf_apply m w hm)

/-- An action keeps a sound machine sound, whatever it writes. -/
theorem act_sound (f : List Host.Cell → Hub → Eff) (s : State) (hs : s.Sound) : (act f s).Sound :=
  Memory.wf_foldl _ _ hs

theorem onHub_sound (f : Hub → Hub) (s : State) (hs : s.Sound) : (onHub f s).Sound := hs

/-! ### Read after write -/

theorem Memory.read_of_wfFrom (m : List Host.Cell) (lo a : Nat) (ha : a < lo) (hm : Memory.wfFrom lo m = true) :
    Memory.read m a = lp5xDefault := by
  cases m with
  | nil => rfl
  | cons e t =>
    obtain ⟨k, c⟩ := e
    simp only [Memory.wfFrom, Bool.and_eq_true, decide_eq_true_eq] at hm
    have h1 : k ≠ a := by omega
    have h2 : a < k := by omega
    simp [Memory.read, h1, h2]

theorem Memory.read_write_from (m : List Host.Cell) (lo a x : Nat) (b : Byte) (hm : Memory.wfFrom lo m = true) :
    Memory.read (Memory.write m a b) x = if x = a then b else Memory.read m x := by
  induction m generalizing lo with
  | nil =>
    by_cases hb : b = lp5xDefault
    · simp [Memory.write, Memory.read, hb]
    · by_cases hx : x = a
      · simp [Memory.write, Memory.read, hb, hx]
      · simp [Memory.write, Memory.read, hb, hx, Ne.symm hx]
  | cons e t ih =>
    obtain ⟨k, c⟩ := e
    simp only [Memory.wfFrom, Bool.and_eq_true, decide_eq_true_eq] at hm
    obtain ⟨⟨-, -⟩, ht⟩ := hm
    unfold Memory.write
    split
    · rename_i hka
      simp only [Memory.read, ih (k + 1) ht]
      by_cases hx : x = a
      · subst hx
        have h1 : k ≠ x := by omega
        have h2 : ¬ x < k := by omega
        simp [h1, h2]
      · simp [hx]
    · rename_i hka
      have past : ∀ y, y ≤ k → Memory.read t y = lp5xDefault := fun y hy => Memory.read_of_wfFrom t (k + 1) y (by omega) ht
      by_cases he : k = a
      · subst he
        by_cases hb : b = lp5xDefault
        · by_cases hx : x = k
          · subst hx
            simp [hb, past x (Nat.le_refl x)]
          · by_cases hlt : x < k
            · simp [hb, hx, Memory.read, Ne.symm hx, hlt, past x (by omega)]
            · simp [hb, hx, Memory.read, Ne.symm hx, hlt]
        · by_cases hx : x = k
          · simp [hb, hx, Memory.read]
          · simp [hb, hx, Memory.read, Ne.symm hx]
      · have hak : a < k := by omega
        by_cases hb : b = lp5xDefault
        · by_cases hx : x = a
          · subst hx
            simp [hb, he, Memory.read, hak]
          · simp [hb, he, hx]
        · by_cases hx : x = a
          · simp [hb, he, hx, Memory.read]
          · by_cases hlt : x < a
            · have h1 : k ≠ x := by omega
              have h2 : x < k := by omega
              simp [hb, he, hx, Memory.read, Ne.symm hx, hlt, h1, h2]
            · simp [hb, he, hx, Memory.read, Ne.symm hx, hlt]

/-- A byte written is the byte read, and every other byte is as it was. -/
theorem Memory.read_write (m : List Host.Cell) (a x : Nat) (b : Byte) (hm : Memory.wf m = true) :
    Memory.read (Memory.write m a b) x = if x = a then b else Memory.read m x := Memory.read_write_from m 0 a x b hm

/-- Bytes outside a write are as they were. -/
theorem Memory.read_writeBytes_out (bs : Bytes) (m : List Host.Cell) (a x : Nat) (hm : Memory.wf m = true)
    (hx : x < a ∨ a + bs.length ≤ x) : Memory.read (Memory.writeBytes m a bs) x = Memory.read m x := by
  induction bs generalizing m a with
  | nil => rfl
  | cons b t ih =>
    simp only [List.length_cons] at hx
    simp only [Memory.writeBytes]
    rw [ih _ _ (Memory.wf_write m a b hm) (by omega), Memory.read_write m a x b hm, if_neg (by omega)]

/-- Byte `i` of a write is what a read of its place gives. -/
theorem Memory.read_writeBytes_in (bs : Bytes) (m : List Host.Cell) (a i : Nat) (hm : Memory.wf m = true)
    (hi : i < bs.length) : Memory.read (Memory.writeBytes m a bs) (a + i) = bs[i] := by
  induction bs generalizing m a i with
  | nil => exact absurd hi (Nat.not_lt_zero i)
  | cons b t ih =>
    simp only [Memory.writeBytes]
    cases i with
    | zero =>
      rw [Memory.read_writeBytes_out t _ (a + 1) (a + 0) (Memory.wf_write m a b hm) (by omega), Memory.read_write m a _ b hm]
      simp
    | succ j =>
      have hj : j < t.length := by simpa using hi
      rw [show a + (j + 1) = a + 1 + j by omega, ih _ (a + 1) j (Memory.wf_write m a b hm) hj]
      simp

theorem Memory.read_filter (p : Host.Cell → Bool) (m : List Host.Cell) (lo x : Nat) (hm : Memory.wfFrom lo m = true)
    (hp : ∀ b, p (x, b) = true) : Memory.read (m.filter p) x = Memory.read m x := by
  induction m generalizing lo with
  | nil => rfl
  | cons e t ih =>
    obtain ⟨k, c⟩ := e
    simp only [Memory.wfFrom, Bool.and_eq_true, decide_eq_true_eq] at hm
    obtain ⟨⟨-, -⟩, ht⟩ := hm
    by_cases hk : k = x
    · subst hk
      rw [List.filter_cons_of_pos (hp c)]
      simp [Memory.read]
    · by_cases hpk : p (k, c) = true
      · rw [List.filter_cons_of_pos hpk]
        simp only [Memory.read, ih (k + 1) ht]
      · rw [List.filter_cons_of_neg hpk, ih (k + 1) ht]
        simp only [Memory.read, hk, ↓reduceIte]
        split
        · exact Memory.read_of_wfFrom t (k + 1) x (by omega) ht
        · rfl

/-- A range set to zero reads 0, and every byte outside it is as it was. -/
theorem Memory.read_zero_out (m : List Host.Cell) (a n x : Nat) (hm : Memory.wf m = true) (hx : x < a ∨ a + n ≤ x) :
    Memory.read (Memory.zero m a n) x = Memory.read m x :=
  Memory.read_filter _ m 0 x hm (fun b => by simp; omega)

theorem Memory.read_filter_in (p : Host.Cell → Bool) (m : List Host.Cell) (x : Nat) (hp : ∀ b, p (x, b) = false) :
    Memory.read (m.filter p) x = lp5xDefault := by
  induction m with
  | nil => rfl
  | cons e t ih =>
    obtain ⟨k, c⟩ := e
    by_cases hpk : p (k, c) = true
    · rw [List.filter_cons_of_pos hpk]
      have hk : k ≠ x := fun he => by rw [he, hp c] at hpk; exact Bool.noConfusion hpk
      simp only [Memory.read, hk, ↓reduceIte, ih]
      split <;> rfl
    · rw [List.filter_cons_of_neg hpk]
      exact ih

theorem Memory.read_zero_in (m : List Host.Cell) (a n x : Nat) (h1 : a ≤ x) (h2 : x < a + n) :
    Memory.read (Memory.zero m a n) x = lp5xDefault :=
  Memory.read_filter_in _ m x (fun b => by simp; omega)

/-- A byte that no write covers is as it was. -/
theorem Memory.read_apply_out (w : MemWrite) (m : List Host.Cell) (a : Nat) (hm : Memory.wf m = true) (hw : ¬ w.covers a) :
    Memory.read (Memory.apply m w) a = Memory.read m a := by
  cases w with
  | bytes b d => exact Memory.read_writeBytes_out d m b a hm (by simp only [MemWrite.covers] at hw; omega)
  | zeros b n => exact Memory.read_zero_out m b n a hm (by simp only [MemWrite.covers] at hw; omega)

theorem Memory.read_foldl_out (ws : List MemWrite) (m : List Host.Cell) (a : Nat) (hm : Memory.wf m = true)
    (hw : ∀ w ∈ ws, ¬ w.covers a) : Memory.read (ws.foldl Memory.apply m) a = Memory.read m a := by
  induction ws generalizing m with
  | nil => rfl
  | cons w t ih =>
    rw [List.foldl_cons, ih _ (Memory.wf_apply m w hm) fun v hv => hw v (List.mem_cons_of_mem w hv)]
    exact Memory.read_apply_out w m a hm (hw w List.mem_cons_self)

end Sys2Proof.Machine
end

