-- ==== Sys2Proof/WellFormed.lean ====
section
/-!
DEFINITION. Well-formed commands: every number that a row's operands carry names a thing that the manual numbers (contexts below
4096, functions below 128, die sites below 8, outputs below 32, and so on), and a mailbox command's block is no longer than 64 KiB
(02 R35), or than the 1 MiB of an image (19 R493).  The meanings do not ask whether their command is well formed: an
operand outside its range names nothing, so there is nothing that its command changes.
-/

namespace Sys2Proof

/-- A mailbox command: its context number and its block (01 R17, 02 R35). -/
def Cmd.wf (c : Cmd) : Bool := decide (c.ctx < 4096) && decide (c.block.length ≤ 65536)

/-- Is every operand inside the range that the manual gives it? -/
def Instr.wf : Instr → Bool
  | .dblSqTailWrite ctx fn _ => decide (ctx < 4096) && decide (fn < 128)
  | .dblCqHeadWrite ctx fn _ => decide (ctx < 4096) && decide (fn < 128)
  | .dblCtrlOpen ctx fn _ => decide (ctx < 4096) && decide (fn < 128)
  | .dblCtrlClose ctx fn _ => decide (ctx < 4096) && decide (fn < 128)
  | .dblRingConfigWrite ctx fn _ _ _ => decide (ctx < 4096) && decide (fn < 128)
  | .doorbellAccessRefused ctx fn _ _ => decide (ctx < 4096) && decide (fn < 128)
  | .functionLevelReset fn => decide (fn < 128)
  | .busMasterDisable fn _ => decide (fn < 128)
  | .ringAccessError ctx _ _ => decide (ctx < 4096)
  | .commandFetch ctx cmds => decide (ctx < 4096) && decide (cmds.length ≤ 8)
  | .orderedRelease ctx => decide (ctx < 4096)
  | .msixCoalesceTimeout ctx => decide (ctx < 4096)
  | .watchdogWarn ctx => decide (ctx < 4096)
  | .watchdogExpiry ctx => decide (ctx < 4096)
  | .teardownComplete ctx => decide (ctx < 4096)
  | .remotePartRequest ctx die _ => decide (ctx < 4096) && decide (die < 8)
  | .remotePartAnswer ctx die => decide (ctx < 4096) && decide (die < 8)
  | .remoteTimeout ctx => decide (ctx < 4096)
  | .nop c => c.wf
  | .ctxInfo c => c.wf
  | .sysInfo c => c.wf
  | .sysTime c => c.wf
  | .ctxWatchdog c => c.wf
  | .ctxEventMask c => c.wf
  | .ctxAssign c => c.wf
  | .ctxRevoke c => c.wf
  | .sysLock c => c.wf
  | .memAlloc c => c.wf
  | .memFree c => c.wf
  | .surfCreate c => c.wf
  | .surfDestroy c => c.wf
  | .surfGrant c => c.wf
  | .surfRevoke c => c.wf
  | .surfQuery c => c.wf
  | .shareSet c => c.wf
  | .shareJoin c => c.wf
  | .bar2Access fn _ _ _ _ _ => decide (fn < 128)
  | .atlasEntryFree index => decide (index < 65536)
  | .layerCreate c => c.wf
  | .layerDestroy c => c.wf
  | .layerGeom c => c.wf
  | .layerStyle c => c.wf
  | .layerQuery c => c.wf
  | .gratSet c => c.wf
  | .gratQuery c => c.wf
  | .engineSpares c => c.wf
  | .tileStart engine => decide (engine < 192)
  | .tileComplete engine => decide (engine < 192)
  | .vblankStart out => decide (out < 32)
  | .drainComplete out => decide (out < 32)
  | .latchInstant out => decide (out < 32)
  | .lineStart out => decide (out < 32)
  | .colourAlloc c => c.wf
  | .colourLoad c => c.wf
  | .colourFree c => c.wf
  | .layerColour c => c.wf
  | .layerMatrix c => c.wf
  | .outputColour c => c.wf
  | .outputLut c => c.wf
  | .progAlloc c => c.wf
  | .progLoad c => c.wf
  | .progFree c => c.wf
  | .layerProgram c => c.wf
  | .layerParams c => c.wf
  | .progQuery c => c.wf
  | .txnBegin c => c.wf
  | .txnCommit c => c.wf
  | .txnCancel c => c.wf
  | .txnQuery c => c.wf
  | .layerFence c => c.wf
  | .tlCreate c => c.wf
  | .tlSignal c => c.wf
  | .tlDestroy c => c.wf
  | .tlGrant c => c.wf
  | .tlQuery c => c.wf
  | .fenceTimeout txn => decide (txn < 2048)
  | .groupDecision out die => decide (out < 32) && decide (die < 8)
  | .outConfig c => c.wf
  | .outMode c => c.wf
  | .outBackground c => c.wf
  | .outWriteback c => c.wf
  | .outStatic c => c.wf
  | .outGroup c => c.wf
  | .outGenlock c => c.wf
  | .outQuery c => c.wf
  | .modeQuery c => c.wf
  | .modeWrite c => c.wf
  | .outputStopped out => decide (out < 32)
  | .modeStart out => decide (out < 32)
  | .writebackFrameDone out => decide (out < 32)
  | .stretchReopen out => decide (out < 32)
  | .psrEntry out => decide (out < 32)
  | .extVsyncEdge out => decide (out < 32)
  | .genlockFreewheel out => decide (out < 32)
  | .dimLayout c => c.wf
  | .dimAlgo c => c.wf
  | .dimTables c => c.wf
  | .dimQuery c => c.wf
  | .dimRead c => c.wf
  | .zonePacketTransmit out => decide (out < 32)
  | .chkGrant c => c.wf
  | .chkConfig c => c.wf
  | .chkExpect c => c.wf
  | .chkRead c => c.wf
  | .chkLane c => c.wf
  | .chkLaneCapture out ch => decide (out < 32) && decide (ch < 18)
  | .chkLanePreset out ch => decide (out < 32) && decide (ch < 16)
  | .checkResultFinal out _ => decide (out < 32)
  | .pltJob c => c.wf
  | .pltAbort c => c.wf
  | .pltQuery c => c.wf
  | .plotterJobStart die => decide (die < 8)
  | .plotterJobComplete die => decide (die < 8)
  | .pltWatermark die => decide (die < 8)
  | .plotterSliceResume die => decide (die < 8)
  | .dmaAlloc c => c.wf
  | .dmaFree c => c.wf
  | .dmaSubmit c => c.wf
  | .dmaAbort c => c.wf
  | .dmaQuery c => c.wf
  | .dmaDescriptorStart die ch => decide (die < 8) && decide (ch < 32)
  | .dmaDescriptorComplete die ch => decide (die < 8) && decide (ch < 32)
  | .dmaSliceResume die ch => decide (die < 8) && decide (ch < 32)
  | .dmaCtrlGo fn die ch _ => decide (fn < 128) && decide (die < 8) && decide (ch < 4)
  | .dmaCtrlAbort fn die ch _ => decide (fn < 128) && decide (die < 8) && decide (ch < 4)
  | .privDmaComplete die ch => decide (die < 8) && decide (ch < 4)
  | .privDmaRegisterWrite fn die ch _ _ _ => decide (fn < 128) && decide (die < 8) && decide (ch < 4)
  | .lnkConfig c => c.wf
  | .lnkQuery c => c.wf
  | .lnkEq c => c.wf
  | .lnkPower c => c.wf
  | .lnkLoopback c => c.wf
  | .loopbackEnd port _ _ _ => decide (port < 64)
  | .lnkCamera c => c.wf
  | .lnkI2c c => c.wf
  | .lnkAux c => c.wf
  | .lnkBacklight c => c.wf
  | .lnkDsiCmd c => c.wf
  | .laneBlockLock port lane => decide (port < 64) && decide (lane < 2)
  | .laneAdapted port lane foms dfes =>
    decide (port < 64) && decide (lane < 2) && decide (0 < foms.length) && decide (foms.length ≤ 16) && decide (dfes.length = foms.length)
  | .adaptTimeout port => decide (port < 64)
  | .partnerAdapted port _ => decide (port < 64)
  | .trainingTimeout port _ => decide (port < 64)
  | .signalDetect port lane => decide (port < 64) && decide (lane < 2)
  | .weakRetry port => decide (port < 64)
  | .aloneBurst port => decide (port < 64)
  | .linkLoss port reason => decide (port < 64) && decide (reason < 5)
  | .fomWindowEnd port lane _ _ _ => decide (port < 64) && decide (lane < 2)
  | .dozeEntry port => decide (port < 64)
  | .dozeExit port => decide (port < 64)
  | .dozeReceived port => decide (port < 64)
  | .loopRequest port => decide (port < 64)
  | .cameraVideoFrame port _ => decide (port < 64)
  | .cameraVideoLine port _ => decide (port < 64)
  | .cameraFrameComplete port => decide (port < 64)
  | .backStatus port _ => decide (port < 64)
  | .i2cReq port _ => decide (port < 64)
  | .i2cRsp port _ => decide (port < 64)
  | .timeRequestSend port => decide (port < 64)
  | .timeRequest port _ => decide (port < 64)
  | .timeReply port _ => decide (port < 64)
  | .dpHotPlug port _ _ _ _ => decide (port < 64)
  | .dpUnplug port => decide (port < 64)
  | .dpHpdIrq port _ _ => decide (port < 64)
  | .dpTrainingEnd port _ _ _ => decide (port < 64)
  | .enumReq port _ => decide (port < 64)
  | .enumReqRetry port => decide (port < 64)
  | .enumAck port _ => decide (port < 64)
  | .enumReject port _ => decide (port < 64)
  | .chainEnd port _ => decide (port < 64)
  | .chainEnumTimeout => true
  | .timeOfs port _ => decide (port < 64)
  | .bcast port _ => decide (port < 64)
  | .barrierAck port _ => decide (port < 64)
  | .pwrState c => c.wf
  | .pwrEntryCommit die => decide (die < 8)
  | .wakeEvent die _ => decide (die < 8)
  | .pwrExitComplete die => decide (die < 8)
  | .pwrLimits c => c.wf
  | .pwrFloor c => c.wf
  | .pwrQuery c => c.wf
  | .powerTick die => decide (die < 8)
  | .clockStepSwitch die => decide (die < 8)
  | .sensorConversion die sensor _ => decide (die < 8) && decide (sensor < 12)
  | .thermalShutdown die => decide (die < 8)
  | .analogueTrip die => decide (die < 8)
  | .idleEnter die => decide (die < 8)
  | .idleExit die => decide (die < 8)
  | .pllLock die pll => decide (die < 8) && decide (pll < 3)
  | .pllLockLoss die pll => decide (die < 8) && (decide (pll < 3) || (decide (16 ≤ pll) && decide (pll < 24) && decide (pll ≠ 19)))
  | .referenceMissing die pll => decide (die < 8) && decide (pll < 3)
  | .pllLockTimeout die pll => decide (die < 8) && decide (pll < 3)
  | .pllRelockRetry die pll => decide (die < 8) && decide (pll < 3)
  | .xtalLoss die => decide (die < 8)
  | .timebaseCorrection die => decide (die < 8)
  | .clkOutWrite fn die n _ => decide (fn < 128) && decide (die < 8) && decide (n < 2)
  | .pllRegisterWrite fn die pll _ _ => decide (fn < 128) && decide (die < 8) && decide (pll < 3)
  | .faultReport die _ _ _ _ => decide (die < 8)
  | .dieWindowClose die _ _ => decide (die < 8)
  | .faultDieRecord die _ _ => decide (die < 8)
  | .packageWindowClose _ _ => true
  | .heldRecordExpiry _ _ => true
  | .surveyTestStart die _ => decide (die < 8)
  | .surveyVerdict die _ _ => decide (die < 8)
  | .dieLoss die reason => decide (die < 8) && decide (reason < 8)
  | .fltRead c => c.wf
  | .srvTest c => c.wf
  | .srvQuery c => c.wf
  | .srvRestore c => c.wf
  | .porstNAssert => true
  | .porstNRelease => true
  | .dieReport die => decide (die < 8)
  | .packageReady => true
  | .kprResetPkg fn die _ => decide (fn < 128) && decide (die < 8)
  | .kprResetDie fn die _ => decide (fn < 128) && decide (die < 8)
  | .dieRejoin die => decide (die < 8)
  | .dieRejoinTimeout die => decide (die < 8)
  | .pcieHotReset die => decide (die < 8)
  | .pciePerst die _ => decide (die < 8)
  | .kprSnapArm fn die _ => decide (fn < 128) && decide (die < 8)
  | .snapshotInstant => true
  | .atcLoad c => (decide (c.ctx < 4096) && decide (c.block.length ≤ 1048576))
  | .atcFwStage c => (decide (c.ctx < 4096) && decide (c.block.length ≤ 1048576))
  | .atcFwSelect c => c.wf
  | .atcFwCommit c => c.wf
  | .atcQuery c => c.wf
  | .atcCtrlRead fn die _ => decide (fn < 128) && decide (die < 8)
  | .atcCtrlWrite fn die _ => decide (fn < 128) && decide (die < 8)
  | .atcRawDone die => decide (die < 8)
  | .atcLockWrite fn die _ => decide (fn < 128) && decide (die < 8)
  | .atcDbgChallenge fn die _ => decide (fn < 128) && decide (die < 8)
  | .atcDbgSubmit fn die _ => decide (fn < 128) && decide (die < 8)
  | .registerWrite fn off _ _ => decide (fn < 128) && (decide (off < 0x800000) || (decide (0x2000000 ≤ off) && decide (off < 0x3000000)))
  | .bitAliasWrite fn off _ _ => decide (fn < 128) && decide (0x800000 ≤ off) && decide (off < 0x1800000)
  | .intEnWrite fn die _ => decide (fn < 128) && decide (die < 8)
  | .intMsixMessage die => decide (die < 8)
  | .pmxPadWrite fn die pad _ => decide (fn < 128) && decide (die < 8) && decide (pad < 24)
  | .pmxFunctionChange die => decide (die < 8)
  | .supplyFault die _ => decide (die < 8)
  | .fbkRead c => c.wf
  | .fbkQuery c => c.wf
  | .fbkCtrlFlush fn die _ => decide (fn < 128) && decide (die < 8)
  | .fbkFlush die => decide (die < 8)
  | .jtagExtest _ => true
  | .jtagSamplePreload _ => true
  | .jtagIdcode _ => true
  | .jtagHighz _ => true
  | .jtagClamp _ => true
  | .jtagBypass _ => true
  | .jtagRegacc _ => true
  | .jtagKdebug die req _ _ => decide (die < 8) && decide (req < 7)
  | .keeperHaltTimeout die => decide (die < 8)
  | .loopRelease port => decide (port < 64)
  | .loopAnswer port _ => decide (port < 64)
  | .auxReply port _ => decide (port < 64)
  | .dsiReadResponse port _ => decide (port < 64)
  | .commandTimeout port => decide (port < 64)
  | .msixTableWrite fn vec _ => decide (fn < 128) && decide (vec < 64)
  | .resizableBarWrite fn size => decide (fn < 128) && decide (28 ≤ size) && decide (size ≤ 34)
  | .offWake => true
  | .videoOffRepeat port => decide (port < 64)

end Sys2Proof
end

