-- ==== Sys2Proof/Tests/Slice0.lean ====
section
/-!
SUPPORT. The model's own tests: for every statement with hypotheses a small state and operands that meet them (each clause at a value of
its range), an ill-formed command for each check of well-formedness, and single steps and figures with results from the manual's worked
examples.
-/

set_option Elab.async false

open Sys2Proof Sys2Proof.Machine
namespace Sys2Proof.Tests

/-- Argument bytes of a command: offset, size and value of each field. -/
def args (l : List (Nat × Nat × Nat)) : BitVec 384 :=
  BitVec.ofNat 384 (l.foldl (fun a e => a + e.2.2 % 2 ^ (8 * e.2.1) * 2 ^ (8 * (e.1 - 16))) 0)

/-- A command of context 0 with the given fields. -/
def cmd (l : List (Nat × Nat × Nat)) (txn : Nat := 0) (flags : Nat := 0) (block : Bytes := []) : Cmd :=
  { ctx := 0, flags := BitVec.ofNat 8 flags, layout := 1, tag := 7, txn := BitVec.ofNat 32 txn, rsvd := 0, args := args l, block := block }

/-- A ready die. -/
def die1 : Die := { kpr := { step := 9 } }

/-- An open integrator's context with one command in a ring of 256 entries. -/
def ctx1 : Ctx :=
  { state := .opened, level := 2, sqTail := 1, sqBase := 0x10000, cqBase := 0x20000, cfg := 0x88
    sqBaseL := 0x10000, cqBaseL := 0x20000, cfgL := 0x88 }

/-- The hub of two ready dies with that context. -/
def hub1 : Hub :=
  { now := 50000000, pkg := { part := 2, sites := 3, sitesUp := 3, phase := .ready }, dies := [(0, die1), (1, die1)]
    ctxs := [(0, ctx1)], fns := [(0, { enabled := true })] }

/-- The machine with that hub and nothing in memory. -/
def st (h : Hub) : State := { pending := [], lp5x := [], hub := h }

/-- Does the Keeper take the command and find nothing to refuse? -/
def accepts (sp : Spec) (c : Cmd) (s : State) : Bool :=
  fetchable s.hub c.ctx && !sp.waits c s.hub && !heldOff sp c s.lp5x s.hub &&
    (!isOrdered c.flags.toNat || (getCtx s.hub c.ctx).resv == 0) &&
    ((partDies sp c s.lp5x (fetched c.ctx s.hub)).all fun d => !halted (fetched c.ctx s.hub) d) &&
    (refusals sp c s).all fun k => !k.bad

theorem accepts_iff (sp : Spec) (c : Cmd) (s : State) : accepts sp c s = true ↔ Accepts sp c s := by
  simp only [accepts, Accepts, Fetches, Bool.and_eq_true, Bool.or_eq_true, Bool.not_eq_true', List.all_eq_true, beq_iff_eq, and_assoc]

/-! ### The core and the rings -/

/-- Hypotheses of `Obligations.StepRunsFront`. -/
theorem witness_StepRunsFront : ({ st hub1 with pending := [.porstNAssert, .powerTick 0] } : State).pending = .porstNAssert :: [.powerTick 0] := rfl

/-- Hypotheses of `Obligations.EveryStepAnswers`. -/
theorem witness_EveryStepAnswers : (st hub1).pending = [] := rfl

/-- Hypotheses of `Obligations.StepKeepsMemoryCanonical`. -/
theorem witness_StepKeepsMemoryCanonical : ({ st hub1 with pending := [.chainEnumTimeout], lp5x := [(5, 1)] } : State).Sound ∧
    ∃ t, Machine.step { st hub1 with pending := [.chainEnumTimeout], lp5x := [(5, 1)] } = .next t :=
  ⟨by unfold State.Sound; decide, _, rfl⟩

/-- Hypotheses of `Obligations.MemoryReadsWhatWasWritten`. -/
theorem witness_MemoryReadsWhatWasWritten : Memory.wf [(0, 1), (0x1FFFFFFFFF, 255)] = true ∧ (1 : Nat) ≤ 1 ∧ 1 < 1 + 1 := by decide

/-- Hypotheses of `Obligations.RingEntryIsRow`. -/
theorem witness_RingEntryIsRow : mailRow (.nop (cmd [])) = some (nopSpec, cmd []) ∧ mailRow (.fbkQuery (cmd [])) = some (fbkQuery, cmd []) :=
  ⟨rfl, rfl⟩

/-- Hypotheses of `Obligations.CommandWaitsInRing`. -/
theorem witness_CommandWaitsInRing : mailRow (.nop (cmd [])) = some (nopSpec, cmd []) ∧ ready State.reset.hub = false ∧
    dieUp { hub1 with pkg := { hub1.pkg with lost := 1 } } 0 = false ∧
    awake { hub1 with dies := [(0, { die1 with pwr := { state := .deep } })] } 0 = false ∧
    halted { hub1 with dies := [(0, { die1 with kdbg := { halted := some 5 } })] } 0 = true ∧
    (getCtx hub1 1).state ≠ .opened ∧ (getCtx { hub1 with ctxs := [(0, { ctx1 with sqHead := 1 })] } 0).sqHead = 1 ∧
    cqFree { ctx1 with cqTail := 255 } = false ∧ ({ ctx1 with held := some (cmdRaw 1 (cmd []), 1) } : Ctx).held.isSome = true ∧
    ({ hub1 with remote := [(0, { raw := cmdRaw 1 (cmd []), sqHead := 1, time := 0, dies := [1] })] } : Hub).remote.has 0 = true := by
  refine ⟨rfl, ?_⟩
  decide +kernel

/-- Hypotheses of `Obligations.RefusalChangesNothing`. -/
theorem witness_RefusalChangesNothing : mailRow (.ctxAssign (cmd [(16, 2, 0)])) = some (ctxAssign, cmd [(16, 2, 0)]) ∧
    Fetches ctxAssign (cmd [(16, 2, 0)]) (st hub1) ∧
    firstFail ctxAssign.listed (refusals ctxAssign (cmd [(16, 2, 0)]) (st hub1)) = some (ckd 0 0x040B 16 true) := by
  refine ⟨rfl, ?_⟩
  unfold Fetches
  decide +kernel

/-- Hypotheses of `Obligations.RefusalRanksFirst`. -/
theorem witness_RefusalRanksFirst : firstFail false [ck 0x0301 0 true, ck 0x0201 20 true, ck 0x0105 16 false] = some (ck 0x0201 20 true) ∧
    firstFail true ([] : List Ck) = none := by decide +kernel

/-- The same context at level 0, and under SYS_LOCK. -/
def hubLow : Hub := { hub1 with ctxs := [(0, { ctx1 with level := 0 })] }
def hubLocked : Hub := { hub1 with pkg := { hub1.pkg with lock := true } }

/-- Hypotheses of `Obligations.PrivilegeIsChecked`. -/
theorem witness_PrivilegeIsChecked : mailRow (.sysLock (cmd [(16, 4, 0x4C4F434B)])) = some (sysLock, cmd [(16, 4, 0x4C4F434B)]) ∧
    levelOf (fetched 0 (st hubLow).hub) 0 < sysLock.level ∧ Fetches sysLock (cmd [(16, 4, 0x4C4F434B)]) (st hubLow) ∧
    ∀ k ∈ refusals sysLock (cmd [(16, 4, 0x4C4F434B)]) (st hubLow), k.bad = true → famRank k.st ≥ 3 := by
  refine ⟨rfl, ?_⟩
  unfold Fetches
  decide +kernel

/-- Hypotheses of `Obligations.LockRefusesIntegrator`. -/
theorem witness_LockRefusesIntegrator : mailRow (.sysLock (cmd [(16, 4, 0x4C4F434B)])) = some (sysLock, cmd [(16, 4, 0x4C4F434B)]) ∧ sysLock.locks = true ∧
    (st hubLocked).hub.pkg.lock = true ∧ Fetches sysLock (cmd [(16, 4, 0x4C4F434B)]) (st hubLocked) ∧ sysLock.level ≤ levelOf (fetched 0 (st hubLocked).hub) 0 ∧
    ∀ k ∈ refusals sysLock (cmd [(16, 4, 0x4C4F434B)]) (st hubLocked), k.bad = true → famRank k.st ≥ 3 := by
  refine ⟨rfl, ?_⟩
  unfold Fetches
  decide +kernel

/-- Hypotheses of `Obligations.NopAndSysTime`. -/
theorem witness_NopAndSysTime : Accepts nopSpec (cmd [(16, 8, 2 ^ 64 - 1)]) (st hub1) ∧ Accepts sysTime (cmd []) (st hub1) ∧
    Fetches nopSpec (cmd [(63, 1, 1)]) (st hub1) ∧ argN (cmd [(63, 1, 1)]) 24 40 ≠ 0 ∧ Fetches sysTime (cmd [(16, 1, 1)]) (st hub1) ∧
    argN (cmd [(16, 1, 1)]) 16 48 ≠ 0 ∧ bits (cmd [(16, 1, 1)]).flags.toNat 3 5 = 0 ∧ isIndirect (cmd [(16, 1, 1)]).flags.toNat = false ∧
    (cmd [(16, 1, 1)]).layout = 1 ∧ (cmd [(16, 1, 1)]).txn = 0 ∧ (cmd [(16, 1, 1)]).rsvd = 0 ∧
    (hub1.accAt.1 = hub1.now → hub1.accAt.2 ≤ (cmd []).ctx) := by
  simp only [← accepts_iff]
  unfold Fetches
  decide +kernel

/-- A second context of the integrator's function. -/
def hubTwo (x : Ctx) : Hub := { hub1 with ctxs := [(0, ctx1), (1, x)] }

/-- Hypotheses of `Obligations.ContextCommands`. -/
theorem witness_ContextCommands : Accepts ctxInfo (cmd []) (st hub1) ∧ Accepts sysInfo (cmd [(16, 8, 0x40000), (24, 4, 64)]) (st hub1) ∧
    Accepts ctxWatchdog (cmd [(16, 4, 100)]) (st hub1) ∧ Accepts ctxEventMask (cmd [(16, 2, 0x3FFE)]) (st hub1) ∧
    Accepts ctxAssign (cmd [(16, 2, 511), (18, 1, 0), (19, 1, 1)]) (st hub1) ∧ Accepts sysLock (cmd [(16, 4, 0x4C4F434B)]) (st hub1) ∧
    Accepts ctxRevoke (cmd [(16, 2, 1)]) (st (hubTwo { state := .closed })) ∧
    (getCtx (fetched 0 (hubTwo { state := .closed })) 1).state ≠ .opened ∧
    Accepts ctxRevoke (cmd [(16, 2, 1)]) (st (hubTwo { ctx1 with level := 0 })) ∧
    (getCtx (fetched 0 (hubTwo { ctx1 with level := 0 })) 1).state = .opened := by
  simp only [← accepts_iff]
  decide +kernel

/-- Hypotheses of `Obligations.IndexWritesAreGuarded`. -/
theorem witness_IndexWritesAreGuarded : PageTakes hub1 0 0 0 ∧ PageTakes hub1 0 0 8 := by unfold PageTakes; decide +kernel

/-- A closed context with ring sizes, bases and vector. -/
def ctx2 (cfg : BitVec 32) (a b : BitVec 64) : Ctx := { state := .closed, level := 2, sqBase := a, cqBase := b, cfg := cfg }
def hubClosed (cfg : BitVec 32) (a b : BitVec 64) (master : Bool) : Hub :=
  { hub1 with ctxs := [(0, ctx2 cfg a b)], fns := [(0, { enabled := true, master := master, msixSize := 8 })] }

/-- The conditions of the reasons of an OPEN, as the statement names them. -/
def openCase (cfg : BitVec 32) (a b : BitVec 64) (master : Bool) : List Bool :=
  let sq := bits cfg.toNat 0 4
  let cq := bits cfg.toNat 4 4
  [decide (4 ≤ sq ∧ sq ≤ 12 ∧ 4 ≤ cq ∧ cq ≤ 12),
   decide (a.toNat = 0 ∨ b.toNat = 0 ∨ (a.toNat < b.toNat + 32 * 2 ^ cq ∧ b.toNat < a.toNat + 64 * 2 ^ sq)),
   decide (bit cfg.toNat 14 = true ∧ (getFn (hubClosed cfg a b master) 0).msixSize ≤ bits cfg.toNat 8 6), master]

/-- Hypotheses of `Obligations.OpenChecksRings`. -/
theorem witness_OpenChecksRings : PageTakes (hubClosed 0x88 0x10000 0x20000 true) 0 0 0x38 ∧ (1 : BitVec 32).toNat.testBit 0 = true ∧
    (1 : BitVec 32).toNat.testBit 1 = false ∧ (getCtx (hubClosed 0x88 0x10000 0x20000 true) 0).state = .closed ∧
    openCase 0x83 0x10000 0x20000 true = [false, false, false, true] ∧ openCase 0x8D 0x10000 0x20000 true = [false, true, false, true] ∧
    openCase 0x88 0x10000 0x13FFF true = [true, true, false, true] ∧ openCase 0x4844 0x10000 0x10400 true = [true, false, true, true] ∧
    openCase 0x4744 0x10000 0x10400 false = [true, false, false, false] ∧ openCase 0x47CC 0x10000 0x50000 true = [true, false, false, true] := by
  unfold PageTakes
  decide +kernel

/-- A completion that the open context may post. -/
def pend1 : Pend := { ctx := 0, epoch := 0, opcode := 1, tag := 7, sqHead := 1, flags := 0, time := 5 }

/-- Hypotheses of `Obligations.CompletionEntryIsPosted`. -/
theorem witness_CompletionEntryIsPosted : (getCtx hub1 pend1.ctx).epoch = pend1.epoch ∧ mayPost (getCtx hub1 0) = true ∧
    ¬ (isQuiet pend1.flags = true ∧ 0 = 0) ∧ isQuiet 4 = true ∧ mayPost (getCtx hub1 1) = false := by decide +kernel

/-- Hypotheses of `Obligations.EventIsDeliveredOrCounted`. -/
theorem witness_EventIsDeliveredOrCounted : (getCtx hub1 1).state ≠ .opened ∧ (getCtx hub1 0).state = .opened ∧
    ¬ (bit ({ ctx1 with evMask := 1 } : Ctx).evMask (0x0480 / 256) = true ∨ 0x0480 / 256 = 0) ∧ bit ctx1.evMask (0x0480 / 256) = true ∧
    cqFree ctx1 = true ∧ cqFree { ctx1 with cqTail := 255 } = false := by decide +kernel

/-- Hypotheses of `Obligations.RingConfigAndForeignAccess`. -/
theorem witness_RingConfigAndForeignAccess : PageTakes hub1 0 0 0x30 ∧ accessOk 0x30 4 = true ∧ (getCtx hub1 0).state = .opened ∧
    PageTakes (hubClosed 0 0 0 true) 0 0 0x24 ∧ accessOk 0x24 4 = true ∧ (getCtx (hubClosed 0 0 0 true) 0).state = .closed ∧
    PageTakes (hubClosed 0 0 0 true) 0 0 0x28 ∧ accessOk 0x28 8 = true ∧ PageTakes (hubClosed 0 0 0 true) 0 0 0x30 ∧
    ready hub1 = true ∧ (getFn hub1 0).enabled = true ∧ bit hub1.pkg.perst (0 / 16) = false ∧ pageOffset 0 1 4 = some 0x02001004 ∧
    pageAnswers hub1 0 1 = false ∧ pageAnswers hub1 0 0 = true ∧ asleep hub1 (homeDie 0) = false := by
  unfold PageTakes
  decide +kernel

/-- Hypotheses of `Obligations.ContextsEndAndReopen`. -/
theorem witness_ContextsEndAndReopen : PageTakes hub1 0 0 0x38 ∧ (2 : BitVec 32).toNat.testBit 1 = true ∧ (getCtx hub1 0).state = .opened ∧
    PageTakes (hubTwo { state := .faulted }) 0 1 0x38 ∧ (getCtx (hubTwo { state := .faulted }) 1).ending = false ∧ hub1.remote.has 0 = false ∧
    portEarly { hub1 with pkg := { hub1.pkg with phase := .starting } } 0 = true ∧ portEarly hub1 0 = false ∧ cfgTakes hub1 0 = true ∧
    portEarly hub1 128 = false ∧ cfgTakes hub1 128 = false ∧ openOf hub1 0 = [0] ∧ privChans hub1 ≠ [] ∧ PageTakes (hubClosed 0 0 0 true) 0 0 0x38 ∧ integratorFn hub1 = 0 ∧
    0 < (getCtx (hubTwo { ctx1 with wdog := 100 }) 1).wdog ∧ (getCtx (hubTwo { state := .closing, tear := some ⟨true, none⟩ }) 1).tear = some ⟨true, none⟩ ∧
    (getCtx (hubTwo { state := .closing, tear := some ⟨false, some pend1⟩ }) 1).state = .closing := by
  unfold PageTakes
  decide +kernel

/-- Hypotheses of `Obligations.ContextTimers`. -/
theorem witness_ContextTimers : mayPost { ctx1 with cfgL := 0x01004088, coal := 3 } = true ∧ bit 0x01004088 14 = true ∧ (0 : Nat) < 3 ∧
    0 < bits 0x01004088 24 8 ∧ (getCtx (hubTwo { ctx1 with wdog := 1 }) 1).state = .opened ∧
    (getCtx (hubTwo { ctx1 with wdog := 1 }) 1).warned = false := by decide +kernel

/-- A command of context 0 whose part is with die 1. -/
def part1 : Remote := { raw := cmdRaw 0x0800 (cmd [(16, 1, 1), (17, 1, 4), (18, 2, 64), (24, 8, 0x60000)]), sqHead := 1, time := 0, dies := [1] }
def hubPart (r : Remote) : Hub := { hub1 with remote := [(0, r)] }
def hubHeld : Hub := { hub1 with ctxs := [(0, { ctx1 with sqHead := 1, resv := 1, held := some (cmdRaw 1 (cmd []), 1) })] }
def mine1 (h : Hub) : List Ck :=
  ((specOf (rawOpcode part1.raw)).checks (rawCmd 0 part1.raw) [] h).filter fun k => k.die == some 1

/-- Hypotheses of `Obligations.FetchOrderAndParts`. -/
theorem witness_FetchOrderAndParts : Accepts (specOf (rawOpcode (cmdRaw 1 (cmd [])))) (rawCmd 0 (cmdRaw 1 (cmd []))) (st hub1) ∧
    (getCtx hubHeld 0).held = some (cmdRaw 1 (cmd []), 1) ∧ (getCtx hubHeld 0).resv = 1 ∧ heldOff nopSpec (cmd []) [] hubHeld = false ∧
    (∀ k ∈ headChecks nopSpec (cmd []) hubHeld ++ nopSpec.checks (cmd []) [] hubHeld, k.bad = false) ∧
    (hubPart part1).remote.find 0 = some part1 ∧ answered part1 1 = false ∧ dieUp (hubPart part1) 1 = true ∧ halted (hubPart part1) 1 = false ∧
    firstFail false (mine1 (hubPart part1)) = none ∧
    firstFail false (mine1 { hubPart part1 with dies := [(0, die1), (1, { die1 with pwr := { state := .deep } })] }) ≠ none ∧
    answered { part1 with passed := [1] } 1 = true ∧ part1.heard.contains 1 = false ∧
    rawOpcode (cmdRaw 1 (cmd [])) = 1 ∧ rawOpcode (cmdRaw 4 (cmd [])) = 4 ∧
    partDies (specOf (rawOpcode part1.raw)) (rawCmd 0 part1.raw) [] hub1 = [1] ∧ firstFail false (headChecks (specOf (rawOpcode part1.raw)) (rawCmd 0 part1.raw) hub1) = none ∧
    fetchable hub1 0 = true ∧ isOrdered (rawCmd 0 part1.raw).flags.toNat = false ∧ hub1.remote.has 0 = false ∧
    (getCtx (hubPart { part1 with refused := [(1, 0x0403, 17, 0, 0)] }) 0).ending = false ∧
    (let g : Hub := { hubPart part1 with remote := [], dies := [(0, die1), (1, { die1 with pwr := { state := .deep } })] }
     (headChecks (specOf (rawOpcode part1.raw)) (rawCmd 0 part1.raw) g ++ (specOf (rawOpcode part1.raw)).checks (rawCmd 0 part1.raw) [] g).all fun k =>
       !k.bad || k.die == some 1) = true ∧
    ({ part1 with dies := [1, 2] }).dies.all [1].contains = false ∧ part1.dies.all [1].contains = true := by
  simp only [← accepts_iff]
  decide +kernel

/-- A small mode: 64 by 64 pixels. -/
def mode1 : ModeEntry :=
  { num := 0, flags := 0x2B, hActive := 64, hFront := 16, hSync := 16, hBack := 32, vActive := 64, vFront := 100, vSync := 100
    vBack := 136, pllN := 112, pllP := 255, vTotalMax := 0 }

/-- A surface of 64 by 32 pixels in region 0. -/
def surf1 : Surf :=
  { retiring := false, gen := 1, fmt := 1, width := 64, height := 32, region := 0, budget := 0, planes := [(0, 256), (0, 0), (0, 0)]
    owner := 0, grants := [] }

/-- A running output of the integrator. -/
def out1 : Output :=
  { state := .running, port := 0, owner := some 0, mode := some mode1, frameCount := 5, pll := 0
    scan := some { s0 := 40000000, drained := true, line := 3, drainAt := 40000000 }, frame := some { num := 5 } }

/-- The hub with one of each object of the integrator's context. -/
def hub2 : Hub :=
  { hub1 with
    regions := [(0, { owner := 0, granules := [0], fn := 0, win := 0, group := 0 })], atlas := [(5, surf1)], gens := [(5, 1)]
    layers := [(0, { out := 0 }), (1, { out := 0 })], txns := [(0, { owner := 0, indep := false, events := false, timeoutMs := 0 })]
    txnGens := [(0, 1)], tls := [(0, { owner := 0, value := 5, gen := 1 })]
    dma := [(4, { owner := 0, group := 0, cqLog := 4, rate := 64, tl := 0, base := 0x60000 })]
    outs := [(0, out1)], ports := [(0, { kind := 2, state := .up, camOwner := 0 })], modes := [(0, mode1)]
    banks := [(0, { owner := 0, group := 0, horiz := [], vert := [] })]
    luts := [(0, { owner := 0, group := 0, lut := { domain := 0, red := [], green := [], blue := [] } })]
    progs := [(0, { owner := 0, group := 0, words := [0xF0000000] })] }

/-! ### Surfaces, layers and transactions -/

/-- The handle of the open transaction. -/
def tx : Nat := 0x10000

/-- The same hub with a second context. -/
def hub3 : Hub := { hub2 with ctxs := [(0, ctx1), (1, { ctx1 with level := 0 })] }

/-- A surface that two contexts use, and one that nobody uses any more. -/
def hubShared (r : Nat) : Hub := { hub3 with atlas := [(5, { surf1 with grants := [(1, r)] })] }
def hubRetired (dead : Bool) : Hub :=
  { hub3 with
    atlas := [(5, { surf1 with retiring := true })], regions := [(0, { owner := 1, granules := [0], fn := 0, win := 0, group := 0, dead := dead })] }

/-- Hypotheses of `Obligations.RegionsAreAllocatedAndFreed`. -/
theorem witness_RegionsAreAllocatedAndFreed : Accepts memAlloc (cmd [(16, 1, 1), (18, 2, 1)]) (st hub2) ∧
    Accepts memFree (cmd [(16, 2, 0)]) (st { hub2 with atlas := [] }) := by
  simp only [← accepts_iff]
  decide +kernel

/-- Hypotheses of `Obligations.SurfacesAndShares`. -/
theorem witness_SurfacesAndShares :
    Accepts surfCreate (cmd [(16, 2, 0), (18, 2, 1), (20, 2, 64), (22, 2, 32), (28, 4, 0), (32, 4, 256)]) (st hub2) ∧
    Accepts surfQuery (cmd [(16, 4, 0x10005), (24, 8, 0x40000)]) (st hub2) ∧
    Accepts shareSetCmd (cmd [(16, 1, 31), (17, 1, 0), (18, 2, 256), (20, 2, 256), (22, 1, 16), (24, 4, 1024)]) (st hub2) ∧
    Accepts shareJoin (cmd [(16, 2, 0), (18, 1, 31)]) (st hub1) := by
  simp only [← accepts_iff]
  decide +kernel

/-- Hypotheses of `Obligations.RightsOnSurfaces`. -/
theorem witness_RightsOnSurfaces : Accepts surfGrant (cmd [(16, 4, 0x10005), (20, 2, 1), (22, 1, 3)]) (st hub3) ∧
    Accepts surfGrant (cmd [(16, 4, 0x10005), (20, 2, 1), (22, 1, 1)]) (st (hubShared 3)) ∧
    Accepts surfRevoke (cmd [(16, 4, 0x10005), (20, 2, 1), (22, 1, 3)]) (st (hubShared 3)) ∧
    Accepts surfRevoke (cmd [(16, 4, 0x10005), (20, 2, 1), (22, 1, 2)]) (st (hubShared 1)) ∧
    Accepts surfDestroy (cmd [(16, 4, 0x10005)]) (st (hubShared 3)) ∧ (hubRetired true).atlas.find 5 = some { surf1 with retiring := true } ∧
    frameReads (hubRetired true) 0x10005 = false ∧ workUses (hubRetired true) 0x10005 = false ∧
    regionUsed { hubRetired true with atlas := [] } 0 = false := by
  simp only [← accepts_iff]
  decide +kernel

/-- A function whose window maps the region, with its granule in the lowest place of BAR2. -/
def hubMapped : Hub := { hub2 with fns := [(0, { enabled := true, win := [(0, (0, 0))] })] }

/-- Hypotheses of `Obligations.Bar2GoesThroughWindowTable`. -/
theorem witness_Bar2GoesThroughWindowTable : ready hubMapped = true ∧ (getFn hubMapped 0).enabled = true ∧
    portEarly hubMapped 0 = false ∧ (getDie hubMapped (0 / 16)).rbuf = [] ∧
    (bar2Addr hubMapped 0 (2 ^ 20 - 1)).isSome = true ∧ bar2Addr hubMapped 0 (2 ^ 28) = none ∧
    bar2Addr hubMapped 0 (0 + 5) ≠ bar2Addr hubMapped 0 0 := by decide +kernel

/-- Hypotheses of `Obligations.StagedLayerRecords`. -/
theorem witness_StagedLayerRecords :
    Accepts layerGeom (cmd [(16, 2, 0), (18, 1, 1), (20, 4, 0x10005), (28, 2, 64), (30, 2, 32), (36, 2, 64), (38, 2, 32), (40, 1, 63)] tx) (st hub2) ∧
    Accepts layerStyle (cmd [(16, 2, 1)] tx) (st hub2) ∧ Accepts layerColour (cmd [(16, 2, 0), (20, 1, 255), (22, 1, 255), (23, 1, 255)] tx) (st hub2) ∧
    Accepts layerMatrix (cmd [(16, 2, 0), (18, 1, 1)] tx) (st hub2) ∧ Accepts layerMatrix (cmd [(16, 2, 0), (18, 1, 2)] tx) (st hub2) ∧
    Accepts layerMatrix (cmd [(16, 2, 0), (18, 1, 3)] tx) (st hub2) ∧ Accepts layerProgram (cmd [(16, 2, 0), (18, 2, 0xFFFF)] tx) (st hub2) ∧
    Accepts layerParams (cmd [(16, 2, 0), (18, 1, 0)] tx) (st hub2) ∧ Accepts layerParams (cmd [(16, 2, 0), (18, 1, 4)] tx) (st hub2) ∧
    Accepts layerFence (cmd [(16, 2, 0), (20, 4, 0x10000), (24, 8, 9)] tx) (st hub2) ∧ Accepts layerFence (cmd [(16, 2, 0)] tx) (st hub2) := by
  simp only [← accepts_iff]
  decide +kernel

/-- Hypotheses of `Obligations.StagedOutputRecords`. -/
theorem witness_StagedOutputRecords : Accepts gratSet (cmd [(16, 1, 0), (17, 1, 32)] tx) (st hub2) ∧
    Accepts engineSpares (cmd [(16, 1, 0), (17, 1, 3)] tx) (st hub2) ∧ Accepts outputColour (cmd [(16, 1, 0)] tx) (st hub2) ∧
    Accepts outputLut (cmd [(16, 8, 0x70000), (24, 4, 24598)] tx 2) (st hub2) ∧
    Accepts outMode (cmd [(16, 1, 0), (17, 1, 0), (18, 1, 8)] tx) (st hub2) ∧
    Accepts outBackground (cmd [(16, 1, 0), (24, 8, 0x4000000000000000)] tx) (st hub2) ∧ Accepts outWriteback (cmd [(16, 1, 0)] tx) (st hub2) ∧
    Accepts outStatic (cmd [(16, 1, 0)] tx) (st hub2) ∧ Accepts dimLayoutCmd (cmd [(16, 1, 0)] tx) (st hub2) ∧
    Accepts dimAlgoCmd (cmd [(16, 1, 0), (20, 2, 0x8000), (22, 2, 1), (26, 2, 4095), (28, 2, 4095), (30, 2, 0x4000)] tx) (st hub2) ∧
    Accepts dimTablesCmd (cmd [(16, 8, 0x70000), (24, 4, 2532)] tx 2 (List.replicate 2210 0 ++ 1 :: List.replicate 321 0)) (st hub2) ∧
    Accepts pwrFloor (cmd [(16, 1, 0), (17, 1, 1)] tx) (st hub2) := by
  simp only [← accepts_iff]
  decide +kernel

/-- Hypotheses of `Obligations.LayersAreCreatedAndQueried`. -/
theorem witness_LayersAreCreatedAndQueried : Accepts layerCreate (cmd [(16, 1, 0)]) (st hub2) ∧ Accepts layerDestroy (cmd [(16, 2, 1)]) (st hub2) ∧
    Accepts layerQuery (cmd [(16, 2, 1), (24, 8, 0x40000)]) (st hub2) ∧ Accepts gratQuery (cmd [(16, 1, 0), (24, 8, 0x40000)]) (st hub2) ∧
    (getOut (fetched 0 hub2) 0).mode = some mode1 := by
  simp only [← accepts_iff]
  decide +kernel

/-- Hypotheses of `Obligations.ColourAndProgramObjects`. -/
theorem witness_ColourAndProgramObjects : Accepts colourAlloc (cmd [(16, 1, 1), (17, 1, 1)]) (st hub2) ∧
    Accepts colourAlloc (cmd [(16, 1, 2), (17, 1, 0)]) (st hub2) ∧
    Accepts colourLoad (cmd [(16, 8, 0x70000), (24, 4, 2048), (32, 1, 1)] 0 2 (List.replicate 128 (0 :: 16 :: List.replicate 14 0)).flatten) (st hub2) ∧
    Accepts colourLoad (cmd [(16, 8, 0x70000), (24, 4, 6166), (32, 1, 2)] 0 2) (st hub2) ∧ Accepts colourFree (cmd [(16, 1, 1)]) (st hub2) ∧
    Accepts colourFree (cmd [(16, 1, 2)]) (st hub2) ∧ Accepts progAlloc (cmd [(16, 1, 0)]) (st hub2) ∧
    Accepts progLoad (cmd [(16, 8, 0x70000), (24, 4, 272)] 0 2 (1 :: List.replicate 15 0 ++ [0, 0, 0, 0xF0])) (st hub2) ∧
    Accepts progFree (cmd [(16, 1, 0)]) (st hub2) ∧ Accepts progQuery (cmd [(16, 1, 0)]) (st hub2) := by
  simp only [← accepts_iff]
  decide +kernel

/-- The output's state in the hub. -/
def hubOut (x : Output) : Hub := { hub2 with outs := [(0, x)] }

/-- A scan at a line, at the opening of the next blank or before its drain. -/
def scan1 (line : Nat) : Scan := { s0 := 40000000, blank := 336, drained := true, line := line, drainAt := 40000000 }

/-- Hypotheses of `Obligations.TilesAndLines`. -/
theorem witness_TilesAndLines : dieUp hub2 (0 / 24) = true ∧ hub2.engines.has 0 = false ∧ ((getDie hub2 (0 / 24)).srv.engIn).testBit 0 = true ∧
    nextTile (hubOut { out1 with cols := [0] }) 0 = some ⟨0, 0, 0⟩ ∧ ({ hub2 with engines := [(0, ⟨0, 0, 0⟩)] } : Hub).engines.find 0 = some ⟨0, 0, 0⟩ ∧
    (getOut hub2 0).mode = some mode1 ∧ (getOut hub2 0).frame = some { num := 5 } ∧ (getOut hub2 0).state = .running ∧ (getOut hub2 0).pllLost = false ∧
    (scan1 63).line < mode1.vActive ∧ (getOut (hubOut { out1 with wbFlight := some 4 }) 0).wbFlight = some 4 ∧
    listOwner (hubOut out1) (listOf (hubOut out1) 0) = some 0 ∧ listOwner (hubOut { out1 with owner := none }) 0 = none := by decide +kernel

/-- Hypotheses of `Obligations.FrameBoundaries`. -/
theorem witness_FrameBoundaries : (getOut (hubOut { out1 with scan := some (scan1 3) }) 0).scan = some (scan1 3) ∧ (scan1 3).latched = false ∧
    atBlank (getOut (hubOut { out1 with scan := some (scan1 63) }) 0) = false ∧ (scan1 64).line = mode1.vActive ∧ out1.grp = 0 ∧ out1.newOwner = none ∧
    out1.stopNext = false ∧ (∀ t ∈ hub2.txns, t.2.state ≠ .armed) ∧ ({ scan1 0 with drained := false } : Scan).drained = false ∧
    ({ scan1 0 with drained := false, reopened := true } : Scan).reopened = true ∧ hasZones out1 = false := by decide +kernel

/-- A transaction that waits for timeline 0 to reach 9. -/
def txn1 (x : TxnState) (p : Option Pend) : Txn :=
  { state := x, owner := 0, indep := false, events := false, timeoutMs := 0, fences := [(0, { tl := 0x10000, value := 9 })], commit := p
    layers := [(0, {})], timeout := 60000000 }
def hubTxn (t : Txn) : Hub := { hub2 with txns := [(0, t)] }

/-- Hypotheses of `Obligations.TransactionsBeginAndEnd`. -/
theorem witness_TransactionsBeginAndEnd : Accepts txnBegin (cmd [(16, 1, 0), (17, 1, 1)]) (st hub2) ∧ Accepts txnCommit (cmd [] tx) (st hub2) ∧
    Accepts txnCommit (cmd [(16, 1, 1)] tx) (st hub2) ∧ Accepts txnCommit (cmd [] tx) (st (hubTxn (txn1 .opened none))) ∧
    stagesNothing (txn1 .opened none) = false ∧ fenceReached hub2 { tl := 0x10000, value := 9 } = false ∧
    Accepts txnCancel (cmd [] tx) (st hub2) ∧ Accepts txnCancel (cmd [] tx) (st (hubTxn (txn1 .waiting (some pend1)))) ∧
    Accepts txnQuery (cmd [] tx) (st hub2) ∧ (hubTxn (txn1 .waiting none)).txns.find 0 = some (txn1 .waiting none) ∧
    (∃ f ∈ (txn1 .waiting none).fences, f.2.signalled = none ∧ f.1 ∉ (txn1 .waiting none).doneLayers) ∧ (txn1 .armed none).state = .armed := by
  simp only [← accepts_iff]
  decide +kernel

/-- Hypotheses of `Obligations.TimelinesAreSignalled`. -/
theorem witness_TimelinesAreSignalled : Accepts tlCreate (cmd [(16, 1, 0), (24, 8, 5)]) (st hub2) ∧
    Accepts tlSignal (cmd [(16, 4, 0x10000), (24, 8, 5)]) (st hub2) ∧ Accepts tlSignal (cmd [(16, 4, 0x10000), (24, 8, 6)]) (st hub2) ∧
    Accepts tlDestroy (cmd [(16, 4, 0x10000)]) (st hub2) ∧ Accepts tlGrant (cmd [(16, 4, 0x10000), (20, 2, 1), (22, 1, 1)]) (st hub3) ∧
    Accepts tlGrant (cmd [(16, 4, 0x10000), (20, 2, 1)]) (st { hub3 with tls := [(0, { owner := 0, value := 5, gen := 1, grants := [1] })] }) ∧
    Accepts tlQuery (cmd [(16, 4, 0x10000)]) (st hub2) ∧ ({ out1 with grp := 1, primary := 0, members := [0, 4] } : Output).grp ≠ 0 ∧
    (∃ m ∈ (getOut (hubOut { out1 with grp := 1, primary := 0, members := [0, 4] }) 0).members, m / 4 = 1) ∧ dieUp hub2 1 = true ∧
    1 ∉ (getOut (hubOut { out1 with grp := 1, primary := 0, members := [0, 4] }) 0).decided ∧ halted hub2 1 = false ∧
    halted { hub1 with dies := [(0, { die1 with kdbg := { halted := some 5 } })] } 0 = true ∧
    (getOut (hubOut { out1 with grp := 1, primary := 0, members := [0, 4] }) 0).verdict = none ∧
    (getOut (hubOut { out1 with verdict := some (true, 7) }) 0).verdict = some (true, 7) ∧ out1.scan.any (fun sc => sc.stretched && sc.line == 0) = false ∧
    ({ scan1 0 with stretched := true }.stretched && { scan1 0 with stretched := true }.line == 0) = true ∧ 7 ≤ hub2.now ∧ (1 : Nat) ≠ 0 / 4 := by
  simp only [← accepts_iff]
  decide +kernel

/-! ### Outputs, dimming, checks -/

/-- The hub whose die 0 is `x`. -/
def hubDie (x : Die) : Hub := { hub2 with dies := [(0, x), (1, die1)] }

/-- A die with EXT_VSYNC on pad 0. -/
def dieVsync : Die := { die1 with pmx := { pads := [(0, { func := 8, active := 8 })] } }

/-- A stopped output, one that stops, one in a group, and one that starts with a locked PLL. -/
def outStop : Output := { out1 with state := .stopped }
def outStopping : Output := { out1 with state := .stopping }
def outGrouped : Output := { outStop with grp := 1, primary := 0, members := [0, 4] }
def outStarting : Output := { out1 with state := .starting, frame := none, scan := none }

/-- The words of a mode that are accepted for entry 1. -/
def modeArgs : List (Nat × Nat × Nat) :=
  [(16, 1, 1), (18, 2, 0x2B), (20, 2, 64), (22, 2, 16), (24, 2, 16), (26, 2, 32), (28, 2, 64), (30, 2, 100), (32, 2, 100), (34, 2, 136),
   (36, 1, 112), (37, 1, 255)]

/-- Hypotheses of `Obligations.OutputCommands`. -/
theorem witness_OutputCommands :
    Accepts outConfig (cmd [(16, 1, 0), (17, 1, 0), (18, 1, 1), (19, 1, 3)]) (st (hubOut outStop)) ∧
    Accepts outConfig (cmd [(16, 1, 0), (19, 1, 4), (20, 2, 0)]) (st hub3) ∧ (getOut (fetched 0 hub3) 0).owner = some 0 ∧
    Accepts outConfig (cmd [(16, 1, 0), (19, 1, 4), (20, 2, 1)]) (st hub3) ∧ (getOut (fetched 0 hub3) 0).state ≠ .stopped ∧
    Accepts outConfig (cmd [(16, 1, 0), (19, 1, 4), (20, 2, 1)]) (st { hub3 with outs := [(0, outStop)] }) ∧
    (4 : Nat).testBit 2 = true ∧ (3 : Nat).testBit 2 = false ∧
    Accepts outGroup (cmd [(16, 1, 0), (17, 1, 1), (20, 1, 0)]) (st (hubOut outGrouped)) ∧
    Accepts outGroup (cmd [(16, 1, 1), (17, 1, 2), (20, 1, 1), (21, 1, 2)]) (st { hub2 with outs := [(1, { port := 0 }), (2, { port := 1 })] }) ∧
    Accepts outGenlock (cmd [(16, 1, 0), (17, 1, 1)]) (st (hubDie dieVsync)) ∧ Accepts outGenlock (cmd [(16, 1, 0)]) (st (hubDie dieVsync)) ∧
    Accepts outQuery (cmd [(16, 1, 0), (24, 8, 0x40000)]) (st hub2) ∧ Accepts modeQuery (cmd [(16, 1, 0), (24, 8, 0x40000)]) (st hub2) ∧
    Accepts modeWrite (cmd modeArgs) (st hub2) := by
  simp only [← accepts_iff]
  decide +kernel

/-- An output in the last stretched blank, and one that scans its cache frame. -/
def outStretched : Output :=
  { out1 with scan := some { s0 := 49000000, drained := true, line := 0, drainAt := 40000000, stretched := true } }
def outCached : Output := { out1 with q := 2, frame := some { num := 5, source := 1 }, scan := some (scan1 64) }

/-- A die whose display PLL 0 is locked. -/
def dieLocked : Die := { die1 with clk := { root := { n := 200, locked := true }, disp0 := { locked := true, lockAt := 45000000, attempts := 1 } } }

/-- Hypotheses of `Obligations.OutputsStartAndStop`. -/
theorem witness_OutputsStartAndStop : (getOut (hubOut outStopping) 0).state = .stopping ∧
    (getOut (hubOut outStarting) 0).state = .starting ∧ startReady { hubDie dieLocked with outs := [(0, outStarting)] } 0 = true ∧ outStarting.grp = 0 ∧
    outStarting.mode = some mode1 ∧ outStarting.newOwner = none ∧ outStarting.gen.on = false ∧ (∀ t ∈ (hubDie dieLocked).txns, t.2.state ≠ .armed) ∧
    changeAtHand (hubOut { outStretched with changed := true }) 0 = true ∧ outStretched.frame = some { num := 5 } ∧ outStretched.grp = 0 ∧
    (hubOut outStretched).now < scanNs mode1 { scan1 0 with s0 := 49000000 } ((scan1 0).vbPx + vBlank mode1 * hTotal mode1) ∧
    outCached.scan = some (scan1 64) ∧ (scan1 64).line = mode1.vActive ∧ outCached.psr = false ∧ outCached.frame = some { num := 5, source := 1 } ∧
    mayRefresh { hubOut { outCached with statFlags := 2 } with ports := [(0, { kind := 2, state := .up, sink := true, sinkCaps := 2 })] } 0 mode1 = true := by
  decide +kernel

/-- An output that follows edges, and one whose edges have ceased. -/
def outGen (k : Nat) : Output := { out1 with gen := { on := true, state := k, good := 15, lastEdge := 49000000 } }

/-- Hypotheses of `Obligations.GenlockFollowsEdges`. -/
theorem witness_GenlockFollowsEdges : groupHead { hubDie dieVsync with outs := [(0, outGen 1)] } 0 = 0 ∧ (outGen 2).gen.on = true ∧
    (outGen 2).gen.state = 2 ∧ (outGen 1).gen.state ≠ 2 ∧ (outGen 2).mode = some mode1 ∧ (outGen 2).scan = some (scan1 3 |> fun x => { x with blank := 0 }) ∧
    startGroup { hubDie dieVsync with outs := [(0, outGen 1)] } 0 = [] ∧ hasExtVsync { hubDie dieVsync with outs := [(0, outGen 1)] } (0 / 4) = true ∧
    (-1000 : Int) ≤ (outGen 2).gen.ppm ∧ (outGen 2).gen.ppm ≤ 1000 ∧ listOwner (hubOut (outGen 1)) (listOf (hubOut (outGen 1)) 0) = some 0 ∧
    listOwner (hubOut { outGen 1 with owner := none }) (listOf (hubOut { outGen 1 with owner := none }) 0) = none := by
  decide +kernel

/-- An output with dimming on, before and after its first step. -/
def outDim (l : List DimStep) : Output := { out1 with dim := { layout := { mode := 2, cols := 1, rows := 1, delivery := 1 }, steps := l } }

/-- Hypotheses of `Obligations.DimmingIsReadAndSent`. -/
theorem witness_DimmingIsReadAndSent : Accepts Machine.dimQuery (cmd [(16, 1, 0), (24, 8, 0x40000)]) (st hub2) ∧
    Accepts Machine.dimRead (cmd [(16, 1, 0), (22, 2, 1), (24, 8, 0x40000), (32, 4, 2)]) (st (hubOut (outDim []))) ∧
    Accepts Machine.dimRead (cmd [(16, 1, 0), (22, 2, 1), (24, 8, 0x40000), (32, 4, 2)]) (st (hubOut (outDim [{}]))) ∧
    [({} : DimStep)].getLast? = some {} ∧ (outDim []).dim.pktSent = false ∧ (outDim []).dim.layout.mode = 2 ∧ (outDim []).state = .running ∧
    (outDim []).dim.layout.delivery.testBit 1 = false ∧ ({ mode := 2, cols := 1, rows := 1, delivery := 3 } : DimLayout).delivery.testBit 1 = true ∧
    portSends { hub2 with outs := [(0, { outDim [] with port := 4 })], ports := [(4, { kind := 1, state := .up, camOwner := 0 })] } 0 = true := by
  simp only [← accepts_iff]
  decide +kernel

/-- An output whose check channel 0 is configured, with an operation of lane 0. -/
def outChk (ops : List LaneOp) : Output :=
  { out1 with chk := { holder := some 0, cfg := [(0, { flags := 1, width := 32, x := 0, y := 0, w := 1, h := 1, poly := 1, init := 0 })], ops := ops } }
def laneOp1 (write : Bool) (y : Nat) : LaneOp := { ch := 0, write := write, y := y, frame := 5, value := 9, pend := some pend1 }

/-- Hypotheses of `Obligations.CheckCommands`. -/
theorem witness_CheckCommands : Accepts Machine.chkGrant (cmd [(16, 1, 0), (18, 2, 0xFFFF)]) (st hub2) ∧
    Accepts Machine.chkGrant (cmd [(16, 1, 0), (18, 2, 0)]) (st hub2) ∧ (getOut (fetched 0 hub2) 0).chk.holder = none ∧
    Accepts Machine.chkConfig (cmd [(16, 1, 0), (17, 1, 0), (18, 1, 1), (19, 1, 32), (24, 2, 1), (26, 2, 1), (32, 8, 1)]) (st (hubOut (outChk []))) ∧
    Accepts Machine.chkExpect (cmd [(16, 1, 0), (24, 8, 9)]) (st (hubOut (outChk []))) ∧
    Accepts Machine.chkRead (cmd [(16, 1, 0), (24, 8, 0x40000)]) (st (hubOut (outChk []))) ∧
    Accepts Machine.chkLane (cmd [(16, 1, 0), (17, 1, 16), (20, 2, 63), (24, 8, 5)]) (st (hubOut (outChk []))) ∧
    (outChk [laneOp1 false 2]).chk.ops.filter (fun p => decide (p.frame = 5 ∧ p.write = false ∧ p.y + 1 = 3 ∧ p.ch = 0)) ≠ [] ∧
    (outChk [laneOp1 true 3]).chk.ops.filter (fun p => decide (p.frame = 5 ∧ p.write = true ∧ p.y = 3 ∧ p.ch = 0)) = [laneOp1 true 3] ∧
    (chanCfg (outChk []).chk.cfg 0).isSome = true := by
  simp only [← accepts_iff]
  decide +kernel

/-- Hypotheses of `Obligations.CheckResultsAreFinal`. -/
theorem witness_CheckResultsAreFinal :
    (getOut (hubOut { outChk [] with chk := { (outChk []).chk with ended := some { flags := 0, num := 5, lanes := [], cfg := (outChk []).chk.cfg } } }) 0).chk.ended =
      some { flags := 0, num := 5, lanes := [], cfg := (outChk []).chk.cfg } ∧ (0 : Nat).testBit 3 = false ∧ (8 : Nat).testBit 3 = true := by
  decide +kernel

/-! ### Plotter and DMA -/

/-- The block of a FILL of the surface. -/
def fillBlock : Bytes := [1, 0, 0, 0, 0, 0, 0, 0, 5, 0, 1, 0] ++ List.replicate 16 0 ++ [64, 0, 32, 0] ++ List.replicate 224 0

/-- The job of that block, and a hub whose Plotter of die 0 holds `j`, with tokens in the bucket. -/
def job1 : Job := jobOf (cmd [(16, 8, 0x70000), (24, 4, 256)] 0 2 fillBlock) pend1
def hubPlt (busy : Bool) (j : Job) : Hub :=
  hubDie { die1 with plt := { busy := busy, jobs := [j], charged := [(0, (0, 70))] }, pwr := { bucket := [(0, 10000)] } }

/-- Hypotheses of `Obligations.PlotterJobs`. -/
theorem witness_PlotterJobs : Accepts Machine.pltJob (cmd [(16, 8, 0x70000), (24, 4, 256)] 0 2 fillBlock) (st hub2) ∧
    Accepts Machine.pltAbort (cmd [(16, 1, 0xFF)]) (st hub2) ∧ Accepts Machine.pltAbort (cmd [(16, 1, 0)]) (st (hubPlt false job1)) ∧
    Accepts Machine.pltQuery (cmd [(16, 1, 0)]) (st (hubPlt false job1)) ∧ (getDie (hubPlt false job1) 0).plt.charged.find 0 = some (0, 70) ∧
    Accepts Machine.pltQuery (cmd [(16, 1, 0)]) (st hub2) ∧ (getDie hub2 0).plt.charged.find 0 = none ∧
    plotterRuns (hubPlt false job1) 0 = true ∧ nextJob (hubPlt false job1) 0 = some 0 ∧ [job1][0]? = some job1 ∧ job1.drawn = 0 ∧ job1.done = 0 ∧
    jobSurfs (hubPlt false job1) job1 = some (surf1, none) ∧ hasTokens (hubPlt true job1) 0 0 4096 = true ∧
    0 < min 4096 (costOf { job1 with drawn := 5 } surf1 (jobSteps job1 surf1 none) - 5) ∧
    markReached (hubPlt true job1) { job1 with flags := 1, done := 1000 } = true ∧
    (jobPlan (hubPlt true job1) { job1 with drawn := 100000, done := 1000 }).2 ≤ 100000 ∧
    (jobPlan (hubPlt true job1) { job1 with drawn := 100000, done := 1000 }).1.length ≤ 1000 ∧ tlOf (hubPlt true job1) 0x10000 ≠ none := by
  simp only [← accepts_iff]
  decide +kernel

/-- A descriptor that fills 8 bytes, one of a surface that is gone, and a channel with it. -/
def desc1 (dst : Nat) : DmaDesc := { op := 2, flags := 2, planes := 0, dst := dst, dstOff := 0, len := 8, source := 0, value := 0, seq := 0 }
def hubChan (q : List DmaDesc) (r : Option DmaRun) (dead : Bool) : Hub :=
  { hubDie { die1 with pwr := { bucket := [(0, 10000)] } } with
    dma := [(4, { owner := 0, group := 0, cqLog := 4, rate := 64, tl := 0, base := 0x60000, queue := q, run := r, dead := dead })] }
def submit1 : Cmd := cmd [(16, 1, 4), (17, 1, 1), (32, 1, 2), (33, 1, 2), (36, 4, 0x10005), (44, 4, 8)]

/-- Hypotheses of `Obligations.DmaClientChannels`. -/
theorem witness_DmaClientChannels : Accepts dmaAlloc (cmd [(16, 1, 0), (17, 1, 4), (18, 2, 64), (24, 8, 0x60000)]) (st hub2) ∧
    Accepts dmaFree (cmd [(16, 1, 4)]) (st hub2) ∧ Accepts dmaSubmit submit1 (st (hubChan [] none false)) ∧
    Accepts dmaSubmit submit1 (st (hubChan [] none true)) ∧ Accepts dmaAbort (cmd [(16, 1, 4)]) (st (hubChan [desc1 0x10005] none false)) ∧
    Accepts dmaQuery (cmd [(16, 1, 4)]) (st hub2) ∧ plotterRuns (hubChan [] none false) (4 / 32) = true ∧
    descStart (hubChan [desc1 0x10006] none false) 0 (desc1 0x10006) ≠ 0 ∧ descStart (hubChan [desc1 0x10005] none false) 0 (desc1 0x10005) = 0 ∧
    descSurfs (hubChan [desc1 0x10005] none false) (desc1 0x10005) = some (surf1, surf1) ∧
    descSurfs (hubChan [desc1 0x10005] (some {}) false) (desc1 0x10005) = some (surf1, surf1) ∧
    0 < min 4096 (descCost (desc1 0x10005) (descDescends (desc1 0x10005) surf1 surf1)
      (descEnd [] (hubChan [desc1 0x10005] (some {}) false) (desc1 0x10005) surf1 surf1 {}) - 0) ∧
    hasTokens (hubChan [desc1 0x10005] (some {}) false) (4 / 32) 0 4096 = true ∧ (({ moved := 8 } : DmaRun).moved = (desc1 0x10005).len) ∧
    dieUp (hubChan [] none false) (4 / 32) = true ∧ ({ desc1 0x10005 with flags := 0 }).flags.testBit 1 = false ∧
    mayPost (getCtx (hubChan [] none false) 0) = true := by
  simp only [← accepts_iff]
  decide +kernel

/-- A privileged channel that runs. -/
def priv1 : PrivDma := { busy := some (0, 4096, 64, 1, 0) }

/-- Hypotheses of `Obligations.PrivilegedDma`. -/
theorem witness_PrivilegedDma : RegTakes hub1 0 0 ∧ (getPriv (accessWakes 0 0 hub1) 0 3).busy = none ∧ (0x101 : BitVec 32).toNat.testBit 8 = true ∧
    (0x101 : BitVec 32).toNat.testBit 9 = false ∧ (0x300 : BitVec 32).toNat.testBit 9 = true ∧
    privCheck hub1 0 4096 64 0 ≠ 0 ∧ privCheck hub1 0 4096 64 1 = 0 ∧ RegTakes (hubDie { die1 with priv := [(3, priv1)] }) 0 0 ∧
    (getPriv (accessWakes 0 0 (hubDie { die1 with priv := [(3, priv1)] })) 0 3).busy.isSome = true ∧
    (getPriv (hubDie { die1 with priv := [(3, priv1)] }) 0 3).busy = some (0, 4096, 64, 1, 0) ∧ (getDie hub2 0).rbuf = [] ∧
    reachesSystem hub2 0 64 = false ∧ reachesSystem hub2 4096 64 = false := by
  unfold RegTakes
  decide +kernel

/-! ### Links and the chain -/

/-- A port of the hub, and a Traverse port of a kind in a state. -/
def hubPort (k : Nat) (p : Port) : Hub := { hub2 with ports := [(k, p)] }
def tv (x : LinkState) : Port := { kind := 1, state := x, camOwner := 0 }

/-- Hypotheses of `Obligations.LinkCommands`. -/
theorem witness_LinkCommands : Accepts lnkConfig (cmd [(16, 1, 0), (17, 1, 1), (18, 1, 2), (30, 2, 0xFFFF)]) (st hub2) ∧ (getPort hub2 1).kind = 0 ∧
    (getPort hub2 1).sink = false ∧ Accepts lnkConfig (cmd [(16, 1, 0), (17, 1, 4), (18, 1, 1), (30, 2, 0xFFFF)]) (st hub2) ∧
    Accepts lnkConfig (cmd [(16, 1, 0), (17, 1, 2), (18, 1, 1), (20, 1, 4), (22, 2, 1500), (30, 2, 0xFFFF)]) (st hub2) ∧
    Accepts lnkConfig (cmd [(16, 1, 0), (17, 1, 4), (18, 1, 0), (30, 2, 0xFFFF)]) (st (hubPort 4 (tv .up))) ∧
    Accepts lnkConfig (cmd [(16, 1, 0), (17, 1, 4), (18, 1, 1), (30, 2, 0xFFFF)]) (st (hubPort 4 (tv .up))) ∧
    Accepts lnkQuery (cmd [(16, 1, 0), (17, 1, 4), (24, 8, 0x40000)]) (st (hubPort 4 (tv .up))) ∧
    Accepts lnkEq (cmd [(16, 1, 0), (17, 1, 4), (18, 1, 1), (20, 1, 4), (21, 1, 50), (22, 1, 10)]) (st (hubPort 4 (tv .up))) ∧
    Accepts lnkPower (cmd [(16, 1, 0), (17, 1, 4), (18, 1, 2)]) (st { hubPort 4 (tv .up) with outs := [] }) ∧
    Accepts lnkPower (cmd [(16, 1, 0), (17, 1, 4), (18, 1, 2)]) (st { hubPort 4 (tv .deep) with outs := [] }) ∧
    Accepts lnkPower (cmd [(16, 1, 0), (17, 1, 4)]) (st (hubPort 4 (tv .up))) ∧ Accepts lnkPower (cmd [(16, 1, 0), (17, 1, 4)]) (st (hubPort 4 (tv .deep))) ∧
    Accepts lnkLoopback (cmd [(16, 1, 0), (17, 1, 4), (18, 1, 3), (19, 1, 3), (20, 4, 10)]) (st (hubPort 4 (tv .up))) ∧
    Accepts lnkLoopback (cmd [(16, 1, 0), (17, 1, 4), (18, 1, 1), (19, 1, 3), (20, 4, 10)]) (st (hubPort 4 (tv .up))) ∧
    Accepts Machine.lnkCamera (cmd [(16, 1, 0), (17, 1, 4)]) (st (hubPort 4 { tv .up with kind := 2 })) ∧
    Accepts Machine.lnkCamera (cmd [(16, 1, 0), (17, 1, 4), (18, 1, 1), (19, 1, 1), (20, 4, 1000), (24, 4, 0x10000), (40, 4, 0x10005)])
      (st (hubPort 4 { tv .up with kind := 2 })) := by
  simp only [← accepts_iff]
  decide +kernel

/-- An I2C transfer, and a far-end test, that wait at a port. -/
def i2c1 : I2cReq := { cmd := pend1, id := 0, buf := 0x40000, msg := [] }
def loop1 (ok : Bool) : LoopTest := { mode := 3, lanes := 3, duration := 10, start := 0, cmd := some pend1, accepted := ok }
def dpPort : Port := { kind := 2, state := .up, sink := true, sinkCaps := 8, camOwner := 0 }

/-- Hypotheses of `Obligations.LinkRequests`. -/
theorem witness_LinkRequests :
    Accepts Machine.lnkI2c (cmd [(16, 1, 0), (17, 1, 4), (18, 1, 0x50), (20, 1, 1), (21, 1, 1), (56, 8, 0x40000)]) (st (hubPort 4 { tv .up with kind := 2 })) ∧
    Accepts Machine.lnkAux (cmd [(16, 1, 0), (17, 1, 0), (19, 1, 1)]) (st (hubPort 0 dpPort)) ∧
    Accepts Machine.lnkBacklight (cmd [(16, 1, 0), (17, 1, 0), (18, 2, 5), (20, 1, 1)]) (st (hubPort 0 dpPort)) ∧ portBusy (fetched 0 (hubPort 0 dpPort)) 0 = true ∧
    Accepts Machine.lnkBacklight (cmd [(16, 1, 0), (17, 1, 0), (18, 2, 5), (20, 1, 1)]) (st { hubPort 0 dpPort with outs := [(0, outStop)] }) ∧
    portBusy (fetched 0 { hubPort 0 dpPort with outs := [(0, outStop)] }) 0 = false ∧
    Accepts Machine.lnkDsiCmd (cmd [(16, 1, 0), (17, 1, 5), (20, 2, 1)])
      (st { hubPort 2 { kind := 1, state := .up, camOwner := 0 } with outs := [(0, { out1 with port := 2 })] }) ∧
    Accepts Machine.lnkDsiCmd (cmd [(16, 1, 0), (17, 1, 5), (20, 2, 1)]) (st (hubPort 2 { kind := 1, state := .up, camOwner := 0 })) ∧
    Accepts Machine.lnkDsiCmd (cmd [(16, 1, 0), (17, 1, 6), (19, 1, 2), (20, 2, 1), (22, 1, 1)]) (st (hubPort 2 { kind := 1, state := .up, camOwner := 0 })) ∧
    carries (hubPort 4 { tv .up with i2c := [i2c1] }) 4 = true ∧ leNat ([0, 0, 0, 1, 0, 0, 0, 0, 9].take 1) = i2c1.id ∧
    (getCtx (hubPort 4 (tv .up)) i2c1.cmd.ctx).epoch = i2c1.cmd.epoch ∧
    leNat ([2].take 1) = 2 ∧ leNat ([0].take 1) ≠ 2 ∧ dpPort.auxTries < 7 ∧ 7 ≤ ({ dpPort with auxTries := 7 }).auxTries ∧
    firstWait (waiting (hubPort 0 { dpPort with aux := [(pend1, 0, [])] }) 0) = some (5 + 5000000, 3) ∧
    firstWait (waiting (hubPort 4 { tv .up with i2c := [i2c1] }) 4) = some (5 + 10000000, 0) ∧
    (firstWait (waiting (hubPort 2 { kind := 1, state := .up, dsiRead := [pend1] }) 2)).map Prod.snd = some 4 ∧
    firstWait (waiting (hubPort 4 { tv .seek with wakeCmds := [pend1] }) 4) = some (5 + 20000000, 1) ∧
    firstWait (waiting (hubPort 4 { tv .up with test := some (loop1 false) }) 4) = some (1000000, 2) := by
  simp only [← accepts_iff]
  decide +kernel

/-- Figures of merit of three CTLE codes, of which the second is the first of the best. -/
def foms1 : List (BitVec 8) := [0x50, 0x60, 0x60]

/-- Hypotheses of `Obligations.TraverseTrains`. -/
theorem witness_TraverseTrains : 4 ≤ 4 % 8 ∧ (getPort (hubPort 4 { tv .seek with lane1 := { rx := 2 } }) 4).state = .seek ∧
    (getPort (hubPort 4 { tv .seek with lane1 := { rx := 2 } }) 4).lane1.rx = 2 ∧ (tv .seek).lane0.rx ≤ 2 ∧ (tv .seek).lane1.rx < 2 ∧
    (getPort (hubPort 4 (tv .adapt)) 4).state = .adapt ∧ (tv .adapt).fomMin ≤ foms1[1].toNat ∧ foms1.length ≤ 16 ∧
    ([0, 0x01FF0220, 7] : List (BitVec 32)).length = foms1.length ∧ (∀ t ∈ foms1, t.toNat ≤ foms1[1].toNat) ∧
    (∀ i, i < 1 → ∀ t, foms1[i]? = some t → t.toNat < foms1[1].toNat) ∧
    ({ tv .adapt with lane1 := { rx := 3 } }).lane1.rx = 3 ∧ (tv .adapt).lane1.rx ≠ 3 ∧
    (getPort (hubPort 4 (tv .alone)) 4).state = .alone ∧ (tv .alone).stateTime ≤ hub2.now ∧
    (tv .deep).state = .deep ∧ asleep { hubPort 4 (tv .deep) with dies := [(0, { die1 with pwr := { state := .deep } })] } (4 / 8) = true ∧
    (getDie (hubPort 4 (tv .deep)) (4 / 8)).pwr.state = .run ∧ (tv .up).rxDoze = false ∧ 2 ≤ ({ tv .up with lane0 := { rx := 3 } }).lane0.rx ∧
    (tv .up).options.testBit 2 = false ∧ (getPort (hubPort 4 (tv .wait)) 4).state = .wait := by
  decide +kernel

/-- A camera stream into the surface, with and without a frame in progress. -/
def cam1 : CamCfg := { owner := 0, targets := [0x10005], lineNs := 1000, tl := 0x10000, base := 0, die := 0, wLine := 256, group := 0 }
def camPort (f : Option CamFrame) : Port := { tv .up with kind := 2, cam := some cam1, camFrame := f }
def allLines : List (Nat × Nat) := (List.range 32).map fun y => (0, y)

/-- Hypotheses of `Obligations.TraverseStreams`. -/
theorem witness_TraverseStreams : carries (hubPort 5 (tv .up)) 5 = true ∧ (tv .up).txDoze = false ∧ ({ tv .up with options := 3 }).options.testBit 0 = true ∧
    portBusy (hubPort 5 { tv .up with options := 3 }) 5 = false ∧ portOut (hubPort 5 { tv .up with options := 3 }) 5 = none ∧
    portOut { hubPort 4 (tv .up) with outs := [(0, { outStop with port := 4 })] } 4 = some 0 ∧ (loop1 false).accepted = false ∧
    leNat ([2].take 1) = 2 ∧ leNat ([3].take 1) = 3 ∧ (tv .up).kind.testBit 0 = true ∧
    (getPort (hubPort 4 { tv .loop with test := some (loop1 true) }) 4).test = some (loop1 true) ∧ carries (hubPort 4 (camPort none)) 4 = true ∧
    (camPort none).kind.testBit 1 = true ∧ camTarget (hubPort 4 (camPort none)) cam1 0 = some surf1 ∧
    leNat ([64, 0, 32, 0, 1, 0].take 2) = surf1.width ∧ leNat ((([64, 0, 32, 0, 1, 0] : Bytes).drop 4).take 2) = surf1.fmt ∧
    (fmtD surf1.fmt).crated = false ∧ 0 < camPlanes surf1.fmt ∧ 31 < planeLines (fmtD surf1.fmt) surf1.height 0 ∧
    leNat ((([0, 16, 0, 31, 0] : Bytes).drop 1).take 2) = ceilDiv (rowBytes (fmtD surf1.fmt) surf1.width 0) 16 ∧ (0, 31) ∉ allLines.dropLast ∧
    planeLineCount surf1 ≤ allLines.length ∧ tlOf (hubPort 4 (camPort none)) cam1.tl ≠ none ∧ tlOf (hubPort 4 (camPort none)) 0 = none ∧
    chainUp { hubPort 4 { tv .up with kind := 4 } with chain := { down := some 4 } } 4 = true ∧ busOnPads (hubPort 5 (tv .up)) (5 / 8) = false ∧
    busOnPads { hubPort 5 (tv .up) with dies := [(0, { die1 with pmx := { pads := [(0, { active := 2 }), (1, { active := 3 })] } })] } (5 / 8) = true := by
  decide +kernel

/-- Hypotheses of `Obligations.DisplayPortEvents`. -/
theorem witness_DisplayPortEvents : 0 % 8 < 2 ∧ dieUp hub2 (0 / 8) = true ∧ unitRetired hub2 (unitId 5 (0 / 8) (0 % 8)) = false ∧ (getPort hub2 0).kind ≠ 0 ∧
    (getPort hub2 1).kind = 0 ∧ dpPort.sink = true ∧ portOut (hubPort 0 dpPort) 0 = some 0 ∧ (getPort (hubPort 0 dpPort) 0).state = .up ∧
    ({ dpPort with training := some (4, 3) }).training = some (4, 3) ∧ ({ dpPort with training := some (4, 3) }).trained = none ∧
    ({ dpPort with trained := some (4, 3) }).trained.isSome = true ∧ (getOut (hubPort 0 dpPort) 0).mode = some mode1 ∧
    dpFits mode1 (getOut (hubPort 0 dpPort) 0).bpc 4 3 = true ∧ dpFits { mode1 with hActive := 16000, pllP := 1 } 8 1 0 = false ∧ portOut { hubPort 0 dpPort with outs := [] } 0 = none := by
  decide +kernel

/-- A package with its upstream link on port 4 and its downstream link on port 5. -/
def hubChain (c : Chain) : Hub := { hub2 with ports := [(4, { tv .up with kind := 4 }), (5, { tv .up with kind := 4 })], chain := c }

/-- Hypotheses of `Obligations.ChainMessages`. -/
theorem witness_ChainMessages : chainUp (hubChain {}) 4 = true ∧ ready (hubChain {}) = true ∧ (getPort (hubChain {}) 4).rxDoze = false ∧ ({} : Chain).head = true ∧
    leNat ([4].take 1) = 4 ∧ leNat ([3].take 1) < 4 ∧ ({ head := false } : Chain).enumerated = false ∧ downPort (hubChain {}) = some 4 ∧
    downPort (hubChain { head := false, up := some 4, upSide := some 4, enumerated := true }) = some 5 ∧ ({ asking := true } : Chain).asking = true ∧
    chainUp (hubChain { head := false, up := some 4, down := some 5 }) 4 = true ∧ leNat ([1, 7].take 1) = 1 ∧ leNat ([2].take 1) = 2 ∧
    leNat (([0, 7] : Bytes).drop 1 |>.take 1) = 7 ∧ ({ down := some 5, barrier := some 7 } : Chain).barrier = some 7 ∧
    (signed 64 (leNat (leBytes 8 6))).natAbs ≤ 6 ∧ 6 < (signed 64 (leNat (leBytes 8 (2 ^ 64 - 7)))).natAbs := by
  decide +kernel

/-! ### Power, clocks, faults -/

/-- A die in a power state. -/
def diePwr (p : Pwr) : Die := { die1 with pwr := p }
def hubIdle (x : Die) : Hub := { hub1 with dies := [(0, die1), (1, x)] }
def entering1 (w : Option Nat) : Pwr := { state := .entering, entry := some { target := 3, cmd := none, wake := w } }

/-- Power state with twelve valid readings. -/
def pwrCool : Pwr := { sensors := (List.range 12).map fun n => (n, { temp := 400, valid := true, seen := 2 }) }

/-- Hypotheses of `Obligations.PowerStates`. -/
theorem witness_PowerStates : Accepts pwrStateCmd (cmd [(16, 1, 1), (17, 1, 3)]) (st (hubIdle (diePwr pwrCool))) ∧
    firstRefusal (fetched 0 (hubIdle (diePwr pwrCool))) [1] = none ∧
    Accepts pwrStateCmd (cmd [(16, 1, 0), (17, 1, 3)]) (st hub2) ∧ (firstRefusal (fetched 0 hub2) [0]).isSome = true ∧
    Accepts pwrStateCmd (cmd [(16, 1, 0xFF)]) (st hub2) ∧ (upDies (fetched 0 hub2)).filter (fun e => !awake (fetched 0 hub2) e) = [] ∧
    Accepts pwrStateCmd (cmd [(16, 1, 1)]) (st (hubIdle (diePwr { state := .deep }))) ∧
    [1].filter (fun e => !awake (fetched 0 (hubIdle (diePwr { state := .deep }))) e) ≠ [] ∧
    Accepts Machine.pwrLimits (cmd [(16, 1, 0xFF), (24, 4, 30000)]) (st hub1) ∧ Accepts Machine.pwrLimits (cmd [(16, 1, 0), (20, 2, 19000), (22, 2, 6000)]) (st hub1) ∧
    Accepts Machine.pwrQuery (cmd [(16, 1, 0), (24, 8, 0x40000)]) (st hub1) ∧
    entryReady (hubIdle (diePwr (entering1 none))) 1 3 = true ∧ entryReady (hubIdle (diePwr (entering1 (some 5)))) 1 3 = true ∧
    dieUp (hubIdle (diePwr (entering1 none))) 1 = true ∧ (entering1 none).wakeEn.testBit 2 = true ∧ ({ level := 1 } : Pwr).level ≠ 0 ∧
    asleep (hubIdle (diePwr { state := .deep, wakeTimer := 9, wakeEn := 8 })) 1 = true ∧
    (getDie (hubIdle { die1 with clk := { xtalOk := true } }) 1).clk.xtalOk = true ∧ (getDie (hubIdle { die1 with clk := { xtalOk := false } }) 1).clk.xtalOk = false ∧ (8 : Nat).testBit 3 = true ∧
    (getDie (hubIdle { diePwr { state := .exiting } with clk := { root := { locked := true } } }) 1).clk.root.locked = true ∧ powered hub1 = true ∧
    (getDie hub1 1).pwr.state = .run ∧ (getDie (hubIdle (diePwr { state := .idle })) 1).pwr.state = .idle := by
  simp only [← accepts_iff]
  decide +kernel

/-- Sensors of which one reads `t`. -/
def sensors1 (t : Nat) : Tab Sensor := [(2, { temp := t, valid := true, seen := 2 })]

/-- Hypotheses of `Obligations.HeatAndBudget`. -/
theorem witness_HeatAndBudget : dieUp hub1 1 = true ∧ powered hub1 = true ∧ awake hub1 1 = true ∧ ready hub1 = true ∧
    1120 ≤ signed 12 (1120 : BitVec 12).toNat ∧ signed 12 (0xFFF : BitVec 12).toNat < 1120 ∧ (hottest { sensors := sensors1 944 }) = some (2, 944) ∧
    hottest {} = none ∧ hottest { sensors := sensors1 895 } = some (2, 895) ∧ hottest { sensors := sensors1 896 } = some (2, 896) ∧
    hottest { sensors := sensors1 919 } = some (2, 919) ∧ hottest { sensors := sensors1 920 } = some (2, 920) ∧ ({} : Pwr).floorMw ≤ ({} : Pwr).limit ∧
    (getDie (hubIdle (diePwr { shutdown := true })) 1).pwr.shutdown = true ∧
    (getDie (hubIdle { die1 with kdbg := { halted := some 5 } }) 1).kdbg.halted.isSome = true ∧
    (getDie (hubIdle (diePwr { stepTo := some 2 })) 1).pwr.stepTo = some 2 ∧ dieUp hub1 2 = false ∧ 1 < ({ step := 2, stepTo := some 1 } : Pwr).step ∧
    rungStep 0 = ({} : Pwr).step ∧ rungStep 0 < ({ step := 2 } : Pwr).step := by
  decide +kernel

/-- An output that waits for its PLL. -/
def hubPll : Hub := { hubOut outStarting with dies := [(0, die1), (1, die1)] }

/-- Hypotheses of `Obligations.ClocksAndPlls`. -/
theorem witness_ClocksAndPlls : locking hubPll 0 1 = true ∧ (getPll (hubDie dieLocked) 0 1).locked = true ∧
    (getOut (hubDie dieLocked) 0).pll = 1 - 1 ∧ (getOut (hubDie dieLocked) 0).state = .running ∧ (getOut (hubDie dieLocked) 0).mode = some mode1 ∧
    (getOut (hubDie dieLocked) 0).scan.map Scan.line = some 3 ∧ (getOut (hubOut { out1 with scan := some (scan1 0) }) 0).scan = some (scan1 0) ∧
    dieUp (hubDie dieLocked) 0 = true ∧ (getPll (hubDie dieLocked) 0 0).locked = true ∧ 0 ∈ upDies hub1 ∧
    (getDie (hubDie { die1 with clk := { xtalOk := true } }) 0).clk.xtalOk = true ∧ awake (hubDie dieLocked) 0 = true ∧ 5 ≤ dieLocked.kpr.step ∧
    bits (0x15 : Nat) 0 3 ≤ 5 ∧ 5 < bits (0x16 : Nat) 0 3 ∧
    (getDie (hubDie { dieLocked with clk := { dieLocked.clk with tbOff := -7 } }) 0).clk.tbOff ≠ 0 ∧ dieLocked.clk.tbOff = 0 ∧ 1 ≠ (hubDie dieLocked).pkg.principal ∧
    bits (0x1B21 : Nat) 4 6 ≤ 50 ∧ bits (0x1B21 : Nat) 10 3 ≤ 6 ∧ 50 < bits (0x330 : Nat) 4 6 ∧ 6 < bits (0x1C00 : Nat) 10 3 ∧ RegTakes hub1 0 0 := by
  unfold RegTakes
  decide +kernel

/-- A die window of an LP5X error, and a package window of it. -/
def win1 : DieWin :=
  { cause := 0x0702, unit := 2, reporters := 1, firstRep := 0x0B, lastRep := 0x0B, firstTime := 100, lastTime := 100, detail := 0, action := 0 }
def hubFlt (f : Flt) : Hub := { hub2 with flt := f }

/-- Hypotheses of `Obligations.FaultRecords`. -/
theorem witness_FaultRecords : powered hub2 = true ∧ dieUp hub2 0 = true ∧
    ((getDie (hubDie { die1 with srv := { wins := [win1] } }) 0).srv.wins.any fun w => w.cause == 0x0702 && w.unit == 2) = true ∧
    (hub2.flt.wins.any fun p => p.held && (p.win.cause == 0x0702 && p.win.unit == 2)) = false ∧ recentlyPosted hub2 0x0702 2 = false ∧
    (getDie (hubDie { die1 with srv := { wins := [win1] } }) 0).srv.wins.find? (·.is 0x0702 2) = some win1 ∧ namesTest { win1 with cause := 0x0706 } = false ∧
    ((hubFlt { transit := [(0, win1)] }).flt.transit.find? fun e => e.1 == 0 && e.2.is 0x0702 2) = some (0, win1) ∧
    ((hubFlt { wins := [⟨win1, 1, 200, false⟩] }).flt.wins.find? fun p => !p.held && p.win.is 0x0702 2) = some ⟨win1, 1, 200, false⟩ ∧
    ((hubFlt { wins := [⟨win1, 1, 200, true⟩] }).flt.wins.find? fun p => p.held && p.win.is 0x0702 2) = some ⟨win1, 1, 200, true⟩ ∧
    unitClass (unitId 3 0 1) = 3 ∧ lpChannel 256 = unitInst (unitId 3 0 1) ∧ unitClass (unitId 2 0 1) ≠ 3 ∧
    unitClass (unitId 1 0 5) = 1 ∧ ({ hub2 with engines := [(5, ⟨0, 0, 0⟩)] } : Hub).engines.has (24 * unitDie (unitId 1 0 5) + unitInst (unitId 1 0 5)) = true ∧
    unitClass (unitId 8 0 0) = 8 ∧ (getDie (hubPlt true job1) (unitDie (unitId 8 0 0))).plt.jobs = [job1] ∧ job1.line = [] ∧
    unitClass (unitId 9 0 3) = 9 ∧ (getPriv (hubDie { die1 with priv := [(3, priv1)] }) 0 (unitInst (unitId 9 0 3))).busy.isSome = true ∧
    Accepts Machine.fltRead (cmd [(16, 4, 7), (24, 8, 0x40000)]) (st (hubFlt { seq := 8, records := [(7, List.replicate 64 0)] })) ∧
    (st hub2).Sound := by
  simp only [← accepts_iff, State.Sound]
  decide +kernel

/-- A request for engine 0 of die 0, its test, and a third transient in ten seconds. -/
def req1 (f : Option UnitFence) : SrvReq := { unit := 1, seq := some 3, time := 49000000, detail := none, cmds := [], fenced := f }
def test1 : SrvTest := { req := req1 none, start := 49000000, fence := ⟨some 11, false⟩ }
def dieSrv (v : Srv) : Die := { die1 with srv := v }
def unit1 (l : List (Nat × Option Nat)) : UnitRec := { unit := 1, transients := l }

/-- Hypotheses of `Obligations.SurveyTests`. -/
theorem witness_SurveyTests : unitDie 1 = 0 ∧ unitEngine 1 = some 0 ∧
    ((getDie (hubDie (dieSrv { queue := [req1 none] })) 0).srv.queue.find? fun r => laneOf r.unit == laneOf 1) = some (req1 none) ∧
    (({} : Srv).tests.any fun t => laneOf t.req.unit == laneOf 1) = false ∧ awake hub2 0 = true ∧ (req1 (some ⟨some 11, false⟩)).fenced ≠ none ∧
    ({} : Srv).engSpare.testBit 0 = false ∧ ({} : Srv).engIn.testBit 0 = true ∧ (wingOf 0).find? (bit ({} : Srv).engSpare) = some 11 ∧
    (getDie (hubDie (dieSrv { tests := [test1] })) 0).srv.tests.find? (fun t => t.req.unit == 1) = some test1 ∧
    (addTransient 1 test1.req.time none ((unitRec { units := [unit1 [(48000000, none), (47000000, none)]] } 1).transients.filter fun e =>
      decide (test1.req.time < e.1 + 10000000000))).length = 3 ∧
    (addTransient 1 test1.req.time none []).length = 1 ∧ mayTest hub2 1 = true ∧
    mayTest (hubOut { out1 with banks := [some 7] }) (unitId 2 0 7) = false ∧ unitClass (unitId 3 0 1) = 3 ∧
    (getDie (hubDie (dieSrv { tests := [{ test1 with req := { req1 none with unit := unitId 3 0 1 } }] })) 0).srv.tests.any (·.req.unit == unitId 3 0 1) = true ∧
    Accepts Machine.srvTest (cmd [(16, 4, 1)]) (st hub2) ∧ surveyed (fetched 0 hub2) 1 = false ∧
    Accepts Machine.srvTest (cmd [(16, 4, 1)]) (st (hubDie (dieSrv { queue := [req1 none] }))) ∧
    surveyed (fetched 0 (hubDie (dieSrv { queue := [req1 none] }))) 1 = true ∧
    Accepts Machine.srvQuery (cmd [(16, 4, 1)]) (st hub2) ∧ Accepts Machine.srvRestore (cmd [(16, 4, 0xFFFFFFFF)]) (st hub2) := by
  simp only [← accepts_iff]
  decide +kernel

/-! ### Start, resets, the Attic, registers, pads, the Field book and JTAG -/

/-- The package while it starts, its dies at a step. -/
def hubStart (n : Nat) (x : Phase) : Hub :=
  { now := 500, pkg := { part := 2, sites := 3, sitesUp := 3, phase := x }, dies := [(0, { kpr := { step := n } }), (1, { kpr := { step := n } })] }

/-- The same while die 1 alone has not reported. -/
def hubLast : Hub :=
  let h := hubStart 2 .starting
  { h with pkg := { h.pkg with reported := 1 }, dies := [(0, { regs := { fw := 0x30002 }, kpr := { step := 4 } }), (1, { kpr := { step := 2 } })] }

/-- `hubLast` with the report of die 1. -/
def hubAll : Hub :=
  let g := bootDie 1 hubLast
  let x := getDie g 1
  { g with pkg := { g.pkg with
    reported := g.pkg.reported ||| 2 ^ 1
    reports := g.pkg.reports.set 1 { stepping := 0xB0, fw := x.regs.fw, image := x.atc.image, selected := x.atc.image == selectWord x.atc 1 } } }

/-- Hypotheses of `Obligations.StartOfThePackage`. -/
theorem witness_StartOfThePackage : (hubStart 0 .porst).pkg.phase = .porst ∧ (hubStart 0 .off).pkg.phase = .off ∧ (hubStart 1 .starting).pkg.phase = .starting ∧
    1 ∈ siteList (hubStart 1 .starting) ∧ dieUp (hubStart 1 .starting) 1 = true ∧ (getDie (hubStart 1 .starting) 1).clk.root.locked = false ∧
    held5 (hubStart 2 .starting) = false ∧ (getDie (bootDie 1 (hubStart 2 .starting)) 1).atc.inRom = false ∧
    held5 hubLast = false ∧ (getDie (bootDie 1 hubLast) 1).atc.inRom = false ∧ (upDies hubLast).head? = some 0 ∧
    (∀ e ∈ upDies hubLast, hubAll.pkg.reported.testBit e = true) ∧
    (∀ e ∈ upDies hubLast, (getDie hubAll e).regs.fw = (getDie hubAll 1).regs.fw ∧ retiredDie (provided (alignAll (namePrincipal 0 hubAll))) e = 0) ∧
    1 ∈ upDies (hubStart 2 .starting) ∧ (∃ e ∈ upDies (hubStart 2 .starting), ((bootDie 1 (hubStart 2 .starting)).pkg.reported ||| 2 ^ 1).testBit e = false) ∧
    held5 (hubStart 5 .starting) = true ∧ (st hub2).Sound := by
  unfold State.Sound
  decide +kernel

/-- Die 1 in a reset that began at instant 7, with its images. -/
def hubReset (a : Atc) : Hub :=
  { hub1 with pkg := { hub1.pkg with resets := [(1, 7)], sitesUp := 1 }, dies := [(0, { die1 with regs := { fw := 0x30002 } }), (1, { kpr := { step := 1 }, atc := a })] }

/-- Hypotheses of `Obligations.ResetsAndSnapshot`. -/
theorem witness_ResetsAndSnapshot : RegTakes hub1 0 hub1.pkg.principal ∧ (0xB0070001 : BitVec 32).toNat.testBit 0 = true ∧
    (0xB0070001 : BitVec 32).toNat / 65536 = 0xB007 ∧ (0xB0060002 : BitVec 32).toNat / 65536 ≠ 0xB007 ∧
    (0xB0070006 : BitVec 32).toNat.testBit 0 = false ∧ (0xB0070006 : BitVec 32).toNat.testBit 1 = true ∧ bits (0xB0070006 : BitVec 32).toNat 2 3 = 1 ∧
    (accessWakes 0 0 hub1).pkg.sites.testBit 1 = true ∧ (accessWakes 0 0 hub1).pkg.resets.has 1 = false ∧ asleep (accessWakes 0 0 hub1) 1 = false ∧
    (getCtx hub1 0).state = .opened ∧ ctxFn hub1 0 / 16 = 0 ∧ integratorFn hub1 / 16 = 0 ∧
    bits (0xB0070002 : BitVec 32).toNat 2 3 = hub1.pkg.principal ∧ bits (0x3 : BitVec 32).toNat 1 2 < 2 ∧
    (hubDie { die1 with kpr := { step := 9, snapAt := 50001000 } }).now + broadcastNs hub2 1 ≤ 50001000 ∧ (hubReset {}).pkg.resets.has 1 = true ∧
    (hubReset {}).pkg.why.get 1 0 ≠ 1 ∧ (hubReset {}).pkg.why.get 1 0 ≠ 2 ∧ (getDie (bootDie 1 (hubReset {})) 1).atc.inRom = false ∧
    (getDie (bootDie 1 (hubReset {})) 1).regs.fw = (getDie (bootDie 1 (hubReset {})) 0).regs.fw ∧
    (getDie (bootDie 1 (hubReset { imgA := none })) 1).atc.inRom = true ∧ retiredDie (bootDie 1 (hubReset {})) 1 = 0 ∧
    retiredDie { hubReset {} with dies := [(0, die1), (1, { srv := { units := [{ unit := unitId 3 1 0, retired := true }] } })] } 1 ≠ 0 ∧ (hubReset {}).pkg.resets.find 1 = some 7 ∧
    (getDie (hubDie { die1 with kpr := { step := 9, armed := some (50001000, 1) } }) 0).kpr.armed = some (50001000, 1) := by
  unfold RegTakes
  decide +kernel

/-- A firmware image of 64 zero bytes, its hash from FIPS 180-4, and a provisioning image with one record. -/
def fwImage : Bytes :=
  [0x53, 0x4D, 0x46, 0x4B] ++ leBytes 4 0x30003 ++ leBytes 4 2 ++ leBytes 4 64 ++
    [245, 165, 253, 66, 209, 106, 32, 48, 39, 152, 239, 110, 211, 9, 151, 155, 67, 0, 61, 35, 32, 217, 240, 232, 234, 152, 49, 169, 39, 89, 251, 75] ++
    List.replicate 144 0
def rec1 : Bytes := [1, 0, 0, 0, 135, 7, 193, 206] ++ List.replicate 56 0
def provImage : Bytes :=
  [0x53, 0x4D, 0x50, 0x56] ++ leBytes 4 1 ++ leBytes 8 1 ++ [254, 65, 130, 37, 94, 197, 17, 63, 231, 84, 33, 227, 251, 204, 57, 203, 199, 144, 35, 32, 14, 128, 7, 27, 75, 3, 57, 4, 214, 230, 238, 58] ++
    List.replicate 16 0 ++ rec1

/-- Hypotheses of `Obligations.AtticCommands`, for ATC_FW_STAGE. -/
theorem witness_AtcFwStage : Fetches Machine.atcFwStage (cmd [(16, 8, 0x70000), (24, 4, 192)] 0 0 fwImage) (st hub1) ∧
    ((refusals Machine.atcFwStage (cmd [(16, 8, 0x70000), (24, 4, 192)] 0 0 fwImage) (st hub1)).all fun k => k.st == 0x0308 || !k.bad) = true := by
  unfold Fetches
  decide +kernel

/-- Hypotheses of `Obligations.AtticCommands`, for ATC_LOAD. -/
theorem witness_AtcLoad : Accepts Machine.atcLoad (cmd [(16, 8, 0x70000), (24, 4, 128)] 0 0 provImage) (st hub1) := by
  simp only [← accepts_iff]
  decide +kernel

/-- A die with something in its Attic's registers. -/
def dieAtc (a : Atc) : Die := { die1 with atc := a }

/-- Hypotheses of `Obligations.AtticCommands`. -/
theorem witness_AtticCommands : Accepts Machine.atcFwSelect (cmd []) (st hub1) ∧ Accepts Machine.atcFwCommit (cmd []) (st hub1) ∧
    Accepts Machine.atcQuery (cmd [(16, 1, 0), (24, 8, 0x40000)]) (st hub1) ∧ ({} : Atc).image < 2 ∧ slotValid {} 0 1 = false ∧
    slotValid { imgA := none } 0 0 = false ∧ (∀ d ∈ upDies hub1, (getDie hub1 d).atc.svn < 2 ^ 32) ∧
    ({} : Atc).inRom = false ∧ (1 : BitVec 32).toNat % 4 = 1 ∧ (2 : BitVec 32).toNat % 4 = 2 ∧ ({} : Atc).busy = none ∧
    ({ busy := some ⟨true, 5, 9⟩ } : Atc).busy = some ⟨true, 5, 9⟩ ∧ (1 : BitVec 32).toNat.testBit 1 = false := by
  simp only [← accepts_iff]
  decide +kernel

/-- Hypotheses of `Obligations.AtticCommands`, for the registers. -/
theorem witness_AtticRegisters : RegTakes (hubDie (dieAtc { rawLock := true, locked := true, barred := true, busy := some ⟨false, 5, 9⟩ })) 0 0 ∧
    RegTakes (hubDie (dieAtc { locked := false })) 0 0 ∧ (getDie (hubDie (dieAtc { locked := false })) 0).atc.inRom = false := by
  unfold RegTakes
  decide +kernel

/-- A function with MSI-X vectors, and a die whose interrupt source 3 is pending. -/
def hubInt (r : Regs) : Hub := { hubDie { die1 with regs := r } with fns := [(0, { enabled := true, msixSize := 8, vecMask := 4, vecPend := 4 })] }
def regs1 : Regs := { intMsix := true, intVec := 2, intCount := [(3, 1)] }

/-- Hypotheses of `Obligations.RegistersAndPins`. -/
theorem witness_RegistersAndPins : regReaches hub1 0 1 = true ∧ regReaches { hub1 with fns := [(0, { enabled := true }), (16, { enabled := true })] } 16 0 = true ∧
    asleep hub1 0 = false ∧ (0 : Nat) = integratorFn hub1 ∧ (16 : Nat) ≠ integratorFn hub1 ∧ accessOk 0x18 2 = false ∧ accessOk 0x1A 4 = false ∧
    0x600 / 0x100 = 6 ∧ 0x240 + 4 * 12 < 0x2100 ∧ (cntMask 0x200).testBit 0 = false ∧ (cntMask 0x61C).testBit 0 = true ∧
    RegTakes (hubInt regs1) 0 0 ∧ (0x8 : BitVec 32).toNat.testBit 3 = true ∧ regs1.intEn.testBit 3 = false ∧ intPending regs1 3 = true ∧
    intBad (accessWakes 0 0 (hubInt regs1)) 0 = false ∧ regs1.intOpen = none ∧ (getDie (hubInt { regs1 with intOpen := some 5 }) 0).regs.intOpen = some 5 ∧
    dieUp (hubInt regs1) 0 = true ∧ regs1.intVec < (getFn (hubInt regs1) 0).msixSize ∧ integratorFn (hubInt regs1) < 128 ∧
    (getFn (hubInt regs1) 0).vecMask.testBit 2 = true ∧ (getFn (hubInt regs1) 0).vecMask.testBit 1 = false ∧ fnAnswers (hubInt regs1) 0 = true ∧
    (7 : Nat) < (getFn (hubInt regs1) 0).msixSize ∧ (13 : BitVec 32).toNat % 16 = 13 ∧ ((dieVsync.pmx.pads.get 0 {}).func = 8) ∧
    powered hub1 = true ∧ dieUp hub1 1 = true ∧ awake hub1 1 = true ∧ (dieVsync.pmx.pads.find 0).isSome = true := by
  unfold RegTakes
  decide +kernel

/-- A die whose Field book holds a record. -/
def dieFbk : Die := { die1 with fbk := { head := 1, oldest := 49500000, buf := [List.replicate 32 1] } }

/-- Hypotheses of `Obligations.FieldBookAndJtag`. -/
theorem witness_FieldBookAndJtag : dieUp (hubDie dieFbk) 0 = true ∧ awake (hubDie dieFbk) 0 = true ∧ dieFbk.fbk.buf ≠ [] ∧ dieFbk.fbk.buf.length ≤ 1024 ∧
    dieFbk.fbk.buf.length ≤ dieFbk.fbk.head ∧ RegTakes (hubDie dieFbk) 0 0 ∧
    Accepts Machine.fbkReadCmd (cmd [(16, 1, 0), (18, 2, 1), (32, 8, 0x40000), (40, 4, 32)]) (st (hubDie dieFbk)) ∧
    Accepts Machine.fbkQuery (cmd [(16, 1, 0)]) (st hub2) ∧ (hubStart 0 .porst).pkg.phase = .porst ∧
    accessOk 0x3FFFE 4 = false ∧ accessOk 0x700 4 = true ∧ lockPermits 0x700 true = true ∧ lockPermits 0x100 true = false ∧
    lockPermits 0x18 false = true ∧ (getDie hub1 0).atc.unlocked = false ∧ jtagReaches hub1 0 0x18 = true ∧ asleep hub1 0 = false ∧
    jtagReaches (hubDie (dieAtc { unlocked := true })) 0 0 = true ∧ (getDie (hubDie { die1 with kdbg := { halted := some 5 } }) 0).kdbg.halted = some 5 ∧
    dieUp (hubDie { die1 with kdbg := { halted := some 5 } }) 0 = true := by
  simp only [← accepts_iff]
  unfold RegTakes
  decide +kernel

/-! ### Well-formedness: one ill-formed command for each check -/

def badCmd : Cmd := { cmd [] with ctx := 4096 }
def longCmd (n : Nat) : Cmd := cmd [] 0 0 (List.replicate n 0)

theorem test_illFormedContext : [Instr.dblSqTailWrite 4096 0 0, .dblCtrlOpen 4096 0 0, .ringAccessError 4096 0 false, .commandFetch 4096 [], .orderedRelease 4096,
    .remotePartRequest 4096 0 ⟨0, []⟩, .remoteTimeout 4096, .nop badCmd, .layerGeom badCmd, .atcLoad badCmd].all (!·.wf) = true := by decide +kernel

theorem test_illFormedFunction : [Instr.dblSqTailWrite 0 128 0, .functionLevelReset 128, .busMasterDisable 128 true, .registerWrite 128 0 4 0,
    .msixTableWrite 128 0 true, .dmaCtrlGo 128 0 0 0, .kprResetPkg 128 0 0, .atcLockWrite 128 0 0].all (!·.wf) = true := by decide +kernel

theorem test_illFormedDie : [Instr.remotePartAnswer 0 8, .groupDecision 0 8, .plotterJobStart 8, .dmaDescriptorStart 8 4, .dmaCtrlGo 0 8 0 0, .pllLock 8 0,
    .sensorConversion 8 0 0, .dieLoss 8 1, .jtagKdebug 8 0 0 0, .dieReport 8, .pmxPadWrite 0 8 0 0, .supplyFault 8 0].all (!·.wf) = true := by decide +kernel

theorem test_illFormedOutputPortEngine : [Instr.vblankStart 32, .modeStart 32, .checkResultFinal 32 none, .zonePacketTransmit 32, .chkLaneCapture 32 0,
    .tileStart 192, .dozeEntry 64, .laneBlockLock 64 0, .dpUnplug 64, .bcast 64 []].all (!·.wf) = true := by decide +kernel

theorem test_illFormedNumbers : [Instr.chkLaneCapture 0 18, .chkLanePreset 0 16, .dmaDescriptorStart 0 32, .privDmaComplete 0 4, .laneBlockLock 0 2, .laneAdapted 4 0 [] [], .laneAdapted 4 0 foms1 [0], .linkLoss 0 5,
    .fomWindowEnd 0 2 0 0 0, .sensorConversion 0 12 0, .pllLock 0 3, .pllLockLoss 0 19, .clkOutWrite 0 0 2 0, .dieLoss 0 8, .pmxPadWrite 0 0 24 0,
    .jtagKdebug 0 7 0 0, .atlasEntryFree 65536, .fenceTimeout 2048, .registerWrite 0 0x800000 4 0, .bitAliasWrite 0 0x7FFFFC 4 0, .bitAliasWrite 0 0x1800000 4 0,
    .msixTableWrite 0 64 true, .resizableBarWrite 0 27, .resizableBarWrite 0 35, .commandFetch 0 (List.replicate 9 ⟨0, []⟩)].all (!·.wf) = true := by decide +kernel

theorem test_longBlock : (Instr.nop (longCmd 65537)).wf = false ∧ (Instr.nop (longCmd 65536)).wf = true ∧ (Instr.atcLoad (longCmd 65537)).wf = true := by
  simp only [Instr.wf, Cmd.wf, longCmd, cmd, List.length_replicate]
  decide

theorem test_wellFormed : [Instr.dblSqTailWrite 4095 127 0, .vblankStart 31, .dozeEntry 63, .plotterJobStart 7, .pllLockLoss 7 23, .chkLaneCapture 31 17,
    .resizableBarWrite 127 34, .jtagKdebug 7 6 0 0, .laneAdapted 63 1 foms1 [0, 1, 2], .nop (cmd [])].all Instr.wf = true := by decide +kernel

/-! ### One step, with results from the manual's worked examples -/

/-- The hub of a next state; the empty one otherwise. -/
def hubOf : Host.Outcome State Fault Refusal → Hub
  | .next s => s.hub
  | _ => {}

/-- The state with a command at the front. -/
def run1 (i : Instr) (h : Hub) : Hub := hubOf (Machine.step { st h with pending := [i] })

/-- Context 512 of the reference cockpit's infotainment host, with `k` of its three commands fetched (02, worked example). -/
def hub512 (k : Nat) (x : CtxState) : Hub :=
  { now := 1900, pkg := { part := 4, sites := 15, sitesUp := 15, phase := .ready }, dies := [(0, die1), (1, die1), (2, die1), (3, die1)]
    fns := [(0, { enabled := true }), (16, { enabled := true, master := true, msixSize := 8 }), (20, { enabled := true })]
    ctxs := [(512, { state := x, fn := 0, level := 0, sqTail := if x = .opened then 3 else 0, sqHead := k, cqTail := k, sqBase := 0x840000000, cqBase := 0x840001000, cfg := 0x19034366
                     sqBaseL := 0x840000000, cqBaseL := 0x840001000, cfgL := 0x19034366 }), (0, { ctx1 with sqTail := 0 })] }

/-- A command of context 512 as the example gives it. -/
def cmd512 (tag : BitVec 32) (l : List (Nat × Nat × Nat)) : Cmd := { cmd l with ctx := 512, tag := tag }

/-- The bytes of completion slot `k`. -/
def slot512 (k : Nat) (h : Hub) : List (Option Byte) := hostRead 16 (0x840001000 + 32 * k) h 16

/-- 02: DBL_STATUS then reads STATE = 2, REASON = 0. -/
theorem test_open512 : (let x := getCtx (run1 (.dblCtrlOpen 512 16 1) (hub512 0 .closed)) 512; (x.state, x.reason)) = (.opened, 0) := by decide +kernel

/-- 02: completion 1, of CTX_INFO: RESULT0 0x200, TAG 0x102, SQ_HEAD 2, CFLAGS 1, ERR_OFFSET 0xFF. -/
theorem test_ctxInfo512 : slot512 1 (run1 (.ctxInfo (cmd512 0x102 [])) (hub512 1 .opened)) =
    (leBytes 2 0 ++ leBytes 2 2 ++ leBytes 4 0x102 ++ leBytes 2 2 ++ leBytes 1 1 ++ leBytes 1 0xFF ++ leBytes 4 0x200).map some := by decide +kernel

/-- 02: completion 2, of CTX_ASSIGN at client level: 0x0301 at 0, and slot 520 is still UNASSIGNED. -/
theorem test_ctxAssign512 : (let h := run1 (.ctxAssign (cmd512 0x103 [(16, 2, 520), (18, 1, 4)])) (hub512 2 .opened)
    ((slot512 2 h).take 12, (getCtx h 520).state)) =
    ((leBytes 2 0x301 ++ leBytes 2 0x10 ++ leBytes 4 0x103 ++ leBytes 2 3 ++ leBytes 1 1 ++ leBytes 1 0).map some, .unassigned) := by decide +kernel

/-- 05: the matrix, dither and phases of a camera pixel on MIRROR_L. -/
theorem test_cameraPixel : matPx (builtInMat 0 8) { b := 6425, g := 11565, r := 9638, a := 0 } = { b := 8467, g := 11898, r := 14802, a := 0 } ∧
    ((List.range 16).map fun i => packCh 8 1 0 (i % 4) (i / 4) 14802).sum = 230 * 16 + 6 ∧
    ((List.range 16).map fun i => packCh 8 1 0 (i % 4) (i / 4) 8467).sum = 131 * 16 + 12 ∧
    axisInc 1920 1280 = 98304 ∧ [0, 1, 2].map (axisPh 1920 1280) = [16, 48, 16] ∧ axisInc 1536 960 = 104858 ∧ axisPh 1536 960 0 = 19 := by decide +kernel

/-- 08: CLUSTER's entry passes; the one with V_FRONT 2, V_SYNC 4 and V_BACK 6 draws 0x0207 with ERR_OFFSET 0xFF. -/
def cluster (a b c : Nat) : ModeEntry :=
  { num := 0, flags := 0x2B, hActive := 2880, hFront := 48, hSync := 32, hBack := 80, vActive := 1080, vFront := a, vSync := b, vBack := c
    pllN := 150, pllP := 20, vTotalMax := 0 }
theorem test_clusterEntry : hTotal (cluster 3 6 22) = 3040 ∧ vTotal (cluster 3 6 22) = 1111 ∧ pixelHz (cluster 3 6 22) = 202500000 ∧
    firstFail true (entryCks 16 (modeImage (cluster 3 6 22))) = none ∧
    firstFail true (entryCks 16 (modeImage (cluster 2 4 6))) = some (ck 0x0207 255 true) := by decide +kernel

/-- 12: a COMPARE that stops at granule 4949 of both ranges is charged 39,700 cycles, an equal one 100 + 4 × 388,800. -/
theorem test_compareCost : (let d : DmaDesc := { op := 3, flags := 2, planes := 0, dst := 0x10005, dstOff := 0, len := 12441600, source := 0x10006, value := 0, seq := 0 }
    (descCost d false 316800, descCost d false 12441600)) = (39700, 1555300) := by decide +kernel

/-- 11: the copy of a 640 × 640 needle costs 205,300 cycles. -/
theorem test_needleCost : (let s : Surf := { surf1 with width := 640, height := 640 }
    let j : Job := { job1 with op := 2, srcRect := [0, 0, 640, 640], dstRect := [0, 0, 640, 640] }
    500 + ceilDiv (640 * stepPixels j s 7) 2) = 205300 := by decide +kernel

/-- 14: on an SHM4 die 1 reaches die 0 by its link 2; on an SHM8 die 3 reaches die 0 by link 2 to die 7 and link 0 to die 0. -/
theorem test_routes : route 4 1 0 = [(1, 2, 1)] ∧ route 8 3 0 = [(3, 2, 1), (7, 0, 1)] := by decide +kernel

/-- 20: the wake timer is enabled in a die in DEEP through the bit alias, and the die does not wake. -/
theorem test_wakeTimerAlias :
    (let p := (getDie (run1 (.bitAliasWrite 0 0xE0A18C 4 1) { hub512 0 .opened with
        dies := [(0, die1), (1, die1), (2, die1), (3, diePwr { state := .deep })] }) 3).pwr; (p.wakeEn, p.state)) = (0x0F, .deep) := by decide +kernel

/-- 20: the write of 0x0001_0000 to INT_CNT_0 sets ACK to 1 and leaves COUNT. -/
theorem test_intAck : (let r := (getDie (run1 (.registerWrite 0 0x240 4 0x10000) (hubInt { intCount := [(0, 2)] })) 0).regs
    (r.intAck.get 0 0, r.intCount.get 0 0)) = (1, 2) := by decide +kernel

/-- 21: FUNC 8 on pad 4 while pad 3 requests it is ignored and counted; after pad 3 has let go of it, it is taken. -/
theorem test_movePad : (let a := run1 (.pmxPadWrite 0 0 4 8) (hubDie { die1 with pmx := { pads := [(3, { func := 8, active := 8 })] } })
    let b := run1 (.pmxPadWrite 0 0 4 8) (run1 (.pmxPadWrite 0 0 3 0) a)
    ((getDie a 0).pmx.ignored, ((getDie a 0).pmx.pads.get 4 {}).func, ((getDie b 0).pmx.pads.get 4 {}).func, (getDie b 0).pmx.ignored)) = (1, 0, 8, 1) := by
  decide +kernel

/-- 19 R487; FIPS 180-4: the hash of a body of 64 zero bytes verifies. -/
theorem test_imageBody : imgBody fwImage = true ∧ imgBody (fwImage.set 150 1) = false := by decide +kernel

end Sys2Proof.Tests
end

section
/-!
The ring entry of a command (02, "Command layout"): the field at each offset of its word, and the entry taken apart again.
-/

open BitVec

namespace Sys2Proof.Machine

/-- The arithmetic field of a number agrees with the bits cut out of its bit vector: what the layout says in numbers (00 R7) is
proved below of bit vectors. -/
theorem bits_toNat {n : Nat} (v : BitVec n) (lo w : Nat) : bits v.toNat lo w = (v.extractLsb' lo w).toNat := by
  rw [extractLsb'_toNat, Nat.shiftRight_eq_div_pow, bits]

/-! ### The fields of the word

An entry's word is its fields one above the other, so a field is found by skipping those below it and reading the lowest left. -/

section
variable (op : BitVec 16) (c : Cmd)

@[simp] theorem cmdRaw_opcode : (cmdRaw op c).word.extractLsb' 0 16 = op := extractLsb'_append_eq_right

/-- Above the opcode. -/
theorem cmdRaw_above_opcode {lo : Nat} (w : Nat) (h : 16 ≤ lo) : (cmdRaw op c).word.extractLsb' lo w =
    (c.args ++ c.rsvd ++ c.txn ++ c.tag ++ c.layout ++ c.flags).extractLsb' (lo - 16) w :=
  extractLsb'_append_eq_of_le h

/-- Above the first four bytes: OPCODE, FLAGS and LAYOUT. -/
theorem cmdRaw_above_layout {lo : Nat} (w : Nat) (h : 32 ≤ lo) : (cmdRaw op c).word.extractLsb' lo w =
    (c.args ++ c.rsvd ++ c.txn ++ c.tag).extractLsb' (lo - 32) w := by
  rw [cmdRaw_above_opcode op c w (by omega), extractLsb'_append_eq_of_le (by omega), extractLsb'_append_eq_of_le (by omega),
    Nat.sub_sub, Nat.sub_sub]

/-- Above the sixteen bytes of the header. -/
theorem cmdRaw_args {lo : Nat} (w : Nat) (h : 128 ≤ lo) : (cmdRaw op c).word.extractLsb' lo w = c.args.extractLsb' (lo - 128) w := by
  rw [cmdRaw_above_layout op c w (by omega), extractLsb'_append_eq_of_le (by omega), extractLsb'_append_eq_of_le (by omega),
    extractLsb'_append_eq_of_le (by omega), Nat.sub_sub, Nat.sub_sub, Nat.sub_sub]

@[simp] theorem cmdRaw_flags : (cmdRaw op c).word.extractLsb' 16 8 = c.flags := by
  rw [cmdRaw_above_opcode op c 8 (by decide), extractLsb'_append_eq_right]

@[simp] theorem cmdRaw_layout : (cmdRaw op c).word.extractLsb' 24 8 = c.layout := by
  rw [cmdRaw_above_opcode op c 8 (by decide), extractLsb'_append_eq_of_le (by decide), extractLsb'_append_eq_right]

@[simp] theorem cmdRaw_tag : (cmdRaw op c).word.extractLsb' 32 32 = c.tag := by
  rw [cmdRaw_above_layout op c 32 (by decide), extractLsb'_append_eq_right]

@[simp] theorem cmdRaw_txn : (cmdRaw op c).word.extractLsb' 64 32 = c.txn := by
  rw [cmdRaw_above_layout op c 32 (by decide), extractLsb'_append_eq_of_le (by decide), extractLsb'_append_eq_right]

@[simp] theorem cmdRaw_rsvd : (cmdRaw op c).word.extractLsb' 96 32 = c.rsvd := by
  rw [cmdRaw_above_layout op c 32 (by decide), extractLsb'_append_eq_of_le (by decide), extractLsb'_append_eq_of_le (by decide),
    extractLsb'_append_eq_right]

/-- An argument field of any size stands in the entry at its own offset. -/
theorem bits_cmdRaw_argN {off : Nat} (size : Nat) (h : 16 ≤ off) :
    bits (cmdRaw op c).word.toNat (8 * off) (8 * size) = argN c off size := by
  rw [bits_toNat, cmdRaw_args op c _ (by omega), ← bits_toNat, argN, Nat.mul_sub]

/-! ### The entry taken apart -/

@[simp] theorem rawOpcode_cmdRaw : rawOpcode (cmdRaw op c) = op.toNat := by
  rw [rawOpcode, cmdRaw_opcode]

theorem rawCmd_cmdRaw (ctx : Nat) : rawCmd ctx (cmdRaw op c) = { c with ctx := ctx } := by
  have hargs : (cmdRaw op c).word.extractLsb' 128 384 = c.args := by
    rw [cmdRaw_args op c 384 (by decide), Nat.sub_self, extractLsb'_eq_self]
  have hblock : (cmdRaw op c).block = c.block := rfl
  simp only [rawCmd, cmdRaw_flags, cmdRaw_layout, cmdRaw_tag, cmdRaw_txn, cmdRaw_rsvd, hargs, hblock]

end

/-- Settles O7: each field of the word is the one that the layout puts there, and the fields together are the command. -/
theorem entryFieldsArePlaced : Obligations.EntryFieldsArePlaced := by
  intro op c
  refine ⟨?_, ?_, ?_, ?_, ?_, ?_, fun k _ => bits_cmdRaw_argN op c 1 (Nat.le_add_right 16 k), rawOpcode_cmdRaw op c,
    rawCmd_cmdRaw op c c.ctx⟩ <;>
  simp only [bits_toNat, cmdRaw_opcode, cmdRaw_flags, cmdRaw_layout, cmdRaw_tag, cmdRaw_txn, cmdRaw_rsvd]

end Sys2Proof.Machine
end

section
/-!
The frame boundaries of an output: the latch instant (07 R178; 08 R220), the start of vertical blank (08 R208) and the end of the drain
(01 R14).
-/

namespace Sys2Proof.Machine

/-- What every `f` on an output keeps of it, an update keeps of every output. -/
theorem getOut_updOut_keeps {γ : Type} (F : Output → γ) (h : Hub) (o q : Nat) {f : Output → Output} (hf : ∀ x, F (f x) = F x) :
    F (getOut (updOut h o f) q) = F (getOut h q) := by
  by_cases hq : q = o
  · rw [hq, getOut_updOut, hf]
  · rw [getOut_updOut_ne h o q f hq]

theorem updOut_congr (h : Hub) (o : Nat) {f g : Output → Output} (e : f (getOut h o) = g (getOut h o)) : updOut h o f = updOut h o g := by
  rw [updOut, updOut, e]

/-! ### Groups -/

/-- The group settings of an output (08 R231). -/
def Output.group (x : Output) : Nat × Nat × List Nat := (x.grp, x.primary, x.members)

theorem membersOf_congr {g h : Hub} {q : Nat} (e : (getOut g q).group = (getOut h q).group) : membersOf g q = membersOf h q := by
  obtain ⟨hg, hp, hm⟩ := by simpa only [Output.group, Prod.mk.injEq] using e
  simp [membersOf, composed, hg, hp, hm]

theorem listOf_congr {g h : Hub} {q : Nat} (e : (getOut g q).group = (getOut h q).group) : listOf g q = listOf h q := by
  obtain ⟨hg, hp, -⟩ := by simpa only [Output.group, Prod.mk.injEq] using e
  simp [listOf, nonPrimary, composed, hg, hp]

theorem listOf_of_lone {h : Hub} {o : Nat} (hg : (getOut h o).grp = 0) : listOf h o = o := by
  simp [listOf, nonPrimary, composed, hg]

theorem membersOf_of_lone {h : Hub} {o : Nat} (hg : (getOut h o).grp = 0) : membersOf h o = [o] := by
  simp [membersOf, composed, hg]

/-! ### The latch instant -/

section
variable (h : Hub) (o l : Nat)

theorem group_latchLayers (q : Nat) : (getOut (latchLayers o l h) q).group = (getOut h q).group :=
  getOut_updOut_keeps Output.group h o q fun _ => rfl

theorem catches_latchLayers (t : Txn) (q i : Nat) : catches (latchLayers o l h) t q i = catches h t q i := by
  simp only [catches, leftOut, membersOf_congr (group_latchLayers h o l q)]
  rfl

theorem caughtBy_latchLayers (q i : Nat) : caughtBy (latchLayers o l h) q i = caughtBy h q i := by
  simp only [caughtBy, catches_latchLayers, listOf_congr (group_latchLayers h o l q)]
  rfl

theorem recAt_latchLayers (q i k : Nat) (x : Layer) : recAt (latchLayers o l h) q i k x = recAt h q i k x := by
  simp only [recAt, caughtBy_latchLayers, listOf_congr (group_latchLayers h o l q)]
  rfl

end

/-- Will output `o` show another picture from the boundary with latch instant `l` on (08 R220)? -/
def latchChange (h : Hub) (o l : Nat) : Bool :=
  (getOut h o).changed || !(caughtBy h o l).isEmpty ||
    h.layers.any fun k => k.2.out == listOf h o && neverStatic h k.1 (recAt h o l k.1 k.2)

theorem latchChange_eq_true {h : Hub} {o l : Nat} : latchChange h o l = true ↔ (getOut h o).changed = true ∨ caughtBy h o l ≠ [] ∨
    ∃ k ∈ h.layers, k.2.out = listOf h o ∧ neverStatic h k.1 (recAt h o l k.1 k.2) = true := by
  simp [latchChange, or_assoc]

theorem changed_latchLayers (h : Hub) (o l q : Nat) : (getOut (latchLayers o l h) q).changed = (getOut h q).changed :=
  getOut_updOut_keeps Output.changed h o q fun _ => rfl

theorem latchChange_latchLayers (h : Hub) (o l : Nat) : latchChange (latchLayers o l h) o l = latchChange h o l := by
  simp only [latchChange, changed_latchLayers, caughtBy_latchLayers, recAt_latchLayers, listOf_congr (group_latchLayers h o l o)]
  rfl

/-- An output after the latch instant `l`, with its count of static pictures and the standing of its cache frame. -/
def latchedOut (h : Hub) (o l n : Nat) (stale : Bool) (x : Output) : Output := { x with
  staticCount := n, cacheStale := stale, fills := latchFills h o l, fillsOld := fillsWith h o fun _ y => y.cur
  tabAt := h.tables.get o [], changed := false, dirty := [], dirtyAt := x.dirty
  scan := x.scan.map fun s => { s with latched := true } }

/-- What the opening of a decision leaves of every output. -/
theorem openDecision_keeps {γ : Type} (F : Output → γ) (hF : ∀ x v d t, F { x with verdict := v, decided := d, openAt := t } = F x)
    (o l : Nat) (h : Hub) (q : Nat) : F (getOut (openDecision o l h) q) = F (getOut h q) := by
  refine getOut_updOut_keeps F h (groupHead h o) q fun x => ?_
  rw [apply_ite F, hF, ite_self]

/-- The latch instant of a running output that has not latched: what its layers will show is fixed under the decision that opens then. -/
theorem latch_of_running {o : Nat} {h : Hub} {e : ModeEntry} {sc : Scan} (hm : (getOut h o).mode = some e)
    (hs : (getOut h o).scan = some sc) (hr : (getOut h o).state = .running) (hl : sc.latched = false) :
    let l := latchAt e sc
    let g := openDecision o l (at_ l h)
    latch o h = updOut g o (latchedOut g o l (if latchChange g o l then 0 else satInc 65535 (getOut h o).staticCount)
      ((getOut h o).cacheStale || latchChange g o l)) := by
  intro l g
  have hg : ∀ {γ : Type} (F : Output → γ), (∀ x v d t, F { x with verdict := v, decided := d, openAt := t } = F x) →
      F (getOut g o) = F (getOut h o) := fun F hF => openDecision_keeps F hF o l (at_ l h) o
  have hch : (getOut (latchLayers o l g) o).changed = (getOut h o).changed := by
    rw [changed_latchLayers, hg Output.changed fun _ _ _ _ => rfl]
  have hcnt := hg Output.staticCount fun _ _ _ _ => rfl
  have hst := hg Output.cacheStale fun _ _ _ _ => rfl
  have step : latch o h = updOut (latchLayers o l g) o fun x => { x with
      staticCount := if latchChange (latchLayers o l g) o l then 0 else satInc 65535 x.staticCount
      cacheStale := x.cacheStale || latchChange (latchLayers o l g) o l
      tabAt := (latchLayers o l g).tables.get o [], changed := false, dirty := [], dirtyAt := x.dirty
      scan := x.scan.map fun s => { s with latched := true } } := by
    simp only [latch, hm, hs, hr, hl, latchChange, hch]
    rfl
  rw [step, latchChange_latchLayers, ← hcnt, ← hst]
  exact updOut_updOut g o _ _

/-! ### The start of vertical blank -/

theorem settleLoss_of_locked {h : Hub} {o : Nat} (hp : (getOut h o).pllLost = false) : settleLoss o h = h := by
  simp [settleLoss, hp]

theorem foldl_settleLoss_of_locked {h : Hub} {ms : List Nat} (hp : ∀ m ∈ ms, (getOut h m).pllLost = false) :
    ms.foldl (fun h m => settleLoss m h) h = h := by
  refine List.foldlRecOn ms _ (motive := fun g => g = h) rfl fun g hg m hm => ?_
  rw [hg, settleLoss_of_locked (hp m hm)]

/-- Before the end of its last active line nothing opens an output's vertical blank. -/
theorem vblankStart_of_not_atBlank {h : Hub} {o : Nat} (hb : atBlank (getOut h o) = false)
    (hp : ∀ m ∈ membersOf h (listOf h o), (getOut h m).pllLost = false) : vblankStart o h = h := by
  simp [vblankStart, foldl_settleLoss_of_locked hp, hb]

/-! ### What the actions of a boundary leave of the outputs and the transactions

Most actions of a start of vertical blank write no output and no transaction (`outsTxns`); those that do leave what the boundary goes by
(`bearing`), and after the blank has opened also where the timing generator is and the frame (`place`).  The three that move an output, the
opening of the blank, the step of the frame counter and the new frame, have an equation each. -/

theorem foldl_keeps {α β γ : Type} (F : α → γ) {f : α → β → α} (hf : ∀ a b, F (f a b) = F a) (l : List β) (a : α) :
    F (l.foldl f a) = F a :=
  List.foldlRecOn l f (motive := fun x => F x = F a) rfl fun x hx b _ => (hf x b).trans hx

/-- The outputs and the transactions of a hub. -/
def Hub.outsTxns (h : Hub) : Tab Output × Tab Txn := (h.outs, h.txns)

theorem outsTxns_of_rest {g h : Hub} (e : g.rest = h.rest) : g.outsTxns = h.outsTxns := (congrArg Hub.outsTxns e :)

theorem outsTxns_emptyBuffer (d : Nat) (h : Hub) : (emptyBuffer d h).outsTxns = h.outsTxns := by
  unfold emptyBuffer
  split <;> rfl

theorem outsTxns_endOp (st r1 : Nat) (h : Hub) (p : LaneOp) : (endOp st r1 h p).outsTxns = h.outsTxns := by
  unfold endOp
  split
  · rfl
  · exact outsTxns_of_rest (rest_complete _ _ _ _ _ h)

theorem outsTxns_settleLayer (o : Nat) (f : Frame) (h : Hub) (l : FrameLayer) : (settleLayer o f h l).outsTxns = h.outsTxns := by
  unfold settleLayer
  dsimp only
  split
  · rw [outsTxns_of_rest (rest_postEvent _ _ _ _ _)]
    rfl
  · rfl

/-! #### Ports -/

theorem outsTxns_trainSend (n k : Nat) (h : Hub) : (trainSend n k h).outsTxns = h.outsTxns := by
  unfold trainSend
  dsimp only
  rw [foldl_keeps Hub.outsTxns]
  intro _ _
  rfl

theorem outsTxns_payloadDue (k : Nat) (h : Hub) : (payloadDue k h).outsTxns = h.outsTxns := by
  unfold payloadDue
  split
  · exact outsTxns_trainSend 8 k _
  · rfl

theorem outsTxns_sendBlock (k typ : Nat) (bytes data : Bytes) (h : Hub) : (sendBlock k typ bytes data h).outsTxns = h.outsTxns := by
  unfold sendBlock
  split
  · rfl
  · exact outsTxns_payloadDue k h

theorem outsTxns_sendLight (k : Nat) (w : Nat × Nat × Pend) (h : Hub) : (sendLight k w.1 w.2.1 w.2.2 h).outsTxns = h.outsTxns :=
  outsTxns_of_rest (rest_complete _ _ _ _ _ _)

theorem outsTxns_sendDsi (k : Nat) (w : Bytes × Bool × Pend) (h : Hub) : (sendDsi k w.1 w.2.1 w.2.2 h).outsTxns = h.outsTxns := by
  unfold sendDsi
  split
  · rfl
  · exact outsTxns_of_rest (rest_complete _ _ _ _ _ _)

theorem outsTxns_portBlank (k : Nat) (h : Hub) : (portBlank k h).outsTxns = h.outsTxns := by
  unfold portBlank
  dsimp only
  rw [foldl_keeps Hub.outsTxns fun g w => outsTxns_sendDsi k w g, foldl_keeps Hub.outsTxns fun g w => outsTxns_sendLight k w g]
  rfl

/-! #### Display PLLs -/

theorem outsTxns_pllRecord (d i : Nat) (h : Hub) : (pllRecord d i h).outsTxns = h.outsTxns := by
  unfold pllRecord
  dsimp only
  rw [outsTxns_of_rest (rest_fbkRecord _ _ _ _ _ _)]
  rfl

theorem outsTxns_updPll (d i : Nat) (f : Pll → Pll) (h : Hub) : (updPll d i f h).outsTxns = h.outsTxns := by
  unfold updPll
  dsimp only
  split
  · rfl
  · exact (outsTxns_pllRecord d i _).trans (outsTxns_of_rest (rest_intEvent d 9 _))

theorem outsTxns_offsetPll (v : Int) (h : Hub) (m : Nat) : (offsetPll v h m).outsTxns = h.outsTxns := by
  unfold offsetPll
  dsimp only
  split
  · rfl
  · exact outsTxns_updPll _ _ _ h

/-! ### What a boundary goes by -/

/-- What of an output its start of vertical blank goes by, but for its timing generator. -/
def Output.bearing (x : Output) : Option ModeEntry × OutState × Nat × Option Nat × Bool × Nat :=
  (x.mode, x.state, x.grp, x.newOwner, x.stopNext, x.frameCount)

/-- Where a timing generator is: its start of vertical blank, its line, its drain, and the frames since S. -/
def Scan.mark (sc : Scan) : Nat × Nat × Bool × Nat := (sc.vbPx, sc.line, sc.drained, sc.frames)

/-- The bearing of an output, where it is, and its frame. -/
def Output.place (x : Output) := (x.bearing, x.scan.map Scan.mark, x.frame)

/-- The bearing of an output and the transactions. -/
def Hub.bearing (h : Hub) (o : Nat) := ((getOut h o).bearing, h.txns)

/-- The place of an output and the transactions. -/
def Hub.place (h : Hub) (o : Nat) := ((getOut h o).place, h.txns)

theorem place_of_outsTxns {g h : Hub} (e : g.outsTxns = h.outsTxns) (q : Nat) : g.place q = h.place q := by
  obtain ⟨ho, ht⟩ := by simpa only [Hub.outsTxns, Prod.mk.injEq] using e
  simp only [Hub.place, getOut, ho, ht]

theorem bearing_of_place {g h : Hub} {q : Nat} (e : g.place q = h.place q) : g.bearing q = h.bearing q :=
  congrArg (fun p => (p.1.1, p.2)) e

theorem bearing_of_outsTxns {g h : Hub} (e : g.outsTxns = h.outsTxns) (q : Nat) : g.bearing q = h.bearing q :=
  bearing_of_place (place_of_outsTxns e q)

theorem bearing_updOut (h : Hub) (o q : Nat) {f : Output → Output} (hf : ∀ x, (f x).bearing = x.bearing) :
    (updOut h o f).bearing q = h.bearing q :=
  congrArg (·, h.txns) (getOut_updOut_keeps Output.bearing h o q hf)

theorem place_updOut (h : Hub) (o q : Nat) {f : Output → Output} (hf : ∀ x, (f x).place = x.place) :
    (updOut h o f).place q = h.place q :=
  congrArg (·, h.txns) (getOut_updOut_keeps Output.place h o q hf)

/-! #### The end of the frame -/

theorem place_openDecision (o l : Nat) (h : Hub) (q : Nat) : (openDecision o l h).place q = h.place q :=
  congrArg (·, h.txns) (openDecision_keeps Output.place (fun _ _ _ _ => rfl) o l h q)

/-- The latch instant does nothing, or fixes what an output will show under the decision that opens then. -/
theorem latch_cases (o : Nat) (h : Hub) : latch o h = h ∨ ∃ l n b,
    latch o h = updOut (openDecision o l (at_ l h)) o (latchedOut (openDecision o l (at_ l h)) o l n b) := by
  cases hm : (getOut h o).mode with
  | none => exact .inl (by simp only [latch, hm])
  | some e =>
    cases hs : (getOut h o).scan with
    | none => exact .inl (by simp only [latch, hm, hs])
    | some sc =>
      by_cases hr : (getOut h o).state = .running ∧ sc.latched = false
      · exact .inr ⟨_, _, _, latch_of_running hm hs hr.1 hr.2⟩
      · have hc : ((getOut h o).state != .running || sc.latched) = true := by
          rw [Bool.or_eq_true, bne_iff_ne]
          by_cases hst : (getOut h o).state = .running
          · exact .inr (eq_true_of_ne_false fun hlt => hr ⟨hst, hlt⟩)
          · exact .inl hst
        exact .inl (by simp only [latch, hm, hs, hc, if_true])

theorem bearing_latch (o : Nat) (h : Hub) (q : Nat) : (latch o h).bearing q = h.bearing q := by
  obtain e | ⟨l, n, b, e⟩ := latch_cases o h
  · rw [e]
  · rw [e, bearing_updOut, bearing_of_place (place_openDecision o l _ q)]
    · rfl
    · exact fun _ => rfl

theorem bearing_captureOps (o : Nat) (chs : Nat → Bool) (h : Hub) (q : Nat) : (captureOps o chs h).bearing q = h.bearing q := by
  have first : (updOut h o fun x => { x with chk := lineSentWhole x.chk }).bearing q = h.bearing q := by
    rw [bearing_updOut]
    exact fun _ => rfl
  unfold captureOps
  cases hs : (getOut (updOut h o fun x => { x with chk := lineSentWhole x.chk }) o).scan with
  | none => simpa only [hs] using first
  | some sc =>
    simp only [hs]
    rw [foldl_keeps (Hub.bearing · q) fun g p => bearing_of_outsTxns (outsTxns_endOp _ _ g p) q, bearing_updOut, first]
    exact fun _ => rfl

theorem bearing_settleFrame (p : Nat) (h : Hub) (q : Nat) : (settleFrame p h).bearing q = h.bearing q := by
  unfold settleFrame
  split
  · rfl
  · split
    · rfl
    · rw [foldl_keeps (Hub.bearing · q) fun g l => bearing_of_outsTxns (outsTxns_settleLayer p _ g l) q, bearing_updOut]
      · rfl
      · exact fun _ => rfl

theorem bearing_endFrame (x : Output) : (endFrame x).bearing = x.bearing := by
  unfold endFrame
  split <;> rfl

theorem bearing_closeFrame (o : Nat) (h : Hub) (q : Nat) : (closeFrame o h).bearing q = h.bearing q := calc
  (closeFrame o h).bearing q = (updOut (settleFrame o (captureOps o (fun _ => true) h)) o endFrame).bearing q := rfl
  _ = (settleFrame o (captureOps o (fun _ => true) h)).bearing q := bearing_updOut _ o q bearing_endFrame
  _ = (captureOps o (fun _ => true) h).bearing q := bearing_settleFrame o _ q
  _ = h.bearing q := bearing_captureOps o _ h q

/-! #### The blank opens -/

theorem setRate_frames (e : ModeEntry) (px : Nat) (ppm : Int) (sc : Scan) : (setRate e px ppm sc).frames = sc.frames := by
  unfold setRate
  split <;> rfl

/-- The outputs after the vertical blank of `o` has opened: its scan is at line 0 of the blank that the mode gives. -/
theorem openBlank_outsTxns {o : Nat} {h : Hub} {e : ModeEntry} {sc : Scan} (hm : (getOut h o).mode = some e)
    (hs : (getOut h o).scan = some sc) : ∃ g z, g.bearing o = h.bearing o ∧ z.mark = (nextBlankPx e sc, 0, false, sc.frames) ∧
      (openBlank o h).outsTxns = (updOut g o fun x => { x with scan := some z }).outsTxns := by
  have close : (closeFrame o (at_ (nextBlank e sc) (latch o h))).bearing o = h.bearing o :=
    (bearing_closeFrame o _ o).trans (bearing_latch o h o)
  have rate (c : Prop) [Decidable c] (ppm : Int) (g : Hub) :
      (if c then updOut g o fun x => { x with gen := { x.gen with rate := ppm } } else g).bearing o = g.bearing o := by
    split
    · exact bearing_updOut g o o (f := fun x => { x with gen := { x.gen with rate := ppm } }) fun _ => rfl
    · rfl
  unfold openBlank
  simp only [hm, hs]
  split
  · refine ⟨_, _, (rate _ _ _).trans close, ?_, rfl⟩
    simp only [Scan.mark, setRate_frames]
  · refine ⟨_, _, (rate _ _ _).trans close, ?_, outsTxns_portBlank _ _⟩
    simp only [Scan.mark, setRate_frames]

theorem openBlank_spec {o : Nat} {h : Hub} {e : ModeEntry} {sc : Scan} (hm : (getOut h o).mode = some e)
    (hs : (getOut h o).scan = some sc) : ∃ f, (openBlank o h).place o =
      (((getOut h o).bearing, some (nextBlankPx e sc, 0, false, sc.frames), f), h.txns) := by
  obtain ⟨g, z, hb, hz, e⟩ := openBlank_outsTxns hm hs
  obtain ⟨hb, ht⟩ := by simpa only [Hub.bearing, Prod.mk.injEq] using hb
  refine ⟨(getOut g o).frame, ?_⟩
  rw [place_of_outsTxns e, Hub.place, getOut_updOut, updOut_txns, ht, ← hb, ← hz]
  rfl

theorem place_fixVerdict (o t : Nat) (h : Hub) (q : Nat) : (fixVerdict o t h).place q = h.place q := by
  unfold fixVerdict
  dsimp only
  rw [place_updOut]
  · split
    · split
      · exact place_openDecision o _ h q
      · rfl
    · rfl
  · exact fun _ => rfl

theorem place_recheckFills (o : Nat) (h : Hub) (q : Nat) : (recheckFills o h).place q = h.place q := by
  unfold recheckFills
  split
  · rfl
  · rw [place_updOut]
    exact fun _ => rfl

theorem place_settleBanks (o : Nat) (h : Hub) (q : Nat) : (settleBanks o h).place q = h.place q := by
  unfold settleBanks
  dsimp only
  split
  · rfl
  · rw [place_updOut]
    exact fun _ => rfl

/-! #### Nothing applies -/

theorem takeList_of_no_newOwner {o : Nat} {h : Hub} (hn : (getOut h o).newOwner = none) : takeList o h = h := by
  simp [takeList, hn]

theorem armedTxns_of_none {h : Hub} (ht : ∀ t ∈ h.txns, t.2.state ≠ .armed) : armedTxns h = [] := by
  have : h.txns.filter (fun e => e.2.state == .armed) = [] := by simpa [List.filter_eq_nil_iff] using ht
  rw [armedTxns, this, List.mergeSort_nil]

theorem applyCaught_of_none_armed {o l : Nat} {inc : Bool} {h : Hub} (ht : ∀ t ∈ h.txns, t.2.state ≠ .armed) :
    applyCaught o l inc h = h := by
  simp [applyCaught, armedTxns_of_none ht]

theorem stopAtBoundary_of_no_stop {o : Nat} {h : Hub} (hs : (getOut h o).stopNext = false) : stopAtBoundary [o] h = h := by
  simp [stopAtBoundary, hs]

/-! #### The next frame -/

theorem place_takeChkCfg (o l : Nat) (h : Hub) (q : Nat) : (takeChkCfg o l h).place q = h.place q := by
  unfold takeChkCfg dropOps
  dsimp only
  rw [foldl_keeps (Hub.place · q) fun g p => place_of_outsTxns (outsTxns_endOp _ _ g p) q, place_updOut, place_updOut]
  · exact fun _ => rfl
  · exact fun _ => rfl

theorem place_setPpm (o : Nat) (v : Int) (h : Hub) (q : Nat) : (setPpm o v h).place q = h.place q := by
  unfold setPpm
  dsimp only
  rw [foldl_keeps (Hub.place · q) fun g m => place_of_outsTxns (outsTxns_offsetPll v g m) q, place_updOut]
  exact fun _ => rfl

theorem place_wheelStep (o : Nat) (h : Hub) (q : Nat) : (wheelStep o h).place q = h.place q := by
  unfold wheelStep
  dsimp only
  split
  · rfl
  · exact place_setPpm o _ h q

theorem outsTxns_videoFrame (k : Nat) (e : ModeEntry) (bpc enc frame : Nat) (h : Hub) :
    (videoFrame k e bpc enc frame h).outsTxns = h.outsTxns := outsTxns_sendBlock k _ _ _ h

theorem outsTxns_videoOff (k frame : Nat) (h : Hub) : (videoOff k frame h).outsTxns = h.outsTxns := outsTxns_sendBlock k _ _ _ h

/-- A new frame bears its output's frame counter; the output is where it was, with that frame. -/
theorem newFrame_outsTxns (o : Nat) (e : ModeEntry) (old : List FrameLayer) (h : Hub) : ∃ (f : Frame) (u : Output → Output),
    (newFrame o e old h).outsTxns = (updOut h o u).outsTxns ∧ f.num = (getOut h o).frameCount ∧
      ∀ x, (u x).place = (x.bearing, x.scan.map Scan.mark, some f) := by
  unfold newFrame
  extract_lets x src ls stays f stretch g
  refine ⟨f, _, Eq.trans (b := g.outsTxns) ?_ rfl, rfl, fun y => ?_⟩
  · split
    · rfl
    · split
      · split <;> rfl
      · split
        · exact outsTxns_videoFrame _ _ _ _ _ g
        · split
          · exact outsTxns_videoOff _ _ g
          · rfl
  · simp only [Output.place, Output.bearing, Option.map_map]
    rfl

theorem newFrame_spec (o : Nat) (e : ModeEntry) (old : List FrameLayer) (h : Hub) : ∃ f : Frame, f.num = (getOut h o).frameCount ∧
    (newFrame o e old h).place o = (((getOut h o).bearing, (getOut h o).scan.map Scan.mark, some f), h.txns) := by
  obtain ⟨f, u, e, hf, hu⟩ := newFrame_outsTxns o e old h
  refine ⟨f, hf, ?_⟩
  rw [place_of_outsTxns e, Hub.place, getOut_updOut, hu, updOut_txns]

/-- A running output begins its next frame: its frame counter rises, and the frame bears it. -/
theorem beginFrame_spec {o l : Nat} {old : List FrameLayer} {h : Hub} {e : ModeEntry} {z : Scan} (hm : (getOut h o).mode = some e)
    (hr : (getOut h o).state = .running) (hs : (getOut h o).scan = some z) :
    ∃ f : Frame, f.num = ((getOut h o).frameCount + 1) % 2 ^ 64 ∧ (beginFrame o l old h).place o =
      (({ getOut h o with frameCount := ((getOut h o).frameCount + 1) % 2 ^ 64 }.bearing,
        some { z with frames := z.frames + 1 }.mark, some f), h.txns) := by
  have step : ∃ g, g.place o = (takeChkCfg o l (updOut h o fun x => { x with
        frameCount := (x.frameCount + 1) % 2 ^ 64, q := x.qNext.getD x.q, qNext := none
        scan := x.scan.map fun s => { s with frames := s.frames + 1 } })).place o ∧ beginFrame o l old h = wheelStep o (newFrame o e old g) := by
    refine ⟨_, rfl, ?_⟩
    simp [beginFrame, hm, hr, hs]
  obtain ⟨g, hg, hb⟩ := step
  rw [place_takeChkCfg, Hub.place, Hub.place, getOut_updOut, updOut_txns] at hg
  obtain ⟨hp, ht⟩ := by simpa only [Prod.mk.injEq] using hg
  obtain ⟨hb', hs', -⟩ := by simpa only [Output.place, Prod.mk.injEq] using hp
  obtain ⟨f, hf, hn⟩ := newFrame_spec o e old g
  refine ⟨f, ?_, ?_⟩
  · rw [hf]
    exact congrArg (fun p => p.2.2.2.2.2) hb'
  · rw [hb, place_wheelStep, hn, hb', hs', ht, hs]
    rfl

theorem place_levelBlanks (ms : List Nat) (h : Hub) (q : Nat) : (levelBlanks ms h).place q = h.place q := by
  unfold levelBlanks
  split
  · rfl
  · refine foldl_keeps (Hub.place · q) (fun g m => ?_) ms h
    rw [place_updOut]
    intro x
    split
    · rfl
    · simp only [Output.place, Output.bearing, Option.map_map]
      rfl

/-! #### A lone output's boundary -/

/-- A place, field by field. -/
theorem place_eq_iff {h : Hub} {o : Nat} {m : Option ModeEntry} {s : OutState} {k : Nat} {w : Option Nat} {b : Bool} {n : Nat}
    {z : Option (Nat × Nat × Bool × Nat)} {f : Option Frame} {t : Tab Txn} :
    h.place o = (((m, s, k, w, b, n), z, f), t) ↔
      ((getOut h o).mode = m ∧ (getOut h o).state = s ∧ (getOut h o).grp = k ∧ (getOut h o).newOwner = w ∧ (getOut h o).stopNext = b ∧
        (getOut h o).frameCount = n) ∧ (getOut h o).scan.map Scan.mark = z ∧ (getOut h o).frame = f ∧ h.txns = t := by
  simp only [Hub.place, Output.place, Output.bearing, Prod.mk.injEq, and_assoc]

/-- A running output with no group, at the end of its last active line, in mode `e`: its list changes no hands, it is not to stop, its PLL is
locked, and no transaction is armed. -/
structure LoneBoundary (h : Hub) (o : Nat) (e : ModeEntry) (sc : Scan) : Prop where
  mode : (getOut h o).mode = some e
  scan : (getOut h o).scan = some sc
  running : (getOut h o).state = .running
  line : sc.line = e.vActive
  grp : (getOut h o).grp = 0
  newOwner : (getOut h o).newOwner = none
  stopNext : (getOut h o).stopNext = false
  pllLost : (getOut h o).pllLost = false
  txns : ∀ t ∈ h.txns, t.2.state ≠ .armed

section
variable {h : Hub} {o : Nat} {e : ModeEntry} {sc : Scan}

/-- The blank of a lone output, opened and judged by its Keeper: what it goes by is as it was. -/
theorem LoneBoundary.place_opened (hb : LoneBoundary h o e sc) (t : Nat) :
    ∃ f, (fixVerdict o t (openBlank o (emptyBuffer (o / 4) h))).place o =
      (((some e, .running, 0, none, false, (getOut h o).frameCount), some (nextBlankPx e sc, 0, false, sc.frames), f), h.txns) := by
  obtain ⟨ho, ht⟩ := by simpa only [Hub.outsTxns, Prod.mk.injEq] using outsTxns_emptyBuffer (o / 4) h
  have hx : getOut (emptyBuffer (o / 4) h) o = getOut h o := by rw [getOut, ho, getOut]
  obtain ⟨f, hf⟩ := openBlank_spec (hx ▸ hb.mode) (hx ▸ hb.scan)
  refine ⟨f, ?_⟩
  rw [place_fixVerdict, hf, hx, ht, Output.bearing, hb.mode, hb.running, hb.grp, hb.newOwner, hb.stopNext]

/-- Nothing applies at the boundary of a lone output: its blank opens and its next frame begins. -/
theorem LoneBoundary.vblankStart_eq (hb : LoneBoundary h o e sc) : ∃ t l old ms,
    vblankStart o h = levelBlanks ms (blankRecord o (beginFrame o l old (settleBanks o (recheckFills o
      (fixVerdict o t (openBlank o (emptyBuffer (o / 4) h))))))) := by
  have hloss : ([o].foldl (fun h m => settleLoss m h) h) = h :=
    foldl_settleLoss_of_locked fun m hm => by rw [List.mem_singleton.mp hm, hb.pllLost]
  have hat : atBlank (getOut h o) = true := by simp [atBlank, hb.mode, hb.scan, hb.running, hb.line]
  have hms : [o].filter (fun m => atBlank (getOut h m)) = [o] := by
    simp [hat]
  obtain ⟨f, hf⟩ := hb.place_opened (openBlank o (emptyBuffer (o / 4) h)).now
  rw [← place_recheckFills o] at hf
  obtain ⟨⟨-, -, -, hown, hstop, -⟩, -, -, htx⟩ := place_eq_iff.mp hf
  have applies (l : Nat) := applyCaught_of_none_armed (o := o) (l := l) (inc := true) (htx ▸ hb.txns)
  generalize hv : vblankStart o h = v
  simp only [vblankStart, listOf_of_lone hb.grp, membersOf_of_lone hb.grp, hloss, hat, hms, Bool.not_true, Bool.false_eq_true, if_false,
    List.foldl_cons, List.foldl_nil, List.map_cons, List.map_nil, List.contains_cons, BEq.rfl, Bool.true_or, if_true,
    takeList_of_no_newOwner hown, applies, stopAtBoundary_of_no_stop hstop] at hv
  exact ⟨_, _, _, _, hv.symm⟩

/-- Where a lone output is after its start of vertical blank, and its new frame. -/
theorem LoneBoundary.place_vblankStart (hb : LoneBoundary h o e sc) : ∃ f : Frame, f.num = ((getOut h o).frameCount + 1) % 2 ^ 64 ∧
    (vblankStart o h).place o = (((some e, .running, 0, none, false, ((getOut h o).frameCount + 1) % 2 ^ 64),
      some (nextBlankPx e sc, 0, false, sc.frames + 1), some f), h.txns) := by
  obtain ⟨t, l, old, ms, hv⟩ := hb.vblankStart_eq
  obtain ⟨f₀, hf⟩ := hb.place_opened t
  rw [← place_recheckFills o, ← place_settleBanks o] at hf
  generalize settleBanks o (recheckFills o (fixVerdict o t (openBlank o (emptyBuffer (o / 4) h)))) = g at hv hf
  obtain ⟨⟨hm, hr, hg, hn, hst, hc⟩, hs, -, ht⟩ := place_eq_iff.mp hf
  obtain ⟨z, hz, hmark⟩ := Option.map_eq_some_iff.mp hs
  obtain ⟨hvb, hl, hd, hfr⟩ := by simpa only [Scan.mark, Prod.mk.injEq] using hmark
  obtain ⟨f, hnum, hp⟩ := beginFrame_spec (l := l) (old := old) hm hr hz
  refine ⟨f, hc ▸ hnum, ?_⟩
  rw [hv, place_levelBlanks, blankRecord, place_of_outsTxns (outsTxns_of_rest (rest_fbkRecord _ _ _ _ _ _)), hp, ht]
  simp only [Output.bearing, Scan.mark, hm, hr, hg, hn, hst, hc, hvb, hl, hd, hfr]

end

/-! ### The end of the drain -/

/-- The hub in which output `o` has drained. -/
def drainedHub (h : Hub) (o : Nat) (sc : Scan) : Hub :=
  updOut (at_ (sc.drainAt + 20000) h) o fun x => { x with scan := some { sc with drained := true } }

theorem drainComplete_of_first {h : Hub} {o : Nat} {sc : Scan} (hs : (getOut h o).scan = some sc) (hr : (getOut h o).state = .running)
    (hd : sc.drained = false) (ho : sc.reopened = false) : drainComplete o h = dimStep o (drainedHub h o sc) := by
  simp [drainComplete, hs, hr, hd, ho, drainedHub]

/-- At a re-opened boundary the drain of an output without zones ends, and nothing else. -/
theorem drainComplete_of_reopened {h : Hub} {o : Nat} {sc : Scan} (hs : (getOut h o).scan = some sc) (hr : (getOut h o).state = .running)
    (hd : sc.drained = false) (ho : sc.reopened = true) (hz : hasZones (getOut h o) = false) :
    drainComplete o h = drainedHub h o sc := by
  simp only [drainComplete, hs, hr, hd, ho, drainedHub, updOut_updOut, bne_self_eq_false, Bool.or_false, Bool.not_true,
    Bool.false_eq_true, if_false]
  exact updOut_congr _ _ (if_neg fun hc => Bool.false_ne_true (hz.symm.trans (Bool.and_eq_true _ _ ▸ hc).1))

/-! ### The obligation -/

theorem nextBlankPx_eq (e : ModeEntry) (sc : Scan) : nextBlankPx e sc = sc.vbPx + (sc.blank + e.vActive) * hTotal e := by
  rw [nextBlankPx, activePx, Nat.add_mul, Nat.add_assoc]

theorem latchAt_eq (e : ModeEntry) (sc : Scan) :
    latchAt e sc = scanNs e sc (sc.vbPx + (sc.blank + e.vActive) * hTotal e) - 250000 :=
  congrArg (fun px => scanNs e sc px - 250000) (nextBlankPx_eq e sc)

theorem exec_latchInstant (o : Nat) (s : State) : exec (.latchInstant o) s = .next (onHub (latch o) s) := rfl

theorem exec_vblankStart (o : Nat) (s : State) : exec (.vblankStart o) s = .next (onHub (vblankStart o) s) := rfl

theorem exec_drainComplete (o : Nat) (s : State) : exec (.drainComplete o) s = .next (onHub (drainComplete o) s) := rfl

/-- Settles O33: each of the three instants is one equation of the hub; of the start of vertical blank, what a lone output goes by is
followed through the actions of the boundary. -/
theorem frameBoundaries : Obligations.FrameBoundaries := by
  refine ⟨?latch, ?before, ?blank, ?drain⟩
  case latch =>
    intro o e sc s x hm hs hr hl l h chg
    have hl' : latchAt e sc = l := latchAt_eq e sc
    have hch : chg ↔ latchChange h o l = true := by
      rw [latchChange_eq_true, openDecision_keeps Output.changed (fun _ _ _ _ => rfl)]
      exact Iff.rfl
    have hsc : (getOut h o).scan = some sc := (openDecision_keeps Output.scan (fun _ _ _ _ => rfl) o l (at_ l s.hub) o).trans hs
    refine ⟨if latchChange h o l then 0 else satInc 65535 x.staticCount, x.cacheStale || latchChange h o l, ?_, ?_, ?_⟩
    · exact fun hc => by simp [hch.mp hc]
    · exact fun hc => by simp [eq_false_of_ne_true (mt hch.mpr hc)]
    · rw [exec_latchInstant, onHub, latch_of_running hm hs hr hl, hl']
      refine congrArg (fun u => Host.Outcome.next { s with hub := u }) (updOut_congr h o ?_)
      simp only [latchedOut, hsc, Option.map_some]
      rfl
  case before =>
    intro o s hb hp
    rw [exec_vblankStart, onHub, vblankStart_of_not_atBlank hb hp]
  case blank =>
    intro o e sc s x hm hs hr hl hg hn hst hp ht
    have hb : LoneBoundary s.hub o e sc := ⟨hm, hs, hr, hl, hg, hn, hst, hp, ht⟩
    obtain ⟨f, hf, hplace⟩ := hb.place_vblankStart
    obtain ⟨⟨hm', -, -, -, -, hc⟩, hs', hfr, -⟩ := place_eq_iff.mp hplace
    obtain ⟨z, hz, hmark⟩ := Option.map_eq_some_iff.mp hs'
    obtain ⟨hvb, hline, hd, hn⟩ := by simpa only [Scan.mark, Prod.mk.injEq] using hmark
    exact ⟨onHub (vblankStart o) s, f, z, rfl, rfl, rfl, hc, hfr, hf, hz, hline, hd, hvb.trans (nextBlankPx_eq e sc), hn, hm'⟩
  case drain =>
    intro o sc s x hs hr hd g
    refine ⟨fun ho => ?_, fun ho hz => ?_⟩
    · rw [exec_drainComplete, onHub, drainComplete_of_first hs hr hd ho]
      rfl
    · refine ⟨{ s with hub := drainedHub s.hub o sc }, ?_, rfl, rfl, rfl, rfl, fun q hq => ?_⟩
      · rw [exec_drainComplete, onHub, drainComplete_of_reopened hs hr hd ho hz]
      · exact getOut_updOut_ne _ o q _ hq

end Sys2Proof.Machine
end

section
/-!
Regions, surfaces, shares and rights (03 R46-R53, R64-R68, R75-R79), and the accesses of a function's BAR2 (03 R47, R48).
-/

namespace Sys2Proof.Machine

/-! ### An accepted command that succeeds -/

/-- No check of its own refuses a command that the Keeper accepts. -/
theorem Accepts.checks_pass {sp : Spec} {c : Cmd} {s : State} (ha : Accepts sp c s) :
    ∀ k ∈ sp.checks c s.lp5x (fetched c.ctx s.hub), k.bad = false :=
  fun k hk => ha.2 k (List.mem_append_right _ hk)

/-- An accepted command whose execution succeeds: its effect, its writes and its completion. -/
theorem mail_okRes {sp : Spec} {c : Cmd} {s : State} {g : Hub} {r0 r1 : Nat} {ws : List MemWrite} (ha : Accepts sp c s)
    (hr : sp.run c (taken sp.op c s.hub) s.lp5x (fetched c.ctx s.hub) = okRes g r0 r1 ws) :
    mail sp c s = doneEff sp.op c r0 r1 (g, ws) s := by
  simp only [mail_accepts sp c s ha, act, hr, answer_okRes]
  rfl

/-- An accepted command whose execution succeeds and writes no LP5X. -/
theorem mail_okRes_done {sp : Spec} {c : Cmd} {s : State} {g : Hub} {r0 r1 : Nat} (ha : Accepts sp c s)
    (hr : sp.run c (taken sp.op c s.hub) s.lp5x (fetched c.ctx s.hub) = okRes g r0 r1) : mail sp c s = done sp.op c r0 r1 g s :=
  mail_okRes ha hr

/-- An action without writes to LP5X changes the hub alone. -/
theorem act_eq_of_no_writes {f : List Host.Cell → Hub → Eff} {s : State} {g : Hub} (hf : f s.lp5x s.hub = (g, [])) :
    act f s = { s with hub := g } := by
  simp only [act, hf, List.foldl_nil]

/-! ### Free slots, granules and window entries -/

/-- The number that a search from `i` finds is one of the `n` searched, and fits. -/
theorem firstNat_spec {p : Nat → Bool} {n i k : Nat} (h : firstNat p n i = some k) : i ≤ k ∧ k < i + n ∧ p k = true := by
  induction n generalizing i with
  | zero => cases h
  | succ n ih =>
    simp only [firstNat] at h
    split at h
    case isTrue hp =>
      obtain rfl := Option.some.inj h
      exact ⟨Nat.le_refl i, by omega, hp⟩
    case isFalse =>
      obtain ⟨h1, h2, h3⟩ := ih h
      exact ⟨by omega, by omega, h3⟩

theorem length_freeGranules {h : Hub} {d n : Nat} {gs : List Nat} (hg : freeGranules h d n = some gs) : gs.length = n := by
  simp only [freeGranules] at hg
  split at hg
  case isTrue hl => exact Option.some.inj hg ▸ hl
  case isFalse => cases hg

/-- What MEM_ALLOC finds: a free region slot of the die, and as many granules as it asks for (03 R75). -/
theorem memFind_spec {h : Hub} {c d n r : Nat} {gs : List Nat} (hf : memFind h c d n = some (r, gs)) :
    gs.length = n ∧ r / 256 = d ∧ h.regions.has r = false := by
  simp only [memFind] at hf
  split at hf
  case h_1 slot gs' hs hg =>
    split at hf
    case isTrue => cases hf
    case isFalse =>
      obtain ⟨rfl, rfl⟩ := Prod.mk.inj (Option.some.inj hf)
      obtain ⟨-, hlt, hfree⟩ := firstNat_spec hs
      exact ⟨length_freeGranules hg, by omega, by simpa using hfree⟩
  case h_2 => cases hf

/-! ### LP5X after a sequence of writes -/

/-- A byte that one of a sequence of zeroings covers reads 0: the last of them that does makes it so. -/
theorem Memory.read_foldl_zeros {α : Type} (addr : α → Nat) (n : Nat) {l : List α} {m : List Host.Cell} {a : Nat} (hm : Memory.wf m = true)
    (hc : ∃ g ∈ l, addr g ≤ a ∧ a < addr g + n) :
    Memory.read ((l.map fun g => MemWrite.zeros (addr g) n).foldl Memory.apply m) a = 0 := by
  induction l generalizing m with
  | nil => simp at hc
  | cons x l ih =>
    have hw := Memory.wf_zero m (addr x) n hm
    by_cases hl : ∃ g ∈ l, addr g ≤ a ∧ a < addr g + n
    · exact ih hw hl
    · have hx : addr x ≤ a ∧ a < addr x + n := by simpa [hl] using hc
      refine (Memory.read_foldl_out _ _ a hw ?_).trans (Memory.read_zero_in m _ n a hx.1 hx.2)
      simpa [MemWrite.covers] using hl

/-- A byte written reads as the last write to it has left it. -/
theorem Memory.read_foldl_last {ws vs : List MemWrite} {m : List Host.Cell} {a : Nat} {b : Byte} (hm : Memory.wf m = true)
    (hv : ∀ w ∈ vs, ¬ w.covers a) : Memory.read ((ws ++ .bytes a [b] :: vs).foldl Memory.apply m) a = b := by
  have hw := Memory.wf_foldl ws m hm
  rw [List.foldl_append, List.foldl_cons, Memory.read_foldl_out vs _ a (Memory.wf_apply _ _ hw) hv]
  exact Memory.read_writeBytes_in [b] _ a 0 hw Nat.one_pos

/-! ### Handles -/

theorem surfOf_eq_some {h : Hub} {v : Nat} {e : Surf} :
    surfOf h v = some e ↔ v ≠ 0 ∧ h.atlas.find (v % 65536) = some e ∧ e.retiring = false ∧ e.gen = v / 65536 := by
  unfold surfOf entryOf
  by_cases hv : v = 0
  · simp [hv]
  · cases h.atlas.find (v % 65536) with
    | none => simp [hv]
    | some x =>
      simp only [hv, if_false, ne_eq, not_false_eq_true, true_and, Option.some.injEq]
      grind

/-- A handle field that draws no refusal names a LIVE surface (03 R51, R53). -/
theorem surfOf_of_handleCks {h : Hub} {off v : Nat} (hk : ∀ k ∈ handleCks h off v, k.bad = false) : ∃ e, surfOf h v = some e := by
  simp only [handleCks] at hk
  split at hk
  case isTrue => simp [ck] at hk
  case isFalse hv =>
    split at hk
    case isTrue => simp [ckd] at hk
    case isFalse =>
      split at hk
      case h_1 => simp [ckd] at hk
      case h_2 e he =>
        obtain ⟨-, hl, hg⟩ := by simpa [ckd] using hk
        exact ⟨e, surfOf_eq_some.mpr ⟨hv, he, hl, hg⟩⟩

/-- The handle of a LIVE entry is the value that names it. -/
theorem handleOf_of_surfOf {h : Hub} {v : Nat} {e : Surf} (he : surfOf h v = some e) : handleOf (v % 65536) e = v := by
  obtain ⟨-, -, -, hg⟩ := surfOf_eq_some.mp he
  rw [handleOf, hg]
  omega

/-! ### What the checks of accepted commands say -/

section
variable {sp : Spec} {c : Cmd} {s : State}

/-- An accepted command with a handle field at offset 16 names a LIVE surface there. -/
theorem Accepts.names_surf (ha : Accepts sp c s)
    (hk : handleCks (fetched c.ctx s.hub) 16 (arg32 c 16) ⊆ sp.checks c s.lp5x (fetched c.ctx s.hub)) :
    ∃ e, surfOf (fetched c.ctx s.hub) (arg32 c 16) = some e :=
  surfOf_of_handleCks fun k h => ha.checks_pass k (hk h)

theorem memAlloc_finds (ha : Accepts memAlloc c s) : ∃ r gs w,
    memFind (fetched c.ctx s.hub) c.ctx (arg8 c 16) (arg16 c 18) = some (r, gs) ∧
      winRun (getFn (fetched c.ctx s.hub) (ctxFn (fetched c.ctx s.hub) c.ctx)) (arg16 c 18) = some w := by
  obtain ⟨⟨h0, hn⟩, -, hw, hf⟩ := by simpa [memAlloc, ck, ckd] using ha.checks_pass
  obtain ⟨w, hw⟩ := Option.isSome_iff_exists.mp (hw (Nat.pos_of_ne_zero h0) hn)
  obtain ⟨⟨r, gs⟩, hf⟩ := Option.isSome_iff_exists.mp hf
  exact ⟨r, gs, w, hf, hw⟩

theorem surfCreate_finds (ha : Accepts surfCreate c s) : ∃ ix, freeEntry (fetched c.ctx s.hub) (arg16 c 16 / 256) = some ix := by
  have hk := ha.checks_pass (ckd (arg16 c 16 / 256) 0x0601 255 (freeEntry (fetched c.ctx s.hub) (arg16 c 16 / 256)).isNone)
    (List.mem_append_right _ (List.mem_singleton.mpr rfl))
  exact Option.isSome_iff_exists.mp (by simpa [ckd] using hk)

end

/-! ### Regions -/

/-- Settles O24: MEM_ALLOC finds what its checks ask for, and zeroes its granules one after another. -/
theorem regionsAreAllocatedAndFreed : Obligations.RegionsAreAllocatedAndFreed := by
  refine fun c s => ⟨fun ha => ?alloc, fun ha => ?free⟩
  case alloc =>
    obtain ⟨r, gs, w, hf, hw⟩ := memAlloc_finds ha
    obtain ⟨hl, hd, hfree⟩ := memFind_spec hf
    have hm := mail_okRes ha (by simp only [memAlloc, hf, hw]; rfl)
    refine ⟨r, gs, w, hf, hw, hl, hd, hfree, _, congrArg Host.Outcome.next hm, rfl, rfl, ?_, ?_⟩
    · exact fun hs g hg i hi => Memory.read_foldl_zeros (fun g => arg8 c 16 * 2 ^ 34 + g * granBytes) granBytes hs
        ⟨g, hg, Nat.le_add_right _ i, Nat.add_lt_add_left hi _⟩
    · refine fun hs a hout => Memory.read_foldl_out _ s.lp5x a hs fun v hv => ?_
      obtain ⟨g, hg, rfl⟩ := List.mem_map.mp hv
      exact hout g hg
  case free => exact congrArg Host.Outcome.next (mail_okRes_done ha rfl)

/-! ### Surfaces and shares -/

/-- Settles O25: each of the four executions succeeds with what its checks have found. -/
theorem surfacesAndShares : Obligations.SurfacesAndShares := by
  refine fun c s => ⟨fun ha => ?create, fun ha => ?query, fun ha => ?share, fun ha => ?join⟩
  case create =>
    obtain ⟨ix, hix⟩ := surfCreate_finds ha
    exact ⟨ix, hix, congrArg Host.Outcome.next (mail_okRes_done ha (by simp only [surfCreate, hix]; rfl))⟩
  case query =>
    obtain ⟨e, he⟩ := ha.names_surf fun _ hk => by simp [surfQuery, hk]
    exact ⟨e, he, congrArg Host.Outcome.next (mail_okRes_done ha (by simp only [surfQuery, he]))⟩
  case share => exact congrArg Host.Outcome.next (mail_okRes_done ha rfl)
  case join => exact congrArg Host.Outcome.next (mail_okRes_done ha rfl)

/-! ### Rights -/

/-- The rights of a grantee that another value lacks: READ 1, WRITE 2 (03 R64). -/
def rightsGone (old new : Nat) : Nat :=
  (if bit old 0 && !bit new 0 then 1 else 0) + if bit old 1 && !bit new 1 then 2 else 0

/-- Rights are gathered bit by bit from the two that there are. -/
theorem foldl_rightsGone (old new : Nat) :
    (List.range 2).foldl (fun a i => if bit old i && !bit new i then a + 2 ^ i else a) 0 = rightsGone old new := by
  simp only [List.range_succ, List.range_zero, List.nil_append, List.cons_append, List.foldl_cons, List.foldl_nil, rightsGone,
    Nat.reducePow, Nat.zero_add]
  split <;> rfl

section
variable {v g r : Nat} {m : List Host.Cell} {h : Hub} {e : Surf}

/-- Rights that take nothing from a grantee are set, and that is all (03 R65). -/
theorem putGrant_of_none_gone (he : surfOf h v = some e) (hg : rightsGone (grantOf e g) r = 0) :
    putGrant v g r m h = ({ h with atlas := h.atlas.set (v % 65536) (setGrant e g r) }, []) := by
  simp only [putGrant, he, foldl_rightsGone, hg, if_true]

/-- Where a grantee loses rights, its uses of the surface stop, and it is told (03 R66). -/
theorem putGrant_of_gone (he : surfOf h v = some e) (hg : rightsGone (grantOf e g) r ≠ 0) :
    putGrant v g r m h =
      let q := stopUses v [(g, rightsGone (grantOf e g) r)] 0x0303 m { h with atlas := h.atlas.set (v % 65536) (setGrant e g r) }
      (tellLost v [(g, rightsGone (grantOf e g) r)] false q.1, q.2) := by
  simp only [putGrant, he, foldl_rightsGone, hg, if_false]

/-- SURF_REVOKE puts what it leaves of the grantee's rights, where that is not what the grantee holds (03 R66, R77). -/
theorem surfRevoke_run {c : Cmd} {p : Pend} (he : surfOf h (arg32 c 16) = some e) :
    surfRevoke.run c p m h =
      if rightsGone (grantOf e (arg16 c 20)) (arg8 c 22) = grantOf e (arg16 c 20) then okRes h
      else
        let q := putGrant (arg32 c 16) (arg16 c 20) (rightsGone (grantOf e (arg16 c 20)) (arg8 c 22)) m h
        okRes q.1 0 0 q.2 := by
  simp only [surfRevoke, he, foldl_rightsGone]

/-- A LIVE surface becomes RETIRING under the value that names it (03 R53, R66). -/
theorem retireSurf_of_surfOf (he : surfOf h v = some e) :
    retireSurf (v % 65536) m h =
      let q := stopUses v (e.grants ++ [(e.owner, 3)]) 0x0304 m h
      (tellLost v e.grants true { q.1 with atlas := q.1.atlas.upd (v % 65536) fun x => { x with retiring := true } }, q.2) := by
  obtain ⟨-, hf, hl, -⟩ := surfOf_eq_some.mp he
  simp only [retireSurf, hf, hl, handleOf_of_surfOf he, Bool.false_eq_true, if_false, allRights]

end

/-! ### The end of a retiring entry -/

/-- The hub with entry `ix` free: the generation of its surface `e` has passed, and the index is the last that was freed (03 R52, R53). -/
def entryFreed (ix : Nat) (e : Surf) (h : Hub) : Hub :=
  { h with atlas := h.atlas.del ix, gens := h.gens.set ix (e.gen + 1), freed := h.freed ++ [ix] }

/-- Has a region's owner ended, and does no entry use the region (03 R68)? -/
def regionLeft (h : Hub) (r : Nat) : Bool :=
  match h.regions.find r with
  | none => false
  | some x => x.dead && !regionUsed h r

theorem regionLeft_eq_true {h : Hub} {r : Nat} :
    regionLeft h r = true ↔ ∃ x, h.regions.find r = some x ∧ x.dead = true ∧ regionUsed h r = false := by
  unfold regionLeft
  cases h.regions.find r <;> simp

/-- A RETIRING entry that no frame and no work uses is freed, and its region with it where that is left (03 R53, R68). -/
theorem entryFree_of_unused {ix : Nat} {e : Surf} {h : Hub} (hf : h.atlas.find ix = some e) (hr : e.retiring = true)
    (hfr : frameReads h (handleOf ix e) = false) (hw : workUses h (handleOf ix e) = false) :
    entryFree ix h =
      if regionLeft (entryFreed ix e h) e.region then freeRegion e.region (entryFreed ix e h) else entryFreed ix e h := by
  have hl : regionLeft (entryFreed ix e h) e.region = match h.regions.find e.region with
      | none => false
      | some x => x.dead && !regionUsed (entryFreed ix e h) e.region := rfl
  simp only [hl, entryFree, hf, hr, hfr, hw, Bool.not_true, Bool.or_self, Bool.false_eq_true, if_false]
  cases h.regions.find e.region <;> rfl

theorem exec_atlasEntryFree {ix : Nat} {s : State} {g : Hub} (hg : entryFree ix s.hub = g) :
    exec (.atlasEntryFree ix) s = .next { s with hub := g } := by
  rw [← hg]
  rfl

/-- Settles O26: what SURF_GRANT and SURF_REVOKE take is gathered over the two rights that there are, SURF_DESTROY retires the entry under its
own handle, and the freed entry's region goes where it is left. -/
theorem rightsOnSurfaces : Obligations.RightsOnSurfaces := by
  refine ⟨fun c s => ⟨fun ha => ?grant, fun ha => ?revoke, fun ha => ?destroy⟩, fun ix e s hf hr hfr hw => ?free⟩
  case grant =>
    obtain ⟨e, he⟩ := ha.names_surf fun _ hk => by simp [surfGrant, hk]
    refine ⟨e, he, fun hg => ?_, fun hg => ?_⟩
    · exact congrArg Host.Outcome.next (mail_okRes_done ha (by simp only [surfGrant, putGrant_of_none_gone he hg]))
    · exact congrArg Host.Outcome.next (mail_okRes ha (by simp only [surfGrant, putGrant_of_gone he hg]; rfl))
  case revoke =>
    obtain ⟨e, he⟩ := ha.names_surf fun _ hk => by simp [surfRevoke, hk]
    exact ⟨e, he, fun hl => congrArg Host.Outcome.next (mail_okRes_done ha ((surfRevoke_run he).trans (if_pos hl))),
      fun hl => congrArg Host.Outcome.next (mail_okRes ha ((surfRevoke_run he).trans (if_neg hl)))⟩
  case destroy =>
    obtain ⟨e, he⟩ := ha.names_surf fun _ hk => by simp [surfDestroy, hk]
    obtain ⟨-, hf, -, -⟩ := surfOf_eq_some.mp he
    exact ⟨e, he, hf, congrArg Host.Outcome.next (mail_okRes ha (by simp only [surfDestroy, retireSurf_of_surfOf he]))⟩
  case free =>
    have hfree := entryFree_of_unused hf hr hfr hw
    exact ⟨fun hl => exec_atlasEntryFree (hfree.trans (if_pos (regionLeft_eq_true.mpr hl))),
      fun hl => exec_atlasEntryFree (hfree.trans (if_neg (mt regionLeft_eq_true.mp hl)))⟩

/-! ### BAR2 -/

theorem portEarly_of_ready {h : Hub} (hr : ready h = true) (f : Nat) : portEarly h f = false := by
  have hp : h.pkg.phase = .ready := by simpa [ready] using hr
  simp [portEarly, hp]

/-- The hub after the report of the first of `n` bytes of an access that function `f`'s window table does not map, if there is one. -/
def bar2Reported (f rid off n : Nat) (h : Hub) : Hub :=
  match ((List.range n).map fun i => bar2Addr h f (off + i)).findIdx? Option.isNone with
  | none => h
  | some i => bar2Fault f rid (off + i) h

/-- Granules of other dies to which function `f`'s window table takes `n` bytes from `off`. -/
def bar2Far (h : Hub) (f off n : Nat) : List Nat :=
  (((List.range n).filterMap fun i => (bar2Addr h f (off + i)).map (· / 64)).eraseDups).filter fun g => g / 2 ^ 28 ≠ f / 16

/-- The `n` bytes from `off` on that the window table finds in the memory `m`: 0 where it maps nothing (03 R48). -/
def bar2Data (h : Hub) (f off n : Nat) (m : List Host.Cell) : Bytes :=
  (List.range n).map fun i => match bar2Addr h f (off + i) with
    | none => 0
    | some a => Memory.read m a

/-- The hub `g` after it has answered a read of `n` bytes from `off` by the window table of the hub `h`. -/
def bar2Answered (h : Hub) (f off n : Nat) (m : List Host.Cell) (g : Hub) : Hub :=
  let q := remoteRead (f / 16) (bar2Far h f off n) m g
  send (.readData f (bar2Data h f off n (remoteView q (f / 16) portUnit m))) q

/-- Bytes of data from `off` on, each with the address that the window table gives for it. -/
def bar2Cells (h : Hub) (f off : Nat) (data : Bytes) : List (Option Nat × Byte) :=
  ((List.range data.length).map fun i => bar2Addr h f (off + i)).zip data

/-- The write of a byte at its address, if it has one. -/
def storeOf (e : Option Nat × Byte) : Option MemWrite := e.1.map fun a => .bytes a [e.2]

theorem storeOf_covers {e : Option Nat × Byte} {w : MemWrite} {a : Nat} (hw : storeOf e = some w) (hc : w.covers a) : e.1 = some a := by
  obtain ⟨b, hb, rfl⟩ := Option.map_eq_some_iff.mp hw
  obtain ⟨h1, h2⟩ : b ≤ a ∧ a < b + 1 := hc
  rw [hb, show b = a by omega]

section
variable {f rid off len : Nat} {data : Bytes} {m : List Host.Cell} {h : Hub}

theorem bar2Access_read (hr : ready h = true) (he : (getFn h f).enabled = true) :
    bar2Access f rid off false len data m h = (bar2Answered h f off len m (bar2Reported f rid off len h), []) := by
  simp only [bar2Access, portEarly_of_ready hr, hr, he, bar2Answered, bar2Data, bar2Far, bar2Reported, List.filterMap_map, List.map_map,
    Bool.not_true, Bool.or_self, Bool.false_and, Bool.false_eq_true, if_false]
  rfl

theorem bar2Access_write (hr : ready h = true) (he : (getFn h f).enabled = true) :
    (bar2Access f rid off true len data m h).2 = (bar2Cells h f off data).filterMap storeOf := by
  simp only [bar2Access, portEarly_of_ready hr, hr, he, bar2Cells, Bool.not_true, Bool.or_self, Bool.false_and, Bool.false_eq_true, if_false,
    if_true]
  rfl

theorem bar2Reported_of_mapped {n : Nat} (hm : ∀ i, i < n → (bar2Addr h f (off + i)).isSome = true) : bar2Reported f rid off n h = h := by
  have hn : ((List.range n).map fun i => bar2Addr h f (off + i)).findIdx? Option.isNone = none := by
    simpa [List.findIdx?_eq_none_iff, Option.isSome_iff_ne_none] using hm
  rw [bar2Reported, hn]

theorem bar2Reported_of_unmapped {n i : Nat} (hi : i < n) (hu : bar2Addr h f (off + i) = none)
    (hm : ∀ j, j < i → (bar2Addr h f (off + j)).isSome = true) : bar2Reported f rid off n h = bar2Fault f rid (off + i) h := by
  have hn : ((List.range n).map fun i => bar2Addr h f (off + i)).findIdx? Option.isNone = some i := by
    simpa [List.findIdx?_eq_some_iff_getElem, hi, hu, Option.isSome_iff_ne_none] using hm
  rw [bar2Reported, hn]

/-- A read of mapped bytes of the die's own memory, with nothing buffered, answers LP5X and leaves the hub as it was. -/
theorem bar2Answered_of_near (hf : bar2Far h f off len = []) (hb : (getDie h (f / 16)).rbuf = []) :
    bar2Answered h f off len m h = send (.readData f (bar2Data h f off len m)) h := by
  simp only [bar2Answered, hf, remoteRead, List.isEmpty_nil, if_true, remoteView, hb, List.foldl_nil]

theorem length_bar2Cells : (bar2Cells h f off data).length = data.length := by
  simp [bar2Cells]

theorem getElem_bar2Cells {i : Nat} (hi : i < (bar2Cells h f off data).length) :
    (bar2Cells h f off data)[i] = (bar2Addr h f (off + i), data[i]'(length_bar2Cells ▸ hi)) := by
  simp [bar2Cells]

section
variable (hm : Memory.wf m = true)
include hm

/-- An address that the window table gives for no byte of a write reads as before (03 R48). -/
theorem read_bar2Cells_out {a : Nat} (ha : ∀ i, i < data.length → bar2Addr h f (off + i) ≠ some a) :
    Memory.read (((bar2Cells h f off data).filterMap storeOf).foldl Memory.apply m) a = Memory.read m a := by
  refine Memory.read_foldl_out _ m a hm fun w hw hc => ?_
  obtain ⟨e, he, hs⟩ := List.mem_filterMap.mp hw
  obtain ⟨i, hi, rfl⟩ := List.mem_iff_getElem.mp he
  refine ha i (length_bar2Cells ▸ hi) ?_
  simpa only [getElem_bar2Cells] using storeOf_covers hs hc

/-- The last byte of a write that the window table takes to an address is what it reads (03 R48). -/
theorem read_bar2Cells_last {i a : Nat} {b : Byte} (hb : data[i]? = some b) (ha : bar2Addr h f (off + i) = some a)
    (hl : ∀ j, i < j → j < data.length → bar2Addr h f (off + j) ≠ some a) :
    Memory.read (((bar2Cells h f off data).filterMap storeOf).foldl Memory.apply m) a = b := by
  obtain ⟨hd, rfl⟩ := List.getElem?_eq_some_iff.mp hb
  have hi : i < (bar2Cells h f off data).length := length_bar2Cells.symm ▸ hd
  have hcell : storeOf (bar2Cells h f off data)[i] = some (.bytes a [data[i]]) := by
    simp only [getElem_bar2Cells, storeOf, ha, Option.map_some]
  rw [← List.take_append_drop i (bar2Cells h f off data), List.drop_eq_getElem_cons hi, List.filterMap_append,
    List.filterMap_cons_some hcell]
  refine Memory.read_foldl_last hm fun w hw hc => ?_
  obtain ⟨e, he, hs⟩ := List.mem_filterMap.mp hw
  obtain ⟨k, hk, rfl⟩ := List.mem_drop_iff_getElem.mp he
  refine hl (i + 1 + k) (by omega) (length_bar2Cells ▸ Nat.add_comm k _ ▸ hk) ?_
  simpa only [getElem_bar2Cells] using storeOf_covers hs hc

end
end

/-- Settles O27: a read is the answer by the window table after the report, a write one store after another at the table's addresses. -/
theorem bar2GoesThroughWindowTable : Obligations.Bar2GoesThroughWindowTable := by
  intro f len rid off data s hr he at' far read value
  have hread : exec (.bar2Access f rid off false len data) s =
      .next { s with hub := bar2Answered s.hub f off.toNat len s.lp5x (bar2Reported f rid.toNat off.toNat len s.hub) } :=
    congrArg Host.Outcome.next (act_eq_of_no_writes (bar2Access_read hr he))
  refine ⟨fun hm => ?mapped, fun i hi hu hm => ?unmapped, ?write⟩
  case mapped =>
    rw [bar2Reported_of_mapped hm] at hread
    refine ⟨hread, fun hf hb => ?_⟩
    rw [bar2Answered_of_near hf hb] at hread
    exact hread
  case unmapped =>
    rw [bar2Reported_of_unmapped hi hu hm] at hread
    exact hread
  case write =>
    refine ⟨_, rfl, rfl, fun hs => ?_⟩
    have hw : (act (bar2Access f rid.toNat off.toNat true len data) s).lp5x =
        ((bar2Cells s.hub f off.toNat data).filterMap storeOf).foldl Memory.apply s.lp5x :=
      congrArg (List.foldl Memory.apply s.lp5x) (bar2Access_write hr he)
    rw [hw]
    refine ⟨fun a ha => read_bar2Cells_out hs ha, fun i b hb hl a ha => read_bar2Cells_last hs hb ha fun j hij hj hja => ?_⟩
    exact hl j hij hj (hja.trans ha.symm)

end Sys2Proof.Machine
end

section
/-!
Layers and the two queries of the graticule (04 R105, R106, R109, R111), and the commands that stage records (04 R107, R108, R110, R113;
05 R141-R143; 06 R158, R159; 07 R192; 08 R227-R230; 09 R258-R260; 15 R418).
-/

namespace Sys2Proof.Machine

/-! ### Layer numbers and slots -/

theorem layerOf_eq_some {h : Hub} {v : Nat} {l : Layer} : layerOf h v = some l ↔ v < 8192 ∧ h.layers.find v = some l := by
  unfold layerOf
  split
  · simp; omega
  · simp; omega

/-- A LAYER field that draws no refusal names a layer (04 R81). -/
theorem layerOf_of_layerCks {h : Hub} {off v c : Nat} {q : Bool} (hk : ∀ k ∈ layerCks h off v c q, k.bad = false) :
    ∃ l, layerOf h v = some l := by
  unfold layerCks at hk
  split at hk
  case isTrue => simp [ck] at hk
  case isFalse =>
    split at hk
    case isTrue hd =>
      have hdie : dieUp h (v / 1024) = false := by simpa using hd
      simp [dieCk, ck, hdie] at hk
    case isFalse =>
      split at hk
      case h_1 => simp [ckd] at hk
      case h_2 l hl => exact ⟨l, hl⟩

theorem layerSlotFree_iff {h : Hub} {k : Nat} :
    layerSlotFree h k = true ↔ h.layers.has k = false ∧ ∀ e ∈ h.layers, k ∉ e.2.peers := by
  simp [layerSlotFree]

/-- The slot that a search for one finds is the die's, and free (04 R90, R105). -/
theorem freeLayerSlot_spec {h : Hub} {d k : Nat} (hf : freeLayerSlot h d = some k) : k / 1024 = d ∧ layerSlotFree h k = true := by
  obtain ⟨hlo, hhi, hfree⟩ := firstNat_spec hf
  exact ⟨by omega, hfree⟩

theorem layerCreate_finds {c : Cmd} {s : State} (ha : Accepts layerCreate c s) :
    ∃ k, freeLayerSlot (fetched c.ctx s.hub) (arg8 c 16 / 4) = some k := by
  have hk := ha.checks_pass (ckd (arg8 c 16 / 4) 0x0603 255 (freeLayerSlot (fetched c.ctx s.hub) (arg8 c 16 / 4)).isNone)
    (List.mem_append_right _ List.mem_cons_self)
  exact Option.isSome_iff_exists.mp (by simpa [ckd] using hk)

/-- The row of an accepted command that succeeds and writes no LP5X. -/
theorem Accepts.next_done {sp : Spec} {c : Cmd} {s : State} {g : Hub} {r0 r1 : Nat} (ha : Accepts sp c s)
    (hr : sp.run c (taken sp.op c s.hub) s.lp5x (fetched c.ctx s.hub) = okRes g r0 r1) :
    (.next (mail sp c s) : Host.Outcome State Fault Refusal) = .next (done sp.op c r0 r1 g s) :=
  congrArg Host.Outcome.next (mail_okRes_done ha hr)

/-- Settles O30: LAYER_CREATE and LAYER_QUERY find what their checks have found, and GRAT_QUERY the geometry of the mode that there is. -/
theorem layersAreCreatedAndQueried : Obligations.LayersAreCreatedAndQueried := by
  refine fun c s => ⟨fun ha => ?create, fun ha => ?destroy, fun ha => ?query, fun e he ha => ?geometry⟩
  case create =>
    obtain ⟨k, hk⟩ := layerCreate_finds ha
    obtain ⟨hd, hfree⟩ := freeLayerSlot_spec hk
    obtain ⟨hhas, hpeers⟩ := layerSlotFree_iff.mp hfree
    exact ⟨k, hd, hhas, hpeers, ha.next_done (by simp only [layerCreate, hk])⟩
  case destroy => exact ha.next_done rfl
  case query =>
    obtain ⟨l, hl⟩ := layerOf_of_layerCks fun k hk => ha.checks_pass k (List.mem_cons_of_mem _ hk)
    exact ⟨l, (layerOf_eq_some.mp hl).2, ha.next_done (by simp only [layerQuery, hl])⟩
  case geometry => exact ha.next_done (by simp only [gratQuery, he])

/-! ### Staged records -/

theorem Tab.upd_upd {α : Type} (t : Tab α) (i : Nat) (f g : α → α) : (t.upd i f).upd i g = t.upd i fun x => g (f x) := by
  simp only [Tab.upd, List.map_map]
  refine List.map_congr_left fun e _ => ?_
  by_cases hk : e.1 = i
  · simp [hk]
  · simp [hk]

theorem updStaged_updStaged (h : Hub) (c : Cmd) (f g : Txn → Txn) :
    updStaged (updStaged h c f) c g = updStaged h c fun t => g (f t) :=
  congrArg (fun ts => { h with txns := ts }) (Tab.upd_upd h.txns (stagedKey c) f g)

/-- Settles O28: each command stages the record that its fields give; LAYER_MATRIX, LAYER_PARAMS and LAYER_FENCE by their selecting field,
LAYER_GEOM in two changes of one transaction. -/
theorem stagedLayerRecords : Obligations.StagedLayerRecords := by
  intro c s h v r put
  refine ⟨fun ha => ?geom, fun ha => ha.next_done rfl, fun ha => ha.next_done rfl, fun ha => ?matrix, fun ha => ha.next_done rfl,
    fun ha => ?params, fun ha => ?fence⟩
  case geom => exact ha.next_done (congrArg (okRes ·) (updStaged_updStaged h c _ _))
  case matrix =>
    exact ⟨fun hw => ha.next_done (by simp only [layerMatrix, staging, hw]; rfl),
      fun hw => ha.next_done (by simp only [layerMatrix, staging, hw]; rfl),
      fun hw => ha.next_done (by simp only [layerMatrix, staging, hw]; rfl)⟩
  case params =>
    exact ⟨fun hw => ha.next_done (by simp only [layerParams, staging, hw]; rfl),
      fun hw => ha.next_done (by simp only [layerParams, staging, hw]; rfl)⟩
  case fence =>
    exact ⟨fun ht => ha.next_done (by simp only [layerFence, staging, if_pos ht]; rfl),
      fun ht => ha.next_done (by simp only [layerFence, staging, if_neg ht]; rfl)⟩

/-- Settles O29: each command's execution is the staging of its one record. -/
theorem stagedOutputRecords : Obligations.StagedOutputRecords := by
  intro c s h put m
  exact ⟨fun ha => ha.next_done rfl, fun ha => ha.next_done rfl, fun ha => ha.next_done rfl, fun ha => ha.next_done rfl,
    fun ha => ha.next_done rfl, fun ha => ha.next_done rfl, fun ha => ha.next_done rfl, fun ha => ha.next_done rfl,
    fun ha => ha.next_done rfl, fun ha => ha.next_done rfl, fun ha => ha.next_done rfl, fun ha => ha.next_done rfl⟩

end Sys2Proof.Machine
end

section
/-!
Tiles and lines: an engine takes a tile and writes it whole (04 R94-R97), a line of an output starts (08 R214-R217), and a written frame is
told (08 R217).
-/

namespace Sys2Proof.Machine

/-! ### Tables whose entries keep their numbers -/

theorem Tab.find_map_of_fst {α : Type} {g : Nat × α → Nat × α} (hg : ∀ e, (g e).1 = e.1) (t : Tab α) (i : Nat) :
    Tab.find (t.map g) i = (t.find i).map fun v => (g (i, v)).2 := by
  induction t with
  | nil => rfl
  | cons e r ih =>
    by_cases hk : e.1 = i
    · simp [Tab.find, hg, ← hk]
    · simp [Tab.find, hg, hk, ih]

/-! ### Tiles -/

theorem tileStart_of_free {k : Nat} {t : TileRef} {h : Hub} (hu : dieUp h (k / 24) = true) (he : h.engines.has k = false)
    (hi : ((getDie h (k / 24)).srv.engIn).testBit (k % 24) = true) (hn : nextTile h k = some t) :
    tileStart k h = updDie { h with engines := h.engines.set k t } (k / 24) fun x => { x with
      zeroed := x.zeroed.filter fun z => z.1 ≠ k % 24 } := by
  simp only [tileStart, hu, he, bit, hi, hn, Bool.not_true, Bool.or_self, Bool.false_eq_true, if_false]

/-- The engines of a hub, and the bands of an output. -/
def Hub.tiles (h : Hub) (o : Nat) : Tab TileRef × Tab (Tab (List (List Px))) := (h.engines, (getOut h o).bands)

theorem tiles_of_rest {g h : Hub} (e : g.rest = h.rest) (q : Nat) : g.tiles q = h.tiles q := (congrArg (Hub.tiles · q) e :)

theorem tiles_updOut (h : Hub) (o q : Nat) {f : Output → Output} (hf : ∀ x, (f x).bands = x.bands) :
    (updOut h o f).tiles q = h.tiles q :=
  congrArg (h.engines, ·) (getOut_updOut_keeps Output.bands h o q hf)

theorem tiles_settleLayer (p : Nat) (f : Frame) (h : Hub) (l : FrameLayer) (q : Nat) : (settleLayer p f h l).tiles q = h.tiles q := by
  unfold settleLayer
  dsimp only
  split
  · exact tiles_of_rest (rest_postEvent _ _ _ _ _) q
  · rfl

theorem tiles_settleFrame (p : Nat) (h : Hub) (q : Nat) : (settleFrame p h).tiles q = h.tiles q := by
  unfold settleFrame
  split
  · rfl
  · split
    · rfl
    · rw [foldl_keeps (Hub.tiles · q) fun g l => tiles_settleLayer p _ g l q, tiles_updOut]
      · rfl
      · exact fun _ => rfl

theorem tiles_fetchSpent (d k : Nat) (h : Hub) (q : Nat) : (fetchSpent d k h).tiles q = h.tiles q := by
  unfold fetchSpent
  split <;> rfl

theorem outs_remoteRead (d : Nat) (gs : List Nat) (m : List Host.Cell) (h : Hub) : (remoteRead d gs m h).outs = h.outs := by
  unfold remoteRead
  split <;> rfl

theorem getOut_remoteRead (d : Nat) (gs : List Nat) (m : List Host.Cell) (h : Hub) (q : Nat) :
    getOut (remoteRead d gs m h) q = getOut h q := by rw [getOut, outs_remoteRead, getOut]

/-- The hub in which engine `k`, free again, has read of other dies what tile `t` of frame `f` needs (04 R97; 14 R386). -/
def tileRead (k : Nat) (t : TileRef) (e : ModeEntry) (f : Frame) (m : List Host.Cell) (h : Hub) : Hub :=
  remoteRead (t.out / 4) (if f.source = 0 then tileGrans { h with engines := h.engines.del k } t.out f e t.band t.col else []) m
    { h with engines := h.engines.del k }

theorem getOut_tileRead (k : Nat) (t : TileRef) (e : ModeEntry) (f : Frame) (m : List Host.Cell) (h : Hub) (q : Nat) :
    getOut (tileRead k t e f m h) q = getOut h q := getOut_remoteRead _ _ _ _ q

/-- The rows of tile `t` as engine `k` brings them: composed from memory as it fetches it, or from the cache frame (04 R96; 08 R221). -/
def tileRows (k : Nat) (t : TileRef) (e : ModeEntry) (f : Frame) (m : List Host.Cell) (g : Hub) : List (List Px) :=
  if f.source = 0 then composeTile (fetchView g (t.out / 4) (k % 24) m) (fetchHub g (t.out / 4) (k % 24)) t.out f e t.band t.col
  else cacheTile (fetchView g (t.out / 4) (k % 24) m) (fetchHub g (t.out / 4) (k % 24)) t.out e t.band t.col

/-- TILE_COMPLETE of an engine with a tile puts the rows into their place, notes faults in the frame of the list, and with the last tile
settles that frame (04 R95, R109). -/
theorem tileComplete_of_busy {k : Nat} {t : TileRef} {e : ModeEntry} {f : Frame} {h : Hub} (m : List Host.Cell)
    (ht : h.engines.find k = some t) (hm : (getOut h t.out).mode = some e) (hf : (getOut h t.out).frame = some f) :
    let g := tileRead k t e f m h
    ∃ (u v : Output → Output) (w : Hub) (p lo : Nat), w = updOut (updOut (fetchSpent (t.out / 4) (k % 24) g) t.out u) p v ∧
      (tileComplete k m h = settleFrame p w ∨ tileComplete k m h = w) ∧ (∀ x, (v x).bands = x.bands) ∧
      ∀ x, (u x).bands =
        Tab.set (x.bands.filter fun b => b.1 ≥ lo) t.band ((x.bands.get t.band []).set t.col (tileRows k t e f m g)) := by
  intro g
  have hm' : (getOut { h with engines := h.engines.del k } t.out).mode = some e := hm
  have hf' : (getOut { h with engines := h.engines.del k } t.out).frame = some f := hf
  simp only [tileComplete, ht, hm', hf']
  exact ⟨_, _, _, _, _, rfl, (Decidable.em _).imp (fun hc => if_pos hc) (fun hc => if_neg hc), by exact fun _ => rfl,
    by exact fun _ => rfl⟩

/-- The bands of the output after TILE_COMPLETE: those that are still scanned, with the tile in its place. -/
theorem tiles_tileComplete {k : Nat} {t : TileRef} {e : ModeEntry} {f : Frame} {h : Hub} (m : List Host.Cell)
    (ht : h.engines.find k = some t) (hm : (getOut h t.out).mode = some e) (hf : (getOut h t.out).frame = some f) :
    ∃ bs : Tab (Tab (List (List Px))), (tileComplete k m h).tiles t.out = ((tileRead k t e f m h).engines,
      bs.set t.band (((getOut h t.out).bands.get t.band []).set t.col (tileRows k t e f m (tileRead k t e f m h)))) := by
  obtain ⟨u, v, w, p, lo, rfl, hw, hv, hu⟩ := tileComplete_of_busy m ht hm hf
  have hset := hw.elim (fun e => (congrArg (Hub.tiles · t.out) e).trans (tiles_settleFrame p _ t.out)) (congrArg (Hub.tiles · t.out))
  obtain ⟨he, hb⟩ := Prod.mk.inj (tiles_fetchSpent (t.out / 4) (k % 24) (tileRead k t e f m h) t.out)
  rw [tiles_updOut _ p _ hv, Hub.tiles.eq_def (updOut _ _ u), getOut_updOut, hu, updOut_engines, he, hb, getOut_tileRead] at hset
  exact ⟨_, hset⟩

/-! ### A written frame -/

/-- The hub after the last write of a written frame of output `o` has become visible. -/
def writtenHub (h : Hub) (o : Nat) : Hub := broadcast (updOut h o fun x => { x with wbFlight := none })

theorem writebackDone_of_owner {o n c : Nat} {h : Hub} (hn : (getOut h o).wbFlight = some n)
    (hc : listOwner (writtenHub h o) (listOf (writtenHub h o) o) = some c) :
    writebackDone o h = postEvent c 0x0482 o n (writtenHub h o) := by
  rw [writtenHub] at hc
  simp only [writebackDone, hn, hc, writtenHub]

theorem writebackDone_of_no_owner {o n : Nat} {h : Hub} (hn : (getOut h o).wbFlight = some n)
    (hc : listOwner (writtenHub h o) (listOf (writtenHub h o) o) = none) : writebackDone o h = writtenHub h o := by
  rw [writtenHub] at hc
  simp only [writebackDone, hn, hc, writtenHub]

/-! ### Lines -/

/-- What of an output its lines are sent by: all but its check values, its dimming, its counters of missing bands and changes, and of its
frame but where it is written. -/
def Output.sends (x : Output) : Output × Option (Bool × Bool) :=
  ({ x with chk := {}, dim := {}, frame := none, undLines := 0, undBands := 0, undPosted := false, frameTime := 0, changed := false
            dirty := [] },
   x.frame.map fun f => (f.toCache, f.toTarget))

/-- What the lines of a hub's outputs are sent by: the outputs, the Atlas and the regions. -/
def Hub.sends (h : Hub) : (Nat → Output × Option (Bool × Bool)) × Tab Surf × Tab Region :=
  (fun q => (getOut h q).sends, h.atlas, h.regions)

theorem sends_of_rest {g h : Hub} (e : g.rest = h.rest) : g.sends = h.sends := (congrArg Hub.sends e :)

theorem sends_updOut (h : Hub) (o : Nat) {f : Output → Output} (hf : (f (getOut h o)).sends = (getOut h o).sends := by rfl) :
    (updOut h o f).sends = h.sends := by
  refine congrArg (·, h.atlas, h.regions) (funext fun q => ?_)
  by_cases hq : q = o
  · rw [hq, getOut_updOut, hf]
  · rw [getOut_updOut_ne h o q f hq]

theorem sends_ite {c : Prop} [Decidable c] {a b h : Hub} (ha : a.sends = h.sends) (hb : b.sends = h.sends) :
    (if c then a else b).sends = h.sends := by
  split
  · exact ha
  · exact hb

/-! #### Check values and missing bands -/

theorem sends_endOp (st r1 : Nat) (h : Hub) (p : LaneOp) : (endOp st r1 h p).sends = h.sends := by
  unfold endOp
  split
  · rfl
  · exact sends_of_rest (rest_complete _ _ _ _ _ h)

theorem sends_captureOps (o : Nat) (chs : Nat → Bool) (h : Hub) : (captureOps o chs h).sends = h.sends := by
  unfold captureOps
  extract_lets g x
  have hg : g.sends = h.sends := sends_updOut h o
  split
  · exact hg
  · exact (foldl_keeps Hub.sends (fun g p => sends_endOp _ _ g p) _ _).trans ((sends_updOut g o).trans hg)

theorem sends_presetOps (o : Nat) (chs : Nat → Bool) (h : Hub) : (presetOps o chs h).sends = h.sends := by
  unfold presetOps
  extract_lets x
  split
  · rfl
  · refine (foldl_keeps Hub.sends (fun g p => sends_endOp _ _ g p) _ _).trans (sends_updOut h o ?_)
    simp only [Output.sends, Option.map_map]
    congr 2
    funext f
    simp only [Function.comp_apply]
    split <;> rfl

theorem sends_truncateFrame (now : Nat) (x : Output) : (truncateFrame now x).sends = x.sends := by
  unfold truncateFrame
  split
  case h_1 f sc e hf hs hm =>
    split
    · rfl
    · split
      · simp only [Output.sends, hf]
        rfl
      · split
        · rfl
        · simp only [Output.sends, hf]
          rfl
  case h_2 => rfl

theorem sends_missBand (o b : Nat) (h : Hub) : (missBand o b h).sends = h.sends := by
  unfold missBand
  extract_lets x home g₁ d
  have h₁ : g₁.sends = h.sends := sends_updOut h o
  split
  case h_2 => rfl
  case h_1 f _ hf _ =>
    extract_lets t g₂ g₃ g₄
    have hx : (getOut g₁ o).frame = some f := by rw [getOut_updOut]; exact hf
    have h₂ : g₂.sends = g₁.sends := sends_updOut g₁ o (by simp only [Output.sends, hx]; rfl)
    have h₃ : g₃.sends = g₂.sends := sends_of_rest (rest_fbkRecord _ _ _ _ _ _)
    have h₄ : g₄.sends = g₃.sends := sends_of_rest (rest_faultReport _ _ _ _ _ _)
    have h₅ : g₄.sends = h.sends := h₄.trans (h₃.trans (h₂.trans h₁))
    split
    · exact h₁
    · split
      · split
        · exact h₅
        · exact (sends_of_rest (rest_postEvent _ _ _ _ _)).trans h₅
      · exact h₅

/-! #### Ports -/

/-- The hub without what a port's sending changes: its ports and what was sent. -/
def Hub.offPorts (h : Hub) : Hub := { h with ports := [], outbox := [] }

theorem offPorts_updPort (h : Hub) (k : Nat) (f : Port → Port) : (updPort h k f).offPorts = h.offPorts := rfl

theorem offPorts_emitBlock (k typ : Nat) (bytes data : Bytes) (h : Hub) : (emitBlock k typ bytes data h).offPorts = h.offPorts := rfl

theorem offPorts_trainSend (n k : Nat) (h : Hub) : (trainSend n k h).offPorts = h.offPorts :=
  foldl_keeps Hub.offPorts (fun g _ => offPorts_emitBlock _ _ _ _ g) _ h

theorem offPorts_payloadDue (k : Nat) (h : Hub) : (payloadDue k h).offPorts = h.offPorts := by
  unfold payloadDue
  split
  · rw [offPorts_trainSend, offPorts_updPort]
  · rfl

theorem offPorts_sendBlock (k typ : Nat) (bytes data : Bytes) (h : Hub) : (sendBlock k typ bytes data h).offPorts = h.offPorts := by
  unfold sendBlock
  split
  · rfl
  · rw [offPorts_emitBlock, offPorts_updPort, offPorts_payloadDue]

theorem sends_of_offPorts {g h : Hub} (e : g.offPorts = h.offPorts) : g.sends = h.sends := (congrArg Hub.sends e :)

theorem offPorts_sendLine (o y frame bpc : Nat) (px : List (Nat × Nat × Nat)) (h : Hub) :
    (sendLine o y frame bpc px h).offPorts = h.offPorts := by
  unfold sendLine
  split
  · rfl
  · split
    · exact offPorts_sendBlock _ _ _ _ h
    · dsimp only
      split <;> rfl

theorem sends_takeFree (h : Hub) : (takeFree h).2.sends = h.sends := rfl

theorem sends_zoneGap (o : Nat) (bound : Option (Nat × Bool)) (h : Hub) : (zoneGap o bound h).sends = h.sends := by
  unfold zoneGap
  extract_lets x
  split
  case h_2 => rfl
  case h_1 =>
    extract_lets left
    split
    next i h' hfree =>
      have hh : h'.sends = h.sends := (congrArg (fun p => p.2.sends) hfree).symm.trans (sends_takeFree h)
      extract_lets n data g
      have hg : g.sends = h.sends := (sends_updOut h' o).trans hh
      split
      · exact hh
      · split
        · exact (sends_of_offPorts (offPorts_sendBlock _ _ _ _ _)).trans hg
        · exact hg

/-! #### Surfaces that lines are written to -/

theorem sends_dirtied (ls : List (Nat × Layer)) (h : Hub) : (dirtied ls h).sends = h.sends := by
  refine congrArg (·, h.atlas, h.regions) (funext fun q => ?_)
  simp only [dirtied, getOut, Tab.get]
  rw [Tab.find_map_of_fst]
  · cases Tab.find h.outs q with
    | none => rfl
    | some x =>
      simp only [Option.map_some, Option.getD_some]
      split <;> rfl
  · intro e
    split <;> rfl

theorem sends_writesTouched (ws : List MemWrite) (h : Hub) : (writesTouched ws h).sends = h.sends :=
  foldl_keeps Hub.sends (fun g _ => sends_dirtied _ g) _ h

/-! #### What a line is sent by -/

section
variable {g h : Hub} (e : g.sends = h.sends)
include e

theorem out_of_sends (q : Nat) : (getOut g q).sends = (getOut h q).sends := congrFun (congrArg Prod.fst e) q

/-- A field of an output that is among what its lines are sent by. -/
theorem field_of_sends {γ : Type} (F : Output → γ) (q : Nat) (hF : ∀ x, F x.sends.1 = F x := by exact fun _ => rfl) :
    F (getOut g q) = F (getOut h q) := by
  rw [← hF, out_of_sends e, hF]

theorem frame_of_sends {q : Nat} {f : Frame} (hf : (getOut h q).frame = some f) :
    ∃ f', (getOut g q).frame = some f' ∧ f'.toCache = f.toCache ∧ f'.toTarget = f.toTarget := by
  have hs : (getOut g q).frame.map (fun f => (f.toCache, f.toTarget)) = some (f.toCache, f.toTarget) := by
    rw [← Option.map_some (f := fun f : Frame => (f.toCache, f.toTarget)), ← hf]
    exact congrArg Prod.snd (out_of_sends e q)
  obtain ⟨f', hf', ht⟩ := Option.map_eq_some_iff.mp hs
  exact ⟨f', hf', congrArg Prod.fst ht, congrArg Prod.snd ht⟩

theorem homePipe_of_sends (o : Nat) : homePipe g o = homePipe h o := by
  have hm (q : Nat) : membersOf g q = membersOf h q := membersOf_congr (field_of_sends e Output.group q)
  simp only [homePipe, field_of_sends e Output.grp, field_of_sends e Output.primary, hm]

theorem bandRow_of_sends (o : Nat) (m : ModeEntry) (y : Nat) : bandRow g o m y = bandRow h o m y := by
  simp only [bandRow, homePipe_of_sends e, field_of_sends e Output.bandH, field_of_sends e Output.bands, field_of_sends e lacksBank,
    field_of_sends e tileDone]

theorem cacheLine_of_sends (o : Nat) (m : ModeEntry) (y : Nat) (px : List Px) : cacheLine g o m y px = cacheLine h o m y px := by
  simp only [cacheLine, cacheAddr, field_of_sends e Output.cache]

theorem surfOf_of_sends (v : Nat) : surfOf g v = surfOf h v := by
  have ha : g.atlas = h.atlas := congrArg (fun p => p.2.1) e
  simp only [surfOf, entryOf, ha]

theorem planeWrite_of_sends (s : Surf) (p off : Nat) (bs : Bytes) : planeWrite g s p off bs = planeWrite h s p off bs := by
  have hr : g.regions = h.regions := congrArg (fun p => p.2.2) e
  simp only [planeWrite, planeAddr, regAddr, hr]

theorem targetHolds_of_sends (o : Nat) : targetHolds g o = targetHolds h o := by
  simp only [targetHolds, listOwner, listOf_congr (field_of_sends e Output.group o), field_of_sends e Output.owner,
    field_of_sends e Output.wbTarget, surfOf_of_sends e]

theorem targetLine_of_sends (o y : Nat) (px : List Px) : targetLine g o y px = targetLine h o y px := by
  simp only [targetLine, writeCrateRow, field_of_sends e Output.wbTarget, field_of_sends e Output.wbRows, field_of_sends e Output.mode,
    surfOf_of_sends e, planeWrite_of_sends e]

end

/-! #### The next line -/

/-- The pixels that pipe `o` sends at line `y`: its background where the band is missing (08 R214, R215). -/
def linePxs (h : Hub) (o : Nat) (e : ModeEntry) (y : Nat) : List Px :=
  (bandRow h o e y).getD (List.replicate e.hActive (bgPx (getOut h o)))

/-- The writes of stream 0 at line `y` (08 R216). -/
def cacheWrites (h : Hub) (o : Nat) (e : ModeEntry) (f : Frame) (y : Nat) : List MemWrite :=
  if f.toCache && homePipe h o = o then cacheLine h o e y (linePxs h o e y) else []

/-- The writes of stream 1 at line `y` (08 R217). -/
def targetWrites (h : Hub) (o : Nat) (e : ModeEntry) (f : Frame) (y : Nat) : List MemWrite :=
  if f.toTarget && targetHolds h o then (targetLine h o y (linePxs h o e y)).2 else []

/-- LINE_START of a running output that has drained, within its active lines: the next line is the following one, and the writes of the two
streams are those of the hub as it stood, since nothing that the line does before them changes what it is sent by (08 R214-R217). -/
theorem lineStart_of_running {o : Nat} {h : Hub} {e : ModeEntry} {sc : Scan} {f : Frame} (hm : (getOut h o).mode = some e)
    (hs : (getOut h o).scan = some sc) (hf : (getOut h o).frame = some f) (hr : (getOut h o).state = .running)
    (hp : (getOut h o).pllLost = false) (hd : sc.drained = true) (hl : sc.line < e.vActive) :
    ∃ (g : Hub) (u : Output → Output), g.sends = h.sends ∧
      (∀ x, (u x).scan = some { sc with line := sc.line + 1 } ∧ (u x).mode = x.mode ∧ (u x).state = x.state) ∧
      lineStart o h = (writesTouched (targetWrites h o e f sc.line) (updOut g o u),
        cacheWrites h o e f sc.line ++ targetWrites h o e f sc.line) := by
  have hc : ((getOut h o).state != .running || !sc.drained || decide (sc.line ≥ e.vActive)) = false := by
    simp [hr, hd, hl]
  unfold lineStart
  rw [settleLoss_of_locked hp]
  extract_lets k x g₁
  split
  case h_2 hno => exact (hno e sc f hm hs hf).elim
  case h_1 e' sc' _ hm' hs' _ =>
    obtain rfl := Option.some.inj (hm'.symm.trans hm)
    obtain rfl := Option.some.inj (hs'.symm.trans hs)
    rw [if_neg (hc ▸ Bool.false_ne_true)]
    extract_lets y g₂ can g₃ g₄ b row g₅ px x₅ w x0 gran due last
    have h₁ : g₁.sends = h.sends := sends_captureOps o _ h
    have h₂ : g₂.sends = h.sends := h₁
    have h₃ : g₃.sends = h.sends :=
      sends_ite h₂ (sends_ite ((sends_updOut g₂ o (by simp only [Output.sends, Option.map_map]; rfl)).trans h₂)
        ((sends_updOut g₂ o (sends_truncateFrame _ _)).trans h₂))
    have h₄ : g₄.sends = h.sends := (sends_presetOps o _ g₃).trans h₃
    have h₅ : g₅.sends = h.sends := sends_ite ((sends_missBand o b g₄).trans h₄) h₄
    have hpx : px = linePxs h o e' y := congrArg (Option.getD · _) (bandRow_of_sends h₄ o e' y)
    obtain ⟨f', hf', hcache, htarget⟩ := frame_of_sends h₅ hf
    split
    case h_1 hno => exact (Option.some_ne_none _ (hf'.symm.trans hno)).elim
    case h_2 f'' hf'' =>
      obtain rfl := Option.some.inj (hf''.symm.trans hf')
      extract_lets sent codes g₆ g₇ g₈ w₀
      have h₆ : g₆.sends = h.sends :=
        sends_ite ((sends_of_offPorts (offPorts_sendLine _ _ _ _ _ _)).trans ((sends_updOut g₅ o).trans h₅)) h₅
      have h₇ : g₇.sends = h.sends := sends_ite ((sends_zoneGap o _ g₆).trans h₆) h₆
      have h₈ : g₈.sends = h.sends := sends_ite ((sends_updOut g₇ o).trans h₇) h₇
      have hw₀ : w₀ = cacheWrites h o e' f y := by
        rw [cacheWrites, ← hcache, ← hpx, ← homePipe_of_sends h₈ o, ← cacheLine_of_sends h₈]
      have hw₁ : (if (f''.toTarget && targetHolds g₈ o) = true then targetLine g₈ o y px else (x₅.wbRows, [])).2 =
          targetWrites h o e' f y := by
        rw [targetWrites, apply_ite Prod.snd, htarget, targetHolds_of_sends h₈, targetLine_of_sends h₈, hpx]
      generalize (if (f''.toTarget && targetHolds g₈ o) = true then targetLine g₈ o y px else (x₅.wbRows, [])) = r at hw₁
      obtain ⟨rows, w₁⟩ := r
      obtain rfl : w₁ = _ := hw₁
      rw [hw₀]
      exact ⟨g₈, _, h₈, by exact fun _ => ⟨rfl, rfl, rfl⟩, rfl⟩

/-- The writes of a line leave of every output what its lines are sent by. -/
theorem getOut_writesTouched {γ : Type} (F : Output → γ) (ws : List MemWrite) (g : Hub) (q : Nat)
    (hF : ∀ x, F x.sends.1 = F x := by exact fun _ => rfl) : F (getOut (writesTouched ws g) q) = F (getOut g q) :=
  field_of_sends (sends_writesTouched ws g) F q hF

/-! ### The obligation -/

theorem exec_tileStart {k : Nat} {s : State} {g : Hub} (hg : tileStart k s.hub = g) :
    exec (.tileStart k) s = .next { s with hub := g } := by
  rw [← hg]
  rfl

theorem exec_tileComplete (k : Nat) (s : State) : exec (.tileComplete k) s = .next (onHub (tileComplete k s.lp5x) s) := rfl

theorem exec_lineStart {o : Nat} {s : State} {g : Hub} {ws : List MemWrite} (hl : lineStart o s.hub = (g, ws)) :
    exec (.lineStart o) s = .next { s with hub := g, lp5x := ws.foldl Memory.apply s.lp5x } := by
  have hact : exec (.lineStart o) s = .next (act (fun _ h => lineStart o h) s) := rfl
  rw [hact, act, hl]

theorem exec_writebackFrameDone {o : Nat} {s : State} {g : Hub} (hg : writebackDone o s.hub = g) :
    exec (.writebackFrameDone o) s = .next { s with hub := g } := by
  rw [← hg]
  rfl

/-- Settles O32: TILE_START and WRITEBACK_FRAME_DONE are one equation of the hub each; of TILE_COMPLETE the bands are followed to the end of
the frame, and of LINE_START what the line is sent by, from the line before to the writes. -/
theorem tilesAndLines : Obligations.TilesAndLines := by
  refine ⟨?start, ?complete, ?line, ?written⟩
  case start => exact fun k t s hu he hi hn => exec_tileStart (tileStart_of_free hu he hi hn)
  case complete =>
    intro k t e f s ht hm hf g m q
    obtain ⟨bs, h⟩ := tiles_tileComplete s.lp5x ht hm hf
    obtain ⟨he, hb⟩ := by simpa only [Hub.tiles, Prod.mk.injEq] using h
    refine ⟨onHub (tileComplete k s.lp5x) s, exec_tileComplete k s, rfl, rfl, he, ?_⟩
    rw [onHub_hub, hb, Tab.get_set_same, Tab.find_set_same]
    rfl
  case line =>
    intro o e sc f s x hm hs hf hr hp hd hl px
    obtain ⟨g, u, hg, hu, h⟩ := lineStart_of_running hm hs hf hr hp hd hl
    obtain ⟨hscan, hmode, hstate⟩ := hu (getOut g o)
    refine ⟨_, exec_lineStart h, rfl, ?_, ?_, ?_, rfl⟩
    · rw [getOut_writesTouched Output.scan, getOut_updOut, hscan]
    · rw [getOut_writesTouched Output.mode, getOut_updOut, hmode, field_of_sends hg Output.mode, hm]
    · rw [getOut_writesTouched Output.state, getOut_updOut, hstate, field_of_sends hg Output.state, hr]
  case written =>
    exact fun o n s hn => ⟨fun c hc => exec_writebackFrameDone (writebackDone_of_owner hn hc),
      fun hc => exec_writebackFrameDone (writebackDone_of_no_owner hn hc)⟩

end Sys2Proof.Machine
end

section
/-!
Coefficient banks and LUT slots (05 R139, R140), and program slots (06 R156, R157, R160).
-/

namespace Sys2Proof.Machine

/-! ### Free indices -/

/-- Where a die has room for one more object, under whatever further limit, the index found is below the number of its objects, and names
none (05 R132, R139; 06 R153, R156). -/
theorem freeIndex_of_room {has : Nat → Bool} {n d : Nat} {limit : Bool} (hr : ((freeIndex has n d).isSome && limit) = true) :
    ∃ i, i < n ∧ has (d * n + i) = false ∧ freeIndex has n d = some (d * n + i) ∧ (d * n + i) % n = i := by
  obtain ⟨k, hk⟩ := Option.isSome_iff_exists.mp (Bool.and_eq_true_iff.mp hr).1
  obtain ⟨hlo, hhi, hfree⟩ := firstNat_spec hk
  obtain ⟨i, rfl⟩ := Nat.exists_eq_add_of_le hlo
  have hi : i < n := Nat.lt_of_add_lt_add_left hhi
  exact ⟨i, hi, by simpa using hfree, hk, by rw [Nat.mul_add_mod', Nat.mod_eq_of_lt hi]⟩

/-! ### What the checks of accepted commands say -/

/-- DIE and INDEX fields that draw no refusal name an object that there is (05 R134). -/
theorem present_of_objCks {h : Hub} {ctx doff ioff d i n : Nat} {present : Bool} {own : Option Nat}
    (hk : ∀ k ∈ objCks h ctx doff ioff d i n present own, k.bad = false) : present = true := by
  obtain ⟨hdie, hi, hp, -⟩ := by simpa only [objCks, List.forall_mem_cons] using hk
  have hup : d < 8 ∧ dieUp h d = true := by
    simp only [dieCk] at hdie
    split at hdie
    case isTrue hd => simpa only [Bool.and_eq_true, decide_eq_true_eq] using hd
    case isFalse => cases hdie
  have hin : i < n := by simpa [ck] using hi
  simpa [ckd, hup, hin] using hp

section
variable {c : Cmd} {s : State}

/-- COLOUR_ALLOC goes on only where its die has room for an object of KIND. -/
theorem colourAlloc_room (ha : Accepts colourAlloc c s) :
    let h := fetched c.ctx s.hub
    let g := (getCtx h c.ctx).group
    (arg8 c 16 = 1 → bankRoom h (arg8 c 17) g = true) ∧ (arg8 c 16 = 2 → lutRoom h (arg8 c 17) g = true) := by
  obtain ⟨-, -, hbank, hlut⟩ := by simpa [colourAlloc, ckd] using ha.checks_pass
  exact ⟨hbank, hlut⟩

/-- PROG_ALLOC goes on only where its die has room for a program slot. -/
theorem progAlloc_room (ha : Accepts progAlloc c s) :
    let h := fetched c.ctx s.hub
    progRoom h (arg8 c 16) (getCtx h c.ctx).group = true := by
  obtain ⟨-, hroom⟩ := by simpa [progAlloc, ckd] using ha.checks_pass
  exact hroom

theorem progQuery_finds (ha : Accepts progQuery c s) :
    ∃ p, (fetched c.ctx s.hub).progs.find (arg8 c 16 * 256 + arg8 c 17) = some p :=
  Option.isSome_iff_exists.mp (present_of_objCks ha.checks_pass)

end

/-- Settles O31: an allocation takes the index that its check of room has found free, PROG_QUERY finds the slot that its checks have found,
and a load or a free by KIND takes the branch of that kind. -/
theorem colourAndProgramObjects : Obligations.ColourAndProgramObjects := by
  intro c s h g
  refine ⟨fun ha hk => ?allocBank, fun ha hk => ?allocLut, fun ha hk => ha.next_done (if_pos hk),
    fun ha hk => ha.next_done (if_neg (by simp [hk])), fun ha hk => ha.next_done (if_pos hk),
    fun ha hk => ha.next_done (if_neg (by simp [hk])), fun ha => ?allocProg, fun ha => ha.next_done rfl,
    fun ha => ha.next_done rfl, fun ha => ?query⟩
  case allocBank =>
    obtain ⟨i, hi, hfree, hf, hmod⟩ := freeIndex_of_room ((colourAlloc_room ha).1 hk)
    refine ⟨i, hi, hfree, ha.next_done ?_⟩
    simp only [colourAlloc, hk, hf, hmod]
    rfl
  case allocLut =>
    obtain ⟨i, hi, hfree, hf, hmod⟩ := freeIndex_of_room ((colourAlloc_room ha).2 hk)
    refine ⟨i, hi, hfree, ha.next_done ?_⟩
    simp only [colourAlloc, hk, hf, hmod]
    rfl
  case allocProg =>
    obtain ⟨i, hi, hfree, hf, hmod⟩ := freeIndex_of_room (progAlloc_room ha)
    refine ⟨i, hi, hfree, ha.next_done ?_⟩
    simp only [progAlloc, hf, hmod]
    rfl
  case query =>
    obtain ⟨p, hp⟩ := progQuery_finds ha
    exact ⟨p, hp, ha.next_done (by simp only [progQuery, hp, h])⟩

end Sys2Proof.Machine
end

section
/-!
Transactions: begun, committed, cancelled, queried, and ended at the timeout of their fences (07 R162, R184, R188-R191).
-/

namespace Sys2Proof.Machine

/-! ### What the checks of accepted commands say -/

/-- A TXN value names a transaction of its context (07 R162). -/
theorem txnOf_find {h : Hub} {c v k : Nat} {t : Txn} (ht : txnOf h c v = some (k, t)) : h.txns.find k = some t ∧ t.owner = c := by
  simp only [txnOf] at ht
  split at ht
  case isTrue => cases ht
  case isFalse =>
    split at ht
    case h_1 => cases ht
    case h_2 t' hf =>
      split at ht
      case isTrue ho =>
        obtain ⟨rfl, rfl⟩ := Prod.mk.inj (Option.some.inj ht)
        exact ⟨hf, by simpa using (Bool.and_eq_true_iff.mp ho).2⟩
      case isFalse => cases ht

theorem txnOf_congr {g h : Hub} (c v : Nat) (ht : g.txns = h.txns) (hg : g.txnGens = h.txnGens) : txnOf g c v = txnOf h c v := by
  rw [txnOf, txnOf, ht, hg]

section
variable {sp : Spec} {c : Cmd} {s : State}

/-- An accepted command that acts on a transaction names one (07 R164). -/
theorem Accepts.names_txn (ha : Accepts sp c s) (hu : sp.txn = .acts) :
    ∃ k t, txnOf (fetched c.ctx s.hub) c.ctx c.txn.toNat = some (k, t) := by
  have hk := ha.2 { st := 0x0401, off := 8, bad := (txnOf (fetched c.ctx s.hub) c.ctx c.txn.toNat).isNone }
    (List.mem_append_left _ (by simp [headChecks, hu]))
  obtain ⟨⟨k, t⟩, ht⟩ := Option.isSome_iff_exists.mp (Option.isNone_eq_false_iff.mp hk)
  exact ⟨k, t, ht⟩

theorem txnBegin_finds (ha : Accepts txnBegin c s) :
    ∃ k, freeTxn (fetched c.ctx s.hub) (homeDie c.ctx) = some k ∧ k / 256 = homeDie c.ctx ∧ (fetched c.ctx s.hub).txns.has k = false := by
  obtain ⟨-, -, -, -, hn⟩ := by simpa [txnBegin, ck] using ha.checks_pass
  obtain ⟨k, hk⟩ := Option.isSome_iff_exists.mp hn
  obtain ⟨hlo, hhi, hfree⟩ := firstNat_spec hk
  exact ⟨k, hk, by omega, by simpa using hfree⟩

/-- What TXN_COMMIT commits is OPEN (07 R164). -/
theorem txnCommit_finds (ha : Accepts txnCommit c s) :
    ∃ k t, txnOf (fetched c.ctx s.hub) c.ctx c.txn.toNat = some (k, t) ∧ t.state = .opened := by
  obtain ⟨k, t, ht⟩ := ha.names_txn rfl
  refine ⟨k, t, ht, Decidable.byContradiction fun hn => ?_⟩
  have hk := ha.checks_pass (ck 0x0402 8 true) (List.mem_cons_of_mem _ (by simp [ht, hn]))
  cases hk

/-- What TXN_CANCEL cancels is neither VALIDATING nor ARMED (07 R164). -/
theorem txnCancel_finds (ha : Accepts txnCancel c s) :
    ∃ k t, txnOf (fetched c.ctx s.hub) c.ctx c.txn.toNat = some (k, t) ∧ t.state ≠ .validating ∧ t.state ≠ .armed := by
  obtain ⟨k, t, ht⟩ := ha.names_txn rfl
  have hk := ha.checks_pass
  simp only [txnCancel, ht] at hk
  exact ⟨k, t, ht, by simpa [ck] using hk⟩

/-- An accepted command whose completion comes later. -/
theorem Accepts.next_later {g : Hub} (ha : Accepts sp c s)
    (hr : sp.run c (taken sp.op c s.hub) s.lp5x (fetched c.ctx s.hub) = laterRes g) :
    (.next (mail sp c s) : Host.Outcome State Fault Refusal) = .next { s with hub := g } := by
  simp only [mail_accepts sp c s ha, act, hr, answer_laterRes]
  rfl

end

/-! ### The end of a transaction -/

/-- A transaction whose commit does not wait ends without a completion (07 R190). -/
theorem closeTxn_of_no_commit {h : Hub} {k : Nat} {t : Txn} (st r0 r1 : Nat) (hf : h.txns.find k = some t) (hc : t.commit = none) :
    closeTxn k st r0 r1 h = endTxn k h := by
  simp only [closeTxn, hf, hc]

/-- A transaction whose commit waits ends, and the commit completes (07 R189). -/
theorem closeTxn_of_commit {h : Hub} {k : Nat} {t : Txn} {p : Pend} (st r0 r1 : Nat) (hf : h.txns.find k = some t)
    (hc : t.commit = some p) : closeTxn k st r0 r1 h = complete p st 255 r0 r1 (endTxn k h) := by
  simp only [closeTxn, hf, hc]

/-! ### The fences' timeout -/

/-- Has a transaction a fence that has neither signalled nor been done with (07 R183)? -/
def Txn.pendsFence (t : Txn) : Prop := ∃ f ∈ t.fences, f.2.signalled = none ∧ f.1 ∉ t.doneLayers

theorem fenceTimeout_of_pending {h : Hub} {k : Nat} {t : Txn} (hf : h.txns.find k = some t)
    (hs : t.state = .waiting ∨ t.state = .armed) (hp : t.pendsFence) :
    fenceTimeout k h = failFences k 0x0901 (fun _ => true) (at_ t.timeout h) := by
  have hany : (t.fences.any fun f => f.2.signalled.isNone && !t.doneLayers.contains f.1) = true := by simpa [Txn.pendsFence] using hp
  simp only [fenceTimeout, hf, hany, Bool.and_true]
  exact if_pos (by simpa using hs)

/-- A WAITING transaction rolls back whole with the first fence that fails (07 R184). -/
theorem failFences_of_waiting {h : Hub} {k : Nat} {t : Txn} (st : Nat) (hf : h.txns.find k = some t) (hs : t.state = .waiting)
    (hp : t.pendsFence) : failFences k st (fun _ => true) h = closeTxn k st 0 0 h := by
  obtain ⟨f, hmem, hsig, hdone⟩ := hp
  have hbad : ((t.fences.filter fun f => f.2.signalled.isNone && true && !t.doneLayers.contains f.1 &&
      (t.state == .waiting || t.layers.has f.1)).map Prod.fst).isEmpty = false :=
    List.isEmpty_eq_false_iff_exists_mem.mpr
      ⟨f.1, List.mem_map_of_mem (List.mem_filter.mpr ⟨hmem, by simp [hsig, hdone, hs]⟩)⟩
  simp only [failFences, hf, hbad]
  simp [hs]

theorem fenceTimeout_of_waiting {h : Hub} {k : Nat} {t : Txn} (hf : h.txns.find k = some t) (hs : t.state = .waiting)
    (hp : t.pendsFence) : fenceTimeout k h = closeTxn k 0x0901 0 0 (at_ t.timeout h) :=
  (fenceTimeout_of_pending hf (.inl hs) hp).trans (failFences_of_waiting _ hf hs hp)

theorem exec_fenceTimeout {k : Nat} {s : State} {g : Hub} (hg : fenceTimeout k s.hub = g) :
    exec (.fenceTimeout k) s = .next { s with hub := g } := hg ▸ rfl

/-! ### A commit that waits -/

/-- What a function wrote through BAR2 becomes visible in the dies alone (14 R387, R389). -/
theorem rest_bar2Visible (c : Nat) (h : Hub) : (bar2Visible c h).rest = h.rest := by
  unfold bar2Visible
  dsimp only
  split
  · refine (foldl_keeps Hub.rest (fun g d => ?_) _ _).trans (rest_updFn h _ _)
    unfold emptyBuffer
    split
    · rfl
    · exact rest_updDie g d _
  · rfl

/-- The hub without what copies for other dies change: banks, LUT slots and program slots (05 R136). -/
def Hub.offCopies (h : Hub) : Hub := { h with banks := [], luts := [], progs := [] }

/-- Whatever its kind, and whether or not there is room, a copy changes one of the three tables at most. -/
theorem offCopies_makeCopy (h : Hub) (c : Nat × Nat × Nat) : (makeCopy h c).2.offCopies = h.offCopies := by
  unfold makeCopy
  dsimp only
  repeat' split
  all_goals rfl

theorem offCopies_makeCopies (h : Hub) (t : Txn) : (makeCopies h t).2.offCopies = h.offCopies := by
  unfold makeCopies
  rw [foldl_keeps fun r : Nat × Hub => r.2.offCopies]
  intro r c
  split
  · rfl
  · exact offCopies_makeCopy r.2 c

theorem fenceReached_congr {g h : Hub} (f : Fence) (ht : g.tls = h.tls) : fenceReached g f = fenceReached h f := by
  simp only [fenceReached, tlOf, ht]

theorem Tab.find_upd_same {α : Type} (t : Tab α) (i : Nat) (f : α → α) : (t.upd i f).find i = (t.find i).map f := by
  unfold Tab.upd
  rw [Tab.find_map_of_fst fun e => by split <;> rfl]
  simp

/-- The fences of a commit, those that a value reaches already counted as signalled now (07 R182). -/
def commitFences (h : Hub) (fs : Tab Fence) : Tab Fence :=
  fs.map fun e => if fenceReached h e.2 then (e.1, { e.2 with signalled := some h.now }) else e

theorem commitFences_wait {h : Hub} {fs : Tab Fence} (hu : ∃ e ∈ fs, fenceReached h e.2 = false ∧ e.2.signalled = none) :
    (commitFences h fs).any (fun e => e.2.signalled.isNone) = true := by
  obtain ⟨e, hmem, hr, hs⟩ := hu
  exact List.any_eq_true.mpr ⟨e, List.mem_map.mpr ⟨e, hmem, by simp [hr]⟩, by simp [hs]⟩

/-- In atomic mode a commit with a fence that no value reaches waits for it until its timeout (07 R182, R184). -/
theorem commitTxn_waits {h : Hub} {k : Nat} {t : Txn} (p : Pend) (hf : h.txns.find k = some t) (hi : t.indep = false)
    (hu : ∃ e ∈ t.fences, fenceReached h e.2 = false ∧ e.2.signalled = none) :
    ∃ u, (commitTxn k p h).txns.find k = some u ∧ u.state = .waiting ∧
      u.timeout = p.time + (if t.timeoutMs = 0 then 100 else t.timeoutMs) * 1000000 := by
  have hc := offCopies_makeCopies h (planTxn h t)
  have htxns : (makeCopies h (planTxn h t)).2.txns = h.txns := (congrArg Hub.txns hc :)
  have htls : (makeCopies h (planTxn h t)).2.tls = h.tls := (congrArg Hub.tls hc :)
  have hwait : (!(planTxn h t).indep && (commitFences (makeCopies h (planTxn h t)).2 (planTxn h t).fences).any
      fun e => e.2.signalled.isNone) = true :=
    Bool.and_eq_true_iff.mpr ⟨congrArg not hi, commitFences_wait (hu.imp fun e he => ⟨he.1, (fenceReached_congr e.2 htls).trans he.2.1, he.2.2⟩)⟩
  unfold commitFences at hwait
  simp only [commitTxn, hf, hwait, if_true, htxns, Tab.find_upd_same, Option.map_some]
  exact ⟨_, rfl, rfl, rfl⟩

/-! ### The obligation -/

/-- Settles O34: each command acts on the slot or the transaction that its checks have found, a commit stages or waits by what its fences
find, and the fences' timeout ends a WAITING transaction and fails the fences of an ARMED one. -/
theorem transactionsBeginAndEnd : Obligations.TransactionsBeginAndEnd := by
  refine ⟨fun c s => ⟨fun ha => ?begin, fun ha => ?commit, fun ha => ?cancel, fun ha => ?query⟩,
    fun k t s hf hp => ⟨fun hs hc => ?timeout, fun p hs hc => ?timeoutCommit, fun hs => ?timeoutArmed⟩⟩
  case begin =>
    obtain ⟨k, hk, hd, hfree⟩ := txnBegin_finds ha
    exact ⟨k, hd, hfree, ha.next_done (by simp only [txnBegin, hk]; rfl)⟩
  case commit =>
    obtain ⟨k, t, ht, ho⟩ := txnCommit_finds ha
    obtain ⟨hf, hown⟩ := txnOf_find ht
    have hrest := rest_bar2Visible c.ctx (fetched c.ctx s.hub)
    have hg : txnOf (bar2Visible c.ctx (fetched c.ctx s.hub)) c.ctx c.txn.toNat = some (k, t) :=
      (txnOf_congr _ _ (txns_of_rest hrest) (txnGens_of_rest hrest)).trans ht
    refine ⟨k, t, ht, hf, hown, ho, fun hb => ?check, fun hb hn => ?nothing, fun hb hn => ⟨?later, fun hi hu => ?waits⟩⟩
    case check => exact ha.next_done (by simp only [txnCommit, hg, bit, hb, if_true])
    case nothing => exact ha.next_done (by simp only [txnCommit, hg, bit, hb, hn, if_true, Bool.false_eq_true, if_false])
    case later => exact ha.next_later (by simp only [txnCommit, hg, bit, hb, hn, Bool.false_eq_true, if_false])
    case waits =>
      exact commitTxn_waits _ ((congrArg (Tab.find · k) (txns_of_rest hrest)).trans hf) hi
        (by simpa only [fenceReached_congr _ (tls_of_rest hrest)] using hu)
  case cancel =>
    obtain ⟨k, t, ht, hv, har⟩ := txnCancel_finds ha
    obtain ⟨hf, -⟩ := txnOf_find ht
    exact ⟨k, t, ht, hv, har, fun hc => ha.next_done (by simp only [txnCancel, ht, closeTxn_of_no_commit _ _ _ hf hc]),
      fun p hc => ha.next_done (by simp only [txnCancel, ht, closeTxn_of_commit _ _ _ hf hc])⟩
  case query =>
    obtain ⟨k, t, ht⟩ := ha.names_txn rfl
    exact ⟨k, t, ht, ha.next_done (by simp only [txnQuery, ht])⟩
  case timeout =>
    exact exec_fenceTimeout ((fenceTimeout_of_waiting hf hs hp).trans (closeTxn_of_no_commit (h := at_ t.timeout s.hub) _ _ _ hf hc))
  case timeoutCommit =>
    exact exec_fenceTimeout ((fenceTimeout_of_waiting hf hs hp).trans (closeTxn_of_commit (h := at_ t.timeout s.hub) _ _ _ hf hc))
  case timeoutArmed => exact exec_fenceTimeout (fenceTimeout_of_pending hf (.inr hs) hp)

end Sys2Proof.Machine
end

section
/-!
Timelines: the slot that TL_CREATE takes, and the refutation of the statement on timelines (07 R193, 03 R52).
-/

namespace Sys2Proof.Machine

/-! ### The slot of a new timeline -/

/-- Where every timeline slot of a die has been used, the one that has been listed as free longest is taken (07 R193, 03 R52). -/
theorem freeTl_of_all_used {h : Hub} {d : Nat} (hu : ∀ k, k / 1024 = d → h.tlGens.has k = true) :
    freeTl h d = h.tlFreed.find? fun k => k / 1024 == d && h.tlGens.get k 1 < 0xFFFF := by
  unfold freeTl
  split
  case h_1 k hk =>
    obtain ⟨hlo, hhi, hp⟩ := firstNat_spec hk
    simp [hu k (by omega)] at hp
  case h_2 => rfl

/-- Where no slot in use is listed as free, the slot that TL_CREATE takes is the die's, and free. -/
theorem freeTl_spec {h : Hub} {d k : Nat} (hl : ∀ j ∈ h.tlFreed, h.tls.has j = false) (hf : freeTl h d = some k) :
    k / 1024 = d ∧ h.tls.has k = false := by
  unfold freeTl at hf
  split at hf
  case h_1 j hj =>
    obtain rfl := Option.some.inj hf
    obtain ⟨hlo, hhi, hp⟩ := firstNat_spec hj
    have hfree : h.tls.has j = false ∧ h.tlGens.has j = false := by simpa using hp
    exact ⟨by omega, hfree.1⟩
  case h_2 =>
    have hd : k / 1024 = d ∧ h.tlGens.get k 1 < 0xFFFF := by simpa using List.find?_some hf
    exact ⟨hd.1, hl k (List.mem_of_find?_eq_some hf)⟩

/-- The hub with a new timeline of the command's context in slot `k` (07 R193). -/
def withTimeline (c : Cmd) (k : Nat) (h : Hub) : Hub :=
  { h with tls := h.tls.set k { owner := c.ctx, value := arg64 c 24, gen := h.tlGens.get k 1 }, tlFreed := h.tlFreed.filter (· != k) }

/-- TL_CREATE takes the slot that its check has found, whatever else the tables say of it. -/
theorem exec_tlCreate {c : Cmd} {s : State} (ha : Accepts tlCreate c s) :
    let h := fetched c.ctx s.hub
    ∃ k, freeTl h (arg8 c 16) = some k ∧
      exec (.tlCreate c) s = .next (done 0x0310 c (k + 65536 * h.tlGens.get k 1) 0 (withTimeline c k h) s) := by
  obtain ⟨hdie, -, hroom⟩ := by simpa only [tlCreate, List.forall_mem_cons] using ha.checks_pass
  have hlt : arg8 c 16 < 8 := Decidable.byContradiction fun hn => by simp [dieCk, ck, hn] at hdie
  obtain ⟨k, hk⟩ := Option.isSome_iff_exists.mp (by simpa [ckd, hlt] using hroom)
  exact ⟨k, hk, ha.next_done (by simp only [tlCreate, hk]; rfl)⟩

/-- Where no slot in use is listed as free, TL_CREATE does what `Obligations.TimelinesAreSignalled` says of it: this is the premise that the
refutation below finds missing. -/
theorem tlCreate_takes_free_slot {c : Cmd} {s : State} (ha : Accepts tlCreate c s)
    (hl : ∀ j ∈ (fetched c.ctx s.hub).tlFreed, (fetched c.ctx s.hub).tls.has j = false) :
    let h := fetched c.ctx s.hub
    ∃ k, k / 1024 = arg8 c 16 ∧ h.tls.has k = false ∧
      exec (.tlCreate c) s = .next (done 0x0310 c (k + 65536 * h.tlGens.get k 1) 0 (withTimeline c k h) s) := by
  obtain ⟨k, hk, hex⟩ := exec_tlCreate ha
  obtain ⟨hd, hfree⟩ := freeTl_spec hl hk
  exact ⟨k, hd, hfree, hex⟩

/-! ### The counterexample -/

/-- Generation 1 for each of the first `n` numbers. -/
def usedOnce (n : Nat) : Tab Nat := (List.range n).map fun k => (k, 1)

theorem Tab.has_of_mem {α : Type} {t : Tab α} {k : Nat} {v : α} (hm : (k, v) ∈ t) : t.has k = true := by
  induction t with
  | nil => cases hm
  | cons e r ih =>
    by_cases hk : e.1 = k
    · simp [Tab.has, Tab.find, hk]
    · have hr : (k, v) ∈ r := (List.mem_cons.mp hm).resolve_left fun he => hk (congrArg Prod.fst he).symm
      simpa [Tab.has, Tab.find, hk] using ih hr

/-- A table that two writes make the same, the second at a number that it lacks: they write the same number. -/
theorem Tab.eq_of_set_eq_set {α : Type} {t : Tab α} {i j : Nat} {v w : α} (h : t.set i v = t.set j w) (hj : t.has j = false) : j = i := by
  refine Decidable.byContradiction fun hne => ?_
  have hf : t.find j = some w := by rw [← Tab.find_set_ne t i j v hne, h, Tab.find_set_same]
  simp [Tab.has, hf] at hj

theorem has_usedOnce {k n : Nat} (hk : k < n) : (usedOnce n).has k = true :=
  Tab.has_of_mem (List.mem_map_of_mem (List.mem_range.mpr hk))

/-- A package of one die each of whose 1,024 timeline slots has been used; slot 0 is in use, and yet listed as free. -/
def usedSlotListedFree : State :=
  { pending := [], lp5x := []
    hub :=
      { pkg := { sites := 1, sitesUp := 1, phase := .ready }, dies := [(0, { kpr := { step := 9 } })], fns := [(0, { enabled := true })]
        ctxs := [(0, { state := .opened, sqTail := 1, cfgL := 0x88 })]
        tls := [(0, { owner := 1, value := 0, gen := 1 })], tlGens := usedOnce 1024, tlFreed := [0] } }

/-- TL_CREATE of context 0 on die 0, with value 0. -/
def tlCreateOnDie0 : Cmd := { ctx := 0, flags := 0, layout := 1, tag := 0, txn := 0, rsvd := 0, args := 0, block := [] }

theorem freeTl_usedSlotListedFree :
    freeTl (fetched tlCreateOnDie0.ctx usedSlotListedFree.hub) (arg8 tlCreateOnDie0 16) = some 0 := by
  have hd : arg8 tlCreateOnDie0 16 = 0 := by decide +kernel
  have hu : ∀ k, k / 1024 = 0 → (fetched tlCreateOnDie0.ctx usedSlotListedFree.hub).tlGens.has k = true := by
    intro k hk
    simp only [fetched, stamp, setCtx_tlGens, usedSlotListedFree]
    exact has_usedOnce (by omega)
  rw [hd, freeTl_of_all_used hu]
  decide +kernel

theorem accepts_tlCreateOnDie0 : Accepts tlCreate tlCreateOnDie0 usedSlotListedFree := by
  have hhead : ∀ k ∈ headChecks tlCreate tlCreateOnDie0 (fetched tlCreateOnDie0.ctx usedSlotListedFree.hub), k.bad = false := by
    decide +kernel
  have hown : ∀ k ∈ tlCreate.checks tlCreateOnDie0 usedSlotListedFree.lp5x (fetched tlCreateOnDie0.ctx usedSlotListedFree.hub),
      k.bad = false := by
    simp only [tlCreate, List.forall_mem_cons, freeTl_usedSlotListedFree]
    decide +kernel
  exact ⟨by unfold Fetches; decide +kernel, List.forall_mem_append.mpr ⟨hhead, hown⟩⟩

/-- Refutes O35: the statement has TL_CREATE take a slot without a timeline in every state, and no premise keeps a slot in use from the
list of free slots; where one stands there and every slot of the die has been used, TL_CREATE takes it. -/
theorem not_timelinesAreSignalled : ¬ Obligations.TimelinesAreSignalled := by
  intro ⟨hcommands, _⟩
  obtain ⟨hcreate, -⟩ := hcommands tlCreateOnDie0 usedSlotListedFree
  obtain ⟨k, -, hfree, hsays⟩ := hcreate accepts_tlCreateOnDie0
  obtain ⟨j, hj, hdoes⟩ := exec_tlCreate accepts_tlCreateOnDie0
  obtain rfl : 0 = j := Option.some.inj (freeTl_usedSlotListedFree.symm.trans hj)
  have htls := congrArg (fun u : State => u.hub.tls) (Host.Outcome.next.inj (hdoes.symm.trans hsays))
  simp only [done, completeOk, complete_tls] at htls
  have hk : k = 0 := Tab.eq_of_set_eq_set htls hfree
  rw [hk] at hfree
  exact absurd hfree (by decide +kernel)

end Sys2Proof.Machine
end

section
/-!
Genlock: the slew of the pixel clock and the state follow the edges of EXT_VSYNC, and four frames without an edge make FREEWHEEL (08 R213).
-/

namespace Sys2Proof.Machine

/-! ### What a slew leaves of the hub -/

theorem now_updPll (d i : Nat) (f : Pll → Pll) (h : Hub) : (updPll d i f h).now = h.now := by
  unfold updPll
  dsimp only
  split
  · rfl
  · have hrec (g : Hub) : (pllRecord d i g).now = g.now := fbkRecord_now _ _ _ _ _ (takeFree g).2
    rw [hrec, intEvent_now, updDie_now]

theorem now_offsetPll (v : Int) (h : Hub) (m : Nat) : (offsetPll v h m).now = h.now := by
  unfold offsetPll
  dsimp only
  split
  · rfl
  · exact now_updPll _ _ _ h

theorem now_setPpm (o : Nat) (v : Int) (h : Hub) : (setPpm o v h).now = h.now :=
  foldl_keeps Hub.now (fun g m => now_offsetPll v g m) _ _

theorem getOut_of_outsTxns {g h : Hub} (e : g.outsTxns = h.outsTxns) (q : Nat) : getOut g q = getOut h q := by
  have ho : g.outs = h.outs := congrArg Prod.fst e
  rw [getOut, ho, getOut]

theorem getOut_setPpm (o : Nat) (v : Int) (h : Hub) :
    getOut (setPpm o v h) o = { getOut h o with gen := { (getOut h o).gen with ppm := v } } :=
  (getOut_of_outsTxns (foldl_keeps Hub.outsTxns (fun g m => outsTxns_offsetPll v g m) _ _) o).trans (getOut_updOut h o _)

/-- Whether or not the state is a new one, of which the list owner is told, the output has it. -/
theorem gen_genlockGoes (o n : Nat) (h : Hub) :
    (getOut (genlockGoes o n h) o).gen = { (getOut h o).gen with state := n } := by
  unfold genlockGoes
  split
  case isTrue he => rw [← he]
  case isFalse =>
    dsimp only
    split
    · rw [getOut_updOut]
    · rw [getOut, outs_of_rest (rest_postEvent _ _ _ _ _), ← getOut, getOut_updOut]

/-! ### An edge -/

/-- The run of good edges after one with phase error `err`. -/
def Genlock.goodAfter (g : Genlock) (err line : Nat) : Nat := if err ≤ line then g.good + 1 else 0

/-- The genlock settings after an edge at `now`, whose phase error is `err` and which moves the offset to `v` (08 R213). -/
def Genlock.afterEdge (g : Genlock) (err line now : Nat) (v : Int) : Genlock :=
  { g with
    ppm := v, lastEdge := now
    good := if g.state = 2 ∧ 4 * line ≤ err then 0 else g.goodAfter err line
    state := if g.state = 2 then (if 4 * line ≤ err then 1 else 2) else if 16 ≤ g.goodAfter err line then 2 else 1 }

/-- The phase error of an edge that falls on `t`: its distance from the nearer of the frame's two starts of vertical blank. -/
def phaseError (e : ModeEntry) (sc : Scan) (t : Int) : Nat :=
  min (t - (scanNs e sc sc.vbPx : Int)).natAbs (t - (nextBlank e sc : Int)).natAbs

/-- The offset after an edge, with the step that the free value `n` gives: at most 50 ppm away, and within 1000 ppm. -/
def slewed (ppm : Int) (n : Nat) : Int := max (-1000) (min 1000 (ppm + (((n % 101 : Nat) : Int) - 50)))

theorem slewed_bounds {ppm : Int} (n : Nat) (hlo : -1000 ≤ ppm) (hhi : ppm ≤ 1000) :
    slewed ppm n - ppm ≤ 50 ∧ ppm - slewed ppm n ≤ 50 ∧ -1000 ≤ slewed ppm n ∧ slewed ppm n ≤ 1000 := by
  have hn : n % 101 < 101 := Nat.mod_lt n (by decide)
  unfold slewed
  omega

/-- The hub after an edge has been noted with its run of good edges, and the offset of output `o` has moved to `v`. -/
def edgeNoted (o : Nat) (v : Int) (good : Nat) (h : Hub) : Hub :=
  let g := setPpm o v (takeFree h).2
  updOut g o fun x => { x with gen := { x.gen with good := good, lastEdge := g.now } }

theorem gen_edgeNoted (o : Nat) (v : Int) (good : Nat) (h : Hub) :
    (getOut (edgeNoted o v good h) o).gen = { (getOut h o).gen with ppm := v, good := good, lastEdge := h.now } := by
  rw [edgeNoted, getOut_updOut, getOut_setPpm, now_setPpm]
  rfl

section
variable {o : Nat} {h : Hub} {e : ModeEntry} {sc : Scan} (hg : groupHead h o = o) (hon : (getOut h o).gen.on = true)
  (hr : (getOut h o).state = .running) (hm : (getOut h o).mode = some e) (hst : startGroup h o = [])
include hg hon hr hm hst

/-- An edge is noted, with one free value for the slew; the state follows its phase error. -/
theorem vsyncEdge_of_running (hs : (getOut h o).scan = some sc) (hv : hasExtVsync h (o / 4) = true) :
    let x := (getOut h o).gen
    let err := phaseError e sc (h.now + x.offset)
    let line := pxNs e (hTotal e)
    let g := edgeNoted o (slewed x.ppm (Config.freeWord h.freeIx).toNat) (x.goodAfter err line) h
    vsyncEdge o h =
      if x.state = 2 then (if 4 * line ≤ err then genlockGoes o 1 (updOut g o fun x => { x with gen := { x.gen with good := 0 } }) else g)
      else genlockGoes o (if 16 ≤ x.goodAfter err line then 2 else 1) g := by
  have hgo : ¬ (groupHead h o ≠ o || !(getOut h o).gen.on || (getOut h o).state != .running || genSuspended h o ||
      !hasExtVsync h (o / 4)) = true := by
    simp [hg, hon, hr, hv, genSuspended, hst]
  simp only [vsyncEdge, hm, hs]
  exact if_neg hgo

theorem gen_vsyncEdge (hs : (getOut h o).scan = some sc) (hv : hasExtVsync h (o / 4) = true) :
    (getOut (vsyncEdge o h) o).gen =
      (getOut h o).gen.afterEdge (phaseError e sc (h.now + (getOut h o).gen.offset)) (pxNs e (hTotal e)) h.now
        (slewed (getOut h o).gen.ppm (Config.freeWord h.freeIx).toNat) := by
  rw [vsyncEdge_of_running hg hon hr hm hst hs hv]
  by_cases h2 : (getOut h o).gen.state = 2
  · by_cases h4 : 4 * pxNs e (hTotal e) ≤ phaseError e sc (h.now + (getOut h o).gen.offset)
    · rw [if_pos h2, if_pos h4, gen_genlockGoes, getOut_updOut, gen_edgeNoted]
      simp only [Genlock.afterEdge, h2, h4, if_true, true_and]
    · rw [if_pos h2, if_neg h4, gen_edgeNoted]
      simp only [Genlock.afterEdge, h2, h4, if_true, if_false, and_false]
  · rw [if_neg h2, gen_genlockGoes, gen_edgeNoted]
    simp only [Genlock.afterEdge, h2, if_false, false_and]

/-! ### No edges -/

/-- The hub in which output `o` has gone to FREEWHEEL four frame periods after its last edge. -/
def freewheeling (o : Nat) (e : ModeEntry) (h : Hub) : Hub :=
  updOut (at_ ((getOut h o).gen.lastEdge + 4 * framePeriod e) h) o fun x => { x with gen := { x.gen with good := 0, state := 3 } }

/-- Four frame periods without an edge, and the list owner is told. -/
theorem freewheel_of_following (hs : (getOut h o).gen.state = 1 ∨ (getOut h o).gen.state = 2) :
    freewheel o h = match listOwner (freewheeling o e h) (listOf (freewheeling o e h) o) with
      | none => freewheeling o e h
      | some c => postEvent c 0x0483 (o + 256 * 3) (freewheeling o e h).now (freewheeling o e h) := by
  have hgo : (decide (groupHead h o ≠ o) || !(getOut h o).gen.on || (getOut h o).state != .running ||
      !(decide ((getOut h o).gen.state = 1) || decide ((getOut h o).gen.state = 2)) || genSuspended h o) = false := by
    rcases hs with hs | hs <;> simp [hg, hon, hr, hs, genSuspended, hst]
  have hne : (getOut h o).gen.state ≠ 3 := by omega
  have hx : getOut (at_ ((getOut h o).gen.lastEdge + 4 * framePeriod e) h) o = getOut h o := rfl
  unfold freewheel
  simp only [hm, hgo, Bool.false_eq_true, if_false, genlockGoes, getOut_updOut, hx, hne, updOut_updOut]
  rfl

end

/-! ### The obligation -/

theorem exec_extVsyncEdge (o : Nat) (s : State) : exec (.extVsyncEdge o) s = .next (onHub (vsyncEdge o) s) := rfl

theorem exec_genlockFreewheel {o : Nat} {s : State} {g : Hub} (hg : freewheel o s.hub = g) :
    exec (.genlockFreewheel o) s = .next { s with hub := g } := hg ▸ rfl

/-- Settles O38: the settings after an edge are one equation, with an offset that stays within its bounds; so is the hub after four frames
without one. -/
theorem genlockFollowsEdges : Obligations.GenlockFollowsEdges := by
  refine ⟨?edge, ?wheel⟩
  case edge =>
    intro o e sc s h x t err line good hg hon hr hm hs hst hv hlo hhi
    have hgen := gen_vsyncEdge hg hon hr hm hst hs hv
    obtain ⟨hup, hdown, hmin, hmax⟩ := slewed_bounds (Config.freeWord h.freeIx).toNat hlo hhi
    refine ⟨onHub (vsyncEdge o) s, exec_extVsyncEdge o s, rfl, rfl, ?_⟩
    rw [onHub_hub, hgen]
    refine ⟨rfl, hup, hdown, hmin, hmax, fun h2 => ?_, fun h2 => ?_, fun h2 => ?_⟩
    · exact if_pos h2
    · exact if_neg h2
    · exact if_neg fun hc => h2 hc.1
  case wheel =>
    intro o e s x hg hon hr hm hs hst g
    have hw := freewheel_of_following hg hon hr hm hst hs
    refine ⟨fun c hc => exec_genlockFreewheel (hw.trans ?_), fun hn => exec_genlockFreewheel (hw.trans ?_)⟩
    · exact hc ▸ rfl
    · exact hn ▸ rfl

end Sys2Proof.Machine
end

section
/-!
The commands that configure outputs and modes (08 R199, R209-R213, R226, R231-R234).
-/

namespace Sys2Proof.Machine

/-! ### OUT_CONFIG -/

/-- PORT and CLASS as OUT_CONFIG sets them in its output (08 R226). -/
def configured (c : Cmd) (h : Hub) : Hub :=
  updOut h (arg8 c 16) fun x => { x with
    port := if bit (arg8 c 19) 0 then arg8 c 17 else x.port
    cls := if bit (arg8 c 19) 1 then arg8 c 18 else x.cls }

/-- A STOPPED output's list changes hands at once: its layers go, and the new owner has it (08 R199). -/
theorem takeList_of_stopped {h : Hub} {o k : Nat} (hn : (getOut h o).newOwner = some k) (hs : (getOut h o).state = .stopped) :
    takeList o h = updOut (freeList o h) o fun x => { x with owner := some k, newOwner := none, changed := true } := by
  have hx : getOut (freeList o h) o = getOut h o := rfl
  simp only [takeList, hn, getOut_updOut, hx, hs, beq_self_eq_true, if_true]

section
variable {c : Cmd} {h : Hub}

theorem outConfigRun_without_owner (hf : bit (arg8 c 19) 2 = false) : outConfigRun c h = configured c h := by
  simp only [outConfigRun, hf, Bool.not_false, if_true, configured]

variable (hf : bit (arg8 c 19) 2 = true)
include hf

theorem outConfigRun_same_owner (hown : (getOut h (arg8 c 16)).owner = some (arg16 c 20)) :
    outConfigRun c h = updOut (configured c h) (arg8 c 16) fun x => { x with newOwner := none } := by
  simp only [outConfigRun, hf, getOut_updOut, hown, Bool.not_true, Bool.false_eq_true, if_false, if_true, configured]

/-- Another owner is named, and takes the list at once where the output is STOPPED (08 R199). -/
theorem outConfigRun_new_owner (hown : (getOut h (arg8 c 16)).owner ≠ some (arg16 c 20)) :
    let g := updOut (configured c h) (arg8 c 16) fun x => { x with newOwner := some (arg16 c 20) }
    outConfigRun c h = if (getOut h (arg8 c 16)).state = .stopped then takeList (arg8 c 16) g else g := by
  simp only [outConfigRun, hf, getOut_updOut, hown, Bool.not_true, Bool.false_eq_true, if_false, configured, beq_iff_eq]

theorem outConfigRun_of_stopped (hown : (getOut h (arg8 c 16)).owner ≠ some (arg16 c 20)) (hs : (getOut h (arg8 c 16)).state = .stopped) :
    outConfigRun c h =
      updOut (freeList (arg8 c 16) (updOut (configured c h) (arg8 c 16) fun x => { x with newOwner := some (arg16 c 20) })) (arg8 c 16)
        fun x => { x with owner := some (arg16 c 20), newOwner := none, changed := true } := by
  rw [outConfigRun_new_owner hf hown, if_pos hs]
  exact takeList_of_stopped (by rw [getOut_updOut]) (by rw [getOut_updOut, configured, getOut_updOut]; exact hs)

end

/-! ### OUT_GROUP -/

/-- The group settings that a member gets (08 R231). -/
def Output.seat (x : Output) : Nat × Nat × Nat := (x.grp, x.primary, x.index)

/-- Where each of a list of distinct outputs is updated by what depends on its place in the list, each holds what its place gives. -/
theorem getOut_foldl_zipIdx {γ : Type} (F : Output → γ) {G : Nat → γ} {u : Hub → Nat → Output → Output}
    (hu : ∀ h i x, F (u h i x) = G i) {ms : List Nat} (hnd : ms.Nodup) (n : Nat) (h : Hub) :
    let g := (ms.zipIdx n).foldl (fun h m => updOut h m.1 (u h m.2)) h
    (∀ i, i < ms.length → F (getOut g (ms.getD i 0)) = G (n + i)) ∧ ∀ k, k ∉ ms → getOut g k = getOut h k := by
  induction ms generalizing n h with
  | nil => simp
  | cons m ms ih =>
    obtain ⟨hm, hnd⟩ := List.nodup_cons.mp hnd
    obtain ⟨hin, hout⟩ := ih hnd (n + 1) (updOut h m (u h n))
    simp only [List.zipIdx_cons, List.foldl_cons]
    refine ⟨fun i hi => ?_, fun k hk => ?_⟩
    · cases i with
      | zero =>
        rw [List.getD_cons_zero, hout m hm, getOut_updOut, hu]
        rfl
      | succ i =>
        rw [List.getD_cons_succ, hin i (by simpa using hi)]
        congr 1
        omega
    · obtain ⟨hne, hk⟩ := not_or.mp (mt List.mem_cons.mpr hk)
      rw [hout k hk, getOut_updOut_ne h m k _ hne]

/-- Output `x` with place `i` in a group that is formed: but for the primary's, a place in a clone or span group brings the primary's
records with it (08 R209, R212). -/
def seated (kind : Nat) (ms : List Nat) (h : Hub) (i : Nat) (x : Output) : Output :=
  let x := if kind < 3 && i > 0 then takeRecords (getOut h (ms.headD 0)) x else x
  { x with grp := kind, primary := ms.headD 0, index := i, members := if i = 0 then ms else [] }

/-- The peers of a primary's layers stand in the layer table. -/
theorem outs_makePeers (o : Nat) (h : Hub) : (makePeers o h).outs = h.outs := by
  unfold makePeers
  refine foldl_keeps Hub.outs (fun g e => ?_) _ h
  rfl

theorem outs_formGroup (kind : Nat) (ms : List Nat) (h : Hub) :
    (formGroup kind ms h).outs = (ms.zipIdx.foldl (fun h m => updOut h m.1 (seated kind ms h m.2)) h).outs := by
  unfold formGroup
  dsimp only
  split
  · exact outs_makePeers _ _
  · rfl

/-- The distinct outputs that form a group have its kind, its primary and their places; no other output changes (08 R209-R212). -/
theorem formGroup_spec {ms : List Nat} (hnd : ms.Nodup) (kind : Nat) (h : Hub) :
    (∀ i, i < ms.length → (getOut (formGroup kind ms h) (ms.getD i 0)).seat = (kind, ms.headD 0, i)) ∧
      ∀ k, k ∉ ms → getOut (formGroup kind ms h) k = getOut h k := by
  have hget (k : Nat) : getOut (formGroup kind ms h) k =
      getOut (ms.zipIdx.foldl (fun h m => updOut h m.1 (seated kind ms h m.2)) h) k := by
    rw [getOut, outs_formGroup, getOut]
  obtain ⟨hin, hout⟩ := getOut_foldl_zipIdx Output.seat (u := seated kind ms) (G := fun i => (kind, ms.headD 0, i))
    (fun _ _ _ => rfl) hnd 0 h
  simp only [hget]
  exact ⟨fun i hi => by rw [hin i hi, Nat.zero_add], hout⟩

/-- A list without an element that stands before itself has no duplicates. -/
theorem nodup_of_not_mem_take {ms : List Nat} (h : ∀ i (hi : i < ms.length), ms[i] ∉ ms.take i) : ms.Nodup := by
  rw [List.nodup_iff_pairwise_ne, List.pairwise_iff_getElem]
  intro i j hi hj hij he
  exact h j hj (List.mem_take_iff_getElem.mpr ⟨i, by omega, he⟩)

/-- The check that an accepted OUT_GROUP makes of a member's field: the output has not been named before (08 R231). -/
theorem not_mem_of_memberCks {h : Hub} {may : Bool} {kind i o : Nat} {ms : List Nat}
    (hk : ∀ k ∈ memberCks h may kind ms i o, k.bad = false) : o ∉ ms.take i := by
  obtain ⟨hout, hk⟩ := List.forall_mem_append.mp hk
  by_cases ho : o ≥ 32
  · simp [outCks, ho, ck] at hout
  · have hck : (ck 0x0108 (20 + i) ((ms.take i).contains o)).bad = false := hk _ (by rw [if_neg ho]; exact List.mem_cons_self)
    simpa [ck] using hck

/-- An accepted OUT_GROUP that forms a group names at most 16 outputs, and none twice (08 R231). -/
theorem outGroup_forms {c : Cmd} {s : State} (ha : Accepts outGroup c s) (hk : arg8 c 16 ≠ 0) :
    arg8 c 17 ≤ 16 ∧ (groupArgs c).Nodup := by
  obtain ⟨hhead, hmem⟩ := List.forall_mem_append.mp ha.checks_pass
  obtain ⟨hkind, hcount⟩ : arg8 c 16 ≤ 3 ∧ (arg8 c 16 ≤ 3 → groupCount (arg8 c 16) (arg8 c 17) = true) := by
    simpa [ck] using fun k h => hhead k (List.mem_append_left _ h)
  have hcount := hcount hkind
  refine ⟨?_, nodup_of_not_mem_take fun i hi => ?_⟩
  · unfold groupCount at hcount
    split at hcount <;> simp at hcount <;> omega
  · rw [if_neg (by simp [hcount, Nat.not_lt.mpr hkind]), if_neg hk] at hmem
    refine not_mem_of_memberCks fun k h => hmem k (List.mem_flatMap.mpr ⟨(_, i), ?_, h⟩)
    exact List.mk_mem_zipIdx_iff_getElem?.mpr (List.getElem?_eq_getElem hi)

/-! ### MODE_QUERY and MODE_WRITE -/

theorem modeQuery_finds {c : Cmd} {s : State} (ha : Accepts modeQuery c s) :
    ∃ e, modeOf (fetched c.ctx s.hub) (arg8 c 16) = some e := by
  have hk := ha.checks_pass (ck 0x0404 16 (modeOf (fetched c.ctx s.hub) (arg8 c 16)).isNone)
    (List.mem_cons_of_mem _ List.mem_cons_self)
  exact Option.isSome_iff_exists.mp (by simpa [ck] using hk)

/-- The row of an accepted command whose execution fails after the checks. -/
theorem Accepts.next_failed {sp : Spec} {c : Cmd} {s : State} {g : Hub} {st off : Nat} (ha : Accepts sp c s)
    (hr : sp.run c (taken sp.op c s.hub) s.lp5x (fetched c.ctx s.hub) = failRes g st off) :
    (.next (mail sp c s) : Host.Outcome State Fault Refusal) = .next { s with hub := complete (taken sp.op c s.hub) st off 0 0 g } := by
  simp only [mail_accepts sp c s ha, act, hr, answer_failRes]
  rfl

/-! ### The obligation -/

/-- Settles O36: OUT_CONFIG by its FLAGS and the owner that there is, OUT_GROUP by its fold over the distinct members that its checks leave,
the others by one equation each. -/
theorem outputCommands : Obligations.OutputCommands := by
  intro c s h o
  refine ⟨fun ha => ⟨fun hf => ?without, fun hf hown => ?same, fun hf hown hs => ?pending, fun hf hown hs => ?stopped⟩,
    fun ha hk => ha.next_done (if_pos hk), fun ha hk => ?group, fun ha => ha.next_done rfl, fun ha => ha.next_done rfl, fun ha => ?mode,
    fun ha => ?write⟩
  case without => exact ha.next_done (congrArg (okRes ·) (outConfigRun_without_owner hf))
  case same => exact ha.next_done (congrArg (okRes ·) (outConfigRun_same_owner hf hown))
  case pending => exact ha.next_done (congrArg (okRes ·) ((outConfigRun_new_owner hf hown).trans (if_neg hs)))
  case stopped => exact ha.next_done (congrArg (okRes ·) (outConfigRun_of_stopped hf hown hs))
  case group =>
    intro ms
    obtain ⟨hlen, hnd⟩ := outGroup_forms ha hk
    have hms : groupArgs c = ms := by rw [groupArgs, Nat.min_eq_left hlen]
    obtain ⟨hin, hout⟩ := formGroup_spec (hms ▸ hnd) (arg8 c 16) h
    refine ⟨formGroup (arg8 c 16) ms h, ha.next_done (hms ▸ if_neg hk), fun i hi => ?_, hout⟩
    simpa only [Output.seat, Prod.mk.injEq] using hin i hi
  case mode =>
    obtain ⟨e, he⟩ := modeQuery_finds ha
    exact ⟨e, he, ha.next_done (by simp only [modeQuery, he]; rfl)⟩
  case write =>
    intro w
    by_cases hw : w.2 = true
    · rw [if_pos hw]
      exact ha.next_done (if_pos hw)
    · rw [if_neg hw]
      exact ha.next_failed (if_neg hw)

end Sys2Proof.Machine
end

section
/-!
Outputs stop and start, a change ends a stretched vertical blank, and self refresh is entered (08 R200, R205, R208, R222, R223).
-/

namespace Sys2Proof.Machine

/-! ### What the actions of a start and a stop leave of the timebase and the outputs

Most of them write no output; of those that do, each is stated for every function of an output that does not see what it writes. -/

theorem now_of_offPorts {g h : Hub} (e : g.offPorts = h.offPorts) : g.now = h.now := (congrArg Hub.now e :)

theorem outsTxns_of_offPorts {g h : Hub} (e : g.offPorts = h.offPorts) : g.outsTxns = h.outsTxns := (congrArg Hub.outsTxns e :)

theorem rest_emptyBuffer (d : Nat) (h : Hub) : (emptyBuffer d h).rest = h.rest := by
  unfold emptyBuffer
  split
  · rfl
  · exact rest_updDie h d _

theorem rest_endOp (st r1 : Nat) (h : Hub) (p : LaneOp) : (endOp st r1 h p).rest = h.rest := by
  unfold endOp
  split
  · rfl
  · exact rest_complete _ _ _ _ _ h

theorem rest_outEvent (o : Nat) (h : Hub) : (outEvent o h).rest = h.rest := by
  unfold outEvent
  split
  · rfl
  · exact rest_postEvent _ _ _ _ h

theorem rest_blankRecord (o : Nat) (h : Hub) : (blankRecord o h).rest = h.rest := rest_fbkRecord _ _ _ _ _ h

theorem now_startRamp (o t : Nat) (h : Hub) : (startRamp o t h).now = h.now := by
  unfold startRamp
  dsimp only
  split
  · rfl
  · exact now_updPll _ _ _ h

theorem outsTxns_startRamp (o t : Nat) (h : Hub) : (startRamp o t h).outsTxns = h.outsTxns := by
  unfold startRamp
  dsimp only
  split
  · rfl
  · exact outsTxns_updPll _ _ _ h

theorem outsTxns_releasePlls (d : Nat) (h : Hub) : (releasePlls d h).outsTxns = h.outsTxns := by
  refine foldl_keeps Hub.outsTxns (fun g k => ?_) _ h
  split
  · exact outsTxns_updPll _ _ _ g
  · rfl

theorem now_portBlank (k : Nat) (h : Hub) : (portBlank k h).now = h.now := by
  have hdsi (g : Hub) (w : Bytes × Bool × Pend) : (sendDsi k w.1 w.2.1 w.2.2 g).now = g.now := by
    unfold sendDsi
    split
    · rfl
    · exact complete_now _ _ _ _ _ _
  have hlight (g : Hub) (w : Nat × Nat × Pend) : (sendLight k w.1 w.2.1 w.2.2 g).now = g.now := complete_now _ _ _ _ _ _
  unfold portBlank
  rw [foldl_keeps Hub.now hdsi, foldl_keeps Hub.now hlight]
  rfl

/-- A STATUS message goes out through its port alone, but for a free value. -/
theorem offPorts_sendStatus (k : Nat) (entry : Bool) (h : Hub) : (sendStatus k entry h).offPorts = (takeFree h).2.offPorts := by
  unfold sendStatus
  dsimp only
  split
  · exact offPorts_sendBlock _ _ _ _ _
  · rfl

theorem statusAgain_cases (h : Hub) (o : Nat) : statusAgain h o = h ∨ (statusAgain h o).offPorts = (takeFree h).2.offPorts := by
  unfold statusAgain
  split
  · exact .inl rfl
  · exact .inr (offPorts_sendStatus _ _ h)

theorem now_statusAgain (h : Hub) (o : Nat) : (statusAgain h o).now = h.now := by
  obtain e | e := statusAgain_cases h o
  · rw [e]
  · rw [now_of_offPorts e]
    rfl

theorem outsTxns_statusAgain (h : Hub) (o : Nat) : (statusAgain h o).outsTxns = h.outsTxns := by
  obtain e | e := statusAgain_cases h o
  · rw [e]
  · exact (outsTxns_of_offPorts e).trans rfl

section
variable {γ : Type} (F : Output → γ) (o q : Nat) (h : Hub)

theorem dropOps_keeps (hF : ∀ x c, F { x with chk := c } = F x) (st : Nat) (p : LaneOp → Bool) :
    F (getOut (dropOps o st p h) q) = F (getOut h q) := by
  unfold dropOps
  dsimp only
  rw [getOut_of_outsTxns (foldl_keeps Hub.outsTxns (fun g p => outsTxns_endOp st 0 g p) _ _), getOut_updOut_keeps F]
  exact fun x => hF x _

theorem takeChkCfg_keeps (hF : ∀ x c, F { x with chk := c } = F x) (l : Nat) :
    F (getOut (takeChkCfg o l h) q) = F (getOut h q) := by
  unfold takeChkCfg
  rw [dropOps_keeps F o q _ hF, getOut_updOut_keeps F]
  exact fun x => hF x _

theorem settleBanks_keeps (hF : ∀ x b, F { x with banks := b } = F x) : F (getOut (settleBanks o h) q) = F (getOut h q) := by
  unfold settleBanks
  dsimp only
  split
  · rfl
  · rw [getOut_updOut_keeps F]
    exact fun x => hF x _

end

theorem now_takeChkCfg (o l : Nat) (h : Hub) : (takeChkCfg o l h).now = h.now :=
  foldl_keeps Hub.now (fun g p => now_of_rest (rest_endOp _ 0 g p)) _ _

theorem now_settleBanks (o : Nat) (h : Hub) : (settleBanks o h).now = h.now := by
  unfold settleBanks
  dsimp only
  split <;> rfl

theorem now_levelBlanks (ms : List Nat) (h : Hub) : (levelBlanks ms h).now = h.now := by
  unfold levelBlanks
  split
  · rfl
  · exact foldl_keeps Hub.now (by exact fun _ _ => rfl) _ _

/-! ### OUTPUT_STOPPED -/

/-- What an output holds while it is not STOPPED (08 R200). -/
def Output.holdings (x : Output) :=
  (x.state, x.pll, x.cache, x.cols, x.tabAt, x.scan, x.frame, x.banks)

theorem holdings_outStopped (o : Nat) (h : Hub) :
    (getOut (outStopped o h) o).holdings = (.stopped, 0xFF, [], [], [], none, none, []) := by
  have hget (f : Output → Output) (t : Tab (List Nat)) : getOut { updOut h o f with tables := t } o = f (getOut h o) :=
    getOut_updOut h o f
  unfold outStopped
  dsimp only
  rw [getOut_of_outsTxns ((outsTxns_of_rest (rest_outEvent _ _)).trans (outsTxns_releasePlls _ _)), hget]
  rfl

theorem holdings_outputStopped {o : Nat} {h : Hub} (hs : (getOut h o).state = .stopping) :
    (getOut (outputStopped o h) o).holdings = (.stopped, 0xFF, [], [], [], none, none, []) := by
  have hg : (getOut (statusAgain (dropOps o 0x0405 (fun _ => true) (outStopped o h)) o) o).holdings =
      (.stopped, 0xFF, [], [], [], none, none, []) := by
    rw [getOut_of_outsTxns (outsTxns_statusAgain _ _), dropOps_keeps Output.holdings _ _ _ (fun _ _ => rfl), holdings_outStopped]
  unfold outputStopped
  rw [if_neg (by simp [hs])]
  dsimp only
  split
  · exact hg
  · rw [getOut_updPort, getOut_of_outsTxns (outsTxns_portBlank _ _), hg]

/-! ### The start of a lone output -/

/-- A timing generator but for the length of its present blank. -/
def Scan.origin (sc : Scan) : Scan := { sc with stretched := false, blank := 0 }

/-- What an output goes by once it has started, but for its frame: its state, frame counter and timing generator, its group, and whether
genlock is on. -/
def Output.begun (x : Output) :=
  (x.state, x.frameCount, x.grp, x.gen.on, x.scan.map Scan.origin)

theorem begun_eq_iff {x : Output} {s : OutState} {n k : Nat} {b : Bool} {z : Option Scan} :
    x.begun = (s, n, k, b, z) ↔ x.state = s ∧ x.frameCount = n ∧ x.grp = k ∧ x.gen.on = b ∧ x.scan.map Scan.origin = z := by
  simp only [Output.begun, Prod.mk.injEq]

theorem begun_levelBlanks (ms : List Nat) (h : Hub) (q : Nat) :
    ((getOut (levelBlanks ms h) q).begun, (getOut (levelBlanks ms h) q).frame) = ((getOut h q).begun, (getOut h q).frame) := by
  unfold levelBlanks
  split
  · rfl
  · refine foldl_keeps (fun g => ((getOut g q).begun, (getOut g q).frame)) (fun g m => ?_) ms h
    refine getOut_updOut_keeps (fun x => (x.begun, x.frame)) g m q fun x => ?_
    split
    · rfl
    · simp only [Output.begun, Option.map_map]
      rfl

/-- A new frame bears its output's frame counter; the timebase is as it was, and the timing generator but for its blank. -/
theorem begun_newFrame (o : Nat) (e : ModeEntry) (old : List FrameLayer) (h : Hub) :
    (newFrame o e old h).now = h.now ∧ ∃ f : Frame, f.num = (getOut h o).frameCount ∧
      (getOut (newFrame o e old h) o).begun = (getOut h o).begun ∧ (getOut (newFrame o e old h) o).frame = some f := by
  unfold newFrame
  extract_lets x src ls stays f stretch g
  have hg : (getOut g o).begun = (getOut h o).begun ∧ (getOut g o).frame = some f := by
    rw [getOut_updOut]
    refine ⟨?_, rfl⟩
    simp only [Output.begun, Option.map_map]
    rfl
  have keeps {u : Hub} (e : u.offPorts = g.offPorts) : u.now = h.now ∧ ∃ f : Frame, f.num = (getOut h o).frameCount ∧
      (getOut u o).begun = (getOut h o).begun ∧ (getOut u o).frame = some f := by
    refine ⟨(now_of_offPorts e).trans rfl, f, rfl, ?_⟩
    rw [getOut_of_outsTxns (outsTxns_of_offPorts e)]
    exact hg
  split
  · exact keeps rfl
  · split
    · split
      · exact keeps rfl
      · exact keeps rfl
    · split
      · exact keeps (offPorts_sendBlock _ _ _ _ g)
      · split
        · exact keeps (offPorts_sendBlock _ _ _ _ g)
        · exact keeps rfl

/-- Dimming that begins anew is all that a start of dimming changes (09 R253). -/
theorem dimReset_dim (x : Output) : ∃ d, (if hasZones x then dimReset x else x) = { x with dim := d } := by
  unfold dimReset
  split
  · split
    · exact ⟨_, rfl⟩
    · exact ⟨_, rfl⟩
  · exact ⟨_, rfl⟩

/-- A lone output starts its mode at `t`: it is RUNNING with the next frame, and its timing generator counts from `t` (08 R205, R208). -/
theorem begun_startOut {o : Nat} {h : Hub} (t : Nat) (e : ModeEntry) (hg : (getOut h o).grp = 0) :
    (startOut o t e h).now = h.now ∧ ∃ f : Frame, f.num = ((getOut h o).frameCount + 1) % 2 ^ 64 ∧
      (getOut (startOut o t e h) o).frame = some f ∧
      (getOut (startOut o t e h) o).begun = (.running, ((getOut h o).frameCount + 1) % 2 ^ 64, 0, (getOut h o).gen.on,
        some { s0 := t, rate := boundaryPpm h o t, drainAt := t, frames := 1 }) := by
  unfold startOut
  extract_lets p y ppm count g₁ g₂ g₃ g₄ g₅
  obtain ⟨d, hd⟩ := dimReset_dim (getOut h o)
  have b₁ : (getOut g₁ o).begun = (.running, ((getOut h o).frameCount + 1) % 2 ^ 64, 0, (getOut h o).gen.on,
      some { s0 := t, rate := ppm, drainAt := t, frames := 1 }) := by
    rw [getOut_updOut, hd]
    simp only [Output.begun, hg]
    rfl
  have b₂ : (getOut g₂ o).begun = (getOut g₁ o).begun ∧ g₂.now = h.now := by
    refine ⟨?_, by unfold g₂; split <;> rfl⟩
    unfold g₂
    split
    · exact getOut_updOut_keeps Output.begun g₁ o o fun _ => rfl
    · rfl
  have b₃ : (getOut g₃ o).begun = (getOut g₂ o).begun ∧ g₃.now = g₂.now := by
    refine ⟨?_, ?_⟩
    · rw [takeChkCfg_keeps Output.begun _ _ _ fun _ _ => rfl,
        getOut_of_outsTxns ((outsTxns_offsetPll _ _ _).trans ((outsTxns_startRamp _ _ _).trans (outsTxns_emptyBuffer _ _)))]
    · rw [now_takeChkCfg, now_offsetPll, now_startRamp, now_of_rest (rest_emptyBuffer _ _)]
  obtain ⟨n₄, f, hf, b₄, f₄⟩ := begun_newFrame o e [] (updOut (settleBanks o g₃) o fun x => { x with chk := fitChkCfg e x.chk })
  have b₀ : (getOut (updOut (settleBanks o g₃) o fun x => { x with chk := fitChkCfg e x.chk }) o).begun = (getOut g₃ o).begun := by
    rw [getOut_updOut_keeps Output.begun, settleBanks_keeps Output.begun _ _ _ fun _ _ => rfl]
    exact fun _ => rfl
  have k₅ : g₅.outsTxns = g₄.outsTxns ∧ g₅.now = g₄.now := by
    unfold g₅
    split
    · exact ⟨rfl, rfl⟩
    · exact ⟨outsTxns_portBlank _ _, now_portBlank _ _⟩
  have hrest : (outEvent o (blankRecord o g₅)).rest = g₅.rest := (rest_outEvent _ _).trans (rest_blankRecord _ _)
  have hout : getOut (outEvent o (blankRecord o g₅)) o = getOut g₄ o :=
    getOut_of_outsTxns ((outsTxns_of_rest hrest).trans k₅.1) o
  have hbegun := b₀.trans (b₃.1.trans (b₂.1.trans b₁))
  obtain ⟨-, hcount, -⟩ := begun_eq_iff.mp hbegun
  rw [hout]
  refine ⟨?_, f, hf.trans hcount, f₄, b₄.trans hbegun⟩
  rw [now_of_rest hrest, k₅.2, n₄, updOut_now, now_settleBanks, b₃.2, b₂.2]

/-- The output `o` of no group is about to start mode `e`, or to change to it, with its PLL locked and its port trained: its list changes no
hands, genlock is off, and no transaction is armed. -/
structure LoneStart (h : Hub) (o : Nat) (e : ModeEntry) : Prop where
  mode : (getOut h o).mode = some e
  state : (getOut h o).state = .starting ∨ (getOut h o).state = .changing
  grp : (getOut h o).grp = 0
  newOwner : (getOut h o).newOwner = none
  gen : (getOut h o).gen.on = false
  pllLost : (getOut h o).pllLost = false
  ready : startReady h o = true
  txns : ∀ t ∈ h.txns, t.2.state ≠ .armed

/-- The hub at S, before its output starts: the group's decision stands, and what the latch instant found of the layers with it. -/
def atStart (o t : Nat) (h : Hub) : Hub := recheckFills o (fixVerdict o t (at_ t h))

/-- An output without what a group's decision and its latch instant find. -/
def Output.undecided (x : Output) : Output := { x with fills := [], verdict := none, decided := [], openAt := 0 }

theorem undecided_fixVerdict (o t : Nat) (h : Hub) (q : Nat) : (getOut (fixVerdict o t h) q).undecided = (getOut h q).undecided := by
  unfold fixVerdict
  dsimp only
  rw [getOut_updOut_keeps Output.undecided]
  · split
    · split
      · exact openDecision_keeps Output.undecided (fun _ _ _ _ => rfl) _ _ _ _
      · rfl
    · rfl
  · exact fun _ => rfl

theorem undecided_recheckFills (o : Nat) (h : Hub) (q : Nat) : (getOut (recheckFills o h) q).undecided = (getOut h q).undecided := by
  unfold recheckFills
  split
  · rfl
  · exact getOut_updOut_keeps Output.undecided h o q fun _ => rfl

/-- A field of an output that neither the decision nor the latch instant finds is at S as it was. -/
theorem field_atStart {γ : Type} (F : Output → γ) (o t q : Nat) (h : Hub) (hF : ∀ x, F x.undecided = F x := by exact fun _ => rfl) :
    F (getOut (atStart o t h) q) = F (getOut h q) := by
  rw [← hF, atStart, undecided_recheckFills, undecided_fixVerdict, ← hF (getOut h q)]
  rfl

/-- The hub without its outputs. -/
def Hub.offOuts (h : Hub) : Hub := { h with outs := [] }

theorem offOuts_fixVerdict (o t : Nat) (h : Hub) : (fixVerdict o t h).offOuts = h.offOuts := by
  unfold fixVerdict
  dsimp only
  split
  · split <;> rfl
  · rfl

theorem offOuts_atStart (o t : Nat) (h : Hub) : (atStart o t h).offOuts = (at_ t h).offOuts := by
  refine Eq.trans ?_ (offOuts_fixVerdict o t _)
  unfold atStart recheckFills
  split <;> rfl

/-- Whether an output is ready to start depends on its PLL and its port alone. -/
theorem startReady_congr {g h : Hub} {o : Nat} (hd : g.dies = h.dies) (hp : g.ports = h.ports) (hpll : (getOut g o).pll = (getOut h o).pll)
    (hport : (getOut g o).port = (getOut h o).port) : startReady g o = startReady h o := by
  simp only [startReady, getPll, getDie, outPort, getPort, hd, hp, hpll, hport]

theorem startReady_atStart (o t : Nat) (h : Hub) : startReady (atStart o t h) o = startReady h o :=
  startReady_congr (congrArg Hub.dies (offOuts_atStart o t h) :) (congrArg Hub.ports (offOuts_atStart o t h) :)
    (field_atStart Output.pll o t o h) (field_atStart Output.port o t o h)

section
variable {h : Hub} {o : Nat} {e : ModeEntry}

theorem LoneStart.begins (hb : LoneStart h o e) :
    ((getOut h o).state == OutState.starting || (getOut h o).state == OutState.changing) = true := by
  rcases hb.state with hs | hs <;> simp [hs]

theorem LoneStart.startGroup_eq (hb : LoneStart h o e) : startGroup h o = [o] := by
  simp [startGroup, hb.grp, hb.begins]

/-- S of a lone output: the later of A, lock and link, rounded up to 1 µs (08 R205). -/
theorem startAt_of_lone (t : Nat) (hg : (getOut h o).grp = 0) : startAt h o t = (t + 999) / 1000 * 1000 := by
  simp [startAt, hg, ceilDiv]

/-- A lone output that has started at `t`: RUNNING, with genlock off, and with its next frame (08 R205, R208). -/
theorem LoneStart.begun_started (hb : LoneStart h o e) (t : Nat) (ms : List Nat) :
    let u := levelBlanks ms (statusAgain (startOut o t e (atStart o t h)) o)
    u.now = max h.now t ∧ ∃ (f : Frame) (v : Int), f.num = ((getOut h o).frameCount + 1) % 2 ^ 64 ∧ (getOut u o).frame = some f ∧
      (getOut u o).begun = (.running, ((getOut h o).frameCount + 1) % 2 ^ 64, 0, false,
        some { s0 := t, rate := v, drainAt := t, frames := 1 }) := by
  obtain ⟨hnow, f, hnum, hframe, hbegun⟩ := begun_startOut t e ((field_atStart Output.grp o t o h).trans hb.grp)
  rw [field_atStart Output.frameCount, field_atStart fun x => x.gen.on, hb.gen] at hbegun
  rw [field_atStart Output.frameCount] at hnum
  obtain ⟨hu, huf⟩ := Prod.mk.inj (begun_levelBlanks ms (statusAgain (startOut o t e (atStart o t h)) o) o)
  rw [getOut_of_outsTxns (outsTxns_statusAgain _ _)] at hu huf
  refine ⟨?_, f, _, hnum, huf.trans hframe, hu.trans hbegun⟩
  rw [now_levelBlanks, now_statusAgain, hnow]
  exact (congrArg Hub.now (offOuts_atStart o t h) :)

/-- Nothing applies at S of a lone output: it starts. -/
theorem LoneStart.modeStart_eq (hb : LoneStart h o e) {t : Nat} (ht : (startTime h o + 999) / 1000 * 1000 = t) : ∃ ms,
    modeStart o h = levelBlanks ms (statusAgain (startOut o t e (atStart o t h)) o) := by
  have hloss : ([o].foldl (fun h m => settleLoss m h) h) = h :=
    foldl_settleLoss_of_locked fun m hm => by rw [List.mem_singleton.mp hm, hb.pllLost]
  have hmax : maxOf [startTime h o] = startTime h o := Nat.zero_max _
  generalize hv : modeStart o h = v
  have hgrp : (getOut (fixVerdict o t (at_ t h)) o).grp = 0 := (congrArg Output.grp (undecided_fixVerdict o t (at_ t h) o)).trans hb.grp
  have hmode := (field_atStart Output.mode o t o h).trans hb.mode
  have hstate := field_atStart Output.state o t o h
  have htake : takeList o (recheckFills o (fixVerdict o t (at_ t h))) = atStart o t h :=
    takeList_of_no_newOwner ((field_atStart Output.newOwner o t o h).trans hb.newOwner)
  have happly (l : Nat) : applyCaught o l true (atStart o t h) = atStart o t h :=
    applyCaught_of_none_armed fun k hk => hb.txns k (congrArg Hub.txns (offOuts_atStart o t h) ▸ hk)
  simp only [modeStart, hb.grp, if_true, hloss, hb.startGroup_eq, List.contains_cons, BEq.rfl, Bool.true_or, Bool.not_true, List.all_cons,
    hb.ready, List.all_nil, Bool.and_true, Bool.or_self, Bool.false_eq_true, if_false, List.map_cons, List.map_nil, hmax,
    startAt_of_lone _ hb.grp, ht, List.filter_cons, List.filter_nil, listOf_of_lone hgrp, List.foldl_cons, List.foldl_nil, htake, happly,
    hmode, Option.isSome_some, startReady_atStart, hstate, hb.begins] at hv
  have hoff (ms : List Nat) :
      let u := levelBlanks ms (statusAgain (startOut o t e (atStart o t h)) o)
      (getOut u (groupHead u o)).gen.on = false := by
    obtain ⟨-, f, v, -, -, hbegun⟩ := hb.begun_started t ms
    obtain ⟨-, -, hlone, hgen, -⟩ := begun_eq_iff.mp hbegun
    simp only [groupHead, hlone, if_true, hgen]
  simp only [hoff, Bool.false_eq_true, if_false] at hv
  exact ⟨_, hv.symm⟩

end

/-! ### Stretched blanks and self refresh -/

theorem Tab.pred_of_find_filter {α : Type} {p : Nat × α → Bool} {t : Tab α} {i : Nat} {v : α}
    (hf : Tab.find (t.filter p) i = some v) : p (i, v) = true := by
  induction t with
  | nil => cases hf
  | cons e r ih =>
    by_cases hp : p e = true
    · rw [List.filter_cons_of_pos hp] at hf
      by_cases hk : e.1 = i
      · obtain rfl : e.2 = v := by simpa [Tab.find, hk] using hf
        exact hk ▸ hp
      · exact ih (by simpa [Tab.find, hk] using hf)
    · exact ih (by rwa [List.filter_cons_of_neg hp] at hf)

/-- An output whose stretch has ended: the blank has its normal length, the frame is composed, and what was gathered of it is gone (08
R222). -/
def stretchEnded (e : ModeEntry) (sc : Scan) (f : Frame) (x : Output) : Output := { x with
  bands := [], wbRows := [], cacheFull := false, dim := { x.dim with acc := [] }
  frame := some (composed' x f), scan := some { sc with stretched := false, blank := vBlank e } }

section
variable {o : Nat} {h : Hub} {e : ModeEntry} {sc : Scan} {f : Frame} (hm : (getOut h o).mode = some e) (hs : (getOut h o).scan = some sc)
include hm hs

/-- Before the normal end of the blank a change ends the stretch of a lone output there (08 R222). -/
theorem stretchReopen_of_early (hr : (getOut h o).state = .running) (hg : (getOut h o).grp = 0) (hst : sc.stretched = true)
    (hl : sc.line = 0) (hc : changeAtHand h o = true) (hn : h.now < scanNs e sc (sc.vbPx + vBlank e * hTotal e)) :
    stretchReopen o h = endStretch o h := by
  have hgo : ¬ ((getOut h o).state != .running || !sc.stretched || decide (sc.line ≠ 0) || !changeAtHand h o) = true := by
    simp [hr, hst, hl, hc]
  have hms : [o].filter (fun m => (getOut h m).state == .running && (getOut h m).scan.any Scan.stretched) = [o] := by
    simp [hr, hs, hst]
  simp only [stretchReopen, hm, hs]
  rw [if_neg hgo, if_pos hn, listOf_of_lone hg, membersOf_of_lone hg, hms]
  rfl

variable (hf : (getOut h o).frame = some f)
include hf

theorem endStretch_eq : endStretch o h = dropTiles o (updOut h o (stretchEnded e sc f)) := by
  have hd (g : Hub) (u : Output → Output) : updOut (dropTiles o g) o u = dropTiles o (updOut g o u) := rfl
  rw [endStretch, dropFrame, hd, updOut_updOut]
  refine congrArg (dropTiles o) (updOut_congr h o ?_)
  simp only [hm, hs, hf, Option.map_some, stretchEnded]
  rfl

theorem psrEntry_of_cached (hr : (getOut h o).state = .running) (hp : (getOut h o).psr = false) (hl : sc.line = e.vActive)
    (hsrc : f.source ≠ 0) (hn : f.notSent = false) (ht : f.truncated = false) (hmay : mayRefresh h o e = true) :
    psrEntry o h = updOut h o fun x => { x with psr := true } := by
  simp only [psrEntry, hm, hs, hf]
  exact if_pos (by simp [hr, hp, hl, hsrc, hn, ht, hmay])

end

/-! ### The obligation -/

theorem exec_outputStopped (o : Nat) (s : State) : exec (.outputStopped o) s = .next (onHub (outputStopped o) s) := rfl

theorem exec_modeStart (o : Nat) (s : State) : exec (.modeStart o) s = .next (onHub (modeStart o) s) := rfl

theorem exec_stretchReopen (o : Nat) (s : State) : exec (.stretchReopen o) s = .next (onHub (stretchReopen o) s) := rfl

theorem exec_psrEntry {o : Nat} {s : State} {g : Hub} (hg : psrEntry o s.hub = g) :
    exec (.psrEntry o) s = .next { s with hub := g } := hg ▸ rfl

/-- Settles O37: what a stop releases and what a start begins are followed to the end of their actions; the end of a stretch and the entry
into self refresh are one equation of the hub each. -/
theorem outputsStartAndStop : Obligations.OutputsStartAndStop := by
  refine ⟨?stop, ?start, ?stretch, ?refresh⟩
  case stop =>
    intro o s hs
    have hheld := holdings_outputStopped hs
    simp only [Output.holdings, Prod.mk.injEq] at hheld
    obtain ⟨hstate, hpll, hcache, hcols, htab, hscan, hframe, hbanks⟩ := hheld
    exact ⟨_, exec_outputStopped o s, rfl, rfl, hstate, hpll, hcache, hcols, htab, hscan, hframe, hbanks⟩
  case start =>
    intro o e s x hst hg hm hready hown hgen hlost ht t
    have hb : LoneStart s.hub o e := ⟨hm, hst, hg, hown, hgen, hlost, hready, ht⟩
    obtain ⟨ms, hu⟩ := hb.modeStart_eq (t := t) rfl
    obtain ⟨hnow, f, v, hnum, hframe, hbegun⟩ := hb.begun_started t ms
    rw [← hu] at hnow hframe hbegun
    obtain ⟨hstate, hcount, -, -, hscan⟩ := begun_eq_iff.mp hbegun
    obtain ⟨z, hz, horigin⟩ := Option.map_eq_some_iff.mp hscan
    simp only [Scan.origin, Scan.mk.injEq] at horigin
    obtain ⟨hs0, -, -, hvb, -, hline, -, hdrained, -, -, -, hframes⟩ := horigin
    exact ⟨onHub (modeStart o) s, f, z, exec_modeStart o s, rfl, rfl, hnow, hstate, hcount, hframe, hnum, hz, hs0, hline, hvb, hdrained,
      hframes⟩
  case stretch =>
    intro o e sc f s x hm hs hf hr hg hst hl hc hn
    have hu := (stretchReopen_of_early hm hs hr hg hst hl hc hn).trans (endStretch_eq hm hs hf)
    refine ⟨onHub (stretchReopen o) s, exec_stretchReopen o s, rfl, rfl, ?_⟩
    rw [onHub_hub, hu]
    refine ⟨rfl, getOut_updOut s.hub o _, fun k t ht => ?_, fun q hq => getOut_updOut_ne s.hub o q _ hq⟩
    simpa using Tab.pred_of_find_filter ht
  case refresh =>
    intro o e sc f s x hm hs hf hr hp hl hsrc hn ht hmay
    exact exec_psrEntry (psrEntry_of_cached hm hs hf hr hp hl hsrc hn ht hmay)

end Sys2Proof.Machine
end

section
/-!
Local dimming: what the queries read (09 R257, R261, R262), and the zone packet of a frame (09 R254-R256; 13 R351).
-/

namespace Sys2Proof.Machine

/-! ### What has been sent

Whatever leaves a port comes behind what has been sent before. -/

theorem outbox_emitBlock (k typ : Nat) (bytes data : Bytes) (h : Hub) : h.outbox <+: (emitBlock k typ bytes data h).outbox :=
  List.prefix_append h.outbox _

theorem outbox_trainSend (n k : Nat) (h : Hub) : h.outbox <+: (trainSend n k h).outbox :=
  List.foldlRecOn _ _ (motive := fun g : Hub => h.outbox <+: g.outbox) (List.prefix_refl h.outbox)
    fun g hg _ _ => hg.trans (outbox_emitBlock _ _ _ _ g)

theorem outbox_payloadDue (k : Nat) (h : Hub) : h.outbox <+: (payloadDue k h).outbox := by
  unfold payloadDue
  split
  · exact outbox_trainSend 8 k (updPort h k _)
  · exact List.prefix_refl h.outbox

theorem outbox_sendBlock (k typ : Nat) (bytes data : Bytes) (h : Hub) : h.outbox <+: (sendBlock k typ bytes data h).outbox := by
  unfold sendBlock
  split
  · exact List.prefix_refl h.outbox
  · exact (outbox_payloadDue k h).trans (outbox_emitBlock k typ bytes data (updPort (payloadDue k h) k _))

/-! ### The in-band part of a zone packet -/

/-- The output with `z` as what remains of a zone packet that goes in-band (13 R351). -/
def Output.withInBand (z : Option (Bytes × Nat)) (x : Output) : Output := { x with dim := { x.dim with inBand := z } }

@[simp] theorem withInBand_withInBand (a b : Option (Bytes × Nat)) (x : Output) : (x.withInBand a).withInBand b = x.withInBand b := rfl

/-- Of the packet that remains by `a`, some whole blocks have gone in-band, and `z` remains. -/
def blocksLater (a z : Option (Bytes × Nat)) : Prop := z = none ∨ ∃ bs i n, a = some (bs, i) ∧ z = some (bs, i + 16 * n)

theorem blocksLater_refl (a : Option (Bytes × Nat)) : blocksLater a a := by
  cases a with
  | none => exact Or.inl rfl
  | some p => exact Or.inr ⟨p.1, p.2, 0, rfl, rfl⟩

/-- A gap between lines changes at most what remains of the packet and the count of free values; then at most one ZONE block leaves. -/
theorem zoneGap_cases (o : Nat) (bound : Option (Nat × Bool)) (h : Hub) :
    zoneGap o bound h = h ∨ zoneGap o bound h = (takeFree h).2 ∨
      ∃ z, blocksLater (getOut h o).dim.inBand z ∧
        let g := updOut (takeFree h).2 o (Output.withInBand z)
        zoneGap o bound h = g ∨ ∃ k bytes data, zoneGap o bound h = sendBlock k 0x69 bytes data g := by
  unfold zoneGap
  extract_lets x
  split
  case h_2 => exact Or.inl rfl
  case h_1 bs i k e hz hk hm =>
    extract_lets left
    split
    next j h' hfree =>
      obtain rfl : (takeFree h).2 = h' := congrArg Prod.snd hfree
      extract_lets n data g
      right
      by_cases hn : n = 0
      · exact Or.inl (if_pos hn)
      · rw [if_neg hn]
        refine Or.inr ⟨if i + 16 * n ≥ bs.length then none else some (bs, i + 16 * n), ?_, ?_⟩
        · split
          · exact Or.inl rfl
          · exact Or.inr ⟨bs, i, n, hz, rfl⟩
        · change (if carries g k then _ else g) = g ∨ _
          split
          · exact Or.inr ⟨k, _, data, rfl⟩
          · exact Or.inl rfl

theorem getOut_sendBlock (k typ : Nat) (bytes data : Bytes) (h : Hub) (q : Nat) :
    getOut (sendBlock k typ bytes data h) q = getOut h q :=
  getOut_of_outsTxns (outsTxns_sendBlock k typ bytes data h) q

/-- Of the outputs, a gap changes only how much of its own output's packet remains. -/
theorem getOut_zoneGap (o : Nat) (bound : Option (Nat × Bool)) (h : Hub) :
    (∃ z, blocksLater (getOut h o).dim.inBand z ∧ getOut (zoneGap o bound h) o = (getOut h o).withInBand z) ∧
      ∀ q, q ≠ o → getOut (zoneGap o bound h) q = getOut h q := by
  rcases zoneGap_cases o bound h with hg | hg | ⟨z, hz, hg⟩
  · rw [hg]
    exact ⟨⟨_, blocksLater_refl _, rfl⟩, fun _ _ => rfl⟩
  · rw [hg]
    exact ⟨⟨_, blocksLater_refl _, rfl⟩, fun _ _ => rfl⟩
  · have hq (q : Nat) : getOut (zoneGap o bound h) q = getOut (updOut (takeFree h).2 o (Output.withInBand z)) q := by
      rcases hg with hg | ⟨k, bytes, data, hg⟩
      · rw [hg]
      · rw [hg, getOut_sendBlock]
    exact ⟨⟨z, hz, (hq o).trans (getOut_updOut _ o _)⟩, fun q hne => (hq q).trans (getOut_updOut_ne _ o q _ hne)⟩

theorem outbox_zoneGap (o : Nat) (bound : Option (Nat × Bool)) (h : Hub) : h.outbox <+: (zoneGap o bound h).outbox := by
  rcases zoneGap_cases o bound h with hg | hg | ⟨z, -, hg | ⟨k, bytes, data, hg⟩⟩
  · exact hg.symm ▸ List.prefix_refl h.outbox
  · exact hg.symm ▸ List.prefix_refl h.outbox
  · exact hg.symm ▸ List.prefix_refl h.outbox
  · exact hg.symm ▸ outbox_sendBlock k 0x69 bytes data (updOut (takeFree h).2 o (Output.withInBand z))

/-- What remains of an earlier packet is no part of the next one (09 R254). -/
theorem zonePacket_of_withInBand {g h : Hub} {o : Nat} {z : Option (Bytes × Nat)} (ho : getOut g o = (getOut h o).withInBand z)
    (hs : g.sends = h.sends) : zonePacket g o = zonePacket h o := by
  have hm (q : Nat) : membersOf g q = membersOf h q := membersOf_congr (field_of_sends hs Output.group q)
  have hc : zoneCols g o = zoneCols h o := by
    simp only [zoneCols, ho, hm]
    rfl
  simp only [zonePacket, zoneCol0, hc, ho]
  rfl

/-! ### The zone packet of a frame -/

/-- The packet of output `o` on its zone-stream port, where DELIVERY bit 0 sends it there (09 R255, R256). -/
def wireSent (o : Nat) (h : Hub) : List Sent :=
  let l := (getOut h o).dim.layout
  if bit l.delivery 0 then [Sent.zone o (zsPeriod l.zsRate) (zsEdges (zonePacket h o))] else []

theorem mem_wireSent {o : Nat} {h : Hub} (hb : bit (getOut h o).dim.layout.delivery 0 = true) :
    Sent.zone o (zsPeriod (getOut h o).dim.layout.zsRate) (zsEdges (zonePacket h o)) ∈ wireSent o h := by
  rw [wireSent, if_pos hb]
  exact List.mem_singleton_self _

/-- The hub with `l` sent. -/
def sendAll (l : List Sent) (h : Hub) : Hub := { h with outbox := h.outbox ++ l }

theorem sendAll_wireSent (o : Nat) (h g : Hub) : sendAll (wireSent o h) g =
    let l := (getOut h o).dim.layout
    if bit l.delivery 0 then send (.zone o (zsPeriod l.zsRate) (zsEdges (zonePacket h o))) g else g := by
  unfold sendAll wireSent
  dsimp only
  split
  · rfl
  · rw [List.append_nil]

/-- The line start of an output's packet, at which it goes edge by edge on the zone-stream port (09 R255, R256). -/
def packetOnWires (o : Nat) (e : ModeEntry) (sc : Scan) (h : Hub) : Hub :=
  sendAll (wireSent o h) (at_ (scanNs e sc (packetPx (getOut h o) e sc)) h)

theorem getOut_packetOnWires (o : Nat) (e : ModeEntry) (sc : Scan) (h : Hub) (q : Nat) : getOut (packetOnWires o e sc h) q = getOut h q :=
  rfl

/-- The time from the packet's line start to the next line, and whether a line goes out meanwhile (13 R351). -/
def packetGap (x : Output) (e : ModeEntry) (sc : Scan) : Nat × Bool :=
  let p := packetPx x e sc
  let next := if p < activePx e sc then activePx e sc else p + hTotal e
  (scanNs e sc next - scanNs e sc p, next ≠ activePx e sc)

/-- The output whose frame's packet is sent, and counted where one went (09 R255, R261). -/
def Output.packetSent (counted : Bool) (x : Output) : Output :=
  { x with dim := { x.dim with pktSent := true, packets := if counted then satInc 0xFFFFFFFF x.dim.packets else x.dim.packets } }

/-- Does the packet of an output's frame go in-band (09 R255)? -/
def goesInBand (h : Hub) (o : Nat) : Bool := bit (getOut h o).dim.layout.delivery 1 && portSends h o

/-- What remained of the last packet goes first, and then the new one starts. -/
def packetInBand (o : Nat) (bound : Option (Nat × Bool)) (h : Hub) : Hub :=
  let g := zoneGap o none h
  zoneGap o bound (updOut g o (Output.withInBand (some (zonePacket g o, 0))))

/-- A packet that starts in-band is the one of the hub as it stood; of the outputs it changes its own, and of that what remains to be
sent. -/
theorem getOut_packetInBand (o : Nat) (bound : Option (Nat × Bool)) (h : Hub) :
    (∃ z, (z = none ∨ ∃ n, z = some (zonePacket h o, 16 * n)) ∧ getOut (packetInBand o bound h) o = (getOut h o).withInBand z) ∧
      ∀ q, q ≠ o → getOut (packetInBand o bound h) q = getOut h q := by
  obtain ⟨⟨z₁, -, ho₁⟩, hq₁⟩ := getOut_zoneGap o none h
  have hp : zonePacket (zoneGap o none h) o = zonePacket h o := zonePacket_of_withInBand ho₁ (sends_zoneGap o none h)
  unfold packetInBand
  extract_lets g
  obtain ⟨⟨z, hz, ho⟩, hq⟩ := getOut_zoneGap o bound (updOut g o (Output.withInBand (some (zonePacket g o, 0))))
  rw [getOut_updOut] at ho hz
  rw [ho₁, withInBand_withInBand, withInBand_withInBand] at ho
  refine ⟨⟨z, ?_, ho⟩, fun q hne => by rw [hq q hne, getOut_updOut_ne g o q _ hne, hq₁ q hne]⟩
  rcases hz with hz | ⟨bs, i, n, ha, hz⟩
  · exact Or.inl hz
  · obtain ⟨rfl, rfl⟩ := Prod.mk.inj (Option.some.inj ha)
    exact Or.inr ⟨n, by rw [hz, hp, Nat.zero_add]⟩

theorem outbox_packetInBand (o : Nat) (bound : Option (Nat × Bool)) (h : Hub) : h.outbox <+: (packetInBand o bound h).outbox :=
  (outbox_zoneGap o none h).trans (outbox_zoneGap o bound (updOut (zoneGap o none h) o _))

/-- The packet of a running, drained output that has not been sent: on the wires, then in-band, then marked. -/
theorem sendPacket_of_due {o : Nat} {e : ModeEntry} {sc : Scan} {h : Hub} (hm : (getOut h o).mode = some e)
    (hs : (getOut h o).scan = some sc) (hr : (getOut h o).state = .running) (hl : (getOut h o).dim.layout.mode = 2)
    (hd : sc.drained = true) (hp : (getOut h o).dim.pktSent = false) : sendPacket o h =
    updOut
      (if goesInBand h o then packetInBand o (some (packetGap (getOut h o) e sc)) (packetOnWires o e sc h) else packetOnWires o e sc h) o
      (Output.packetSent (bit (getOut h o).dim.layout.delivery 0 || goesInBand h o)) := by
  have hdue : ¬ ((getOut h o).state != .running || (getOut h o).dim.layout.mode ≠ 2 || !sc.drained ||
      (getOut h o).dim.pktSent) = true := by
    simp [hr, hl, hd, hp]
  unfold packetOnWires
  rw [sendAll_wireSent]
  unfold sendPacket
  simp only [hm, hs, if_neg hdue]
  rfl

theorem exec_zonePacketTransmit (o : Nat) (s : State) : exec (.zonePacketTransmit o) s = .next (onHub (sendPacket o) s) := rfl

/-! ### The obligation -/

/-- Settles O39: the queries by one equation each; a packet that is due, by whether it goes in-band. -/
theorem dimmingIsReadAndSent : Obligations.DimmingIsReadAndSent := by
  refine ⟨fun c s => ⟨fun ha => ha.next_done rfl, fun st ha hst => ?read, fun ha hst => ?unread⟩, ?packet⟩
  case read => exact ha.next_done (by simp only [dimRead, hst])
  case unread =>
    exact ⟨(freeBytes (arg32 c 32) (fetched c.ctx s.hub)).1, by simp [freeBytes],
      ha.next_done (by simp only [dimRead, hst, List.getLast?_nil]; rfl)⟩
  case packet =>
    intro o e sc s x hm hs hr hl hd hp zs inb pkt counted
    have hu := sendPacket_of_due hm hs hr hl hd hp
    refine ⟨fun hinb => ?_, fun hinb => ?_⟩
    · rw [if_neg (show ¬ goesInBand s.hub o = true from Bool.eq_false_iff.mp hinb)] at hu
      rw [exec_zonePacketTransmit, onHub, onHub, hu]
      rfl
    · rw [if_pos (show goesInBand s.hub o = true from hinb)] at hu
      obtain ⟨⟨z, hz, ho⟩, hq⟩ := getOut_packetInBand o (some (packetGap x e sc)) (packetOnWires o e sc s.hub)
      refine ⟨onHub (sendPacket o) s, z, rfl, rfl, rfl, ?_, hz, fun hzs => ?_, fun q hne => ?_⟩
      · rw [onHub_hub, hu, getOut_updOut, ho, getOut_packetOnWires]
        rfl
      · rw [onHub_hub, hu]
        exact (outbox_packetInBand o _ _).subset (List.mem_append_right _ (mem_wireSent hzs))
      · rw [onHub_hub, hu, getOut_updOut_ne _ o q _ hne, hq q hne, getOut_packetOnWires]

end Sys2Proof.Machine
end

section
/-!
Check values: the commands, and the lane operations that a line boundary completes (10 R276-R284).
-/

namespace Sys2Proof.Machine

/-! ### CHK_GRANT -/

/-- The output without the lane operations for which `p` holds. -/
def Output.withoutOps (p : LaneOp → Bool) (x : Output) : Output := { x with chk := { x.chk with ops := x.chk.ops.filter fun q => !p q } }

/-- The hub without its contexts. -/
def Hub.offCtxs (h : Hub) : Hub := { h with ctxs := [] }

/-- Operations that go without a completion change their output, and the reserved slots of their contexts (10 R278). -/
theorem offCtxs_forgetOps (o : Nat) (p : LaneOp → Bool) (h : Hub) :
    (forgetOps o p h).offCtxs = (updOut h o (Output.withoutOps p)).offCtxs := by
  unfold forgetOps
  dsimp only
  rw [foldl_keeps Hub.offCtxs]
  · rfl
  · intro g q
    split <;> rfl

/-- The output whose grant goes to `new`, with all that the holder before it has queued gone (10 R278). -/
def Output.granted (new : Option Nat) (x : Output) : Output := { x with chk := { x.chk with holder := new, expect := [], ops := [] } }

theorem withoutOps_all (x : Output) : x.withoutOps (fun _ => true) = { x with chk := { x.chk with ops := [] } } := by
  have hnil : (x.chk.ops.filter fun _ => !true) = [] := List.filter_eq_nil_iff.mpr fun _ _ => Bool.false_ne_true
  rw [Output.withoutOps, hnil]

theorem dropGrant_spec (o : Nat) (new : Option Nat) (h : Hub) :
    (dropGrant o new h).host = h.host ∧ (dropGrant o new h).outbox = h.outbox ∧
      getOut (dropGrant o new h) o = (getOut h o).granted new := by
  have hoff := offCtxs_forgetOps o (fun _ => true) h
  have hget : getOut (forgetOps o (fun _ => true) h) o = (getOut h o).withoutOps fun _ => true :=
    (congrArg (getOut · o) hoff).trans (getOut_updOut h o _)
  refine ⟨(congrArg Hub.host hoff :), (congrArg Hub.outbox hoff :), ?_⟩
  rw [dropGrant, getOut_updOut, hget, withoutOps_all]
  rfl

/-! ### Lanes at a line boundary -/

section
variable (c : Chk)

theorem lineSentWhole_cfg : (lineSentWhole c).cfg = c.cfg := by
  unfold lineSentWhole
  split <;> rfl

theorem lineSentWhole_ops : (lineSentWhole c).ops = c.ops := by
  unfold lineSentWhole
  split <;> rfl

/-- What a channel's lane starts a frame at (10 R269). -/
def chanInit (cfg : Tab ChkCfg) (ch : Nat) : Nat := match chanCfg cfg ch with | none => 0 | some k => k.init

/-- What a lane holds once the line in progress has been sent whole (10 R276). -/
def Chk.laneSent (ch : Nat) : Nat :=
  let k := lineSentWhole c
  k.lanes.get ch (chanInit k.cfg ch)

theorem laneSent_eq (ch : Nat) : c.laneSent ch = (lineSentWhole c).lanes.get ch (chanInit c.cfg ch) := by
  rw [Chk.laneSent, lineSentWhole_cfg]

end

/-- Is a read due after line `sc.line - 1`, the last that output `x` sent, on a channel in `chs` (10 R276)? -/
def captureDue (x : Output) (sc : Scan) (chs : Nat → Bool) (p : LaneOp) : Bool :=
  opOfFrame x p && !p.write && p.y + 1 == sc.line && chs p.ch

/-- Is a write due before line `sc.line`, the next of output `x`, on a channel in `chs` (10 R276)? -/
def presetDue (x : Output) (sc : Scan) (chs : Nat → Bool) (p : LaneOp) : Bool :=
  opOfFrame x p && p.write && p.y == sc.line && chs p.ch

/-- The output after the captures for which `p` holds: the line is fed whole, and they are gone. -/
def Output.captured (p : LaneOp → Bool) (x : Output) : Output :=
  { x with chk := { lineSentWhole x.chk with ops := x.chk.ops.filter fun q => !p q } }

/-- The output in frame `f` after the write of a lane: the operations for which `p` holds are gone, and the frame is marked PRESET. -/
def Output.preset (f : Frame) (p : LaneOp → Bool) (ch v : Nat) (x : Output) : Output := { x with
  frame := some { f with preset := true }
  chk := { x.chk with ops := x.chk.ops.filter fun q => !p q, lanes := x.chk.lanes.set ch v } }

/-- A write that is due is no read. -/
theorem captured_keeps_writes (x : Output) (sc : Scan) (chs ch : Nat → Bool) :
    let y := x.captured (captureDue x sc chs)
    y.chk.ops.filter (presetDue y sc ch) = x.chk.ops.filter (presetDue x sc ch) := by
  refine (List.filter_filter ..).trans (List.filter_congr fun p _ => ?_)
  change (presetDue x sc ch p && !captureDue x sc chs p) = presetDue x sc ch p
  cases hw : p.write <;> simp [presetDue, captureDue, hw]

section
variable {h : Hub} {o : Nat} {e : ModeEntry} {sc : Scan} {f : Frame}

/-- Of the pixels of a frame that is sent, an operation's FRAME alone tells whether it concerns them. -/
theorem opOfFrame_of_sent {x : Output} (hf : x.frame = some f) (hn : f.notSent = false) (ht : f.truncated = false) (p : LaneOp) :
    opOfFrame x p = (p.frame == f.num) := by
  simp only [opOfFrame, hf, hn, ht, Bool.not_false, Bool.and_true]

variable (hs : (getOut h o).scan = some sc)
include hs

theorem captureOps_of_scan (chs : Nat → Bool) :
    let x := getOut h o
    captureOps o chs h = (x.chk.ops.filter (captureDue x sc chs)).foldl (fun g p => endOp 0 (x.chk.laneSent p.ch) g p)
      (updOut h o (Output.captured (captureDue x sc chs))) := by
  simp only [captureOps, getOut_updOut, hs, updOut_updOut, lineSentWhole_ops]
  rfl

theorem getOut_captureOps (chs : Nat → Bool) :
    getOut (captureOps o chs h) o = (getOut h o).captured (captureDue (getOut h o) sc chs) := by
  rw [captureOps_of_scan hs, getOut_of_outsTxns (foldl_keeps Hub.outsTxns (fun g p => outsTxns_endOp _ _ g p) _ _), getOut_updOut]

/-- One write is due: its lane is set, its frame marked PRESET, and its command completes (10 R276). -/
theorem presetOps_of_one {chs : Nat → Bool} {p : LaneOp} {k : ChkCfg} (hf : (getOut h o).frame = some f)
    (hp : (getOut h o).chk.ops.filter (presetDue (getOut h o) sc chs) = [p]) (hk : chanCfg (getOut h o).chk.cfg p.ch = some k) :
    presetOps o chs h =
      endOp 0 0 (updOut h o (Output.preset f (presetDue (getOut h o) sc chs) p.ch (p.value % 2 ^ k.width))) p := by
  have hps : ((getOut h o).chk.ops.filter fun q => opOfFrame (getOut h o) q && q.write && q.y == sc.line && chs q.ch) = [p] := hp
  simp only [presetOps, hs, hps, List.foldl_cons, List.foldl_nil]
  refine congrArg (endOp 0 0 · p) (updOut_congr h o ?_)
  simp only [hf, hk, Option.map_some]
  rfl

variable {ch : Nat} (hm : (getOut h o).mode = some e)
include hm

/-- The captures that are due on a channel, if there are any, complete with its lane after the last pixel of the line (10 R276). -/
theorem laneCapture_of_due (hd : (getOut h o).chk.ops.filter (captureDue (getOut h o) sc (· == ch)) ≠ []) :
    let x := getOut h o
    laneCapture o ch h = (x.chk.ops.filter (captureDue x sc (· == ch))).foldl (endOp 0 (x.chk.laneSent ch))
      (updOut (at_ (scanNs e sc (linePx e sc (sc.line - 1) + e.hActive)) h) o (Output.captured (captureDue x sc (· == ch)))) := by
  obtain ⟨p, hp⟩ := List.exists_mem_of_ne_nil _ hd
  obtain ⟨hmem, hdue⟩ := List.mem_filter.mp hp
  simp only [captureDue, Bool.and_eq_true, beq_iff_eq] at hdue
  obtain ⟨⟨⟨hof, hw⟩, hy⟩, hch⟩ := hdue
  have hany : (getOut h o).chk.ops.any (fun p => p.ch == ch && !p.write && p.y + 1 == sc.line && opOfFrame (getOut h o) p) = true :=
    List.any_eq_true.mpr ⟨p, hmem, by simp [hof, hw, hy, hch]⟩
  have hline : sc.line ≠ 0 := by omega
  have hcapt : laneCapture o ch h = captureOps o (· == ch) (at_ (scanNs e sc (linePx e sc (sc.line - 1) + e.hActive)) h) := by
    simp only [laneCapture, hm, hs, hany, hline, decide_false, Bool.not_true, Bool.or_self, Bool.false_eq_true, if_false]
  rw [hcapt]
  refine (captureOps_of_scan (h := at_ _ h) hs _).trans (List.foldl_rel (r := Eq) rfl fun q hq g g' hg => ?_)
  have hqch : q.ch = ch := eq_of_beq (Bool.and_eq_true_iff.mp (List.mem_filter.mp hq).2).2
  rw [hqch, hg]
  rfl

/-- The write that is due on a channel waits for the captures after the line before, which leave it as it is (10 R276). -/
theorem lanePreset_of_due {p : LaneOp} {k : ChkCfg} (hf : (getOut h o).frame = some f)
    (hd : (getOut h o).chk.ops.filter (presetDue (getOut h o) sc (· == ch)) = [p]) (hk : chanCfg (getOut h o).chk.cfg ch = some k) :
    lanePreset o ch h =
      endOp 0 0 (updOut (at_ (scanNs e sc (linePx e sc sc.line)) (captureOps o (fun _ => true) h)) o
        (Output.preset f (presetDue (getOut h o) sc (· == ch)) ch (p.value % 2 ^ k.width))) p := by
  have hp : p ∈ (getOut h o).chk.ops.filter (presetDue (getOut h o) sc (· == ch)) := hd ▸ List.mem_singleton_self p
  obtain ⟨hmem, hdue⟩ := List.mem_filter.mp hp
  simp only [presetDue, Bool.and_eq_true, beq_iff_eq] at hdue
  obtain ⟨⟨⟨hof, hw⟩, hy⟩, rfl⟩ := hdue
  have hany : (getOut h o).chk.ops.any (fun q => q.ch == p.ch && q.write && q.y == sc.line && opOfFrame (getOut h o) q) = true :=
    List.any_eq_true.mpr ⟨p, hmem, by simp [hof, hw, hy]⟩
  have hpre : lanePreset o p.ch h =
      presetOps o (· == p.ch) (at_ (scanNs e sc (linePx e sc sc.line)) (captureOps o (fun _ => true) h)) := by
    simp only [lanePreset, hm, hs, hany, Bool.not_true, Bool.false_eq_true, if_false]
  have hx : getOut (at_ (scanNs e sc (linePx e sc sc.line)) (captureOps o (fun _ => true) h)) o = _ := getOut_captureOps hs _
  rw [hpre, presetOps_of_one (by rw [hx]; exact hs) (by rw [hx]; exact hf) (p := p) (k := k)]
  · rw [hx]
    rfl
  · rw [hx, captured_keeps_writes, hd]
  · rw [hx]
    change chanCfg (lineSentWhole (getOut h o).chk).cfg _ = _
    rwa [lineSentWhole_cfg]

end

theorem exec_chkLaneCapture {o ch : Nat} {s : State} {g : Hub} (hg : laneCapture o ch s.hub = g) :
    exec (.chkLaneCapture o ch) s = .next { s with hub := g } := hg ▸ rfl

theorem exec_chkLanePreset {o ch : Nat} {s : State} {g : Hub} (hg : lanePreset o ch s.hub = g) :
    exec (.chkLanePreset o ch) s = .next { s with hub := g } := hg ▸ rfl

/-- Settles O40: the commands by one equation each, CHK_GRANT by whether the holder is another; the operations that a line boundary
completes are those that the statement names, by FRAME alone in a frame that is sent. -/
theorem checkCommands : Obligations.CheckCommands := by
  refine ⟨fun c s => ⟨fun ha => ⟨fun hold => ?same, fun hnew => ?moves⟩, fun ha => ha.next_done rfl, fun ha => ha.next_done rfl,
    fun ha => ha.next_done rfl, fun ha => ha.next_later rfl⟩, ?lanes⟩
  case same => exact ha.next_done (congrArg (okRes ·) (if_pos hold))
  case moves =>
    obtain ⟨hhost, hsent, hget⟩ :=
      dropGrant_spec (arg8 c 16) (if arg16 c 18 = 0xFFFF then none else some (arg16 c 18)) (fetched c.ctx s.hub)
    exact ⟨_, ha.next_done (congrArg (okRes ·) (if_neg hnew)), hhost, hsent, hget⟩
  case lanes =>
    intro o ch e sc f s x hm hs hf hn ht k cap pre
    have hof := opOfFrame_of_sent hf hn ht
    have hcap : captureDue x sc (· == ch) = cap := funext fun p => by
      simp [captureDue, cap, hof, Bool.and_assoc, Bool.decide_and, ← Bool.beq_eq_decide_eq]
    have hpre : presetDue x sc (· == ch) = pre := funext fun p => by
      simp [presetDue, pre, hof, Bool.and_assoc, Bool.decide_and, ← Bool.beq_eq_decide_eq]
    refine ⟨fun hd => ?capture, fun p k hp hk => ?preset⟩
    case capture =>
      rw [← hcap] at hd ⊢
      refine exec_chkLaneCapture ((laneCapture_of_due hs hm hd).trans ?_)
      rw [laneSent_eq]
      exact congrArg (List.foldl _ · _) (updOut_congr _ o rfl)
    case preset =>
      rw [← hpre] at hp ⊢
      exact exec_chkLanePreset (lanePreset_of_due hs hm hf hp hk)

end Sys2Proof.Machine
end

section
/-!
Check values: the result of an ended frame, and the reports of its mismatches (10 R269-R274).
-/

namespace Sys2Proof.Machine

/-! ### Sets of channels as bits -/

/-- The bits below `n` at which `p` holds. -/
def bitsBelow (n : Nat) (p : Nat → Bool) : Nat := ((List.range n).map fun i => b2n (p i) * 2 ^ i).sum

theorem bitsBelow_succ (n : Nat) (p : Nat → Bool) : bitsBelow (n + 1) p = 2 ^ n * b2n (p n) + bitsBelow n p := by
  simp [bitsBelow, List.range_succ, Nat.mul_comm, Nat.add_comm]

theorem bitsBelow_lt (n : Nat) (p : Nat → Bool) : bitsBelow n p < 2 ^ n := by
  induction n with
  | zero => simp [bitsBelow]
  | succ n ih =>
    rw [bitsBelow_succ, Nat.pow_succ]
    cases p n
    · rw [show b2n false = 0 from rfl]
      omega
    · rw [show b2n true = 1 from rfl]
      omega

theorem testBit_bitsBelow {n i : Nat} (p : Nat → Bool) (hi : i < n) : (bitsBelow n p).testBit i = p i := by
  induction n with
  | zero => exact absurd hi (Nat.not_lt_zero i)
  | succ n ih =>
    rw [bitsBelow_succ, Nat.testBit_two_pow_mul_add _ (bitsBelow_lt n p)]
    split
    case isTrue h => exact ih h
    case isFalse h =>
      obtain rfl : i = n := by omega
      cases hp : p i <;> simp [b2n]

/-! ### The values of an ended frame -/

/-- The final value of a channel (10 R267). -/
def FrameVals.final (v : FrameVals) (ch : Nat) : Nat :=
  match chanCfg v.cfg ch with | none => 0 | some k => chanValue k (v.lanes.get ch k.init)

/-- The value that the result shows: 0 in a frame that was not sent (10 R270). -/
def FrameVals.shown (v : FrameVals) (ch : Nat) : Nat := if bit v.flags 3 then 0 else v.final ch

/-- The link value that the result shows, `link` where the read-back receiver decoded another (10 R266; log entry 90). -/
def FrameVals.shownLink (v : FrameVals) (link : Option Nat) : Nat := if bit v.flags 3 then 0 else link.getD (v.shown 17)

/-- Do the flags of the frame forbid the comparison of its region channels (10 R270)? -/
def FrameVals.barred (v : FrameVals) : Bool := bit v.flags 0 || bit v.flags 2 || bit v.flags 3 || bit v.flags 4 || bit v.flags 6

/-- Of the expected values `l`, those of the frame whose channels ran in it (10 R272). -/
def FrameVals.expected (v : FrameVals) (l : List (Nat × Nat × Nat)) : List (Nat × Nat × Nat) :=
  l.filter fun e => e.2.1 == v.num && v.cfg.has e.1

/-- Of these, the ones that are compared: all or none, by the flags. -/
def FrameVals.compared (v : FrameVals) (l : List (Nat × Nat × Nat)) : List (Nat × Nat × Nat) := if v.barred then [] else v.expected l

/-- Of these, the ones that differ from the frame's values. -/
def FrameVals.missed (v : FrameVals) (l : List (Nat × Nat × Nat)) : List (Nat × Nat × Nat) :=
  (v.compared l).filter fun e => v.shown e.1 ≠ e.2.2

/-- Do the frame value and the link value of a frame sent whole differ (10 R271)? -/
def FrameVals.linkBad (v : FrameVals) (link : Option Nat) : Bool :=
  !bit v.flags 3 && !bit v.flags 6 && decide (v.shown 16 ≠ v.shownLink link)

/-- The region channels of a list of expected values, as bits (10 R284). -/
def chanSet (l : List (Nat × Nat × Nat)) : Nat := bitsBelow 16 fun ch => l.any fun e => e.1 == ch

/-- The result that is final at `now` (10 R269, R284). -/
def FrameVals.result (v : FrameVals) (link : Option Nat) (l : List (Nat × Nat × Nat)) (now : Nat) : ChkRes :=
  { flags := v.flags + 32 * b2n (v.linkBad link), compared := chanSet (v.compared l), mismatched := chanSet (v.missed l), frame := v.num
    time := now, region := (List.range 16).map v.shown, frameValue := v.shown 16, linkValue := v.shownLink link }

/-- Check values once the result of the frame is final at `now`. -/
def Chk.finish (v : FrameVals) (link : Option Nat) (now : Nat) (c : Chk) : Chk := { c with
  ended := none
  res := v.result link c.expect now
  expect := c.expect.filter fun e => e.2.1 > v.num
  mismatches := satAdd 0xFFFFFFFF c.mismatches (v.missed c.expect).length
  linkMismatches := if v.linkBad link then satInc 0xFFFFFFFF c.linkMismatches else c.linkMismatches
  ops := c.ops.filter fun p => !decide (p.frame ≤ v.num) }

/-- The output after that. -/
def Output.finished (v : FrameVals) (link : Option Nat) (now : Nat) (x : Output) : Output := { x with chk := x.chk.finish v link now }

/-! ### What the reports of a mismatch leave -/

theorem rest_dropOps (o st : Nat) (p : LaneOp → Bool) (h : Hub) : (dropOps o st p h).rest = (updOut h o (Output.withoutOps p)).rest :=
  foldl_keeps Hub.rest (fun g q => rest_endOp st 0 g q) _ _

theorem rest_surveyAsk (u t : Nat) (detail : Option Nat) (h : Hub) : (surveyAsk u t detail h).2.rest = h.rest := by
  unfold surveyAsk
  dsimp only
  split
  · rfl
  · split <;> rfl

theorem rest_numberReq (u seq : Nat) (h : Hub) : (numberReq u seq h).rest = h.rest := rfl

theorem rest_askSerial (d : Nat) (seq : Option Nat) (es : List Nat) (h : Hub) : (askSerial d seq es h).2.rest = h.rest := by
  induction es generalizing h with
  | nil => rfl
  | cons e es ih =>
    have hask := rest_surveyAsk (unitId 1 d e) h.now none h
    unfold askSerial
    extract_lets u r
    split
    · split
      · exact hask
      · split
        · exact (rest_numberReq u _ r.2).trans hask
        · exact hask
    · exact (ih _).trans hask

theorem rest_nextSerial (u : Nat) (seq : Option Nat) (h : Hub) : (nextSerial u seq h).rest = h.rest := by
  unfold nextSerial
  refine (rest_updDie _ _ _).trans (foldl_keeps (fun r : List (List Nat) × Hub => r.2.rest) (fun r l => ?_) _ _)
  split
  · exact rest_askSerial _ seq _ r.2
  · rfl

theorem rest_surveyRegion (o frame : Nat) (k : ChkCfg) (h : Hub) : (surveyRegion o frame k h).rest = h.rest := by
  unfold surveyRegion
  split
  · rfl
  · exact rest_faultReport _ _ _ _ _ _

theorem rest_surveyUnrecorded (o : Nat) (k : ChkCfg) (h : Hub) : (surveyUnrecorded o k h).rest = h.rest := by
  unfold surveyUnrecorded
  split
  · rfl
  · dsimp only
    split
    · rfl
    · split
      · exact rest_surveyAsk _ _ _ h
      · exact (rest_nextSerial _ _ _).trans (rest_surveyAsk _ _ _ h)

theorem rest_surveyPhy (o : Nat) (h : Hub) : (surveyPhy o h).rest = h.rest := by
  unfold surveyPhy
  dsimp only
  split
  · rfl
  · exact rest_surveyAsk _ _ _ h

/-- The output gets its result; the event, the fault records and Survey change no output. -/
theorem rest_chkFinal {o : Nat} {link : Option Nat} {v : FrameVals} {h : Hub} (he : (getOut h o).chk.ended = some v) :
    (chkFinal o link h).rest = (updOut h o (Output.finished v link h.now)).rest := by
  unfold chkFinal
  extract_lets x setBits
  split
  case h_1 hn => exact absurd (he.symm.trans hn) (by simp)
  case h_2 w hw =>
    obtain rfl : v = w := Option.some.inj (he.symm.trans hw)
    extract_lets notSent val lv barred exp bad linkBad res h₁ h₂ h₃ h₄
    have e₂ : h₂.rest = (updOut h o (Output.finished v link h.now)).rest := by
      rw [show h₂ = dropOps _ _ _ _ from rfl, rest_dropOps]
      exact congrArg Hub.rest ((updOut_updOut h o _ _).trans (updOut_congr h o rfl))
    have e₃ : h₃.rest = h₂.rest := by
      unfold h₃
      split
      · split
        · exact rest_postEvent _ _ _ _ h₂
        · rfl
      · rfl
    have e₄ : h₄.rest = h₃.rest := by
      unfold h₄
      split
      · rfl
      · refine foldl_keeps Hub.rest (fun g e => ?_) bad h₃
        split
        · rfl
        · split
          · exact (rest_surveyUnrecorded _ _ _).trans (rest_surveyRegion _ _ _ g)
          · rfl
    rw [← e₂, ← e₃, ← e₄]
    split
    · exact (rest_surveyPhy _ _).trans (rest_faultReport _ _ _ _ _ h₄)
    · rfl

theorem getOut_chkFinal {o : Nat} {link : Option Nat} {v : FrameVals} {h : Hub} (he : (getOut h o).chk.ended = some v) (q : Nat) :
    getOut (chkFinal o link h) q = getOut (updOut h o (Output.finished v link h.now)) q :=
  getOut_of_outsTxns (outsTxns_of_rest (rest_chkFinal he)) q

theorem exec_checkResultFinal (o : Nat) (link : Option (BitVec 32)) (s : State) :
    exec (.checkResultFinal o link) s = .next (onHub (chkFinal o (link.map BitVec.toNat)) s) := rfl

/-! ### What the result says -/

theorem testBit_chanSet {l : List (Nat × Nat × Nat)} {ch : Nat} (hch : ch < 16) :
    (chanSet l).testBit ch = true ↔ ∃ e ∈ l, e.1 = ch := by
  rw [chanSet, testBit_bitsBelow _ hch]
  simp only [List.any_eq_true, beq_iff_eq]

section
variable {v : FrameVals}

theorem shown_of_sent (hs : bit v.flags 3 = false) : v.shown = v.final :=
  funext fun _ => if_neg (Bool.eq_false_iff.mp hs)

theorem shown_of_not_sent (hs : ¬ bit v.flags 3 = false) (ch : Nat) : v.shown ch = 0 :=
  if_pos (by simpa using hs)

theorem shownLink_of_sent (hs : bit v.flags 3 = false) (link : Option Nat) : v.shownLink link = link.getD (v.final 17) := by
  rw [FrameVals.shownLink, if_neg (Bool.eq_false_iff.mp hs), shown_of_sent hs]

theorem shownLink_of_not_sent (hs : ¬ bit v.flags 3 = false) (link : Option Nat) : v.shownLink link = 0 :=
  if_pos (by simpa using hs)

theorem linkBad_eq_true {link : Option Nat} :
    v.linkBad link = true ↔ bit v.flags 3 = false ∧ bit v.flags 6 = false ∧ v.final 16 ≠ link.getD (v.final 17) := by
  by_cases hs : bit v.flags 3 = false
  · simp [FrameVals.linkBad, shownLink_of_sent hs, shown_of_sent hs, hs]
  · simp [FrameVals.linkBad, hs]

/-- May the region channels of the frame be compared (10 R270)? -/
def FrameVals.comparable (v : FrameVals) : Prop :=
  bit v.flags 0 = false ∧ bit v.flags 2 = false ∧ bit v.flags 3 = false ∧ bit v.flags 4 = false ∧ bit v.flags 6 = false

theorem barred_eq_false : v.barred = false ↔ v.comparable := by
  simp [FrameVals.barred, FrameVals.comparable, and_assoc]

theorem mem_compared {l : List (Nat × Nat × Nat)} {e : Nat × Nat × Nat} :
    e ∈ v.compared l ↔ v.comparable ∧ e ∈ v.expected l := by
  rw [FrameVals.compared, ← barred_eq_false]
  cases v.barred <;> simp

theorem missed_of_comparable (ho : v.comparable) (l : List (Nat × Nat × Nat)) :
    v.missed l = (v.expected l).filter fun e => v.final e.1 != e.2.2 := by
  have ⟨_, _, hs, _, _⟩ := ho
  rw [FrameVals.missed, FrameVals.compared, barred_eq_false.mpr ho, shown_of_sent hs, if_neg Bool.false_ne_true]
  exact List.filter_congr fun e _ => by rw [decide_not, bne, Bool.beq_eq_decide_eq]

theorem mem_missed {l : List (Nat × Nat × Nat)} {e : Nat × Nat × Nat} :
    e ∈ v.missed l ↔ v.comparable ∧ e ∈ (v.expected l).filter fun e => v.final e.1 != e.2.2 := by
  by_cases ho : v.comparable
  · rw [missed_of_comparable ho, and_iff_right ho]
  · simp [FrameVals.missed, mem_compared, ho]

end

/-- Settles O41: the output is followed through the reports of its mismatches, which leave every output as it is; then each part of the
result by whether the frame was sent, and whether its channels may be compared. -/
theorem checkResultsAreFinal : Obligations.CheckResultsAreFinal := by
  intro o link v s he k sent final comparable lv hits bads
  have hget := getOut_chkFinal (link := link.map BitVec.toNat) he
  have ho := (hget o).trans (getOut_updOut s.hub o _)
  refine ⟨_, v.result (link.map BitVec.toNat) k.expect s.hub.now, exec_checkResultFinal o link s, rfl, rfl, fun q hq => ?others, ?res,
    ?ended, rfl, rfl, fun hs => ?sent, fun hs => ?unsent, fun ch hch => ⟨?compared, ?mismatched⟩, ?flags, fun hcmp => ?count, ?expect⟩
  case others => exact (hget q).trans (getOut_updOut_ne s.hub o q _ hq)
  case res => exact congrArg (·.chk.res) ho
  case ended => exact congrArg (·.chk.ended) ho
  case sent =>
    exact ⟨congrArg (List.map · _) (shown_of_sent hs), congrFun (shown_of_sent hs) 16, shownLink_of_sent hs _⟩
  case unsent =>
    exact ⟨List.map_eq_replicate_iff.mpr fun ch _ => shown_of_not_sent hs ch, shown_of_not_sent hs 16, shownLink_of_not_sent hs _⟩
  case compared =>
    refine (testBit_chanSet hch).trans ?_
    simp only [mem_compared, and_assoc, exists_and_left]
    rfl
  case mismatched =>
    refine (testBit_chanSet hch).trans ?_
    simp only [mem_missed, and_assoc, exists_and_left]
    rfl
  case flags =>
    have h32 (b : Bool) : 32 * b2n b = if b = true then 32 else 0 := by cases b <;> rfl
    exact congrArg (v.flags + ·) ((h32 _).trans (ite_congr (propext linkBad_eq_true) (fun _ => rfl) fun _ => rfl))
  case count =>
    refine (congrArg (·.chk.mismatches) ho).trans ?_
    exact congrArg (satAdd _ _ <| List.length ·) (missed_of_comparable hcmp _)
  case expect =>
    intro e hmem
    rw [onHub_hub, ho] at hmem
    simpa using (List.mem_filter.mp hmem).2

end Sys2Proof.Machine
end

section
/-!
The Plotter (11): a slice of a job as one equation, with what it leaves of the die; the broadcast that a completion waits for; and a job's
end (R287-R302; log entries 37, 89).
-/

namespace Sys2Proof.Machine

/-! ### What shared actions leave of the dies -/

theorem Tab.find_eq_none_of_not_mem {α : Type} {t : Tab α} {i : Nat} (hi : i ∉ t.map Prod.fst) : t.find i = none := by
  induction t with
  | nil => rfl
  | cons e r ih =>
    rw [List.map_cons, List.mem_cons, not_or] at hi
    rw [Tab.find, if_neg (Ne.symm hi.1), ih hi.2]

theorem getDie_emptyBuffer (h : Hub) (k d : Nat) :
    getDie (emptyBuffer k h) d = if d = k then { getDie h d with rbuf := [] } else getDie h d := by
  unfold emptyBuffer
  split
  next he =>
    split
    next hk =>
      subst hk
      rw [← List.isEmpty_iff.mp he]
    next => rfl
  next =>
    split
    next hk => rw [hk, getDie_updDie]
    next hk => exact getDie_updDie_ne h k d _ hk

theorem getDie_foldl_emptyBuffer (l : List Nat) (h : Hub) (d : Nat) :
    getDie (l.foldl (fun h d => emptyBuffer d h) h) d = if d ∈ l then { getDie h d with rbuf := [] } else getDie h d := by
  induction l generalizing h with
  | nil => rfl
  | cons k t ih =>
    rw [List.foldl_cons, ih, getDie_emptyBuffer]
    by_cases hk : d = k
    · simp [hk]
    · simp [hk]

/-- A broadcast empties the remote-granule buffer of every die and leaves the rest of it (14 R387). -/
theorem getDie_broadcast (h : Hub) (d : Nat) : getDie (broadcast h) d = { getDie h d with rbuf := [] } := by
  rw [broadcast, getDie_foldl_emptyBuffer]
  split
  next => rfl
  next hd =>
    have hnone : getDie h d = {} := by
      rw [getDie, Tab.get, Tab.find_eq_none_of_not_mem hd, Option.getD_none]
    rw [hnone]

theorem plt_remoteRead (d : Nat) (gs : List Nat) (m : List Host.Cell) (h : Hub) :
    (getDie (remoteRead d gs m h) d).plt = (getDie h d).plt := by
  unfold remoteRead
  split
  · rfl
  · simp only [getDie, updDie, Tab.get_set_same]

theorem ctxs_remoteRead (d : Nat) (gs : List Nat) (m : List Host.Cell) (h : Hub) : (remoteRead d gs m h).ctxs = h.ctxs := by
  unfold remoteRead
  split <;> rfl

theorem offOuts_writesTouched (ws : List MemWrite) (h : Hub) : (writesTouched ws h).offOuts = h.offOuts :=
  foldl_keeps Hub.offOuts (f := fun g k => touched (k / 4096) [k % 4096] g) (fun _ _ => rfl) _ h

theorem getDie_writesTouched (ws : List MemWrite) (h : Hub) (d : Nat) : getDie (writesTouched ws h) d = getDie h d :=
  (congrArg (getDie · d) (offOuts_writesTouched ws h) :)

theorem ctxs_writesTouched (ws : List MemWrite) (h : Hub) : (writesTouched ws h).ctxs = h.ctxs :=
  (congrArg Hub.ctxs (offOuts_writesTouched ws h) :)

/-! ### The cost and the surfaces of a job -/

theorem costOf_pos (j : Job) (ds : Surf) (ks : List Nat) : 0 < costOf j ds ks := by
  unfold costOf
  omega

theorem jobPlan_of_surfs {h : Hub} {j : Job} {ds : Surf} {ss : Option Surf} (hs : jobSurfs h j = some (ds, ss)) :
    jobPlan h j = (jobSteps j ds ss, costOf j ds (jobSteps j ds ss)) := by
  rw [jobPlan, hs]

/-! ### A slice of a job (11 R299)

A slice is charged and its reads are made first; then the steps that the cycles drawn pay for are run. -/

/-- A slice of a job on a die: its cycles, the job with them drawn, the job's surfaces, and the steps ahead of it and behind it. -/
structure JobSlice where
  die : Nat
  cycles : Nat
  job : Job
  dst : Surf
  src : Option Surf
  todo : List Nat
  past : List Nat

/-- The slice of `n` cycles that a job draws next. -/
def nextSlice (d n : Nat) (j : Job) (ds : Surf) (ss : Option Surf) : JobSlice :=
  { die := d, cycles := n, job := { j with drawn := j.drawn + n }, dst := ds, src := ss
    todo := (jobSteps j ds ss).drop j.done, past := (jobSteps j ds ss).take j.done }

/-- The first slice of a job has every step ahead of it. -/
theorem nextSlice_of_new {j : Job} (d n : Nat) (ds : Surf) (ss : Option Surf) (hd : j.drawn = 0) (hk : j.done = 0) :
    nextSlice d n j ds ss = { die := d, cycles := n, job := { j with drawn := n }, dst := ds, src := ss
                              todo := jobSteps j ds ss, past := [] } := by
  simp only [nextSlice, hd, hk, Nat.zero_add, List.drop_zero, List.take_zero]

/-- The hub once the slice is charged and what its steps read of other dies has come. -/
def JobSlice.paid (c : JobSlice) (m : List Host.Cell) (h : Hub) : Hub :=
  remoteRead c.die ((paidSteps c.job c.dst c.todo c.past).flatMap (stepGrans h c.die c.job c.dst c.src)) m
    (chargeJob c.die c.job.pend c.cycles (drawTokens c.die c.job.pend.ctx c.cycles h))

/-- The job after the slice, and what the slice writes. -/
def JobSlice.run (c : JobSlice) (m : List Host.Cell) (h : Hub) : Job × List MemWrite :=
  runSteps (c.paid m h) c.dst c.src c.todo c.past (remoteView (c.paid m h) c.die 0 m) c.job

/-- A job without what running its steps changes. -/
def Job.order (j : Job) : Job := { j with line := [], pixels := 0, bad := [], done := 0 }

theorem order_runSteps (h : Hub) (ds : Surf) (ss : Option Surf) (ks past : List Nat) (m : List Host.Cell) (j : Job) :
    (runSteps h ds ss ks past m j).1.order = j.order := by
  induction ks generalizing past m j with
  | nil => rfl
  | cons k t ih =>
    unfold runSteps
    dsimp only
    split
    · rfl
    · split
      · exact ih _ _ _
      · rfl

/-- The charge of a job goes by what its context was charged before, whatever else of the die is other. -/
theorem charged_chargeJob_congr {g h : Hub} {d : Nat} (p : Pend) (n : Nat) (e : (getDie g d).plt.charged = (getDie h d).plt.charged) :
    (getDie (chargeJob d p n g) d).plt.charged = (getDie (chargeJob d p n h) d).plt.charged := by
  simp only [chargeJob, getDie_updDie, e]

/-- Paying a slice changes of the die's Plotter the cycles charged alone. -/
theorem plt_paid (c : JobSlice) (m : List Host.Cell) (h : Hub) : (getDie (c.paid m h) c.die).plt =
    { (getDie h c.die).plt with charged := (getDie (chargeJob c.die c.job.pend c.cycles h) c.die).plt.charged } := by
  rw [JobSlice.paid, plt_remoteRead]
  simp only [chargeJob, drawTokens, updPwr, getDie_updDie]

section
variable {d n : Nat} {h : Hub} {j : Job} {rest : List Job} {ds : Surf} {ss : Option Surf}

/-- The running job of a die draws and runs its next slice where its group's bucket holds it. -/
theorem runSlice_of_tokens (m : List Host.Cell) (hj : (getDie h d).plt.jobs = j :: rest) (hs : jobSurfs h j = some (ds, ss))
    (hn : sliceOf (costOf j ds (jobSteps j ds ss)) j.drawn = n) (hpos : 0 < n) (ht : hasTokens h d j.pend.ctx n = true) :
    let c := nextSlice d n j ds ss
    runSlice d m h = (writesTouched (c.run m h).2
      (updDie (c.paid m h) d fun x => { x with plt := { x.plt with jobs := (c.run m h).1 :: rest } }), (c.run m h).2) := by
  simp only [runSlice, hj, hs, jobPlan_of_surfs hs, hn, ht, hpos.ne', decide_false, Bool.not_true, Bool.or_false, Bool.false_eq_true,
    if_false]
  rfl

/-- What a slice leaves: its writes, the job in its place with the cycles charged, and every context as it was. -/
theorem runSlice_spec (m : List Host.Cell) (hj : (getDie h d).plt.jobs = j :: rest) (hs : jobSurfs h j = some (ds, ss))
    (hn : sliceOf (costOf j ds (jobSteps j ds ss)) j.drawn = n) (hpos : 0 < n) (ht : hasTokens h d j.pend.ctx n = true) :
    let r := (nextSlice d n j ds ss).run m h
    (runSlice d m h).2 = r.2 ∧ (runSlice d m h).1.ctxs = h.ctxs ∧ (getDie (runSlice d m h).1 d).plt =
      { (getDie h d).plt with jobs := r.1 :: rest, charged := (getDie (chargeJob d j.pend n h) d).plt.charged } := by
  intro r
  rw [runSlice_of_tokens m hj hs hn hpos ht]
  refine ⟨rfl, (ctxs_writesTouched _ _).trans (ctxs_remoteRead _ _ _ _), ?_⟩
  rw [getDie_writesTouched, getDie_updDie]
  exact congrArg (fun x : Plt => { x with jobs := r.1 :: rest }) (plt_paid (nextSlice d n j ds ss) m h)

end

/-! ### The job that starts next (11 R287) -/

/-- The bucket holds the first slice of the job that starts next. -/
theorem hasTokens_of_nextJob {h : Hub} {d i : Nat} {j : Job} (hi : nextJob h d = some i) (hj : (getDie h d).plt.jobs[i]? = some j) :
    hasTokens h d j.pend.ctx (sliceOf (jobPlan h j).2 0) = true := by
  have hfirst := List.find?_some hi
  simp only [hj, Bool.and_eq_true] at hfirst
  exact hfirst.2

/-- The hub with the waiting job `j`, number `i` of die `d`, at the front and running. -/
def atFront (d i : Nat) (j : Job) (h : Hub) : Hub :=
  updDie h d fun y => { y with plt := { y.plt with jobs := j :: (getDie h d).plt.jobs.eraseIdx i, busy := true } }

theorem hasTokens_atFront (d i c n : Nat) (j : Job) (h : Hub) : hasTokens (atFront d i j h) d c n = hasTokens h d c n := by
  rw [hasTokens, hasTokens, groupOf, groupOf, atFront, getDie_updDie, getCtx_updDie]

theorem jobStart_of_next {h : Hub} {d i : Nat} {j : Job} (m : List Host.Cell) (hr : plotterRuns h d = true)
    (hb : (getDie h d).plt.busy = false) (hi : nextJob h d = some i) (hj : (getDie h d).plt.jobs[i]? = some j) :
    jobStart d m h = runSlice d m (atFront d i j h) := by
  simp only [jobStart, hr, hb, hi, hj, Bool.not_true, Bool.or_false, Bool.false_eq_true, if_false, Option.map_some, Option.getD_some]
  rfl

theorem jobResume_of_busy {h : Hub} {d : Nat} (m : List Host.Cell) (hr : plotterRuns h d = true) (hb : (getDie h d).plt.busy = true) :
    jobResume d m h = runSlice d m h := by
  simp only [jobResume, hr, hb, Bool.and_self, if_true]

/-! ### The watermark and the end of a job (11 R296, R297) -/

theorem pltMark_of_reached {h : Hub} {d : Nat} {j : Job} {rest : List Job} (hr : plotterRuns h d = true)
    (hb : (getDie h d).plt.busy = true) (hj : (getDie h d).plt.jobs = j :: rest) (hf : bit j.flags 0 = true) (hm : j.marked = false)
    (hreach : markReached h j = true) :
    pltMark d h = postMark j (broadcast (updDie h d fun x =>
      { x with plt := { x.plt with jobs := { j with marked := true } :: rest } })) := by
  simp only [pltMark, hj, hr, hb, hf, hm, hreach, Bool.not_false, Bool.and_self, if_true]

/-- Has the job a watermark of its own that it has not told? -/
def Job.untold (j : Job) : Bool := bit j.flags 0 && !j.marked

theorem untold_eq_true {j : Job} : j.untold = true ↔ j.flags.testBit 0 = true ∧ j.marked = false := by
  simp [Job.untold, bit]

/-- A job that ends tells first a watermark that it has not told. -/
def tellMark (j : Job) (h : Hub) : Hub := if j.untold then postMark j h else h

theorem dies_tellMark (j : Job) (h : Hub) : (tellMark j h).dies = h.dies := by
  unfold tellMark
  split
  · exact dies_postEvent _ _ _ _ h
  · rfl

/-- The hub once the running job `j` of die `d` has made way for `rest` and is completed. -/
def retireJob (d : Nat) (j : Job) (rest : List Job) (h : Hub) : Hub :=
  endJob 0 j (updDie h d fun x => { x with plt := { x.plt with jobs := rest, busy := false } })

/-- The end of a job leaves of its die what the removal leaves: reports apart, the die is as it was. -/
theorem getDie_retireJob_rest (d : Nat) (j : Job) (rest : List Job) (h : Hub) : (getDie (retireJob d j rest h) d).rest =
    { (getDie h d).rest with plt := { (getDie h d).plt with jobs := rest, busy := false } } :=
  (getDie_complete_rest _ _ _ _ _ d _).trans (congrArg Die.rest (getDie_updDie h d _))

/-- A job that ends OK signals the timeline that it names (07 R181). -/
def signalJob (j : Job) (h : Hub) : Hub :=
  if bit j.flags 1 then (match tlOf h j.tl with | none => h | some (k, _) => signalTl k j.value h) else h

theorem signalJob_of_clear {j : Job} (h : Hub) (hf : j.flags.testBit 1 = false) : signalJob j h = h := if_neg (by simp [bit, hf])

theorem signalJob_of_named {j : Job} {h : Hub} {k : Nat} {t : Timeline} (hf : j.flags.testBit 1 = true) (ht : tlOf h j.tl = some (k, t)) :
    signalJob j h = signalTl k j.value h := by
  rw [signalJob, bit, if_pos hf, ht]

theorem jobComplete_of_done {h : Hub} {d : Nat} {j : Job} {rest : List Job} (hr : plotterRuns h d = true)
    (hb : (getDie h d).plt.busy = true) (hj : (getDie h d).plt.jobs = j :: rest) (hd : (jobPlan h j).2 ≤ j.drawn)
    (hl : (jobPlan h j).1.length ≤ j.done) :
    jobComplete d h = signalJob j (retireJob d j rest (tellMark j (broadcast h))) := by
  simp only [jobComplete, hj, hr, hb, Nat.not_lt.mpr hd, Nat.not_lt.mpr hl, decide_false, Bool.not_true, Bool.or_false,
    Bool.false_eq_true, if_false]
  rfl

/-! ### The Plotter's rows -/

theorem exec_plotterJobStart {d : Nat} {s : State} {e : Eff} (he : jobStart d s.lp5x s.hub = e) :
    exec (.plotterJobStart d) s = .next { s with hub := e.1, lp5x := e.2.foldl Memory.apply s.lp5x } := he ▸ rfl

theorem exec_plotterSliceResume {d : Nat} {s : State} {e : Eff} (he : jobResume d s.lp5x s.hub = e) :
    exec (.plotterSliceResume d) s = .next { s with hub := e.1, lp5x := e.2.foldl Memory.apply s.lp5x } := he ▸ rfl

theorem exec_pltWatermark {d : Nat} {s : State} {g : Hub} (hg : pltMark d s.hub = g) :
    exec (.pltWatermark d) s = .next { s with hub := g } := hg ▸ rfl

theorem exec_plotterJobComplete {d : Nat} {s : State} {g : Hub} (hg : jobComplete d s.hub = g) :
    exec (.plotterJobComplete d) s = .next { s with hub := g } := hg ▸ rfl

/-- Settles O42: the commands by one equation each; a start and a resume by the slice that both run, the start from the hub with its job
at the front; and the end of a job by whether its watermark is still untold, and by its timeline. -/
theorem plotterJobs : Obligations.PlotterJobs := by
  refine ⟨fun c s => ⟨fun ha => ha.next_later rfl, fun ha => congrArg Host.Outcome.next (mail_okRes ha rfl),
    fun ha => ⟨_, ha.next_done rfl, fun e k hf he => ?counted, fun hf => ?uncounted⟩⟩, ?start, ?resume, ?finish⟩
  case counted => simp only [hf, if_pos he]
  case uncounted => simp only [hf]
  case start =>
    intro d i j ds ss s x hr hb hi hj hd hk hs rest n j' g0 g r
    have hn : sliceOf (costOf j ds (jobSteps j ds ss)) j.drawn = n := by rw [sliceOf, hd, Nat.sub_zero]
    have hpos : 0 < n := Nat.lt_min.mpr ⟨by decide, costOf_pos _ _ _⟩
    have ht : hasTokens g0 d j.pend.ctx n = true := by
      have hnext := hasTokens_of_nextJob hi hj
      rw [jobPlan_of_surfs hs, ← hd, hn] at hnext
      exact (hasTokens_atFront d i _ _ j _).trans hnext
    have hfront : (getDie g0 d).plt = { x with jobs := j :: rest, busy := true } := congrArg Die.plt (getDie_updDie s.hub d _)
    obtain ⟨hws, hctx, hplt⟩ := runSlice_spec s.lp5x (congrArg Plt.jobs hfront) hs hn hpos ht
    rw [nextSlice_of_new d n ds ss hd hk] at hws hplt
    have horder : r.1.order = j'.order := order_runSteps _ _ _ _ _ _ _
    refine ⟨_, exec_plotterJobStart (jobStart_of_next s.lp5x hr hb hi hj), rfl, congrArg (List.foldl _ _) hws, congrArg Plt.jobs hplt,
      (congrArg Plt.busy hplt).trans (congrArg Plt.busy hfront), (congrArg Job.drawn horder :), (congrArg Job.pend horder :),
      (congrArg Job.marked horder :), ?_, hctx⟩
    exact (congrArg Plt.charged hplt).trans (charged_chargeJob_congr _ _ (congrArg Plt.charged hfront :))
  case resume =>
    intro d j rest ds ss s x n hr hb hj hs hpos ht ks j' g r
    obtain ⟨hws, hctx, hplt⟩ := runSlice_spec s.lp5x hj hs rfl hpos ht
    have horder : r.1.order = j'.order := order_runSteps _ _ _ _ _ _ _
    exact ⟨_, exec_plotterSliceResume (jobResume_of_busy s.lp5x hr hb), rfl, congrArg (List.foldl _ _) hws, congrArg Plt.jobs hplt,
      (congrArg Plt.busy hplt).trans hb, (congrArg Job.drawn horder :), (congrArg Job.pend horder :), (congrArg Plt.charged hplt :), hctx⟩
  case finish =>
    intro d j rest s x mark hr hb hj
    refine ⟨fun hf hm hreach => exec_pltWatermark (pltMark_of_reached hr hb hj hf hm hreach), ?_⟩
    intro hd hl own b off
    have hdone : jobComplete d s.hub = signalJob j (off (tellMark j b)) := jobComplete_of_done hr hb hj hd hl
    have htold (h : ¬ own) : tellMark j b = b := if_neg (mt untold_eq_true.mp h)
    have hclear (hf : j.flags.testBit 1 = false) : jobComplete d s.hub = off (tellMark j b) :=
      hdone.trans (signalJob_of_clear _ hf)
    refine ⟨fun ho hf => ?told, fun ho hf => ?telling, fun k t ho hf ht => ?signals, fun hf => ?removed⟩
    case told => exact exec_plotterJobComplete ((hclear hf).trans (congrArg off (htold ho)))
    case telling => exact exec_plotterJobComplete ((hclear hf).trans (congrArg off (if_pos (untold_eq_true.mpr ho))))
    case signals =>
      rw [htold ho, signalJob_of_named hf ht] at hdone
      exact exec_plotterJobComplete hdone
    case removed =>
      have hdie := getDie_retireJob_rest d j rest (tellMark j b)
      have hempty : (getDie (tellMark j b) d).rbuf = [] := by
        rw [getDie, dies_tellMark]
        exact congrArg Die.rbuf (getDie_broadcast s.hub d)
      exact ⟨_, exec_plotterJobComplete (hclear hf), congrArg (·.plt.jobs) hdie, congrArg (·.plt.busy) hdie,
        (congrArg Die.rbuf hdie).trans hempty⟩

end Sys2Proof.Machine
end

section
/-!
The step: what every row does to the machine, the canonical form of LP5X over it, the machine after reset, and the ring entry of a
mailbox command as that command's own row (02 R22, R32, R45; log entries 7, 8, 25).
-/

namespace Sys2Proof.Machine

/-! ### What a row does to the machine -/

/-- The two forms that the meaning of a row has: it changes the hub, or it changes the hub and writes LP5X.  The queue is no part of
either. -/
inductive Acts (s : State) : Host.Outcome State Fault Refusal → Prop
  | onHub (f : Hub → Hub) : Acts s (.next (onHub f s))
  | act (f : List Host.Cell → Hub → Eff) : Acts s (.next (act f s))

theorem exec_acts (i : Instr) (s : State) : Acts s (exec i s) := by
  cases i <;> constructor

theorem Acts.next {s : State} {r : Host.Outcome State Fault Refusal} (ha : Acts s r) : ∃ t, r = .next t ∧ t.pending = s.pending := by
  cases ha with
  | onHub f => exact ⟨_, rfl, onHub_pending f s⟩
  | act f => exact ⟨_, rfl, act_pending f s⟩

theorem Acts.sound {s t : State} {r : Host.Outcome State Fault Refusal} (ha : Acts s r) (hr : r = .next t) (hs : s.Sound) : t.Sound := by
  cases ha with
  | onHub f => exact Host.Outcome.next.inj hr ▸ onHub_sound f s hs
  | act f => exact Host.Outcome.next.inj hr ▸ act_sound f s hs

theorem step_of_cons {s : State} {c : Instr} {rest : List Instr} (hq : s.pending = c :: rest) :
    Machine.step s = exec c { s with pending := rest } := by
  rw [Machine.step, hq]

theorem step_of_nil {s : State} (hq : s.pending = []) : Machine.step s = .next (idle s) := by
  rw [Machine.step, hq]

/-- Settles O1: the definition of a step on a queue that is not empty. -/
theorem stepRunsFront : Obligations.StepRunsFront := fun _ _ _ hq => step_of_cons hq

/-- Settles O2: no row's meaning has another form than the two that leave the queue alone. -/
theorem everyStepAnswers : Obligations.EveryStepAnswers :=
  ⟨fun i s => (exec_acts i s).next, fun _ hq => step_of_nil hq⟩

/-- Settles O3: both forms that a row's meaning has keep the canonical form, whatever they write. -/
theorem stepKeepsMemoryCanonical : Obligations.StepKeepsMemoryCanonical := by
  intro s t hs ht
  cases hq : s.pending with
  | nil =>
    rw [step_of_nil hq] at ht
    exact Host.Outcome.next.inj ht ▸ onHub_sound _ s hs
  | cons c rest =>
    rw [step_of_cons hq] at ht
    exact (exec_acts c _).sound ht hs

/-! ### The machine after reset -/

/-- Settles O4: the tables of the machine after reset are empty, so each slot holds what an absent one reads as. -/
theorem resetIsSound : Obligations.ResetIsSound :=
  ⟨rfl, rfl, rfl, rfl, rfl, fun _ => ⟨rfl, rfl, rfl, rfl, rfl, rfl, rfl, rfl⟩, fun _ => rfl, rfl, rfl, rfl, rfl, rfl, rfl⟩

/-! ### LP5X memory -/

/-- Settles O5: each half is the laws of writing bytes and of zeroing a range. -/
theorem memoryReadsWhatWasWritten : Obligations.MemoryReadsWhatWasWritten := by
  refine fun m a hm => ⟨fun bs => ⟨Memory.wf_writeBytes bs m a hm, fun i hi => Memory.read_writeBytes_in bs m a i hm hi,
    fun x hx => Memory.read_writeBytes_out bs m a x hm hx⟩, fun n => ⟨Memory.wf_zero m a n hm, fun x => Memory.read_zero_in m a n x,
    fun x hx => Memory.read_zero_out m a n x hm hx⟩⟩

/-! ### The ring entry of a mailbox command -/

/-- A mailbox row's meaning is the run of its command. -/
theorem exec_of_mailRow {i : Instr} {sp : Spec} {c : Cmd} (s : State) (h : mailRow i = some (sp, c)) : exec i s = .next (mail sp c s) := by
  cases i <;> cases h <;> rfl

/-- The opcode table leads from each mailbox row's opcode to that row (02 R45). -/
theorem specOf_of_mailRow {i : Instr} {sp : Spec} {c : Cmd} (h : mailRow i = some (sp, c)) : specOf (BitVec.ofNat 16 sp.op).toNat = sp := by
  cases i <;> cases h <;> rfl

/-- A fetch of one entry is the Keeper's taking of it. -/
theorem fetchEach_singleton (ctx : Nat) (r : RawCmd) (m : List Host.Cell) (h : Hub) : fetchEach ctx [r] m h = fetchRaw ctx r m h := by
  simp only [fetchEach, List.append_nil, ite_self]

/-- Settles O6: the entry's opcode leads to the row, and the entry taken apart again is the command. -/
theorem ringEntryIsRow : Obligations.RingEntryIsRow := by
  intro i sp c s hi
  have hfetch (m : List Host.Cell) (h : Hub) : fetchEach c.ctx [cmdRaw (BitVec.ofNat 16 sp.op) c] m h = mailStep sp c m h := by
    rw [fetchEach_singleton, fetchRaw, rawOpcode_cmdRaw, rawCmd_cmdRaw, specOf_of_mailRow hi]
  calc exec (.commandFetch c.ctx [cmdRaw (BitVec.ofNat 16 sp.op) c]) s
      = .next (act (fetchEach c.ctx [cmdRaw (BitVec.ofNat 16 sp.op) c]) s) := rfl
    _ = .next (mail sp c s) := by rw [funext fun m => funext (hfetch m), mail]
    _ = exec i s := (exec_of_mailRow s hi).symm

end Sys2Proof.Machine
end

section
/-!
Frames: what an update of one die or port keeps, what dies keep over reports, wake events and visibility broadcasts, and an access of the
integrator's function to a die's register space (14 R386-R388; 15 R396-R398; 20 R498-R501).
-/

namespace Sys2Proof.Machine

/-! ### One die, one port -/

theorem getDie_updDie_keeps {γ : Type} (F : Die → γ) (h : Hub) (d k : Nat) {f : Die → Die} (hf : ∀ x, F (f x) = F x) :
    F (getDie (updDie h d f) k) = F (getDie h k) := by
  by_cases hk : k = d
  · rw [hk, getDie_updDie, hf]
  · rw [getDie_updDie_ne h d k f hk]

theorem updDie_congr (h : Hub) (d : Nat) {f g : Die → Die} (e : f (getDie h d) = g (getDie h d)) : updDie h d f = updDie h d g := by
  rw [updDie, updDie, e]

theorem getPort_updPort_keeps {γ : Type} (F : Port → γ) (h : Hub) (k q : Nat) {f : Port → Port} (hf : ∀ x, F (f x) = F x) :
    F (getPort (updPort h k f) q) = F (getPort h q) := by
  by_cases hq : q = k
  · rw [hq, getPort_updPort, hf]
  · rw [getPort_updPort_ne h k q f hq]

theorem updPort_congr (h : Hub) (k : Nat) {f g : Port → Port} (e : f (getPort h k) = g (getPort h k)) : updPort h k f = updPort h k g := by
  rw [updPort, updPort, e]

/-! ### The hub outside its dies -/

/-- The hub without its dies. -/
def Hub.offDies (h : Hub) : Hub := { h with dies := [] }

theorem offDies_emptyBuffer (d : Nat) (h : Hub) : (emptyBuffer d h).offDies = h.offDies := by
  unfold emptyBuffer
  split <;> rfl

/-- A visibility broadcast touches the dies alone (14 R387). -/
theorem offDies_broadcast (h : Hub) : (broadcast h).offDies = h.offDies :=
  foldl_keeps Hub.offDies (fun g d => offDies_emptyBuffer d g) _ h

/-- Reading over the fabric touches the dies, and spends free values. -/
theorem offDies_remoteRead (d : Nat) (gs : List Nat) (m : List Host.Cell) (h : Hub) :
    ∃ n, (remoteRead d gs m h).offDies = { h.offDies with freeIx := n } := by
  unfold remoteRead
  split <;> exact ⟨_, rfl⟩

theorem offDies_ownWrites (d u : Nat) (ws : List MemWrite) (h : Hub) : (ownWrites d u ws h).offDies = h.offDies := by
  unfold ownWrites
  split <;> rfl

/-! ### Accesses to a register space -/

/-- A wake event of a die that is not asleep is latched in its entry, if anywhere (15 R397). -/
theorem wakeEvent_of_not_asleep {h : Hub} {d : Nat} (ha : asleep h d = false) (cause : Nat) : wakeEvent d cause h = h ∨
    ∃ f : Option PwrEntry → Option PwrEntry, wakeEvent d cause h = updPwr h d fun x => { x with entry := f x.entry } := by
  unfold wakeEvent
  dsimp only
  split
  next => exact Or.inl rfl
  next =>
    split
    next => exact Or.inr ⟨_, rfl⟩
    next => simp [ha]

section
variable {h : Hub} {d : Nat} (ha : asleep h d = false) (f : Nat)
include ha

theorem offDies_accessWakes : (accessWakes d f h).offDies = h.offDies := by
  rcases wakeEvent_of_not_asleep ha (if f / 16 = d then 1 else 2) with e | ⟨g, e⟩ <;> rw [accessWakes, e] <;> rfl

/-- An access to a die that is not asleep changes of the dies an entry alone. -/
theorem getDie_accessWakes (k : Nat) :
    ∃ e, getDie (accessWakes d f h) k = { getDie h k with pwr := { (getDie h k).pwr with entry := e } } := by
  rcases wakeEvent_of_not_asleep ha (if f / 16 = d then 1 else 2) with e | ⟨g, e⟩
  · exact ⟨_, by rw [accessWakes, e]⟩
  · rw [accessWakes, e, updPwr]
    by_cases hk : k = d
    · rw [hk, getDie_updDie]
      exact ⟨_, rfl⟩
    · rw [getDie_updDie_ne h d k _ hk]
      exact ⟨_, rfl⟩

end

/-- A register access of the integrator's function that the die takes is run on the hub that it has woken (15 R398, 20 R500). -/
theorem regGate_of_takes {h : Hub} {fn d : Nat} (ht : RegTakes h fn d) (off : Nat) (f : Hub → Eff) :
    regGate fn d off false f h = f (accessWakes d fn h) := by
  obtain ⟨hreach, hawake, hfn⟩ := ht
  have hint : fn = integratorFn (accessWakes d fn h) := hfn.trans (congrArg integratorFn (offDies_accessWakes hawake fn) :).symm
  simp only [regGate, hreach, hawake, Bool.not_true, Bool.false_and, Bool.false_eq_true, if_false, if_neg (not_not.mpr hint)]

end Sys2Proof.Machine
end

section
/-!
DMA: client channels, their descriptors, slices and records (12 R304-R319, R324-R327; log entries 10, 38, 89), and the privileged
channels (12 R320-R323; log entries 38, 39, 89).
-/

namespace Sys2Proof.Machine

/-! ### Channels over a slice's reads and writes -/

/-- The client channels after the writes of a unit are as they were. -/
theorem dma_unitWrites (d u : Nat) (ws : List MemWrite) (h : Hub) : (unitWrites d u ws h).dma = h.dma :=
  (congrArg Hub.dma (offOuts_writesTouched ws _) :).trans (congrArg Hub.dma (offDies_ownWrites d u ws h) :)

theorem ctxs_unitWrites (d u : Nat) (ws : List MemWrite) (h : Hub) : (unitWrites d u ws h).ctxs = h.ctxs :=
  (ctxs_writesTouched ws _).trans (congrArg Hub.ctxs (offDies_ownWrites d u ws h) :)

/-! ### Channels that a command names -/

theorem freeChan_spec {h : Hub} {c d i : Nat} (hf : freeChan h c d = some i) : i / 32 = d ∧ 4 ≤ i % 32 ∧ h.dma.has i = false := by
  simp only [freeChan] at hf
  split at hf
  case isTrue => cases hf
  case isFalse =>
    obtain ⟨hlo, hhi, hfree⟩ := firstNat_spec hf
    exact ⟨by omega, by omega, by simpa using hfree⟩

theorem dmaAlloc_finds {c : Cmd} {s : State} (ha : Accepts Machine.dmaAlloc c s) :
    ∃ i, freeChan (fetched c.ctx s.hub) c.ctx (arg8 c 16) = some i := by
  have hd := ha.checks_pass (dieCk (fetched c.ctx s.hub) 16 (arg8 c 16)) (by simp [dmaAlloc])
  have hk := ha.checks_pass (ckd (arg8 c 16) 0x0609 255 (arg8 c 16 < 8 && (freeChan (fetched c.ctx s.hub) c.ctx (arg8 c 16)).isNone))
    (by simp [dmaAlloc])
  have hlt : arg8 c 16 < 8 := by
    unfold dieCk at hd
    split at hd
    next hb => exact of_decide_eq_true (Bool.and_eq_true_iff.mp hb).1
    next => cases hd
  exact Option.isSome_iff_exists.mp (by simpa [ckd, hlt] using hk)

/-- A CHANNEL field that draws no refusal names a channel of the context (12 R305, R324). -/
theorem chan_of_chanCks {h : Hub} {c off k : Nat} (hk : ∀ q ∈ chanCks h c off k, q.bad = false) :
    ∃ x, h.dma.find k = some x ∧ x.owner = c := by
  obtain ⟨-, hlow, hthere, hown⟩ := by simpa only [chanCks, List.forall_mem_cons] using hk
  cases hf : h.dma.find k with
  | none =>
    simp only [ck, ckd, hf, Option.isNone_none, Bool.and_true, decide_eq_false_iff_not] at hlow hthere
    omega
  | some x => exact ⟨x, rfl, by simpa [ckd, hf] using hown.1⟩

theorem ownChan_of_find {h : Hub} {c k : Nat} {x : DmaChan} (hf : h.dma.find k = some x) (ho : x.owner = c) : ownChan h c k = some x := by
  simp only [ownChan, hf, ho, if_true]

theorem statusCodes_getD_mod (n d : Nat) : statusCodes.getD (n % statusCodes.length) d ∈ statusCodes := by
  have hlt : n % statusCodes.length < statusCodes.length := Nat.mod_lt _ (by decide)
  rw [List.getD_eq_getElem _ _ hlt]
  exact List.getElem_mem hlt

/-- The row of an accepted command that ends with a status met after its checks. -/
theorem Accepts.next_fail {sp : Spec} {c : Cmd} {s : State} {g : Hub} {st off r0 r1 : Nat} (ha : Accepts sp c s)
    (hr : sp.run c (taken sp.op c s.hub) s.lp5x (fetched c.ctx s.hub) = failRes g st off r0 r1) :
    (.next (mail sp c s) : Host.Outcome State Fault Refusal) = .next { s with hub := complete (taken sp.op c s.hub) st off r0 r1 g } := by
  simp only [mail_accepts sp c s ha, act, hr, answer_failRes]
  rfl

theorem dmaSubmit_run {c : Cmd} {p : Pend} {m : List Host.Cell} {h : Hub} {x : DmaChan} (ho : ownChan h c.ctx (submitArgs c).1 = some x) :
    (x.dead = true → ∃ st off, st ∈ statusCodes ∧ Machine.dmaSubmit.run c p m h = failRes { h with freeIx := h.freeIx + 1 } st off) ∧
    (x.dead = false → Machine.dmaSubmit.run c p m h = okRes (updChan (bar2Visible c.ctx h) (submitArgs c).1 fun y => { y with
      head := (submitArgs c).2.2, queue := y.queue ++ (submitDescs c).zipIdx.map fun e => descOf e.1 ((x.seq + e.2) % 2 ^ 32)
      seq := (y.seq + (submitArgs c).2.1) % 2 ^ 32 }) x.seq) := by
  refine ⟨fun hd => ⟨_, if isIndirect c.flags.toNat then 32 else 16, statusCodes_getD_mod (Config.freeWord h.freeIx).toNat 0x0404, ?_⟩, fun hd => ?_⟩
  · simp only [dmaSubmit, ho, hd, takeFree, if_true]
  · simp only [dmaSubmit, ho, hd, Bool.false_eq_true, if_false]

/-! ### A slice of a descriptor (12 R315) -/

theorem chunksRun_drawn (h : Hub) (d : DmaDesc) (ds ss : Surf) (down : Bool) (fuel : Nat) (m : List Host.Cell) (r : DmaRun) :
    (chunksRun h d ds ss down fuel m r).1.drawn = r.drawn := by
  induction fuel generalizing m r with
  | zero => rfl
  | succ fuel ih =>
    simp only [chunksRun]
    split
    · rfl
    · exact ih _ _

theorem le_chunksRun_moved {n : Nat} (h : Hub) (d : DmaDesc) (ds ss : Surf) (down : Bool) (fuel : Nat) (m : List Host.Cell) (r : DmaRun)
    (hn : n ≤ r.moved) : n ≤ (chunksRun h d ds ss down fuel m r).1.moved := by
  induction fuel generalizing m r with
  | zero => exact hn
  | succ fuel ih =>
    simp only [chunksRun]
    split
    · exact hn
    · exact ih _ _ (hn.trans (Nat.le_add_right _ _))

/-- A COMPARE writes nothing (12 R307). -/
theorem chunksRun_compare {d : DmaDesc} (hop : d.op = 3) (h : Hub) (ds ss : Surf) (down : Bool) (fuel : Nat) (m : List Host.Cell)
    (r : DmaRun) : (chunksRun h d ds ss down fuel m r).2 = [] := by
  induction fuel generalizing m r with
  | zero => rfl
  | succ fuel ih =>
    simp only [chunksRun]
    split
    · rfl
    · simp only [chunkRun, hop, ih, List.append_nil]

/-- Cycles that the running descriptor `q` of channel `k` draws next. -/
def chanCycles (k : Nat) (q : DmaDesc) (ds ss : Surf) (r : DmaRun) (m : List Host.Cell) (h : Hub) : Nat :=
  sliceOf (descCost q (descDescends q ds ss) (descEnd (remoteView h (k / 32) (dmaUnit (k % 32)) m) h q ds ss r)) r.drawn

/-- The hub once `n` cycles are drawn and what they pay for has been read of other dies. -/
def chanPaid (k c n : Nat) (q : DmaDesc) (ds ss : Surf) (r : DmaRun) (m : List Host.Cell) (h : Hub) : Hub :=
  let g := drawTokens (k / 32) c n h
  let down := descDescends q ds ss
  remoteRead (k / 32) (descGrans g (k / 32) q ds ss down r.moved (paidBytes q down (r.drawn + n) 1100 r.moved)) m g

/-- The descriptor after the slice, and what the slice writes. -/
def chanRun (k c n : Nat) (q : DmaDesc) (ds ss : Surf) (r : DmaRun) (m : List Host.Cell) (h : Hub) : DmaRun × List MemWrite :=
  let g := chanPaid k c n q ds ss r m h
  chunksRun g q ds ss (descDescends q ds ss) 1100 (remoteView g (k / 32) (dmaUnit (k % 32)) m) { r with drawn := r.drawn + n }

section
variable {k : Nat} {h : Hub} {x : DmaChan} {q : DmaDesc} {rest : List DmaDesc} {r : DmaRun} {ds ss : Surf}

theorem chanSlice_of_tokens (m : List Host.Cell) (hx : h.dma.find k = some x) (hq : x.queue = q :: rest) (hr : x.run = some r)
    (hs : descSurfs h q = some (ds, ss)) (hpos : 0 < chanCycles k q ds ss r m h)
    (ht : hasTokens h (k / 32) x.owner (chanCycles k q ds ss r m h) = true) :
    let n := chanCycles k q ds ss r m h
    let w := chanRun k x.owner n q ds ss r m h
    chanSlice k m h = (unitWrites (k / 32) (dmaUnit (k % 32)) w.2 (updChan (chanPaid k x.owner n q ds ss r m h) k fun y =>
      { y with run := some w.1, charged := satAdd (2 ^ 64 - 1) y.charged n }), w.2) := by
  intro n w
  have hgo : (decide (n = 0) || !hasTokens h (k / 32) x.owner n) = false := by simp [hpos.ne', n, ht]
  simp only [chanSlice, hx, hq, hr, hs]
  exact if_neg (by rw [← Bool.not_eq_true] at hgo; exact hgo)

theorem dma_chanPaid (k c n : Nat) (q : DmaDesc) (ds ss : Surf) (r : DmaRun) (m : List Host.Cell) (h : Hub) :
    (chanPaid k c n q ds ss r m h).dma = h.dma := by
  obtain ⟨i, hoff⟩ := offDies_remoteRead (k / 32) (descGrans (drawTokens (k / 32) c n h) (k / 32) q ds ss (descDescends q ds ss) r.moved
    (paidBytes q (descDescends q ds ss) (r.drawn + n) 1100 r.moved)) m (drawTokens (k / 32) c n h)
  exact (congrArg Hub.dma hoff :)

theorem ctxs_chanPaid (k c n : Nat) (q : DmaDesc) (ds ss : Surf) (r : DmaRun) (m : List Host.Cell) (h : Hub) :
    (chanPaid k c n q ds ss r m h).ctxs = h.ctxs := ctxs_remoteRead _ _ m (drawTokens (k / 32) c n h)

/-- What a slice leaves: its writes, the channel with the cycles charged, and every context as it was. -/
theorem chanSlice_spec (m : List Host.Cell) (hx : h.dma.find k = some x) (hq : x.queue = q :: rest) (hr : x.run = some r)
    (hs : descSurfs h q = some (ds, ss)) (hpos : 0 < chanCycles k q ds ss r m h)
    (ht : hasTokens h (k / 32) x.owner (chanCycles k q ds ss r m h) = true) :
    let n := chanCycles k q ds ss r m h
    let w := chanRun k x.owner n q ds ss r m h
    (chanSlice k m h).2 = w.2 ∧ (q.op = 3 → w.2 = []) ∧ r.moved ≤ w.1.moved ∧ w.1.drawn = r.drawn + n ∧
      (chanSlice k m h).1.dma.find k = some { x with run := some w.1, charged := satAdd (2 ^ 64 - 1) x.charged n } ∧
      (chanSlice k m h).1.ctxs = h.ctxs := by
  intro n w
  rw [chanSlice_of_tokens m hx hq hr hs hpos ht]
  refine ⟨rfl, fun hop => chunksRun_compare hop _ _ _ _ _ _ _, le_chunksRun_moved _ _ _ _ _ _ _ _ (Nat.le_refl _), chunksRun_drawn _ _ _ _ _ _ _ _, ?_,
    (ctxs_unitWrites _ _ _ _).trans (ctxs_chanPaid _ _ _ _ _ _ _ _ _)⟩
  rw [dma_unitWrites, updChan, Tab.find_upd_same, dma_chanPaid, hx]
  rfl

/-- A descriptor that starts whose check fails ends with that status (12 R310). -/
theorem descriptorStart_of_fails (m : List Host.Cell) (hx : h.dma.find k = some x) (hq : x.queue = q :: rest)
    (hp : plotterRuns h (k / 32) = true) (hr : x.run = none) (hst : descStart h x.owner q ≠ 0) :
    descriptorStart k m h = (descEnds k (descStart h x.owner q) 0 none q
      (updChan (if q.flags.testBit 0 then broadcast h else h) k fun x => { x with queue := rest }), []) := by
  simp only [descriptorStart, hx, hq, hr, hp, Option.isSome_none, Bool.not_true, Bool.or_self, Bool.false_eq_true, if_false, if_pos hst]
  rfl

theorem descriptorStart_of_holds (m : List Host.Cell) (hx : h.dma.find k = some x) (hq : x.queue = q :: rest)
    (hp : plotterRuns h (k / 32) = true) (hr : x.run = none) (hst : descStart h x.owner q = 0) :
    descriptorStart k m h = chanSlice k m (updChan h k fun x => { x with run := some {} }) := by
  simp only [descriptorStart, hx, hq, hr, hp, hst, Option.isSome_none, Bool.not_true, Bool.or_self, Bool.false_eq_true, if_false, ne_eq,
    not_true_eq_false]

/-! ### The end of a descriptor (12 R312, R313, R317) -/

theorem descriptorComplete_of_done (hx : h.dma.find k = some x) (hq : x.queue = q :: rest) (hr : x.run = some r)
    (hdone : r.moved = q.len ∨ r.diff.isSome = true) (hup : dieUp h (k / 32) = true) :
    descriptorComplete k h = descEnds k 0 r.moved r.diff q
      (updChan (if q.flags.testBit 0 || q.flags.testBit 2 then broadcast h else h) k fun x => { x with queue := rest, run := none }) := by
  have hgo : ((decide (r.moved = q.len) || r.diff.isSome) && dieUp h (k / 32)) = true := by
    rcases hdone with hl | hd <;> simp [*]
  simp only [descriptorComplete, hx, hq, hr, hgo, if_true]
  rfl

theorem recordBytes_length (st op cflags seq moved mism time : Nat) : (recordBytes st op cflags seq moved mism time).length = 32 := by
  simp only [recordBytes, List.length_append, leBytes_length]

theorem hostRead_updChan (f a n k : Nat) (h : Hub) (g : DmaChan → DmaChan) : hostRead f a (updChan h k g) n = hostRead f a h n :=
  hostRead_congr f a n _ _ rfl

/-- The record of a descriptor with neither event nor signal: its 32 bytes at the queue's tail, which moves on. -/
theorem descEnds_record {st moved : Nat} {diff : Option Nat} (hx : h.dma.find k = some x) (hev : q.flags.testBit 1 = false)
    (hsig : q.flags.testBit 2 = false) (hmay : mayPost (getCtx h x.owner) = true) (hdead : x.dead = false) :
    let t := (x.tail + 1) % 2 ^ x.cqLog
    let mm := if st = 0 then diff else none
    hostRead (ctxFn h x.owner) ((x.base + 32 * x.tail) % 2 ^ 64) (descEnds k st moved diff q h) 32 =
      (recordBytes st q.op (b2n x.phase + 2 * b2n mm.isSome) q.seq (if q.op = 3 then 0 else moved) (mm.getD 0xFFFFFFFF) h.now).map some ∧
    ∃ l, (descEnds k st moved diff q h).dma.find k =
      some { x with tail := t, phase := if t = 0 then !x.phase else x.phase, last := l } := by
  have hsig' : bit q.flags 2 = false := hsig
  have hev' : bit q.flags 1 = false := hev
  simp only [descEnds, hx, hmay, hdead, hsig', hev', Bool.and_false, Bool.false_eq_true, if_false, Bool.not_true, Bool.not_false,
    Bool.and_true, show b2n false = 0 from rfl, Nat.mul_zero, Nat.add_zero]
  have hlen := recordBytes_length st q.op (b2n x.phase + 2 * b2n (if st = 0 then diff else none).isSome) q.seq
    (if q.op = 3 then 0 else moved) ((if st = 0 then diff else none).getD 0xFFFFFFFF) h.now
  generalize recordBytes st q.op (b2n x.phase + 2 * b2n (if st = 0 then diff else none).isSome) q.seq
    (if q.op = 3 then 0 else moved) ((if st = 0 then diff else none).getD 0xFFFFFFFF) h.now = bs at hlen ⊢
  constructor
  · have hput := hostRead_hostPut (ctxFn h x.owner) bs ((x.base + 32 * x.tail) % 2 ^ 64) h (by rw [hlen]; decide)
    rw [hlen] at hput
    rw [hostRead_updChan]
    exact hput
  · rw [updChan, Tab.find_upd_same, hostWrite_dma, hx, Option.map_some, hdead]
    exact ⟨_, rfl⟩

end

/-! ### The rows of the client channels -/

theorem exec_dmaDescriptorStart {d ch : Nat} {s : State} {e : Eff} (he : descriptorStart (d * 32 + ch) s.lp5x s.hub = e) :
    exec (.dmaDescriptorStart d ch) s = .next { s with hub := e.1, lp5x := e.2.foldl Memory.apply s.lp5x } := he ▸ rfl

theorem exec_dmaDescriptorComplete {d ch : Nat} {s : State} {g : Hub} (hg : descriptorComplete (d * 32 + ch) s.hub = g) :
    exec (.dmaDescriptorComplete d ch) s = .next { s with hub := g } := hg ▸ rfl

theorem exec_dmaSliceResume {d ch : Nat} {s : State} {e : Eff} (hp : plotterRuns s.hub ((d * 32 + ch) / 32) = true)
    (he : chanSlice (d * 32 + ch) s.lp5x s.hub = e) :
    exec (.dmaSliceResume d ch) s = .next { s with hub := e.1, lp5x := e.2.foldl Memory.apply s.lp5x } := by
  have hres : descriptorResume (d * 32 + ch) s.lp5x s.hub = e := by rw [descriptorResume, if_pos hp, he]
  exact hres ▸ rfl

/-- Settles O43: the commands by what their checks have found; a start and a resume by the slice that both run; the end of a descriptor by
its record. -/
theorem dmaClientChannels : Obligations.DmaClientChannels := by
  refine ⟨fun c s => ⟨fun ha => ?alloc, fun ha => ha.next_done rfl, fun ha => ?submit, fun ha => ?abort, fun ha => ?query⟩, ?slices, ?ends⟩
  case alloc =>
    obtain ⟨i, hi⟩ := dmaAlloc_finds ha
    obtain ⟨hd, hlow, hfree⟩ := freeChan_spec hi
    exact ⟨i, hd, hlow, hfree, ha.next_done (by simp only [dmaAlloc, hi]; rfl)⟩
  case submit =>
    obtain ⟨x, hx, ho⟩ := chan_of_chanCks (h := fetched c.ctx s.hub) (c := c.ctx) (k := (submitArgs c).1)
      (off := if isIndirect c.flags.toNat then 32 else 16) fun q hq => ha.checks_pass q (List.mem_append_left _ (List.mem_append_left _ hq))
    obtain ⟨hdead, hlive⟩ := dmaSubmit_run (p := taken 0x0802 c s.hub) (m := s.lp5x) (ownChan_of_find hx ho)
    refine ⟨x, hx, ho, fun hd => ?_, fun hd => ha.next_done (hlive hd)⟩
    obtain ⟨st, off, hst, hrun⟩ := hdead hd
    exact ⟨st, off, hst, ha.next_fail hrun⟩
  case abort =>
    obtain ⟨x, hx, -⟩ := chan_of_chanCks ha.checks_pass
    exact ⟨x, hx, ha.next_done (by simp only [dmaAbort, hx])⟩
  case query =>
    obtain ⟨x, hx, -⟩ := chan_of_chanCks ha.checks_pass
    exact ⟨x, hx, ha.next_done (by simp only [dmaQuery, hx])⟩
  case slices =>
    intro d ch x q rest s k sliced hx hq hp
    have slice_sliced {h : Hub} {r : DmaRun} {ds ss : Surf} (hy : h.dma.find k = some { x with run := some r })
        (hs : descSurfs h q = some (ds, ss)) (hctx : h.ctxs = s.hub.ctxs) :
        sliced h r ds ss { s with hub := (chanSlice k s.lp5x h).1, lp5x := (chanSlice k s.lp5x h).2.foldl Memory.apply s.lp5x } := by
      intro hpos ht
      obtain ⟨hws, hcmp, hmoved, hdrawn, hfind, hctxs⟩ := chanSlice_spec s.lp5x hy hq rfl hs hpos ht
      exact ⟨congrArg (List.foldl _ _) hws, fun hop => congrArg (List.foldl Memory.apply s.lp5x) (hws.trans (hcmp hop)), hmoved, hdrawn,
        hfind, hctxs.trans hctx⟩
    refine ⟨fun hr hst => ?fails, fun hr hst ds ss hs => ?starts, fun r ds ss hr hs => ?resumes⟩
    case fails => exact exec_dmaDescriptorStart (descriptorStart_of_fails s.lp5x hx hq hp hr hst)
    case starts =>
      refine ⟨_, exec_dmaDescriptorStart (descriptorStart_of_holds s.lp5x hx hq hp hr hst), rfl, ?_⟩
      refine slice_sliced ?_ hs rfl
      rw [updChan, Tab.find_upd_same, hx]
      rfl
    case resumes => exact ⟨_, exec_dmaSliceResume hp rfl, rfl, slice_sliced (by rw [hx, ← hr]) hs rfl⟩
  case ends =>
    intro d ch x q rest r s k hx hq hr hdone hup b u
    refine ⟨exec_dmaDescriptorComplete (descriptorComplete_of_done hx hq hr hdone hup), ?_⟩
    intro hev hsig hmay hdead
    have hoff : b.offDies = s.hub.offDies := by
      simp only [b]
      split
      · exact offDies_broadcast s.hub
      · rfl
    have hdma : b.dma = s.hub.dma := (congrArg Hub.dma hoff :)
    have hfind : (updChan b k fun x => { x with queue := rest, run := none }).dma.find k = some { x with queue := rest, run := none } := by
      rw [updChan, Tab.find_upd_same, hdma, hx]
      rfl
    have hctx (c : Nat) : getCtx (updChan b k fun x => { x with queue := rest, run := none }) c = getCtx s.hub c :=
      (congrArg (getCtx · c) hoff :)
    have hnow : (updChan b k fun x => { x with queue := rest, run := none }).now = s.hub.now := (congrArg Hub.now hoff :)
    obtain ⟨hrec, l, hchan⟩ := descEnds_record (st := 0) (moved := r.moved) (diff := r.diff) hfind hev hsig (hctx x.owner ▸ hmay) hdead
    rw [ctxFn, hctx, hnow] at hrec
    exact ⟨hrec, _, hchan, rfl, rfl, rfl, rfl⟩

end Sys2Proof.Machine
end

section
/-!
The privileged DMA channels: their registers, the run of an operation, its end and its stop (12 R320-R323; log entries 38, 39, 89).
-/

namespace Sys2Proof.Machine

/-! ### The registers of a channel over what an operation does -/

@[simp] theorem getPriv_updPriv (h : Hub) (d ch : Nat) (f : PrivDma → PrivDma) : getPriv (updPriv h d ch f) d ch = f (getPriv h d ch) := by
  simp only [getPriv, updPriv, getDie_updDie, Tab.get_set_same]

theorem updPriv_congr (h : Hub) (d ch : Nat) {f g : PrivDma → PrivDma} (e : f (getPriv h d ch) = g (getPriv h d ch)) :
    updPriv h d ch f = updPriv h d ch g :=
  updDie_congr h d (congrArg (fun x => { getDie h d with priv := (getDie h d).priv.set ch x }) e)

theorem getPriv_of_priv {g h : Hub} {d : Nat} (e : (getDie g d).priv = (getDie h d).priv) (ch : Nat) : getPriv g d ch = getPriv h d ch := by
  rw [getPriv, getPriv, e]

theorem priv_intEvent (d n k : Nat) (h : Hub) : (getDie (intEvent d n h) k).priv = (getDie h k).priv :=
  (congrArg Die.priv (getDie_intEvent_rest d n k h) :)

theorem priv_remoteRead (d k : Nat) (gs : List Nat) (m : List Host.Cell) (h : Hub) :
    (getDie (remoteRead d gs m h) k).priv = (getDie h k).priv := by
  unfold remoteRead
  split
  · rfl
  · exact getDie_updDie_keeps Die.priv h d k (f := fun x => { x with rbuf := _ }) fun _ => rfl

theorem priv_unitWrites (d u k : Nat) (ws : List MemWrite) (h : Hub) : (getDie (unitWrites d u ws h) k).priv = (getDie h k).priv := by
  rw [unitWrites, getDie_writesTouched]
  unfold ownWrites
  split
  · rfl
  · exact getDie_updDie_keeps Die.priv h d k fun _ => rfl

theorem priv_systemWritten (d k : Nat) (h : Hub) : (getDie (systemWritten d h) k).priv = (getDie h k).priv := by
  rw [systemWritten]
  exact getDie_updDie_keeps Die.priv h d k (f := fun x => { x with fbk := _ }) fun _ => rfl

theorem priv_privWritten (d ch dst n op k : Nat) (ws : List MemWrite) (h : Hub) :
    (getDie (privWritten d ch dst n op ws h) k).priv = (getDie h k).priv := by
  simp only [privWritten]
  split
  · rw [priv_systemWritten, priv_unitWrites]
  · exact priv_unitWrites d _ k ws h

theorem dies_systemView (a n : Nat) (m : List Host.Cell) (h : Hub) : (systemView a n m h).2.dies = h.dies := by
  simp only [systemView, apply_ite Prod.snd, apply_ite Hub.dies, ite_self]

theorem dies_privView (d ch src dst len op : Nat) (m : List Host.Cell) (h : Hub) : (privView d ch src dst len op m h).2.dies = h.dies := by
  have hsrc : (if op = 2 then (remoteView h d (dmaUnit ch) m, h) else systemView src len (remoteView h d (dmaUnit ch) m) h).2.dies = h.dies := by
    split
    · rfl
    · exact dies_systemView _ _ _ _
  rw [privView]
  split
  · exact (dies_systemView _ _ _ _).trans hsrc
  · exact hsrc

/-- The end of an operation: its results, and one more DONE (12 R322). -/
theorem getPriv_privEnds (d ch st moved mism : Nat) (h : Hub) : getPriv (privEnds d ch st moved mism h) d ch =
    { getPriv h d ch with busy := none, last := st, bytes := moved, mismatch := mism, done := ((getPriv h d ch).done + 1) % 65536 } := by
  rw [privEnds, getPriv_of_priv (priv_intEvent d ch d _), getPriv_updPriv]

/-- What an operation reads leaves the registers of its channel. -/
theorem getPriv_privView (d ch src dst len op c : Nat) (gs : List Nat) (m : List Host.Cell) (h : Hub) :
    getPriv (privView d ch src dst len op m (remoteRead d gs m h)).2 d c = getPriv h d c := by
  refine (getPriv_of_priv ?_ c).trans (getPriv_of_priv (priv_remoteRead d d gs m h) c)
  rw [getDie, dies_privView]
  rfl

/-! ### The run of an operation -/

/-- A COMPARE writes nothing. -/
theorem privRun_compare (m : List Host.Cell) (src dst len pattern n : Nat) : (privRun m src dst len 3 pattern n).1 = [] := rfl

theorem systemView_of_below {h : Hub} {a n : Nat} (hb : reachesSystem h a n = false) (m : List Host.Cell) : systemView a n m h = (m, h) := by
  rw [systemView, hb]
  rfl

/-- An operation whose ranges lie in its own die's memory outside the system area, where nothing is buffered, reads LP5X as it is. -/
theorem privView_of_own {h : Hub} {d src dst len : Nat} (hb : (getDie h d).rbuf = []) (hs : reachesSystem h src len = false)
    (hd : reachesSystem h dst len = false) (ch op : Nat) (m : List Host.Cell) : privView d ch src dst len op m h = (m, h) := by
  have hview : remoteView h d (dmaUnit ch) m = m := by rw [remoteView, hb, List.foldl_nil]
  simp only [privView, hview, systemView_of_below hs, systemView_of_below hd, ite_self]

theorem privGrans_of_own {d src dst : Nat} (hs : src / 2 ^ 34 = d) (hd : dst / 2 ^ 34 = d) (len op : Nat) : privGrans d src dst len op = [] := by
  simp only [privGrans, hs, hd, if_true, ite_self, List.append_nil]

theorem remoteRead_nil (d : Nat) (m : List Host.Cell) (h : Hub) : remoteRead d [] m h = h := rfl

section
variable {h : Hub} {d ch src dst len ctrl pat : Nat} (hb : (getPriv h d ch).busy = some (src, dst, len, ctrl, pat)) (m : List Host.Cell)
include hb

theorem privComplete_of_busy :
    let op := bits ctrl 0 2
    let v := privView d ch src dst len op m (remoteRead d (privGrans d src dst len op) m h)
    let r := privRun v.1 src dst len op pat len
    (privComplete d ch m h).2 = r.1 ∧ getPriv (privComplete d ch m h).1 d ch = { getPriv h d ch with
      busy := none, last := 0, bytes := if op = 3 then 0 else len, mismatch := r.2.getD 0xFFFFFFFF
      done := ((getPriv h d ch).done + 1) % 65536 } := by
  simp only [privComplete, hb]
  refine ⟨trivial, ?_⟩
  have hends (g : Hub) (b : Bool) : getPriv (if b then broadcast g else g) d ch = getPriv g d ch := by
    split
    · exact getPriv_of_priv (congrArg Die.priv (getDie_broadcast g d) :) ch
    · rfl
  rw [hends, getPriv_privEnds, getPriv_of_priv (priv_privWritten _ _ _ _ _ _ _ _), getPriv_privView]

/-- An operation stopped: its status, and one more DONE; how far it came is a free value (12 R323). -/
theorem getPriv_privStop (st : Nat) : ∃ n, getPriv (privStop d ch st m h).1 d ch = { getPriv h d ch with
    busy := none, last := st, bytes := n, mismatch := 0xFFFFFFFF, done := ((getPriv h d ch).done + 1) % 65536 } := by
  simp only [privStop, hb, takeFree]
  rw [getPriv_of_priv (priv_privWritten _ _ _ _ _ _ _ _), getPriv_privEnds, getPriv_privView]
  exact ⟨_, rfl⟩

end

/-! ### DMA_CTRL and the operands -/

section
variable {h : Hub} {d ch v : Nat}

theorem privCtrlWrite_of_go (m : List Host.Cell) (hb : (getPriv h d ch).busy = none) (hgo : v.testBit 8 = true) (hab : v.testBit 9 = false) :
    let x := getPriv h d ch
    let p := updPriv h d ch fun x => { x with ctrl := v % 8 }
    let st := privCheck p x.src x.dst x.len (v % 4)
    privCtrlWrite d ch v m h = if st ≠ 0 then (privEnds d ch st 0 0xFFFFFFFF p, [])
      else (updPriv p d ch fun x => { x with busy := some (x.src, x.dst, x.len, v % 8, x.pattern) }, []) := by
  simp only [privCtrlWrite, hb, bit, hgo, hab, Option.isSome_none, Bool.not_true, Bool.or_self, Bool.false_eq_true, if_false]

theorem privCtrlWrite_of_busy (m : List Host.Cell) (hb : (getPriv h d ch).busy.isSome = true) :
    let b := updPriv h d ch fun x => { x with ignored := satInc 255 x.ignored }
    privCtrlWrite d ch v m h = if v.testBit 9 then privStop d ch 0x0411 m b else (b, []) := by
  simp only [privCtrlWrite, hb, bit, if_true]
  rfl

theorem privOperand_of_busy (hb : (getPriv h d ch).busy.isSome = true) (f : PrivDma → PrivDma) :
    privOperand d ch f h = updPriv h d ch fun x => { x with ignored := satInc 255 x.ignored } :=
  updPriv_congr h d ch (if_pos hb)

theorem privOperand_of_idle (hb : (getPriv h d ch).busy = none) (f : PrivDma → PrivDma) : privOperand d ch f h = updPriv h d ch f :=
  updPriv_congr h d ch (if_neg (by simp [hb]))

end

/-! ### The rows of the privileged channels -/

/-- A word written to a channel's registers by the integrator's function. -/
theorem privAccess_of_takes {h : Hub} {fn d ch off v : Nat} (m : List Host.Cell) (ht : RegTakes h fn d) (hch : ch < 4) (hoff : off < 0x40)
    (hal : off % 4 = 0) : privAccess fn d ch off 4 v m h = privWrite32 d ch off (v % 2 ^ 32) m (accessWakes d fn h) := by
  have hok : accessOk off 4 = true := by simp [accessOk, hal]
  have hin : (decide (ch ≥ 4) || decide (off ≥ 0x40)) = false := by simp [hch, hoff]
  rw [privAccess, if_neg (by simpa using hin), regGate_of_takes ht]
  simp only [hok, Bool.not_true, Bool.false_eq_true, if_false, privWrite, if_true]

section
variable {s : State} {fn d ch : Nat} {v : BitVec 32} (ht : RegTakes s.hub fn d) (hch : ch < 4)
include ht hch

theorem ctrl_of_takes : privAccess fn d ch 0x14 4 v.toNat s.lp5x s.hub = privCtrlWrite d ch v.toNat s.lp5x (accessWakes d fn s.hub) := by
  rw [privAccess_of_takes s.lp5x ht hch (by decide) (by decide), Nat.mod_eq_of_lt v.isLt]
  rfl

theorem exec_dmaCtrlGo {e : Eff} (he : privCtrlWrite d ch v.toNat s.lp5x (accessWakes d fn s.hub) = e) :
    exec (.dmaCtrlGo fn d ch v) s = .next { s with hub := e.1, lp5x := e.2.foldl Memory.apply s.lp5x } :=
  (ctrl_of_takes ht hch).trans he ▸ rfl

theorem exec_dmaCtrlAbort {e : Eff} (he : privCtrlWrite d ch v.toNat s.lp5x (accessWakes d fn s.hub) = e) :
    exec (.dmaCtrlAbort fn d ch v) s = .next { s with hub := e.1, lp5x := e.2.foldl Memory.apply s.lp5x } :=
  (ctrl_of_takes ht hch).trans he ▸ rfl

theorem exec_privDmaRegisterWrite {off : Nat} {w : BitVec 64} {g : Hub} (hoff : off < 0x40) (hal : off % 4 = 0)
    (he : privWrite32 d ch off (w.toNat % 2 ^ 32) s.lp5x (accessWakes d fn s.hub) = (g, [])) :
    exec (.privDmaRegisterWrite fn d ch off 4 w) s = .next { s with hub := g } :=
  congrArg Host.Outcome.next (act_eq_of_no_writes ((privAccess_of_takes s.lp5x ht hch hoff hal).trans he))

end

theorem exec_privDmaComplete {d ch : Nat} {s : State} {e : Eff} (he : privComplete d ch s.lp5x s.hub = e) :
    exec (.privDmaComplete d ch) s = .next { s with hub := e.1, lp5x := e.2.foldl Memory.apply s.lp5x } := he ▸ rfl

/-- Settles O44: DMA_CTRL by whether the channel is BUSY, the end of an operation by its run, and an operand by its half. -/
theorem privilegedDma : Obligations.PrivilegedDma := by
  refine ⟨fun fn d ch v s ht hch => ?ctrl, fun d ch src dst len ctrl pat s hb => ?ends, fun fn d ch off v s ht hch => ?operand⟩
  case ctrl =>
    intro h x p b
    refine ⟨fun hb hgo hab => ?go, fun hb hab => ?counted, fun hb hab => ?aborted⟩
    case go =>
      intro st
      have hw := privCtrlWrite_of_go s.lp5x hb hgo hab
      exact ⟨fun hst => exec_dmaCtrlGo ht hch (hw.trans (if_pos hst)), fun hst => exec_dmaCtrlGo ht hch (hw.trans (if_neg (not_not.mpr hst)))⟩
    case counted =>
      exact exec_dmaCtrlGo ht hch ((privCtrlWrite_of_busy s.lp5x hb).trans (if_neg (by simp [hab])))
    case aborted =>
      have hw := (privCtrlWrite_of_busy s.lp5x hb).trans (if_pos hab)
      have hbusy : (getPriv b d ch).busy.isSome = true := (congrArg (·.busy.isSome) (getPriv_updPriv h d ch _)).trans hb
      obtain ⟨⟨src, dst, len, c, pat⟩, hop⟩ := Option.isSome_iff_exists.mp hbusy
      obtain ⟨n, hstop⟩ := getPriv_privStop hop s.lp5x 0x0411
      have hdone : (getPriv b d ch).done = x.done := (congrArg PrivDma.done (getPriv_updPriv h d ch _) :)
      refine ⟨exec_dmaCtrlAbort ht hch hw, _, exec_dmaCtrlAbort ht hch hw, ?_⟩
      rw [← hdone, hstop]
  case ends =>
    intro op g w own
    obtain ⟨hws, hregs⟩ := privComplete_of_busy hb s.lp5x
    refine ⟨_, exec_privDmaComplete rfl, rfl, congrArg (List.foldl _ _) hws, fun ho => ?own, fun hop => ?compare, hregs⟩
    case own =>
      obtain ⟨hbuf, hsrc, hdst, hs, hd⟩ := ho
      have hg : g = s.hub := by rw [← remoteRead_nil d s.lp5x s.hub, ← privGrans_of_own hsrc hdst len op]
      simp only [w, hg, privView_of_own hbuf hs hd]
    case compare =>
      have hnone : w.1 = [] := by simp only [w, hop, privRun_compare]
      exact congrArg (List.foldl Memory.apply s.lp5x) (hws.trans hnone)
  case operand =>
    intro h w put
    refine ⟨fun hb hlt hal => ?counted, fun hb => ?set⟩
    case counted =>
      have hoff : off = 0x00 ∨ off = 0x04 ∨ off = 0x08 ∨ off = 0x0C ∨ off = 0x10 := by omega
      refine exec_privDmaRegisterWrite ht hch (by omega) hal ?_
      rcases hoff with rfl | rfl | rfl | rfl | rfl <;> exact congrArg (·, []) (privOperand_of_busy hb _)
    case set =>
      have hput {f f' : PrivDma → PrivDma} (hlt : off < 0x40) (hal : off % 4 = 0)
          (hw : privWrite32 d ch off w s.lp5x h = (privOperand d ch f h, [])) (hf : ∀ x, f x = f' x) : put f' :=
        exec_privDmaRegisterWrite ht hch hlt hal (hw.trans (congrArg (·, []) ((privOperand_of_idle hb f).trans (updPriv_congr h d ch (hf _)))))
      have hw : w % 2 ^ 32 = w := Nat.mod_eq_of_lt (Nat.mod_lt _ (by decide))
      have hw' : w % 32 % 2 ^ 32 = w % 32 := Nat.mod_eq_of_lt (by omega)
      refine ⟨?_, ?_, ?_, ?_, ?_, ?_, ?_⟩ <;> rintro rfl
      all_goals exact hput (by decide) (by decide) rfl fun x => by simp only [setHalf, hw, hw', Bool.false_eq_true, if_true, if_false]

end Sys2Proof.Machine
end

section
/-!
What happens at a port leaves of the other ports and of its own fields: reports leave all of it, a send leaves all but the doze and the
instant of the last block, leaving UP all but what it stops (13 R340, R347-R349, R357, R373; 18 R465-R467).
-/

namespace Sys2Proof.Machine

/-! ### Reports and cuts -/

theorem getPort_of_ports {g h : Hub} (e : g.ports = h.ports) (q : Nat) : getPort g q = getPort h q := by
  rw [getPort, getPort, e]

@[simp] theorem linkEvent_ports (k r : Nat) (h : Hub) : (linkEvent k r h).ports = h.ports := by
  rw [linkEvent, postEvents_ports, fbkRecord_ports]

@[simp] theorem toIntegrator_ports (code r0 r1 : Nat) (h : Hub) : (toIntegrator code r0 r1 h).ports = h.ports := by
  unfold toIntegrator
  split
  · rfl
  · exact postEvent_ports _ _ _ _ h

@[simp] theorem chainEvent_ports (r : Nat) (h : Hub) : (chainEvent r h).ports = h.ports := toIntegrator_ports _ _ _ h

@[simp] theorem cutFrame_ports (k : Nat) (h : Hub) : (cutFrame k h).ports = h.ports := by
  unfold cutFrame
  split <;> rfl

@[simp] theorem trainSend_ports (n k : Nat) (h : Hub) : (trainSend n k h).ports = h.ports :=
  foldl_keeps Hub.ports (fun g _ => (rfl : (emitBlock k 0x0F _ _ g).ports = g.ports)) _ h

/-- A hub whose chain alone is set has its ports. -/
theorem getPort_setChain (h : Hub) (c : Chain) (q : Nat) : getPort { h with chain := c } q = getPort h q := rfl

@[simp] theorem getPort_linkEvent (k r : Nat) (h : Hub) (q : Nat) : getPort (linkEvent k r h) q = getPort h q :=
  getPort_of_ports (linkEvent_ports k r h) q

@[simp] theorem getPort_chainEvent (r : Nat) (h : Hub) (q : Nat) : getPort (chainEvent r h) q = getPort h q :=
  getPort_of_ports (chainEvent_ports r h) q

@[simp] theorem getPort_postEvents (cs : List Nat) (code r0 r1 : Nat) (h : Hub) (q : Nat) :
    getPort (postEvents cs code r0 r1 h) q = getPort h q := getPort_of_ports (postEvents_ports cs code r0 r1 h) q

@[simp] theorem getPort_complete (p : Pend) (st off r0 r1 : Nat) (h : Hub) (q : Nat) :
    getPort (complete p st off r0 r1 h) q = getPort h q := getPort_of_ports (complete_ports p st off r0 r1 h) q

@[simp] theorem getPort_faultReport (d cause unit reporter detail : Nat) (h : Hub) (q : Nat) :
    getPort (faultReport d cause unit reporter detail h) q = getPort h q :=
  getPort_of_ports (faultReport_ports d cause unit reporter detail h) q

@[simp] theorem getPort_cutFrame (k : Nat) (h : Hub) (q : Nat) : getPort (cutFrame k h) q = getPort h q :=
  getPort_of_ports (cutFrame_ports k h) q

@[simp] theorem getPort_trainSend (n k : Nat) (h : Hub) (q : Nat) : getPort (trainSend n k h) q = getPort h q :=
  getPort_of_ports (trainSend_ports n k h) q

/-! ### A change of state, and the start of training -/

@[simp] theorem getPort_linkGoes (k : Nat) (st : LinkState) (r : Nat) (h : Hub) :
    getPort (linkGoes k st r h) k = { getPort h k with state := st, stateTime := h.now } := by
  rw [linkGoes, getPort_linkEvent, getPort_updPort]

theorem getPort_linkGoes_ne (k : Nat) (st : LinkState) (r : Nat) (h : Hub) (q : Nat) (hq : q ≠ k) :
    getPort (linkGoes k st r h) q = getPort h q := by
  rw [linkGoes, getPort_linkEvent, getPort_updPort_ne h k q _ hq]

theorem getPort_enterSeek (k r : Nat) (h : Hub) : getPort (enterSeek k r h) k = { (getPort h k).unlocked with
    state := .seek, stateTime := h.now, t0 := h.now, lockAt := 0, txDoze := false, rxDoze := false } := by
  rw [enterSeek, getPort_trainSend, getPort_linkGoes, getPort_updPort]
  rfl

theorem getPort_enterSeek_ne (k r : Nat) (h : Hub) (q : Nat) (hq : q ≠ k) : getPort (enterSeek k r h) q = getPort h q := by
  rw [enterSeek, getPort_trainSend, getPort_linkGoes_ne _ _ _ _ _ hq, getPort_updPort_ne h k q _ hq]

/-! ### Sends -/

/-- A port without what its sending changes: the doze of its transmit direction, and the instant of its last block. -/
def Port.quiet (p : Port) : Port := { p with txDoze := false, lastTx := 0 }

theorem quiet_payloadDue (k : Nat) (h : Hub) (q : Nat) : (getPort (payloadDue k h) q).quiet = (getPort h q).quiet := by
  unfold payloadDue
  split
  · rw [getPort_trainSend]
    exact getPort_updPort_keeps Port.quiet h k q (f := fun p => { p with txDoze := false }) fun _ => rfl
  · rfl

@[simp] theorem quiet_sendBlock (k typ : Nat) (bytes data : Bytes) (h : Hub) (q : Nat) :
    (getPort (sendBlock k typ bytes data h) q).quiet = (getPort h q).quiet := by
  unfold sendBlock
  split
  · rfl
  · rw [emitBlock, getPort_send, getPort_updPort_keeps Port.quiet _ k q (f := fun p => { p with lastTx := h.now }) fun _ => rfl]
    exact quiet_payloadDue k h q

theorem getPort_payloadDue_ne (k : Nat) (h : Hub) (q : Nat) (hq : q ≠ k) : getPort (payloadDue k h) q = getPort h q := by
  unfold payloadDue
  split
  · rw [getPort_trainSend, getPort_updPort_ne h k q _ hq]
  · rfl

theorem getPort_sendBlock_ne (k typ : Nat) (bytes data : Bytes) (h : Hub) (q : Nat) (hq : q ≠ k) :
    getPort (sendBlock k typ bytes data h) q = getPort h q := by
  unfold sendBlock
  split
  · rfl
  · rw [emitBlock, getPort_send, getPort_updPort_ne _ k q _ hq, getPort_payloadDue_ne k h q hq]

@[simp] theorem quiet_sendMessage (k typ msg : Nat) (bytes : Bytes) (h : Hub) (q : Nat) :
    (getPort (sendMessage k typ msg bytes h) q).quiet = (getPort h q).quiet := quiet_sendBlock k typ _ _ h q

@[simp] theorem quiet_sendMgmt (k msg : Nat) (bytes : Bytes) (h : Hub) (q : Nat) :
    (getPort (sendMgmt k msg bytes h) q).quiet = (getPort h q).quiet := quiet_sendBlock k 0x87 _ _ h q

@[simp] theorem quiet_sendStatus (k : Nat) (entry : Bool) (h : Hub) (q : Nat) :
    ({ getPort (sendStatus k entry h) q with status := 0 } : Port).quiet = ({ getPort h q with status := 0 } : Port).quiet := by
  unfold sendStatus
  dsimp only
  split
  · have hs := quiet_sendMessage k 0x78 1 [Config.freeByte (takeFree h).1 &&& 7] (updPort (takeFree h).2 k fun p =>
      { p with status := (Config.freeByte (takeFree h).1 &&& 7).toNat }) q
    refine (congrArg (fun p : Port => ({ p with status := 0 } : Port)) hs).trans ?_
    exact getPort_updPort_keeps (fun p => ({ p with status := 0 } : Port).quiet) (takeFree h).2 k q
      (f := fun p => { p with status := (Config.freeByte (takeFree h).1 &&& 7).toNat }) fun _ => rfl
  · rfl

theorem getPort_sendStatus_ne (k : Nat) (entry : Bool) (h : Hub) (q : Nat) (hq : q ≠ k) :
    getPort (sendStatus k entry h) q = getPort h q := by
  unfold sendStatus
  dsimp only
  split
  · rw [sendMessage, getPort_sendBlock_ne _ _ _ _ _ q hq, getPort_updPort_ne _ k q _ hq]
    rfl
  · rfl

/-! ### The chain -/

@[simp] theorem quiet_sendEnum (k : Nat) (h : Hub) (q : Nat) : (getPort (sendEnum k h) q).quiet = (getPort h q).quiet :=
  quiet_sendMgmt k 1 _ _ q

@[simp] theorem quiet_chainLength (len : Nat) (h : Hub) (q : Nat) : (getPort (chainLength len h) q).quiet = (getPort h q).quiet := by
  unfold chainLength
  extract_lets c g₁ g₂
  have h₂ : getPort g₂ q = getPort h q := by
    simp only [g₂]
    split
    · rfl
    · exact getPort_chainEvent 1 g₁ q
  split
  · rw [h₂]
  · split
    · rw [quiet_sendMgmt, h₂]
    · rw [h₂]

@[simp] theorem quiet_enumOnward (h : Hub) (q : Nat) : (getPort (enumOnward h) q).quiet = (getPort h q).quiet := by
  unfold enumOnward
  dsimp only
  split
  · rfl
  · split
    · split
      · rfl
      · exact quiet_chainLength _ h q
    · split
      · exact quiet_sendEnum _ h q
      · split
        · rfl
        · exact quiet_chainLength _ h q
      · rfl

@[simp] theorem quiet_chainBreak (k : Nat) (h : Hub) (q : Nat) : (getPort (chainBreak k h) q).quiet = (getPort h q).quiet := by
  unfold chainBreak
  extract_lets c g₁ g₂
  have h₂ : getPort g₂ q = getPort h q := getPort_chainEvent 3 g₁ q
  split
  · split
    · rw [h₂]
    · split
      · rw [quiet_sendMgmt, h₂]
      · rw [h₂]
  · split
    · rw [getPort_chainEvent]
      rfl
    · rfl

/-! ### Leaving UP -/

/-- A port without what the end of its UP state changes: dozing, blocks returned, the camera frame in progress and the faults counted. -/
def Port.left (p : Port) : Port :=
  { p with txDoze := false, rxDoze := false, lastTx := 0, farHeld := false, camFrame := none, camFaults := 0 }

theorem left_of_quiet {p q : Port} (e : p.quiet = q.quiet) : p.left = q.left := (congrArg Port.left e :)

theorem left_camFault (k cause frame : Nat) (h : Hub) (q : Nat) : (getPort (camFault k cause frame h) q).left = (getPort h q).left := by
  rw [camFault, getPort_postEvents]
  exact getPort_updPort_keeps Port.left h k q (f := fun p => { p with camFaults := (p.camFaults + 1) % 2 ^ 32 }) fun _ => rfl

theorem left_camIncomplete (k : Nat) (h : Hub) (q : Nat) : (getPort (camIncomplete k h) q).left = (getPort h q).left := by
  unfold camIncomplete
  have hn := getPort_updPort_keeps Port.left h k q (f := fun p => { p with camFrame := none }) fun _ => rfl
  split
  · rfl
  · dsimp only
    split
    · rfl
    · split
      · exact hn
      · rw [left_camFault, hn]

/-- Of a port that leaves UP its setup, its state and its requests stay as they were. -/
theorem left_leaveUp (k : Nat) (h : Hub) (q : Nat) : (getPort (leaveUp k h) q).left = (getPort h q).left := by
  unfold leaveUp
  extract_lets g₁ g₂
  have h₁ : (getPort g₁ q).left = (getPort h q).left := by
    rw [← getPort_cutFrame k h q]
    exact getPort_updPort_keeps Port.left (cutFrame k h) k q
      (f := fun p => { p with farHeld := false, rxDoze := false, txDoze := false }) fun _ => rfl
  have h₂ : (getPort g₂ q).left = (getPort h q).left := (left_camIncomplete k g₁ q).trans h₁
  split
  · exact (left_of_quiet (quiet_chainBreak k g₂ q)).trans h₂
  · exact h₂

end Sys2Proof.Machine
end

section
/-!
The LNK_ commands (13 R330, R331, R343, R349, R356, R357, R365-R372; log entries 52, 53, 81).
-/

namespace Sys2Proof.Machine

/-! ### LNK_CONFIG -/

/-- The port that LNK_CONFIG writes, before its state moves (13 R366). -/
def lnkSet (c : Cmd) (p : Port) : Port :=
  { p with
    kind := arg8 c 18, options := arg8 c 19, lanes := arg8 c 20, dpRate := arg8 c 21, dsiRate := arg16 c 22
    rateTx := arg8 c 24, rateRx := arg8 c 25, dozeIdle := if arg16 c 26 = 0 then 100 else arg16 c 26
    fomMin := if arg8 c 28 = 0 then 96 else arg8 c 28, camOwner := arg16 c 30 }

/-- A port with nothing but the fields that LNK_CONFIG sets. -/
def Port.setup (p : Port) : Port :=
  { kind := p.kind, options := p.options, lanes := p.lanes, dpRate := p.dpRate, dsiRate := p.dsiRate, rateTx := p.rateTx
    rateRx := p.rateRx, dozeIdle := p.dozeIdle, fomMin := p.fomMin, camOwner := p.camOwner }

theorem setup_leaveUp (k : Nat) (h : Hub) : (getPort (leaveUp k h) k).setup = (getPort h k).setup :=
  (congrArg Port.setup (left_leaveUp k h k) :)

theorem setup_enterSeek (k r : Nat) (h : Hub) : (getPort (enterSeek k r h) k).setup = (getPort h k).setup := by
  rw [getPort_enterSeek]
  rfl

theorem setup_enumOnward (h : Hub) (k : Nat) : (getPort (enumOnward h) k).setup = (getPort h k).setup :=
  (congrArg Port.setup (quiet_enumOnward h k) :)

theorem setup_linkGoes (k : Nat) (st : LinkState) (r : Nat) (h : Hub) :
    (getPort (linkGoes k st r h) k).setup = (getPort h k).setup := by
  rw [getPort_linkGoes]
  rfl

theorem setup_dpTrain (k r : Nat) (cfg : Nat × Nat) (h : Hub) : (getPort (dpTrain k r cfg h) k).setup = (getPort h k).setup := by
  unfold dpTrain
  split
  · exact setup_linkGoes k .down r h
  · rw [setup_linkGoes, getPort_updPort]
    rfl

/-- Whatever becomes of its state, the port has the fields of the command. -/
theorem setup_lnkApply (k : Nat) (c : Cmd) (h : Hub) : (getPort (lnkApply k c h) k).setup = (lnkSet c (getPort h k)).setup := by
  have hg : (getPort (updPort h k (lnkSet c)) k).setup = (lnkSet c (getPort h k)).setup := by rw [getPort_updPort]
  have hleft (b : Bool) :
      (getPort (if b then leaveUp k (updPort h k (lnkSet c)) else updPort h k (lnkSet c)) k).setup = (lnkSet c (getPort h k)).setup := by
    split
    · exact (setup_leaveUp k _).trans hg
    · exact hg
  unfold lnkApply
  extract_lets old g p
  split
  · split
    · exact hg
    · rw [setup_linkGoes, getPort_updPort]
      exact hleft _
  · split
    · split
      · exact (setup_enterSeek k 1 g).trans hg
      · split
        · exact (setup_enterSeek k 1 _).trans (hleft _)
        · split
          · exact (setup_enumOnward g k).trans hg
          · exact hg
    · split
      · split
        · exact hg
        · split
          · exact (setup_dpTrain k 1 _ g).trans hg
          · exact (setup_linkGoes k .alone 1 g).trans hg
      · have hu : (getPort (updPort g k fun p => { p with ulps := !boundRuns g k }) k).setup = (lnkSet c (getPort h k)).setup := by
          rw [getPort_updPort]
          exact hg
        split
        · exact hu
        · exact (setup_linkGoes k .up 1 _).trans hu

section
variable {k : Nat} {c : Cmd} {h : Hub}

theorem lnkApply_off (hk : arg8 c 18 = 0) (ho : (getPort h k).kind ≠ 0) : (getPort (lnkApply k c h) k).state = .off := by
  simp [lnkApply, hk, ho]

theorem lnkApply_seek (ht : isTv k = true) (hk : arg8 c 18 ≠ 0) (ho : (getPort h k).kind = 0) :
    (getPort (lnkApply k c h) k).state = .seek := by
  simp [lnkApply, hk, ho, ht, getPort_enterSeek]

theorem lnkApply_alone (hd : isDp k = true) (hk : arg8 c 18 ≠ 0) (ho : (getPort h k).kind = 0) (hs : (getPort h k).sink = false) :
    (getPort (lnkApply k c h) k).state = .alone := by
  have ht : isTv k = false := by simp [isTv, isDp] at hd ⊢; omega
  simp [lnkApply, hk, ho, ht, hd, hs]

theorem lnkApply_dsi (ht : isTv k = false) (hd : isDp k = false) (hk : arg8 c 18 ≠ 0) (ho : (getPort h k).kind ≠ arg8 c 18) :
    (getPort (lnkApply k c h) k).state = .up := by
  simp [lnkApply, hk, ho, ht, hd]

/-- A command that changes neither kind nor rate changes no state. -/
theorem lnkApply_same (ho : (getPort h k).kind = arg8 c 18) (htx : (getPort h k).rateTx = arg8 c 24)
    (hrx : (getPort h k).rateRx = arg8 c 25) : (getPort (lnkApply k c h) k).state = (getPort h k).state := by
  have hstate : (getPort (enumOnward (updPort h k (lnkSet c))) k).state = (getPort h k).state := by
    have he : (getPort (enumOnward (updPort h k (lnkSet c))) k).state = (getPort (updPort h k (lnkSet c)) k).state :=
      (congrArg Port.state (quiet_enumOnward _ k) :)
    rw [he, getPort_updPort]
    rfl
  by_cases hk : arg8 c 18 = 0
  · simp [lnkApply, ho, hk]
  · by_cases ht : isTv k = true
    · simp only [lnkApply, getPort_updPort, ho, htx, hrx, hk, ht, ↓reduceIte, ne_eq, not_true_eq_false, decide_false, Bool.or_self,
        Bool.false_eq_true]
      split
      · exact hstate
      · rw [getPort_updPort]
    · by_cases hd : isDp k = true
      · simp [lnkApply, ho, hk, ht, hd]
      · simp [lnkApply, ho, hk, ht, hd]

end

/-! ### The other commands -/

/-- LNK_EQ on a lane: its operations by number (13 R343, R344, R367). -/
theorem eqLane_eq (c : Cmd) (x : Lane) : eqLane c x =
    if arg8 c 19 = 0 then { x with stale := 4, fir := [arg8 c 20, arg8 c 21, arg8 c 22] }
    else if arg8 c 19 = 1 then { x with
      stale := 4, fixed := true, adapting := false, ctle := arg8 c 23, dfe := (List.range 4).map fun i => signed 8 (arg8 c (24 + i)) }
    else { x with stale := 4, fixed := false, adapting := true } := by
  unfold eqLane
  split
  next h0 => rw [if_pos h0]
  next h1 => rw [if_neg (by omega), if_pos h1]
  next h0 h1 => rw [if_neg h0, if_neg h1]

section
variable {c : Cmd} {h : Hub} {ok : Nat → Bool} (hp : ∀ k ∈ portCks h c ok, k.bad = false)
include hp

/-- PORT is one of the codes of a port that the command is for. -/
theorem port_of_portCks : arg8 c 17 < 8 ∧ arg8 c 17 ≠ 3 ∧ ok (arg8 c 17) = true := by
  have hk := hp
  simp only [portCks, ck, List.forall_mem_cons, decide_eq_true_eq, Bool.not_eq_false', Bool.and_eq_true, Bool.and_eq_false_iff] at hk
  obtain ⟨-, ⟨h8, h3⟩, hok, -⟩ := hk
  refine ⟨h8, h3, ?_⟩
  rcases hok with h | h
  · simp [h8, h3] at h
  · simpa using h

/-- The code of the port that the command names. -/
theorem portArg_mod : portArg c % 8 = arg8 c 17 := by
  have h8 := (port_of_portCks hp).1
  rw [portArg]
  omega

end

/-- A port that LNK_POWER, LNK_EQ, LNK_LOOPBACK or LNK_CAMERA takes is a Traverse port. -/
theorem isTv_of_portCks {c : Cmd} {h : Hub} (hp : ∀ k ∈ portCks h c (fun p => p ≥ 4), k.bad = false) : isTv (portArg c) = true := by
  have hk : arg8 c 17 ≥ 4 := by simpa using (port_of_portCks hp).2.2
  rw [isTv, portArg_mod hp]
  exact decide_eq_true hk

theorem carries_of_up {h : Hub} {k : Nat} (ht : isTv k = true) (hu : (getPort h k).state = .up) : carries h k = true := by
  simp [carries, ht, hu]

theorem carries_of_not_up {h : Hub} {k : Nat} (hu : (getPort h k).state ≠ .up) : carries h k = false := by
  simp [carries, hu]

/-- The port for which LNK_CAMERA sets a stream: at once where none runs, and else from the next frame on (13 R357). -/
def camSet (cfg : CamCfg) (p : Port) : Port :=
  if p.cam.isSome then { p with camNext := some cfg } else { p with cam := some cfg, camK := 0 }

/-- The port whose stream has stopped (13 R357). -/
def camClear (p : Port) : Port := { p with cam := none, camNext := none, camFrame := none, camK := 0 }

theorem getPort_camStop (k : Nat) (h : Hub) : getPort (camStop k false h) k = camClear (getPort (camComplete k h) k) := by
  simp only [camStop, Bool.false_eq_true, if_false, getPort_updPort]
  rfl

/-- A stream that LNK_CAMERA starts has a first target, which is a surface (13 R356, R369). -/
theorem camCfg_of_accepts {c : Cmd} {s : State} (ha : Accepts Machine.lnkCamera c s) (hon : arg8 c 18 = 1) :
    ∃ cfg, camCfg (fetched c.ctx s.hub) c = some cfg ∧ cfg.lineNs = arg32 c 20 := by
  have hc := ha.checks_pass
  simp only [Machine.lnkCamera, hon, decide_true, if_true, List.forall_mem_append] at hc
  obtain ⟨⟨⟨-, hcks⟩, -⟩, ⟨-, htargets⟩, -⟩ := hc
  have hn : 1 ≤ arg8 c 19 := by
    simp [ck] at hcks
    omega
  have hmem : ((camTargets c).headD 0, 0) ∈ (camTargets c).zipIdx := by
    have hr : camTargets c = arg32 c (40 + 4 * 0) :: ((List.range (min 4 (arg8 c 19))).map fun i => arg32 c (40 + 4 * i)).tail := by
      obtain ⟨n, hm⟩ : ∃ n, min 4 (arg8 c 19) = n + 1 := ⟨min 4 (arg8 c 19) - 1, by omega⟩
      rw [camTargets, hm, List.range_succ_eq_map]
      rfl
    rw [hr]
    exact List.mem_cons_self
  obtain ⟨e, he⟩ : ∃ e, surfOf (fetched c.ctx s.hub) ((camTargets c).headD 0) = some e := by
    refine surfOf_of_handleCks (off := 40) fun k hk => htargets k (List.mem_flatMap.mpr ⟨_, hmem, ?_⟩)
    exact List.mem_append_left _ (List.mem_append_left _ hk)
  simp only [camCfg, he]
  exact ⟨_, rfl, rfl⟩

/-- What a status block leaves of its port: all but the status that it sent, the doze and the instant. -/
theorem getPort_sendStatus_keeps {γ : Type} (F : Port → γ) (hF : ∀ p : Port, F ({ p with status := 0 } : Port).quiet = F p) (k : Nat)
    (entry : Bool) (h : Hub) (q : Nat) : F (getPort (sendStatus k entry h) q) = F (getPort h q) := by
  rw [← hF, quiet_sendStatus, hF]

/-- Settles O45: each command's effect on its port, under what its checks have found. -/
theorem linkCommands : Obligations.LinkCommands := by
  intro c s
  refine ⟨fun ha => ?config, fun ha => ?query, fun ha => ?eq, fun ha => ?power, fun ha => ?loopback, fun ha => ?camera⟩
  case config =>
    have hm : portArg c % 8 = arg8 c 17 := portArg_mod fun k hk => ha.checks_pass k
      (List.mem_append_left _ (List.mem_append_left _ (List.mem_append_left _ hk)))
    have hset := setup_lnkApply (portArg c) c (fetched c.ctx s.hub)
    refine ⟨lnkApply (portArg c) c (fetched c.ctx s.hub), ha.next_done rfl, (congrArg Port.kind hset :), (congrArg Port.options hset :),
      (congrArg Port.lanes hset :), (congrArg Port.dpRate hset :), (congrArg Port.dsiRate hset :), (congrArg Port.rateTx hset :),
      (congrArg Port.rateRx hset :), (congrArg Port.dozeIdle hset :), (congrArg Port.fomMin hset :), (congrArg Port.camOwner hset :),
      lnkApply_off, fun h4 => lnkApply_seek ?_, fun h2 => lnkApply_alone ?_, fun h2 => lnkApply_dsi ?_ ?_, lnkApply_same⟩
    all_goals simp only [isTv, isDp, hm, decide_eq_true_eq, decide_eq_false_iff_not]; omega
  case query => exact ha.next_done rfl
  case eq =>
    have hlane (l : Nat) (x : Lane) : (if bit (arg8 c 18) l then eqLane c x else x) =
        if (arg8 c 18).testBit l = false then x
        else if arg8 c 19 = 0 then { x with stale := 4, fir := [arg8 c 20, arg8 c 21, arg8 c 22] }
        else if arg8 c 19 = 1 then { x with
          stale := 4, fixed := true, adapting := false, ctle := arg8 c 23, dfe := (List.range 4).map fun i => signed 8 (arg8 c (24 + i)) }
        else { x with stale := 4, fixed := false, adapting := true } := by
      rw [eqLane_eq]
      cases hb : (arg8 c 18).testBit l <;> simp [bit, hb]
    refine ha.next_done (congrArg okRes (congrArg (updPort _ _) (funext fun p => ?_)))
    dsimp only
    rw [hlane, hlane]
  case power =>
    have ht : isTv (portArg c) = true := isTv_of_portCks fun k hk => ha.checks_pass k (List.mem_append_left _ hk)
    refine ⟨fun h2 hu => ha.next_done ?_, fun h2 hu => ha.next_done ?_, fun h0 hu => ha.next_done ?_, fun h0 hu => ha.next_later ?_⟩
    · simp only [lnkPower, h2, if_true, enterDeep, goDeep, carries_of_up ht hu]
      rfl
    · simp only [lnkPower, h2, if_true, enterDeep, carries_of_not_up hu, Bool.false_eq_true, if_false]
    · simp [lnkPower, h0, hu]
    · simp only [lnkPower, h0, beq_iff_eq, hu, if_false]
      rfl
  case loopback =>
    refine ⟨fun h3 => ha.next_later ?_, fun h3 => ha.next_later ?_⟩
    · simp only [lnkLoopback, h3, if_true]
    · simp only [lnkLoopback, h3, if_false]
      rfl
  case camera =>
    refine ⟨fun h0 => ?_, fun h1 => ?_⟩
    · have hp {γ : Type} (F : Port → γ) (hF : ∀ p : Port, F ({ p with status := 0 } : Port).quiet = F p) :
          F (getPort (sendStatus (portArg c) false (camStop (portArg c) false (fetched c.ctx s.hub))) (portArg c)) =
            F (camClear (getPort (camComplete (portArg c) (fetched c.ctx s.hub)) (portArg c))) := by
        rw [getPort_sendStatus_keeps F hF, getPort_camStop]
      refine ⟨sendStatus (portArg c) false (camStop (portArg c) false (fetched c.ctx s.hub)), ha.next_done ?_, hp Port.cam fun _ => rfl,
        hp Port.camNext fun _ => rfl, hp Port.camFrame fun _ => rfl, hp Port.camK fun _ => rfl⟩
      simp only [Machine.lnkCamera, h0, if_true]
    · obtain ⟨cfg, hcfg, hns⟩ := camCfg_of_accepts ha h1
      have hrun : Machine.lnkCamera.run c (taken 0x0D05 c s.hub) s.lp5x (fetched c.ctx s.hub) =
          okRes (sendStatus (portArg c) false (updPort (fetched c.ctx s.hub) (portArg c) (camSet cfg)))
            (ceilDiv (1000 * cfg.wLine) (arg32 c 20)) := by
        simp only [Machine.lnkCamera, h1, hcfg, hns, one_ne_zero, if_false]
        rfl
      refine ⟨cfg, sendStatus (portArg c) false (updPort (fetched c.ctx s.hub) (portArg c) (camSet cfg)), hcfg, ha.next_done hrun,
        fun hn => ⟨?_, ?_, ?_⟩, fun hs => ⟨?_, ?_, ?_⟩, ?_, fun q hq => ?_⟩
      case refine_8 => rw [getPort_sendStatus_ne _ _ _ q hq, getPort_updPort_ne _ _ q _ hq]
      case refine_7 =>
        rw [getPort_sendStatus_keeps Port.camFrame fun _ => rfl, getPort_updPort]
        unfold camSet
        split <;> rfl
      case refine_1 => rw [getPort_sendStatus_keeps Port.cam fun _ => rfl, getPort_updPort, camSet, hn]; rfl
      case refine_2 => rw [getPort_sendStatus_keeps Port.camK fun _ => rfl, getPort_updPort, camSet, hn]; rfl
      case refine_3 => rw [getPort_sendStatus_keeps Port.camNext fun _ => rfl, getPort_updPort, camSet, hn]; rfl
      case refine_4 => rw [getPort_sendStatus_keeps Port.cam fun _ => rfl, getPort_updPort, camSet, if_pos hs]
      case refine_5 => rw [getPort_sendStatus_keeps Port.camK fun _ => rfl, getPort_updPort, camSet, if_pos hs]
      case refine_6 => rw [getPort_sendStatus_keeps Port.camNext fun _ => rfl, getPort_updPort, camSet, if_pos hs]

end Sys2Proof.Machine
end

section
/-!
Requests that wait at a port: LNK_I2C, LNK_AUX, LNK_BACKLIGHT and LNK_DSI_CMD, their answers and their time bounds (13 R352, R362, R363,
R365, R370, R371; log entries 53, 54).
-/

namespace Sys2Proof.Machine

/-! ### What goes out first -/

/-- A block for a port whose receive direction does not doze changes no doze. -/
theorem streamHeard_of_awake {h : Hub} {k : Nat} (hd : (getPort h k).rxDoze = false) : streamHeard k h = h := by
  simp [streamHeard, hd]

theorem sendI2c_cons {h : Hub} {k : Nat} {r : I2cReq} {rest : List I2cReq} (hi : (getPort h k).i2c = r :: rest) :
    sendI2c k h = sendMessage k 0x78 2 r.msg h := by
  simp only [sendI2c, hi]

theorem sendAux_cons {h : Hub} {k : Nat} {a : Pend × Nat × Bytes} {rest : List (Pend × Nat × Bytes)} (hi : (getPort h k).aux = a :: rest) :
    sendAux k h = send (.bus k 2 a.2.2) h := by
  simp only [sendAux, hi]

/-- The I2C request that a command makes, with the ID that it takes (13 R352, R370). -/
def i2cReqOf (c : Cmd) (p : Pend) (id : Nat) : I2cReq :=
  { cmd := p, id := id, buf := arg64 c 56, msg := [id, arg8 c 18, arg8 c 20, arg8 c 21, arg8 c 19, 0, 0, 0].map (BitVec.ofNat 8) ++
      argBytes c 24 (arg8 c 20) }

theorem i2cReqOf_msg (c : Cmd) (p : Pend) (id : Nat) : (i2cReqOf c p id).msg =
    leBytes 1 id ++ leBytes 1 (arg8 c 18) ++ leBytes 1 (arg8 c 20) ++ leBytes 1 (arg8 c 21) ++ leBytes 1 (arg8 c 19) ++ leBytes 3 0 ++
      argBytes c 24 (arg8 c 20) := rfl

theorem lnkI2c_run (c : Cmd) (p : Pend) (m : List Host.Cell) (h : Hub) :
    let k := portArg c
    let x := getPort h k
    let g := updPort h k fun x => { x with i2cId := (x.i2cId + 1) % 256, i2c := x.i2c ++ [i2cReqOf c p (getPort h k).i2cId] }
    Machine.lnkI2c.run c p m h = laterRes (if x.i2c = [] then sendMessage k 0x78 2 (i2cReqOf c p x.i2cId).msg g else g) := by
  extract_lets k x g
  have hrun : Machine.lnkI2c.run c p m h = laterRes (if x.i2c.isEmpty then sendI2c k g else g) := rfl
  rw [hrun]
  by_cases hi : x.i2c = []
  · have hg : (getPort g k).i2c = [i2cReqOf c p x.i2cId] := by
      simp only [g, getPort_updPort]
      exact congrArg (· ++ _) hi
    rw [sendI2c_cons hg, if_pos hi, hi]
    rfl
  · rw [if_neg hi, if_neg (by simpa using hi)]

theorem lnkAux_run (c : Cmd) (p : Pend) (m : List Host.Cell) (h : Hub) :
    let k := portArg c
    let req := leBytes 1 (arg8 c 18) ++ leBytes 1 (arg8 c 19) ++ leBytes 4 (arg32 c 20) ++
      (if arg8 c 18 = 1 then argBytes c 24 (arg8 c 19) else [])
    let g := updPort h k fun x => { x with aux := x.aux ++ [(p, arg8 c 18, req)] }
    Machine.lnkAux.run c p m h = laterRes (if (getPort h k).aux = [] then send (.bus k 2 req) g else g) := by
  extract_lets k req g
  have hrun : Machine.lnkAux.run c p m h = laterRes (if (getPort h k).aux.isEmpty then sendAux k g else g) := rfl
  rw [hrun]
  by_cases hi : (getPort h k).aux = []
  · have hg : (getPort g k).aux = [(p, arg8 c 18, req)] := by
      simp only [g, getPort_updPort]
      exact congrArg (· ++ _) hi
    rw [sendAux_cons hg, if_pos hi, hi]
    rfl
  · rw [if_neg hi, if_neg (by simpa using hi)]

/-- A row that acts on the hub alone, by what it makes of the hub. -/
theorem next_onHub_congr {f : Hub → Hub} {s : State} {g : Hub} (e : f s.hub = g) :
    (.next (onHub f s) : Host.Outcome State Fault Refusal) = .next { s with hub := g } := by
  rw [← e]
  rfl

/-! ### Answers -/

/-- The response to the first request that waits (13 R352, R370). -/
theorem i2cRsp_first {k : Nat} {data : Bytes} {h : Hub} {r : I2cReq} {rest : List I2cReq} (hc : carries h k = true)
    (hd : (getPort h k).rxDoze = false) (hi : (getPort h k).i2c = r :: rest) (hid : msgN data 0 1 = r.id) :
    i2cRsp k data h =
      sendI2c k (completeOk r.cmd (msgN data 1 1 + 256 * msgN data 2 1 + 65536 * msgN data 3 1) 0
        (if ((data.drop 8).take (msgN data 3 1)).isEmpty || (getCtx h r.cmd.ctx).epoch ≠ r.cmd.epoch then
            updPort h k fun p => { p with i2c := rest }
          else ctxWrite r.cmd.ctx r.buf ((data.drop 8).take (msgN data 3 1)) (updPort h k fun p => { p with i2c := rest }))) := by
  simp only [i2cRsp, hc, streamHeard_of_awake hd, hi, hid, Bool.not_true, Bool.false_eq_true, if_false, ne_eq, not_true_eq_false]
  rfl

theorem auxReply_first {k : Nat} {data : Bytes} {h : Hub} {q : Pend} {op : Nat} {b : Bytes} {rest : List (Pend × Nat × Bytes)}
    (hi : (getPort h k).aux = (q, op, b) :: rest) :
    auxReply k data h =
      if msgN data 0 1 = 2 && (getPort h k).auxTries < 7 then
        send (.bus k 2 b) (updPort h k fun x => { x with auxTries := x.auxTries + 1 })
      else sendAux k (completeOk q (msgN data 0 1) (if op = 0 then msgN data 1 8 else 0)
        (updPort h k fun x => { x with aux := rest, auxTries := 0 })) := by
  have hg : (getPort (updPort h k fun x => { x with auxTries := x.auxTries + 1 }) k).aux = (q, op, b) :: rest := by
    rw [getPort_updPort]
    exact hi
  rw [auxReply]
  simp only [hi]
  rw [sendAux_cons hg]

/-! ### Time bounds -/

@[simp] theorem getPort_at_ (t : Nat) (h : Hub) (q : Nat) : getPort (at_ t h) q = getPort h q := rfl

/-- Settles O46: the commands that wait, each answer to the first that waits, and each time bound. -/
theorem linkRequests : Obligations.LinkRequests := by
  refine ⟨fun c s => ⟨fun ha => ?i2c, fun ha => ?aux, fun ha => ?light, fun ha => ?dsi⟩, fun k data s => ?answers⟩
  case i2c => exact ha.next_later (lnkI2c_run c _ _ _)
  case aux => exact ha.next_later (lnkAux_run c _ _ _)
  case light =>
    refine ⟨fun hb => ha.next_later ?_, fun hb => ?_⟩
    · simp only [Machine.lnkBacklight, boundRuns, hb, if_true]
    · refine (ha.next_later (g := sendLight (portArg c) (arg16 c 18) (arg8 c 20) (taken 0x0D08 c s.hub) (fetched c.ctx s.hub)) ?_).trans rfl
      simp only [Machine.lnkBacklight, boundRuns, hb, Bool.false_eq_true, if_false]
  case dsi =>
    intro k read bs p
    have hrun : Machine.lnkDsiCmd.run c p s.lp5x (fetched c.ctx s.hub) =
        if portBusy (fetched c.ctx s.hub) k then
          laterRes (updPort (fetched c.ctx s.hub) k fun x => { x with dsiWait := x.dsiWait ++ [(bs, read, p)] })
        else laterRes (sendDsi k bs read p (fetched c.ctx s.hub)) := rfl
    refine ⟨fun hb => ha.next_later (hrun.trans (if_pos hb)), fun hb hr => ?_, fun hb hr => ?_⟩
    all_goals
      refine (ha.next_later (hrun.trans (if_neg (by rw [hb]; exact Bool.false_ne_true)))).trans ?_
      rw [sendDsi, hr]
      rfl
  case answers =>
    refine ⟨fun r rest hc hd hi hid => ?_, fun q op b rest hi h2 h7 => ?_, fun q op b rest hi h27 => ?_, fun q rest hi => ?_,
      fun t q op b rest hf hi => ?_, fun t r rest hf hi => ?_, fun t q rest hf hi => ?_, fun t q rest hf hi => ?_, fun t w q hf ht hq => ?_⟩
    · refine ⟨fun hm => next_onHub_congr ((i2cRsp_first hc hd hi hid).trans ?_), fun ⟨hb, he⟩ =>
        next_onHub_congr ((i2cRsp_first hc hd hi hid).trans ?_)⟩
      · rw [if_pos]
        · rfl
        · by_contra hn
          exact hm (by simpa [msgN] using hn)
      · rw [if_neg]
        · rfl
        · simpa [msgN] using And.intro hb he
    · refine next_onHub_congr ((auxReply_first hi).trans (if_pos ?_))
      exact (Bool.and_eq_true _ _).mpr ⟨decide_eq_true h2, decide_eq_true h7⟩
    · refine next_onHub_congr ((auxReply_first hi).trans (if_neg ?_))
      simp only [Bool.and_eq_true, decide_eq_true_eq]
      intro ⟨h2, h7⟩
      exact h27.elim (fun h => h h2) fun h => by omega
    · refine next_onHub_congr ?_
      rw [dsiResponse, hi]
    all_goals
      refine next_onHub_congr ?_
      simp only [commandTimeout, getPort_at_, *]

end Sys2Proof.Machine
end

section
/-!
Changes of a die's power state and entries given up leave the hub outside its dies and reports; an entry given up leaves outputs to run on
(15 R394-R397, R419).
-/

namespace Sys2Proof.Machine

theorem rest_toIntegrator (code r0 r1 : Nat) (h : Hub) : (toIntegrator code r0 r1 h).rest = h.rest := by
  unfold toIntegrator
  split
  · rfl
  · exact rest_postEvent _ _ _ _ h

theorem rest_pwrGoes (d : Nat) (p : PwrState) (h : Hub) : (pwrGoes d p h).rest = h.rest := by
  rw [pwrGoes, rest_toIntegrator, rest_intEvent]
  rfl

theorem rest_runDone (d : Nat) (h : Hub) : (runDone d h).rest = h.rest := by
  unfold runDone
  refine (foldl_keeps Hub.rest (fun g p => ?_) _ _).trans rfl
  split
  · rfl
  · exact rest_complete p 0 255 0 0 g

/-- The hub outside its outputs and what reports change. -/
def Hub.restOuts (h : Hub) : Hub := { h.rest with outs := [] }

theorem restOuts_of_rest {g h : Hub} (e : g.rest = h.rest) : g.restOuts = h.restOuts := (congrArg Hub.restOuts e :)

/-- An entry given up touches dies, outputs and reports alone. -/
theorem restOuts_abortEntry (d kind index : Nat) (h : Hub) : (abortEntry d kind index h).restOuts = h.restOuts := by
  unfold abortEntry
  split
  · rfl
  · extract_lets g₁ held g₂ g₃
    have h₂ : g₂.restOuts = h.restOuts := foldl_keeps Hub.restOuts (fun g o => (rfl : (updOut g o _).restOuts = g.restOuts)) _ g₁
    have h₃ : g₃.restOuts = h.restOuts := by
      refine (restOuts_of_rest (rest_runDone d _)).trans ((restOuts_of_rest (rest_fbkRecord _ _ _ _ _ _)).trans ?_)
      exact (restOuts_of_rest (rest_pwrGoes d .run g₂)).trans h₂
    split
    · exact h₃
    · extract_lets g₄
      exact (restOuts_of_rest (rest_complete _ _ _ _ _ g₄)).trans h₃

end Sys2Proof.Machine
end

section
/-!
The training of a Traverse port (13 R339-R345; log entries 49, 52, 81).
-/

namespace Sys2Proof.Machine

/-! ### The best of the codes tried (13 R344) -/

/-- One more code tried: it is taken where it is the first, or has a higher figure. -/
def codeStep (b : Nat × Nat × Nat) (t : (Nat × Nat) × Nat) : Nat × Nat × Nat :=
  if t.2 = 0 || t.1.1 > b.2.1 then (t.2, t.1.1, t.1.2) else b

theorem bestCode_eq (l : List (Nat × Nat)) : bestCode l = l.zipIdx.foldl codeStep (0, 0, 0) := rfl

/-- Codes with no higher figure change nothing. -/
theorem codeStep_foldl_le (l : List (Nat × Nat)) (i : Nat) (b : Nat × Nat × Nat) (hl : ∀ t ∈ l, t.1 ≤ b.2.1) :
    (l.zipIdx (i + 1)).foldl codeStep b = b := by
  induction l generalizing i with
  | nil => rfl
  | cons t l ih =>
    have ht : codeStep b (t, i + 1) = b := by
      have hle := hl t List.mem_cons_self
      simp [codeStep, hle]
    rw [List.zipIdx_cons, List.foldl_cons, ht]
    exact ih (i + 1) fun x hx => hl x (List.mem_cons_of_mem t hx)

/-- Codes below a figure leave what is taken below it. -/
theorem codeStep_foldl_lt (l : List ((Nat × Nat) × Nat)) (f : Nat) (b : Nat × Nat × Nat) (hb : b.2.1 < f) (hl : ∀ t ∈ l, t.1.1 < f) :
    (l.foldl codeStep b).2.1 < f := by
  refine List.foldlRecOn l codeStep (motive := fun x => x.2.1 < f) hb fun x hx t ht => ?_
  rw [codeStep]
  split
  · exact hl t ht
  · exact hx

/-- The first of the codes with the highest figure is the one kept. -/
theorem bestCode_of_first {l : List (Nat × Nat)} {n : Nat} {t : Nat × Nat} (ht : l[n]? = some t) (hle : ∀ x ∈ l, x.1 ≤ t.1)
    (hlt : ∀ i x, i < n → l[i]? = some x → x.1 < t.1) : bestCode l = (n, t.1, t.2) := by
  obtain ⟨hn, hget⟩ := List.getElem?_eq_some_iff.mp ht
  have hsplit : l = l.take n ++ t :: l.drop (n + 1) := by rw [← hget, List.getElem_cons_drop, List.take_append_drop]
  have hlen : (l.take n).length = n := List.length_take_of_le hn.le
  have hbefore : n = 0 ∨ (((l.take n).zipIdx).foldl codeStep (0, 0, 0)).2.1 < t.1 := by
    refine (Nat.eq_zero_or_pos n).imp_right fun hpos => codeStep_foldl_lt _ _ _ ?_ fun x hx => ?_
    · exact lt_of_le_of_lt (Nat.zero_le _) (hlt 0 l[0] hpos (List.getElem?_eq_getElem _))
    · obtain ⟨i, hi, hx⟩ := List.mem_iff_getElem.mp (List.fst_mem_of_mem_zipIdx hx)
      have hin : i < n := hlen ▸ hi
      refine hlt i x.1 hin ?_
      rw [← hx, List.getElem_take, List.getElem?_eq_getElem]
  have hafter : ∀ x ∈ l.drop (n + 1), x.1 ≤ t.1 := fun x hx => hle x (List.mem_of_mem_drop hx)
  rw [bestCode_eq, hsplit, List.zipIdx_append, List.foldl_append, hlen, List.zipIdx_cons, List.foldl_cons]
  have hstep (b : Nat × Nat × Nat) (hb : n = 0 ∨ b.2.1 < t.1) : codeStep b (t, 0 + n) = (n, t.1, t.2) := by
    rw [codeStep, if_pos]
    · rw [Nat.zero_add]
    · simpa using hb
  rw [hstep _ hbefore]
  exact codeStep_foldl_le _ (0 + n) _ hafter

/-- The tries of a LANE_ADAPTED row, up to the 16 codes that there are. -/
theorem tries_get {foms : List (BitVec 8)} {dfes : List (BitVec 32)} (hlen : foms.length ≤ 16) (i : Nat) :
    (((foms.zip dfes).take 16).map fun t => (t.1.toNat, t.2.toNat))[i]? =
      ((foms.zip dfes)[i]?).map fun t => (t.1.toNat, t.2.toNat) := by
  rw [List.take_of_length_le ((List.length_zip.trans_le (Nat.min_le_left _ _)).trans hlen), List.getElem?_map]

/-- Of the tries of a LANE_ADAPTED row, the code of the highest figure that comes first is kept. -/
theorem bestCode_of_tries {foms : List (BitVec 8)} {dfes : List (BitVec 32)} {n : Nat} {fom : BitVec 8} {dfe : BitVec 32}
    (hlen : foms.length ≤ 16) (hf : foms[n]? = some fom) (hd : dfes[n]? = some dfe) (hle : ∀ t ∈ foms, t.toNat ≤ fom.toNat)
    (hlt : ∀ i t, i < n → foms[i]? = some t → t.toNat < fom.toNat) :
    bestCode (((foms.zip dfes).take 16).map fun t => (t.1.toNat, t.2.toNat)) = (n, fom.toNat, dfe.toNat) := by
  refine bestCode_of_first (t := (fom.toNat, dfe.toNat)) ?_ (fun x hx => ?_) fun i x hi hx => ?_
  · have hz : (foms.zip dfes)[n]? = some (fom, dfe) := List.getElem?_zip_eq_some.mpr ⟨hf, hd⟩
    rw [tries_get hlen, hz]
    rfl
  · obtain ⟨t, ht, rfl⟩ := List.mem_map.mp hx
    exact hle t.1 (List.of_mem_zip (a := t.1) (b := t.2) (List.mem_of_mem_take ht)).1
  · rw [tries_get hlen] at hx
    obtain ⟨t, ht, rfl⟩ := Option.map_eq_some_iff.mp hx
    exact hlt i t.1 hi (List.getElem?_zip_eq_some.mp ht).1

/-! ### Lanes adapted, and the report to the partner -/

theorem reportAdapted_both {k : Nat} {h : Hub} (hst : (getPort h k).state = .adapt) (h0 : (getPort h k).lane0.rx = 3)
    (h1 : (getPort h k).lane1.rx = 3) : reportAdapted k h = trainSend 1 k (linkGoes k .wait 1 h) := by
  simp [reportAdapted, hst, h0, h1]

theorem reportAdapted_not {k : Nat} {h : Hub}
    (hn : ¬ ((getPort h k).state = .adapt ∧ (getPort h k).lane0.rx = 3 ∧ (getPort h k).lane1.rx = 3)) : reportAdapted k h = h := by
  simp only [reportAdapted, ite_eq_right_iff]
  intro hb
  exact absurd (by simpa [and_assoc] using hb) hn

/-- The lane after the adaptation that LANE_ADAPTED reports (13 R339, R344). -/
def laneKept (fomMin n fom dfe : Nat) (x : Lane) : Lane :=
  { x with
    fom := fom, rx := if fomMin ≤ fom then 3 else 2, adapting := false, ctle := if x.fixed then x.ctle else n
    dfe := if x.fixed then x.dfe else [0, 1, 2, 3].map fun i => max (-31) (min 31 (signed 8 (bits dfe (8 * i) 8))) }

theorem adaptedLane_eq (fomMin n fom dfe : Nat) (x : Lane) : adaptedLane fomMin (n, fom, dfe) x = laneKept fomMin n fom dfe x := by
  cases hx : x.fixed
  · simp only [adaptedLane, laneKept, hx, Bool.false_eq_true, if_false]
    rfl
  · simp only [adaptedLane, laneKept, hx, if_true]

/-- Both lanes are ADAPTED after the adaptation of one, where that reaches FOM_MIN and the other is. -/
theorem kept_both (p : Port) (l fomMin n fom dfe : Nat) :
    ((p.updLane l (laneKept fomMin n fom dfe)).lane0.rx = 3 ∧ (p.updLane l (laneKept fomMin n fom dfe)).lane1.rx = 3) ↔
      fomMin ≤ fom ∧ (if l = 0 then p.lane1.rx else p.lane0.rx) = 3 := by
  have hrx (x : Lane) : (laneKept fomMin n fom dfe x).rx = 3 ↔ fomMin ≤ fom := by
    by_cases hf : fomMin ≤ fom <;> simp [laneKept, hf]
  by_cases hl : l = 0
  · simp only [Port.updLane, if_pos hl, hrx]
  · simp only [Port.updLane, if_neg hl, hrx, and_comm]

/-- LANE_ADAPTED of a locked lane in ADAPT. -/
theorem laneAdapted_locked {k l : Nat} {tries : List (Nat × Nat)} {h : Hub} {n fom dfe : Nat} (ht : isTv k = true)
    (hst : (getPort h k).state = .adapt) (hb : bestCode tries = (n, fom, dfe)) (hrx : 2 ≤ ((getPort h k).lane l).rx) :
    laneAdapted k l tries h = reportAdapted k (updPort h k fun p => p.updLane l (laneKept (getPort h k).fomMin n fom dfe)) := by
  have hlane : (updPort h k fun p => p.updLane l (adaptedLane p.fomMin (n, fom, dfe))) =
      updPort h k fun p => p.updLane l (laneKept (getPort h k).fomMin n fom dfe) :=
    updPort_congr h k (congrArg (Port.updLane _ l) (funext fun x => adaptedLane_eq _ _ _ _ x))
  simp only [laneAdapted, ht, hst, hb, Bool.not_true, Bool.false_eq_true, if_false, beq_self_eq_true, if_true, if_neg (Nat.not_lt.mpr hrx),
    hlane]

theorem laneAdapted_unlocked {k l : Nat} {tries : List (Nat × Nat)} {h : Hub} (hst : (getPort h k).state = .adapt)
    (hrx : ((getPort h k).lane l).rx < 2) : laneAdapted k l tries h = h := by
  simp [laneAdapted, hst, hrx]

/-! ### The entry to UP -/

/-- An entry to SLEEP or DEEP given up moves no port. -/
theorem getPort_abortEntry (d kind index : Nat) (h : Hub) (q : Nat) : getPort (abortEntry d kind index h) q = getPort h q :=
  getPort_of_ports (congrArg Hub.ports (restOuts_abortEntry d kind index h) :) q

theorem getPort_markerSend (k : Nat) (h : Hub) :
    getPort (markerSend k h) k = { getPort h k with marker := ((getPort h k).marker + 1) % 2 ^ 32 } := by
  have hports : (markerSend k h).ports = (updPort h k fun p => { p with marker := (p.marker + 1) % 2 ^ 32 }).ports :=
    foldl_keeps Hub.ports (fun g _ => (rfl : (emitBlock k 0x1E _ _ g).ports = g.ports)) _ _
  rw [getPort_of_ports hports, getPort_updPort]

theorem getPort_wakeDone (k : Nat) (h : Hub) : getPort (wakeDone k h) k = { getPort h k with wakeCmds := [] } := by
  have hports : (wakeDone k h).ports = (updPort h k fun x => { x with wakeCmds := [] }).ports :=
    foldl_keeps Hub.ports (fun g p => complete_ports p 0 255 0 0 g) _ _
  rw [getPort_of_ports hports, getPort_updPort]

/-- The port that PARTNER_ADAPTED finds: it has its partner's values. -/
def partnered (data : Bytes) (p : Port) : Port :=
  { p with
    partnerId := msgN data 7 4, partner := [msgN data 11 1, msgN data 12 1, msgN data 4 1]
    lane0 := { p.lane0 with partnerFom := msgN data 2 1, stale := 4 }
    lane1 := { p.lane1 with partnerFom := msgN data 17 1, stale := 4 } }

/-- What PARTNER_ADAPTED leaves of a port but for its marker, its status, its doze and the instant of its last block. -/
theorem partnerAdapted_port {γ : Type} (F : Port → γ) (hq : ∀ p : Port, F ({ p with status := 0 } : Port).quiet = F p)
    (hm : ∀ (p : Port) (n : Nat), F { p with marker := n } = F p) {k : Nat} (data : Bytes) {h : Hub} (ht : isTv k = true)
    (hst : (getPort h k).state = .wait) :
    F (getPort (partnerAdapted k data h) k) =
      F { partnered data (getPort h k) with state := .up, stateTime := h.now, wakeCmds := [] } := by
  have hquiet {g f : Hub} (e : (getPort g k).quiet = (getPort f k).quiet) : F (getPort g k) = F (getPort f k) := by
    rw [← hq, ← hq (getPort f k)]
    exact congrArg (fun p : Port => F { p with status := 0 }) e
  have hkeep (g : Hub) : F (getPort (wakeDone k (sendStatus k true (markerSend k g))) k) = F { getPort g k with wakeCmds := [] } := by
    rw [getPort_wakeDone,
      getPort_sendStatus_keeps (fun p => F { p with wakeCmds := [] }) (fun p => hq { p with wakeCmds := [] }) k true (markerSend k g) k,
      getPort_markerSend]
    exact hm { getPort g k with wakeCmds := [] } _
  unfold partnerAdapted
  simp only [hst, ht, bne_self_eq_false, Bool.not_true, Bool.or_self, Bool.false_eq_true, if_false]
  have hmain := hkeep (linkGoes k .up 1 (updPort h k (partnered data)))
  rw [getPort_linkGoes, getPort_updPort] at hmain
  split
  · refine (hquiet (quiet_enumOnward _ k)).trans (Eq.trans ?_ hmain)
    split
    · rw [getPort_abortEntry]
      rfl
    · rfl
  · exact hmain

/-! ### Timeouts, bursts and losses -/

theorem foldl_outbox_length {α : Type} {f : Hub → α → Hub} (hf : ∀ g a, (f g a).outbox.length = g.outbox.length + 1) (l : List α)
    (h : Hub) : (l.foldl f h).outbox.length = h.outbox.length + l.length := by
  induction l generalizing h with
  | nil => rfl
  | cons a l ih =>
    rw [List.foldl_cons, ih, hf, List.length_cons]
    omega

theorem outbox_length_emitBlock (k typ : Nat) (bytes data : Bytes) (h : Hub) :
    (emitBlock k typ bytes data h).outbox.length = h.outbox.length + 1 := by
  simp [emitBlock, send]

/-- A burst of training sequences: a block on each lane for each of them. -/
theorem outbox_length_trainSend (n k : Nat) (h : Hub) : (trainSend n k h).outbox.length = h.outbox.length + 2 * n := by
  refine (foldl_outbox_length (fun g _ => outbox_length_emitBlock k 0x0F _ _ g) _ h).trans ?_
  rw [List.length_flatten, List.map_replicate, List.sum_replicate]
  simp [Nat.mul_comm]

/-- The next burst of a port in ALONE: at the next multiple of 100 ms since its entry (13 R340). -/
theorem aloneBurst_alone {k : Nat} {h : Hub} (ht : isTv k = true) (hst : (getPort h k).state = .alone) : aloneBurst k h =
    trainSend 1 k (at_ ((getPort h k).stateTime + 100000000 * ((h.now - (getPort h k).stateTime) / 100000000 + 1)) h) := by
  simp [aloneBurst, ht, hst]

section
variable {k : Nat} {h : Hub}

theorem blockLock_second {l : Nat} (ht : isTv k = true) (hst : (getPort h k).state = .seek) (h0 : l = 0 → (getPort h k).lane1.rx = 2)
    (h1 : l ≠ 0 → (getPort h k).lane0.rx = 2) (hle0 : (getPort h k).lane0.rx ≤ 2) (hle1 : (getPort h k).lane1.rx ≤ 2) :
    blockLock k l h = linkGoes k .adapt 1 (updPort h k fun p => { p with
      lane0 := { p.lane0 with rx := 2, adapting := true }, lane1 := { p.lane1 with rx := 2, adapting := true }, lockAt := h.now }) := by
  have hlanes : (getPort h k).updLane l (fun x => { x with rx := max x.rx 2 }) =
      { getPort h k with lane0 := { (getPort h k).lane0 with rx := 2 }, lane1 := { (getPort h k).lane1 with rx := 2 } } := by
    by_cases hl : l = 0
    · rw [Port.updLane, if_pos hl, max_eq_right hle0, ← h0 hl]
    · rw [Port.updLane, if_neg hl, max_eq_right hle1, ← h1 hl]
  simp only [blockLock, ht, hst, bne_self_eq_false, Bool.not_true, Bool.or_self, Bool.false_eq_true, if_false, getPort_updPort, hlanes,
    lt_self_iff_false, decide_false, updPort_updPort]
  refine congrArg (linkGoes k .adapt 1) (updPort_congr h k ?_)
  rw [hlanes]
  rfl

theorem blockLock_first (ht : isTv k = true) (hst : (getPort h k).state = .seek) (h1 : (getPort h k).lane1.rx < 2) :
    blockLock k 0 h = updPort h k fun p => { p with lane0 := { p.lane0 with rx := max p.lane0.rx 2 } } := by
  simp only [blockLock, ht, hst, bne_self_eq_false, Bool.not_true, Bool.or_self, Bool.false_eq_true, if_false, getPort_updPort,
    Port.updLane, if_true, h1, decide_true, Bool.or_true]

theorem trainingTimeout_training (ht : isTv k = true)
    (hst : (getPort h k).state = .seek ∨ (getPort h k).state = .adapt ∨ (getPort h k).state = .wait) (heard : Bool) :
    trainingTimeout k heard h =
      (let g := at_ ((getPort h k).t0 + 20000000) h
       if heard then linkGoes k .weak 4 g
       else
        let b := trainSend 1 k (linkGoes k .alone 3 (updPort g k Port.unlocked))
        if bit (getPort h k).kind 2 then enumOnward b else b) := by
  have hb : ((getPort h k).state == .seek || (getPort h k).state == .adapt || (getPort h k).state == .wait) = true := by
    simpa [or_assoc] using hst
  simp only [trainingTimeout, ht, hb, Bool.not_true, Bool.or_self, Bool.false_eq_true, if_false]

/-- The loss of an UP port whose receive direction does not doze. -/
theorem linkLoss_up (ht : isTv k = true) (hst : (getPort h k).state = .up) {why : Nat} (hw : why ≤ 4)
    (hd : (getPort h k).rxDoze = false) : linkLoss k why h =
      faultReport (k / 8) 0x0703 (unitId 5 (k / 8) (k % 8)) (unitId 5 (k / 8) (k % 8)) 2
        (enterSeek k 2 (leaveUp k (updPort h k fun p => { p with retrains := satInc (2 ^ 32 - 1) p.retrains }))) := by
  have hn : ¬ why > 4 := Nat.not_lt.mpr hw
  simp only [linkLoss, carries_of_up ht hst, hd, hn, decide_false, Bool.not_true, Bool.and_false, Bool.or_self, Bool.false_eq_true, if_false]

/-- The end of a window of lane 0 whose taps no continuous adaptation moves (13 R344-R346). -/
theorem fomWindow_lane0 (ht : isTv k = true) {a b : Nat} {dfe : BitVec 32} (hd : (getPort h k).rxDoze = false)
    (hrx : 2 ≤ (getPort h k).lane0.rx) (ha : a ≤ 32) (hb : b ≤ 32)
    (hfix : (getPort h k).state ≠ .up ∨ (getPort h k).options.testBit 2 = false ∨ (getPort h k).lane0.fixed = true) :
    fomWindow k 0 a b dfe h = reportAdapted k (updPort h k fun p => { p with lane0 := { p.lane0 with
      fom := min (4 * (a + b)) 255, stale := p.lane0.stale - 1
      rx := if (getPort h k).state = .adapt ∧ (getPort h k).lane0.adapting = false ∧ (getPort h k).fomMin ≤ min (4 * (a + b)) 255 then 3
        else (getPort h k).lane0.rx } }) := by
  have hnot : (!isTv k || (getPort h k).rxDoze || decide (((getPort h k).lane 0).rx < 2) || decide (a > 32) || decide (b > 32)) = false := by
    simpa [ht, hd, Port.lane, ha, hb] using Nat.lt_of_succ_le hrx
  have htaps : (((getPort h k).state == .up && bit (getPort h k).options 2) && !(getPort h k).lane0.fixed) = false := by
    rcases hfix with hs | ho | hf
    · simp [hs]
    · simp [bit, ho]
    · simp [hf]
  simp only [fomWindow, hnot, Bool.false_eq_true, if_false]
  refine congrArg (reportAdapted k) (updPort_congr h k ?_)
  simp only [Port.updLane, if_true, htaps, Bool.false_eq_true, if_false, fomOf, Bool.and_eq_true, beq_iff_eq, Bool.not_eq_true',
    decide_eq_true_eq, ge_iff_le, and_assoc]

end

theorem isTv_of_le {k : Nat} (hk : 4 ≤ k % 8) : isTv k = true := decide_eq_true hk

/-- Settles O47: each row of a port in its state, and the values that an adaptation keeps. -/
theorem traverseTrains : Obligations.TraverseTrains := by
  refine ⟨fun k r st h => ⟨getPort_linkGoes k st r h, fun q hq => getPort_linkGoes_ne k st r h q hq, getPort_enterSeek k r h⟩,
    fun k l s hk => ?rows, fun k l n foms dfes fom dfe s hk hl hlen hsame => ?adapted, fun k data s hk hst => ?up⟩
  case rows =>
    have ht : isTv k = true := isTv_of_le hk
    refine ⟨fun hst h0 h1 hle0 hle1 => next_onHub_congr (blockLock_second ht hst h0 h1 hle0 hle1), fun hst hl h1 => ?_, fun hst => ?_,
      fun hst => ⟨?_, ?_⟩, fun hst => ?_, fun hst htime => ?_, fun hst hs => ?_, fun hst hr => ?_, fun hst => ?_, fun why hst hw hd => ?_,
      fun a b dfe hd hrx ha hb hfix => ⟨fun hboth => ?_, fun hboth => ?_⟩⟩
    · rw [hl]
      exact next_onHub_congr (blockLock_first ht hst h1)
    · refine next_onHub_congr ?_
      simp [adaptTimeout, hst]
    · exact next_onHub_congr (trainingTimeout_training ht hst true)
    · exact next_onHub_congr (trainingTimeout_training ht hst false)
    · refine next_onHub_congr ?_
      simp [signalDetect, ht, hst]
    · refine ⟨_, (s.hub.now - (getPort s.hub k).stateTime) / 100000000 + 1, next_onHub_congr (aloneBurst_alone ht hst), rfl, rfl,
        trainSend_ports 1 k _, ?_⟩
      have hnow : ∀ g, (trainSend 1 k g).now = g.now := fun g => (congrArg Hub.now (offPorts_trainSend 1 k g) :)
      refine ⟨?_, ?_, ?_, outbox_length_trainSend 1 k _⟩
      all_goals
        simp only [hnow, at_]
        omega
    · refine next_onHub_congr ?_
      have hb : (asleep s.hub (k / 8) || (getDie s.hub (k / 8)).pwr.state == .entering) = true := by simpa using hs
      simp only [signalDetect, ht, hst, hb, Bool.not_true, Bool.false_eq_true, if_false, if_true]
    · refine next_onHub_congr ?_
      simp [signalDetect, ht, hst, asleep, hr]
    · refine next_onHub_congr ?_
      simp [weakRetry, hst]
    · exact next_onHub_congr (linkLoss_up ht hst hw hd)
    · refine next_onHub_congr ((fomWindow_lane0 ht hd hrx ha hb hfix).trans (reportAdapted_both ?_ ?_ ?_))
      all_goals rw [getPort_updPort]
      · exact hboth.1
      · exact hboth.2.1
      · exact hboth.2.2
    · refine next_onHub_congr ((fomWindow_lane0 ht hd hrx ha hb hfix).trans (reportAdapted_not ?_))
      rw [getPort_updPort]
      exact hboth
  case adapted =>
    intro p hst hf hd hle hlt tap new put both locked
    have hbest := bestCode_of_tries hlen hf hd hle hlt
    have hlocked : locked ↔ 2 ≤ (p.lane l).rx := by
      simp only [locked, Port.lane, apply_ite Lane.rx]
    have ht : isTv k = true := isTv_of_le hk
    have hport : getPort (put s.hub) k = p.updLane l (laneKept p.fomMin n fom.toNat dfe.toNat) := getPort_updPort s.hub k _
    have hstate : (getPort (put s.hub) k).state = .adapt := by
      rw [hport, Port.updLane, apply_ite Port.state]
      exact (ite_self _).trans hst
    have hkept := kept_both p l p.fomMin n fom.toNat dfe.toNat
    refine ⟨fun hlock hboth => ?_, fun hlock hboth => ?_, fun hlock => ?_⟩
    · refine next_onHub_congr ((laneAdapted_locked ht hst hbest (hlocked.mp hlock)).trans ?_)
      obtain ⟨h0, h1⟩ := hkept.mpr hboth
      exact reportAdapted_both hstate ((congrArg (fun q : Port => q.lane0.rx) hport).trans h0)
        ((congrArg (fun q : Port => q.lane1.rx) hport).trans h1)
    · refine next_onHub_congr ((laneAdapted_locked ht hst hbest (hlocked.mp hlock)).trans (reportAdapted_not (h := put s.hub) ?_))
      rw [hport]
      exact fun ⟨_, hb⟩ => hboth (hkept.mp hb)
    · exact next_onHub_congr (laneAdapted_unlocked hst (Nat.not_le.mp fun h => hlock (hlocked.mpr h)))
  case up =>
    have hport {γ : Type} (F : Port → γ) (hq : ∀ p : Port, F ({ p with status := 0 } : Port).quiet = F p)
        (hm : ∀ (p : Port) (n : Nat), F { p with marker := n } = F p) := partnerAdapted_port F hq hm data (isTv_of_le hk) hst
    exact ⟨_, rfl, rfl, rfl, hport Port.state (fun _ => rfl) fun _ _ => rfl, hport Port.stateTime (fun _ => rfl) fun _ _ => rfl,
      hport Port.wakeCmds (fun _ => rfl) fun _ _ => rfl, hport Port.partnerId (fun _ => rfl) fun _ _ => rfl,
      hport (fun p => p.lane0.partnerFom) (fun _ => rfl) fun _ _ => rfl, hport (fun p => p.lane1.partnerFom) (fun _ => rfl) fun _ _ => rfl⟩

end Sys2Proof.Machine
end

section
/-!
What an UP Traverse port does beside its training: dozing, loops, the back channel, camera frames and TIME blocks (13 R347-R357; log
entries 41, 49, 51, 52, 56).
-/

namespace Sys2Proof.Machine

/-! ### Dozing (13 R347, R348) -/

/-- The receive direction of the port does not doze once a stream block has come. -/
theorem getPort_streamHeard (k : Nat) (h : Hub) : getPort (streamHeard k h) k = { getPort h k with rxDoze := false } := by
  unfold streamHeard
  split
  · rw [getPort_updPort]
  · next hd => rw [← Bool.not_eq_true _ |>.mp hd]

theorem offPorts_streamHeard (k : Nat) (h : Hub) : (streamHeard k h).offPorts = h.offPorts := by
  unfold streamHeard
  split <;> rfl

section
variable {k : Nat} {h : Hub}

theorem dozeEntry_idle (hc : carries h k = true) (ht : (getPort h k).txDoze = false) (ho : (getPort h k).options.testBit 0 = true)
    (hb : portBusy h k = false) (hcam : camRuns (getPort h k) = false) (hf : (getPort h k).farHeld = false) : dozeEntry k h =
      (List.range 8).foldl (fun h _ => emitBlock k 0xA5 (List.replicate 15 0xA5) [] h)
        (updPort (at_ ((getPort h k).lastTx + 1000 * (getPort h k).dozeIdle) h) k fun p => { p with txDoze := true }) := by
  have ho' : bit (getPort h k).options 0 = true := ho
  simp only [dozeEntry, hc, ht, ho', hb, hcam, hf, Bool.not_true, Bool.or_self, Bool.false_eq_true, if_false]

theorem dozeEntry_busy
    (hb : (getPort h k).txDoze = true ∨ portBusy h k = true ∨ camRuns (getPort h k) = true ∨ (getPort h k).farHeld = true) :
    dozeEntry k h = h := by
  simp only [dozeEntry, ite_eq_left_iff, Bool.not_eq_true]
  intro hn
  simp only [Bool.or_eq_false_iff] at hn
  simp [hn] at hb

/-- The four DOZE blocks on each lane leave nothing but themselves. -/
theorem dozeBlocks (n k : Nat) (h : Hub) : (List.range n).foldl (fun h _ => emitBlock k 0xA5 (List.replicate 15 0xA5) [] h) h =
    { h with outbox := h.outbox ++ List.replicate n (Sent.trv k 0xA5 (List.replicate 16 0xA5)) } := by
  induction n with
  | zero => simp
  | succ n ih =>
    rw [List.range_succ, List.foldl_append, ih, List.replicate_succ' (n := n), ← List.append_assoc]
    rfl

theorem payloadDue_dozing (ht : (getPort h k).txDoze = true) :
    payloadDue k h = trainSend 8 k (updPort h k fun p => { p with txDoze := false }) := by
  rw [payloadDue, if_pos ht]

/-! ### Loops (13 R349) -/

/-- What answers a LOOP request leaves, even while the port returns its blocks. -/
theorem sendLoop_mem (k code : Nat) (h : Hub) : Sent.trv k 0xB4 (ctlBlock 0xB4 (leBytes 1 code)) ∈ (sendLoop k code h).outbox := by
  have hs : (sendLoop k code h).outbox =
      (payloadDue k h).outbox ++ [Sent.trv k 0xB4 (ctlBlock 0xB4 (leBytes 1 code) ++ [])] := by
    simp only [sendLoop, sendBlock, bne_self_eq_false, Bool.and_false, Bool.false_eq_true, if_false, emitBlock, send]
    rfl
  rw [hs, List.append_nil]
  exact List.mem_append_right _ List.mem_cons_self

theorem quiet_sendLoop (k code : Nat) (h : Hub) (q : Nat) : (getPort (sendLoop k code h) q).quiet = (getPort h q).quiet :=
  quiet_sendBlock k 0xB4 _ _ h q

/-- May the port accept a far-end loop: it allows it, and carries no output and no camera stream? -/
def mayLoop (h : Hub) (k : Nat) : Bool := bit (getPort h k).options 1 && (portOut h k).isNone && !camRuns (getPort h k)

theorem loopRequest_eq (hc : carries h k = true) : loopRequest k h =
    if mayLoop h k then updPort (sendLoop k 2 (streamHeard k h)) k fun p => { p with farHeld := true }
    else sendLoop k 3 (streamHeard k h) := by
  have hout : portOut (streamHeard k h) k = portOut h k :=
    (congrArg (portOut · k) (offPorts_streamHeard k h) : portOut (streamHeard k h).offPorts k = portOut h.offPorts k)
  simp only [loopRequest, hc, Bool.not_true, Bool.false_eq_true, if_false, getPort_streamHeard, hout]
  rfl

end

/-- A loopback test that the partner has accepted, or that needs no partner, ends (13 R349, R368). -/
theorem loopbackEnd_loop {k : Nat} {h : Hub} {t : LoopTest} {q : Pend} (hst : (getPort h k).state = .loop)
    (ht : (getPort h k).test = some t) (ha : t.accepted = true) (hq : t.cmd = some q) (e0 e1 n : Nat) : loopbackEnd k e0 e1 n h =
      completeOk q ((if t.lanes.testBit 0 then min e0 0xFFFF else 0) + 65536 * (if t.lanes.testBit 1 then min e1 0xFFFF else 0)) n
        (let g := updPort (at_ (t.start + 1000 * t.duration) h) k fun x => { x with test := none }
         if t.mode = 2 then enterSeek k 1 g else if t.mode = 3 then sendLoop k 1 (linkGoes k .up 1 g) else linkGoes k .up 1 g) := by
  simp only [loopbackEnd, hst, ht, ha, hq, Bool.not_true, Bool.false_eq_true, if_false, bne_self_eq_false, beq_self_eq_true, Bool.and_true,
    decide_eq_true_eq]
  by_cases h2 : t.mode = 2
  · have h3 : ¬ t.mode = 3 := by omega
    simp only [if_pos h2, if_neg h3]
    rfl
  · simp only [if_neg h2]
    rfl

/-! ### The back channel (13 R352) -/

section
variable {k : Nat} {h : Hub} (hc : carries h k = true)
include hc

/-- An I2C request that finds no controller with pads is answered with a bus error (21 R526). -/
theorem i2cReq_padless (hb : busOnPads h (k / 8) = false) (data : Bytes) : i2cReq k data h =
    sendMessage k 0x78 3 (leBytes 1 (leNat (data.take 1)) ++ [3, 0, 0, 0, 0, 0, 0]) (streamHeard k h) := by
  simp only [i2cReq, hc, hb, Bool.not_true, Bool.false_eq_true, if_false, Bool.not_false, if_true, List.append_assoc]
  rfl

/-- One that finds a bus goes out on it, and takes its free values. -/
theorem i2cReq_bus (hb : busOnPads h (k / 8) = true) (data : Bytes) : ∃ bytes g, i2cReq k data h = sendMessage k 0x78 3 bytes g ∧
    g.ctxs = h.ctxs ∧ g.freeIx = h.freeIx + 3 + min 32 (leNat ((data.drop 3).take 1)) ∧
    g.outbox = h.outbox ++ [Sent.bus k 4 (data.take 5 ++ (data.drop 8).take (leNat ((data.drop 2).take 1)))] := by
  have hs : (streamHeard k h).outbox = h.outbox := by
    unfold streamHeard
    split <;> rfl
  have hf : (streamHeard k h).freeIx = h.freeIx := (congrArg Hub.freeIx (offPorts_streamHeard k h) :)
  have hx : (streamHeard k h).ctxs = h.ctxs := (congrArg Hub.ctxs (offPorts_streamHeard k h) :)
  have heq : ∃ bytes, i2cReq k data h = sendMessage k 0x78 3 bytes
      { send (.bus k 4 (data.take 5 ++ (data.drop 8).take (leNat ((data.drop 2).take 1)))) (streamHeard k h) with
        freeIx := (streamHeard k h).freeIx + 3 + min 32 (leNat ((data.drop 3).take 1)) } := by
    simp only [i2cReq, hc, hb, Bool.not_true, Bool.false_eq_true, if_false]
    exact ⟨_, rfl⟩
  obtain ⟨bytes, heq⟩ := heq
  exact ⟨bytes, _, heq, hx, by rw [hf], congrArg (· ++ _) hs⟩

end

/-! ### Camera frames (13 R354-R357) -/

section
variable {k : Nat} {data : Bytes} {h : Hub} {c : CamCfg}

/-- Does a VIDEO_FRAME fit the target of a stream's frame (13 R355)? -/
def camFits (h : Hub) (c : CamCfg) (n : Nat) (data : Bytes) : Bool :=
  match camTarget h c n with
  | none => false
  | some s => msgN data 0 2 = s.width && msgN data 2 2 = s.height && msgN data 4 2 = s.fmt

theorem camFits_iff (n : Nat) : camFits h c n data = true ↔ ∃ t, camTarget h c n = some t ∧ leNat (data.take 2) = t.width ∧
    leNat ((data.drop 2).take 2) = t.height ∧ leNat ((data.drop 4).take 2) = t.fmt := by
  cases ht : camTarget h c n with
  | none => simp [camFits, ht]
  | some t =>
    simp only [camFits, ht, msgN, Bool.and_eq_true, decide_eq_true_eq, Option.some.injEq, exists_eq_left', List.drop_zero, and_assoc]
    exact and_congr_right fun _ => and_congr decide_eq_true_iff decide_eq_true_iff

/-- A VIDEO_FRAME while no frame is in progress and no configuration waits begins the stream's next frame. -/
theorem camVideoFrame_begins (hc : carries h k = true) (hk : (getPort h k).kind.testBit 1 = true) (hcam : (getPort h k).cam = some c)
    (hnext : (getPort h k).camNext = none) (hframe : (getPort h k).camFrame = none) : ∃ g,
    g.ctxs = h.ctxs ∧ getPort g k = { getPort h k with
      rxDoze := false, camK := (getPort h k).camK + 1
      camFrame := some { k := (getPort h k).camK, ignored := !camFits h c (getPort h k).camK data } } ∧
    camVideoFrame k data h = if camFits h c (getPort h k).camK data then g else camFault k 1 (getPort h k).camK g := by
  have hkind : bit (getPort h k).kind 1 = true := hk
  have hruns : camRuns (getPort h k) = true := by rw [camRuns, hcam]; rfl
  have hport := getPort_streamHeard k h
  have hdone : camIncomplete k (camComplete k (streamHeard k h)) = streamHeard k h := by
    have hnone : (getPort (streamHeard k h) k).camFrame = none := (congrArg Port.camFrame hport).trans hframe
    have hcomplete : camComplete k (streamHeard k h) = streamHeard k h := by
      unfold camComplete
      simp only [hnone]
    rw [hcomplete]
    unfold camIncomplete
    simp only [hnone]
  have htarget (g : Port → Port) (n : Nat) : camTarget (updPort (streamHeard k h) k g) c n = camTarget h c n :=
    (congrArg (camTarget · c n) (offPorts_streamHeard k h) :
      camTarget (streamHeard k h).offPorts c n = camTarget h.offPorts c n)
  have hheard : getPort (updPort (streamHeard k h) k id) k = { getPort h k with rxDoze := false } := by
    rw [getPort_updPort, hport]
    rfl
  refine ⟨updPort (updPort (streamHeard k h) k id) k fun p => { p with
    camK := (getPort h k).camK + 1, camFrame := some { k := (getPort h k).camK, ignored := !camFits h c (getPort h k).camK data } },
    (congrArg Hub.ctxs (offPorts_streamHeard k h) :), ?_, ?_⟩
  · rw [getPort_updPort, hheard]
  · unfold camVideoFrame
    extract_lets p g₁ g₂ p₂ n
    rw [if_neg (by simp only [p, hc, hkind, hruns, Bool.not_true, Bool.or_self, Bool.false_eq_true, not_false_eq_true])]
    have hg₂ : g₂ = updPort (streamHeard k h) k id := by
      simp only [g₂, g₁, hdone]
      refine updPort_congr _ k ?_
      simp only [hport, hnext, id]
    have hp₂ : p₂ = { getPort h k with rxDoze := false } := by rw [← hheard, ← hg₂]
    have hcam₂ : p₂.cam = some c := by rw [hp₂, hcam]
    have hn : n = (getPort h k).camK := (congrArg Port.camK hp₂ :)
    simp only [hcam₂, hn]
    rw [hg₂]
    simp only [htarget]
    rfl

/-- An uncrated line of the frame in progress that has not come before is written, and noted. -/
theorem camVideoLine_plain {f : CamFrame} {t : Surf} (hc : carries h k = true) (hcam : (getPort h k).cam = some c)
    (hframe : (getPort h k).camFrame = some f) (hi : f.ignored = false) (hfull : f.full = false) (ht : camTarget h c f.k = some t)
    (hcr : (fmtD t.fmt).crated = false) (hpl : msgN data 0 1 < camPlanes t.fmt)
    (hy : msgN data 3 2 < planeLines (fmtD t.fmt) t.height (msgN data 0 1))
    (hlen : msgN data 1 2 = ceilDiv (rowBytes (fmtD t.fmt) t.width (msgN data 0 1)) 16) (hdata : data.length = 15 + 16 * msgN data 1 2)
    (hgot : (msgN data 0 1, msgN data 3 2) ∉ f.got) :
    let ws := planeWrite h t (msgN data 0 1) (msgN data 3 2 * (t.planes.getD (msgN data 0 1) (0, 0)).2)
      ((data.drop 15).take (rowBytes (fmtD t.fmt) t.width (msgN data 0 1)))
    camVideoLine k data h = (writesTouched ws (updPort (streamHeard k h) k fun p => { p with camFrame := some { f with
      got := (msgN data 0 1, msgN data 3 2) :: f.got, full := !f.bad && decide (f.got.length + 1 = planeLineCount t) } }), ws) := by
  intro ws
  have htarget : camTarget (streamHeard k h) c f.k = some t :=
    (congrArg (camTarget · c f.k) (offPorts_streamHeard k h) : camTarget (streamHeard k h).offPorts c f.k = _).trans ht
  have hwrite : planeWrite (streamHeard k h) t (msgN data 0 1) (msgN data 3 2 * (t.planes.getD (msgN data 0 1) (0, 0)).2)
      ((data.drop 15).take (rowBytes (fmtD t.fmt) t.width (msgN data 0 1))) = ws :=
    (congrArg (fun g => planeWrite g t _ _ _) (offPorts_streamHeard k h) :
      planeWrite (streamHeard k h).offPorts t _ _ _ = planeWrite h.offPorts t _ _ _)
  have hok : (decide (msgN data 0 1 ≥ camPlanes t.fmt) || decide (msgN data 3 2 ≥ planeLines (fmtD t.fmt) t.height (msgN data 0 1)) ||
      decide (msgN data 1 2 ≠ ceilDiv (rowBytes (fmtD t.fmt) t.width (msgN data 0 1)) 16) ||
      decide (data.length ≠ 15 + 16 * msgN data 1 2)) = false := by
    simp only [Bool.or_eq_false_iff, decide_eq_false_iff_not, not_not]
    exact ⟨⟨⟨Nat.not_le.mpr hpl, Nat.not_le.mpr hy⟩, hlen⟩, hdata⟩
  simp only [camVideoLine, hframe, hcam, hc, hi, htarget, hfull, hok, hcr, List.contains_eq_mem, hgot, Bool.not_true, Bool.or_self,
    Bool.false_eq_true, if_false, decide_false, Bool.not_false, if_true, hwrite]
  rfl

/-- A frame of which every line has come ends complete (13 R355). -/
theorem camComplete_full {f : CamFrame} (hcam : (getPort h k).cam = some c) (hframe : (getPort h k).camFrame = some f)
    (hfull : f.full = true) :
    let g := broadcast (updPort h k fun p => { p with camFrame := none, camFrames := (p.camFrames + 1) % 2 ^ 32 })
    (tlOf g c.tl = none → camComplete k h = g) ∧
    ∀ i x, tlOf g c.tl = some (i, x) → camComplete k h = signalTl i (max x.value ((c.base + f.k + 1) % 2 ^ 64)) g := by
  intro g
  refine ⟨fun hn => ?_, fun i x hx => ?_⟩
  · simp only [camComplete, hframe, hcam, hfull, Bool.not_true, Bool.false_eq_true, if_false]
    rw [show tlOf (broadcast _) c.tl = _ from hn]
  · simp only [camComplete, hframe, hcam, hfull, Bool.not_true, Bool.false_eq_true, if_false]
    rw [show tlOf (broadcast _) c.tl = _ from hx]

end

/-! ### TIME blocks (13 R353) -/

section
variable {k : Nat} {data : Bytes} {h : Hub} (hc : chainUp h k = true)
include hc

theorem timeSend_down (hd : h.chain.down = some k) : timeSend k h =
    (let g := at_ ((getPort h k).timeReq + 1000000) h
     sendBlock k 0x96 (leBytes 3 0 ++ leBytes 8 (chainTime g) ++ leBytes 4 (getPort h k).timeSeq) []
      (updPort g k fun p => { p with timeReq := g.now, timeSeq := (p.timeSeq + 1) % 2 ^ 32 })) := by
  simp only [timeSend, hc, hd, Bool.not_true, ne_eq, not_true_eq_false, decide_false, Bool.or_self, Bool.false_eq_true, if_false]

theorem timeRequest_up (hu : h.chain.up = some k) (hr : (getPort h k).rxDoze = false) : timeRequest k data h =
    sendBlock k 0x96 (leBytes 1 1 ++ leBytes 2 1 ++ leBytes 8 (chainTime h) ++ leBytes 4 (leNat ((data.drop 8).take 4)))
      (leBytes 8 (chainTime h) ++ leBytes 8 (leNat (data.take 8))) h := by
  simp only [timeRequest, hc, hu, streamHeard_of_awake hr, Bool.not_true, ne_eq, not_true_eq_false, decide_false, Bool.or_self,
    Bool.false_eq_true, if_false]
  rfl

/-- A TIME reply gives the correction, an odd sum being halved to one of its neighbours. -/
theorem timeReply_down (hd : h.chain.down = some k) : ∃ θ : Int,
    (let n (j : Nat) : Int := signed 64 (leNat ((data.drop j).take 8))
     let sum := (n 12 - n 20) + (n 0 - signed 64 (chainTime h))
     (sum % 2 = 0 → 2 * θ = sum) ∧ (sum % 2 ≠ 0 → 2 * θ = sum - 1 ∨ 2 * θ = sum + 1)) ∧
    ∃ g, g.chain = h.chain ∧ g.freeIx = h.freeIx + 1 ∧ timeReply k data h =
      sendMgmt k 5 (leBytes 8 (unsigned 64 θ) ++ leBytes 4 (leNat ((data.drop 8).take 4))) g := by
  have htime : chainTime (streamHeard k h) = chainTime h :=
    (congrArg chainTime (offPorts_streamHeard k h) : chainTime (streamHeard k h).offPorts = chainTime h.offPorts)
  let n (j : Nat) : Int := signed 64 (leNat ((data.drop j).take 8))
  let sum := (n 12 - n 20) + (n 0 - signed 64 (chainTime h))
  let up : Int := if sum % 2 ≠ 0 && Config.freeBit (streamHeard k h).freeIx then 1 else 0
  refine ⟨sum / 2 + up, ⟨fun he => ?_, fun ho => ?_⟩, (takeFree (streamHeard k h)).2, (congrArg Hub.chain (offPorts_streamHeard k h) :),
    (congrArg (fun g => g.freeIx + 1) (offPorts_streamHeard k h) :), ?_⟩
  · change sum % 2 = 0 at he
    have hup : up = 0 := by simp [up, he]
    change 2 * (sum / 2 + up) = sum
    omega
  · change sum % 2 ≠ 0 at ho
    have hup : up = 0 ∨ up = 1 := by
      simp only [up]
      split
      · exact Or.inr rfl
      · exact Or.inl rfl
    change 2 * (sum / 2 + up) = sum - 1 ∨ 2 * (sum / 2 + up) = sum + 1
    omega
  · simp only [timeReply, hc, hd, Bool.not_true, ne_eq, not_true_eq_false, decide_false, Bool.or_self, Bool.false_eq_true, if_false, htime]
    rfl

end

theorem getPort_writesTouched (ws : List MemWrite) (h : Hub) (q : Nat) : getPort (writesTouched ws h) q = getPort h q :=
  (congrArg (getPort · q) (offOuts_writesTouched ws h) :)

theorem isTv_of_carries {k : Nat} {h : Hub} (hc : carries h k = true) : isTv k = true := ((Bool.and_eq_true _ _).mp hc).1

/-- The outputs that a loop request meets: an output or a camera stream of the port bars it. -/
theorem mayLoop_iff (h : Hub) (k : Nat) : mayLoop h k = true ↔ (getPort h k).options.testBit 1 = true ∧ portOut h k = none ∧
    (getPort h k).cam = none ∧ (getPort h k).camNext = none := by
  simp only [mayLoop, camRuns, bit, Bool.and_eq_true, Bool.not_eq_true', Bool.or_eq_false_iff, Option.isNone_iff_eq_none,
    Option.isSome_eq_false_iff, and_assoc]

/-- Settles O48: each row of an UP port, loops and camera frames through what they find, and TIME blocks. -/
theorem traverseStreams : Obligations.TraverseStreams := by
  refine ⟨fun k data s hc => ?up, fun k e0 e1 n t q s hst ht ha hq => next_onHub_congr (loopbackEnd_loop hst ht ha hq e0 e1 n.toNat),
    fun k data c s hc hk hcam => ?camera, fun k data s hc => ⟨fun hd => next_onHub_congr (timeSend_down hc hd),
      fun hu hr => next_onHub_congr (timeRequest_up hc hu hr), fun hd => ?reply⟩⟩
  case reply =>
    obtain ⟨θ, hθ, g, hchain, hfree, hg⟩ := timeReply_down hc hd (data := data)
    exact ⟨θ, hθ, g, hchain, hfree, next_onHub_congr hg⟩
  case up =>
    refine ⟨fun ht ho hb hcam hf => ?_, fun hb => next_onHub_congr (dozeEntry_busy hb), fun ht => ?_, fun ht => ?_, ?_,
      fun ho hout hcam hnext => ?_, fun hbar => ?_, fun hr => ?_, fun t ht ha h2 => ?_, fun t q ht ha hq h3 => ?_, fun hr => ?_,
      fun hb => next_onHub_congr (i2cReq_padless hc hb data), fun hb => ?_, fun o ho hk hst => ?_⟩
    · have he := (dozeEntry_idle hc ht ho hb hcam hf).trans (dozeBlocks 8 k _)
      let g := at_ ((getPort s.hub k).lastTx + 1000 * (getPort s.hub k).dozeIdle) s.hub
      exact ⟨_, next_onHub_congr he, rfl, rfl, rfl, getPort_updPort g k fun p => { p with txDoze := true },
        fun q hq => getPort_updPort_ne g k q (fun p => { p with txDoze := true }) hq, rfl⟩
    · have he : dozeExit k s.hub = _ := (if_pos hc).trans (payloadDue_dozing ht)
      exact ⟨_, next_onHub_congr he, rfl, rfl, (getPort_trainSend 8 k _ k).trans (getPort_updPort _ k _),
        fun q hq => (getPort_trainSend 8 k _ q).trans (getPort_updPort_ne _ k q _ hq), outbox_length_trainSend 8 k _⟩
    · refine next_onHub_congr (g := s.hub) ?_
      rw [dozeExit, if_pos hc, payloadDue, ht]
      rfl
    · exact next_onHub_congr (if_pos hc)
    · have he := (loopRequest_eq hc).trans (if_pos ((mayLoop_iff s.hub k).mpr ⟨ho, hout, hcam, hnext⟩))
      refine ⟨_, next_onHub_congr he, rfl, rfl, congrArg Port.farHeld (getPort_updPort _ k _), ?_, sendLoop_mem k 2 _⟩
      refine (congrArg Port.rxDoze (getPort_updPort _ k _)).trans ?_
      exact (congrArg Port.rxDoze (quiet_sendLoop k 2 _ k) :).trans (congrArg Port.rxDoze (getPort_streamHeard k s.hub))
    · have hnot : ¬ mayLoop s.hub k = true := by
        rw [mayLoop_iff]
        intro ⟨ho, hout, hcam, hnext⟩
        simp [ho, hout, hcam, hnext] at hbar
      have hport := getPort_streamHeard k s.hub
      refine ⟨_, next_onHub_congr ((loopRequest_eq hc).trans (if_neg hnot)), rfl, rfl, ?_, ?_, sendLoop_mem k 3 _⟩
      · exact (congrArg Port.farHeld (quiet_sendLoop k 3 _ k) :).trans (congrArg Port.farHeld hport :)
      · exact (congrArg Port.rxDoze (quiet_sendLoop k 3 _ k) :).trans (congrArg Port.rxDoze hport :)
    · refine next_onHub_congr ?_
      rw [loopRelease, if_pos hc, streamHeard_of_awake hr]
    · refine next_onHub_congr ?_
      simp only [loopAnswer, ht, hc, ha, Bool.not_true, Bool.or_self, Bool.false_eq_true, if_false]
      exact if_pos h2
    · refine next_onHub_congr ?_
      have h2 : ¬ msgN data 0 1 = 2 := fun e => absurd (e.symm.trans h3) (by decide)
      simp only [loopAnswer, ht, hc, ha, hq, Bool.not_true, Bool.or_self, Bool.false_eq_true, if_false, h2]
      exact if_pos h3
    · refine next_onHub_congr ?_
      rw [backStatus, if_pos hc, streamHeard_of_awake hr]
      rfl
    · obtain ⟨bytes, g, he, hctxs, hfree, hout⟩ := i2cReq_bus hc hb data
      have hsent := offPorts_sendBlock k 0x78 (leBytes 1 3 ++ leBytes 2 (ceilDiv (bytes.drop 12).length 16) ++ bytes.take 12)
        ((bytes.drop 12 ++ leBytes 15 0).take (16 * ceilDiv (bytes.drop 12).length 16)) g
      refine ⟨_, next_onHub_congr he, rfl, rfl, (congrArg Hub.ctxs hsent :).trans hctxs, (congrArg Hub.freeIx hsent :).trans hfree, ?_⟩
      refine (outbox_sendBlock k 0x78 _ _ g).subset ?_
      rw [hout]
      exact List.mem_append_right _ List.mem_cons_self
    · refine next_onHub_congr ?_
      have hk' : bit (getPort s.hub k).kind 0 = true := hk
      simp only [videoOffRepeat, ho, hc, hk', hst, beq_self_eq_true, Bool.and_self, if_true]
      rfl
  case camera =>
    refine ⟨fun hnext hframe => ?_, fun f t hframe hi hfull ht hcr => ?_, fun f hframe hfull => ?_⟩
    · obtain ⟨g, hctxs, hport, heq⟩ := camVideoFrame_begins (data := data) hc hk hcam hnext hframe
      refine ⟨_, next_onHub_congr heq, rfl, rfl, fun hf => ?_, fun hf => ?_⟩
      · have hfit : camFits s.hub c (getPort s.hub k).camK data = true := (camFits_iff _).mpr hf
        simp only [hfit, if_true, hport, hctxs]
        exact ⟨rfl, trivial⟩
      · have hfit : camFits s.hub c (getPort s.hub k).camK data = false := Bool.eq_false_iff.mpr fun h => hf ((camFits_iff _).mp h)
        simp only [hfit, Bool.false_eq_true, if_false]
        rw [camFault, getPort_postEvents, getPort_updPort, hport, hfit]
        rfl
    · intro pl len y n hpl hy hlen hdata hgot w
      have he := camVideoLine_plain hc hcam hframe hi hfull ht hcr hpl hy hlen hdata hgot
      refine ⟨act (fun _ h => camVideoLine k data h) s, rfl, rfl, congrArg (fun e : Eff => e.2.foldl Memory.apply s.lp5x) he, ?_⟩
      refine (congrArg (fun e : Eff => getPort e.1 k) he).trans ?_
      have hport := getPort_streamHeard k s.hub
      dsimp only
      rw [getPort_writesTouched, getPort_updPort, hport]
      rfl
    · have he := camComplete_full hcam hframe hfull
      exact ⟨fun hn => next_onHub_congr (he.1 hn), fun i x hx => next_onHub_congr (he.2 i x hx)⟩

end Sys2Proof.Machine
end

section
/-!
DisplayPort sinks: hot plug, unplug, the short pulse, and the end of a training attempt (13 R359-R361; log entry 52).
-/

namespace Sys2Proof.Machine

section
variable {k : Nat} {h : Hub}

/-! ### Training starts -/

theorem unitRetired_updPort (h : Hub) (k u : Nat) (f : Port → Port) : unitRetired (updPort h k f) u = unitRetired h u := by
  rw [unitRetired, getDie_updPort, ← unitRetired]

theorem dpTrain_kept (hr : unitRetired h (unitId 5 (k / 8) (k % 8)) = false) (reason : Nat) (cfg : Nat × Nat) :
    dpTrain k reason cfg h = linkGoes k .seek reason (updPort h k fun p => { p with training := some cfg }) := by
  rw [dpTrain, if_neg (by rw [hr]; exact Bool.false_ne_true)]

/-- The port of a sink that has appeared (13 R359, R361). -/
def plugged (lanes rate caps : Nat) (sizes : Nat × Nat × Nat) (p : Port) : Port :=
  { p with
    sink := true, sinkLanes := lanes, sinkRate := rate, sinkCaps := caps % 16, sinkBits := max 1 (min 16 sizes.1), trained := none
    sinkGran := (max 1 sizes.2.1, max 1 sizes.2.2), inUse := (0, 0), training := none }

theorem dpHotPlug_dp (hd : isDp k = true) (hup : dieUp h (k / 8) = true) (lanes rate caps : Nat) (sizes : Nat × Nat × Nat) :
    dpHotPlug k lanes rate caps sizes h =
      (let g := updPort h k (plugged lanes rate caps sizes)
       if (getPort h k).kind = 0 then g
       else dpTrain k 6 (if 4 ≤ lanes then 4 else if 2 ≤ lanes then 2 else 1, min 4 (max 1 rate)) g) := by
  simp only [dpHotPlug, hd, hup, Bool.not_true, Bool.or_self, Bool.false_eq_true, if_false, getPort_updPort, portOff, beq_iff_eq]
  rfl

/-! ### The frame being sent, and self refresh -/

theorem truncateFrame_port (now : Nat) (x : Output) : (truncateFrame now x).port = x.port := by
  unfold truncateFrame
  split
  · split
    · rfl
    · split
      · rfl
      · split <;> rfl
  · rfl

/-- The output of a port stays bound to it where each output keeps its port. -/
theorem portOut_congr {g : Hub} (hg : ∀ o, (getOut g o).port = (getOut h o).port) : portOut g k = portOut h k := by
  unfold portOut
  simp only [hg]

theorem portOut_updPort (h : Hub) (k q : Nat) (f : Port → Port) : portOut (updPort h k f) q = portOut h q :=
  portOut_congr fun o => congrArg Output.port (getOut_updPort h k o f)

theorem portOut_cutFrame : portOut (cutFrame k h) k = portOut h k := by
  refine portOut_congr fun o => ?_
  unfold cutFrame
  split
  · rfl
  · next q _ => exact getOut_updOut_keeps Output.port h q o fun x => truncateFrame_port h.now x

/-- A cut touches the outputs alone. -/
theorem offOuts_cutFrame (k : Nat) (h : Hub) : (cutFrame k h).offOuts = h.offOuts := by
  unfold cutFrame
  split <;> rfl

/-- Where self refresh ends, the output of the port is in it no more. -/
theorem psr_psrEnds {o : Nat} (ho : portOut h k = some o) : (getOut (psrEnds k h) o).psr = false := by
  simp only [psrEnds, ho, getOut_updOut]

theorem ports_psrEnds : (psrEnds k h).ports = h.ports := by
  unfold psrEnds
  split <;> rfl

theorem rest_linkEvent (k r : Nat) (h : Hub) : (linkEvent k r h).rest = h.rest := by
  rw [linkEvent, rest_postEvents, rest_fbkRecord]

theorem getOut_linkEvent (k r : Nat) (h : Hub) (o : Nat) : getOut (linkEvent k r h) o = getOut h o := by
  rw [getOut, getOut, outs_of_rest (rest_linkEvent k r h)]

theorem getOut_linkGoes (k : Nat) (st : LinkState) (r : Nat) (h : Hub) (o : Nat) : getOut (linkGoes k st r h) o = getOut h o := by
  rw [linkGoes, getOut_linkEvent, getOut_updPort]

/-! ### Unplug (13 R360) -/

/-- The port whose sink has gone. -/
def unplugged (p : Port) : Port :=
  { p with sink := false, sinkLanes := 0, sinkRate := 0, sinkCaps := 0, sinkGran := (1, 1), trained := none, inUse := (0, 0), training := none }

/-- The hub once the frame being sent is cut, self refresh has ended and the sink's values are gone. -/
def unplugCut (k : Nat) (h : Hub) : Hub := send (.bus k 0 []) (updPort (psrEnds k (cutFrame k h)) k unplugged)

theorem dpUnplug_sink (hd : isDp k = true) (hs : (getPort h k).sink = true) : dpUnplug k h =
    if (getPort h k).kind = 0 then unplugCut k h else linkGoes k .alone 6 (unplugCut k h) := by
  have hport : getPort (psrEnds k (cutFrame k h)) k = getPort h k := getPort_of_ports (ports_psrEnds.trans (cutFrame_ports k h)) k
  simp only [dpUnplug, hd, hs, Bool.not_true, Bool.or_self, Bool.false_eq_true, if_false, getPort_send, getPort_updPort, portOff,
    beq_iff_eq, hport]
  rfl

theorem getPort_unplugCut : getPort (unplugCut k h) k = unplugged (getPort h k) := by
  rw [unplugCut, getPort_send, getPort_updPort, getPort_of_ports (ports_psrEnds.trans (cutFrame_ports k h))]

theorem psr_unplugCut {o : Nat} (ho : portOut h k = some o) : (getOut (unplugCut k h) o).psr = false :=
  psr_psrEnds (h := cutFrame k h) (portOut_cutFrame.trans ho)

/-! ### The short pulse of HPD (13 R360, R361) -/

/-- Is the port's output in self refresh? -/
def psrOn (h : Hub) (k : Nat) : Bool := match portOut h k with | none => false | some o => (getOut h o).psr

theorem dpIrq_psr (hd : isDp k = true) (hs : (getPort h k).sink = true) (hk : (getPort h k).kind ≠ 0) : dpIrq k false true h =
    linkEvent k 5 (if psrOn h k then psrEnds k (updPort h k fun p => { p with psrOff := true })
      else updPort h k fun p => { p with psrOff := true }) := by
  simp only [dpIrq, hd, hs, portOff, beq_eq_false_iff_ne.mpr hk, Bool.not_true, Bool.or_self, Bool.false_eq_true, if_false, if_true,
    Bool.false_and]
  rfl

theorem dpIrq_lost (hd : isDp k = true) (hs : (getPort h k).sink = true) (hk : (getPort h k).kind ≠ 0) (hu : (getPort h k).state = .up) :
    dpIrq k true false h = dpTrain k 2 (getPort h k).inUse (cutFrame k h) := by
  simp only [dpIrq, hd, hs, hu, portOff, beq_eq_false_iff_ne.mpr hk, Bool.not_true, Bool.or_self, Bool.false_eq_true, if_false, if_true,
    beq_self_eq_true, Bool.and_self]

theorem dpIrq_nothing : dpIrq k false false h = h := by
  simp only [dpIrq, Bool.false_and, Bool.false_eq_true, if_false, ite_self]

/-! ### The end of a training attempt (13 R359) -/

/-- Does a DP configuration carry the mode of the port's output, where it has one? -/
def dpCarries (h : Hub) (k lanes rate : Nat) : Bool :=
  match portOut h k with
  | none => true
  | some o => match (getOut h o).mode with
    | none => true
    | some e => dpFits e (getOut h o).bpc lanes rate

theorem dpCarries_iff (lanes rate : Nat) : dpCarries h k lanes rate = true ↔
    ∀ o e, portOut h k = some o → (getOut h o).mode = some e → dpFits e (getOut h o).bpc lanes rate = true := by
  unfold dpCarries
  split
  next hn => simp [hn]
  next o ho =>
    split
    next hm =>
      refine iff_of_true rfl fun q e hq he => ?_
      cases ho.symm.trans hq
      cases hm.symm.trans he
    next e he =>
      refine ⟨fun hf q e' hq he' => ?_, fun hf => hf o e ho he⟩
      cases ho.symm.trans hq
      cases he.symm.trans he'
      exact hf

variable {cfg : Nat × Nat} {lanes rate : Nat} (hd : isDp k = true) (ht : (getPort h k).training = some cfg) (hs : (getPort h k).sink = true)
include hd ht hs

/-- An attempt that has reached a configuration which carries the mode, or is needed by none. -/
theorem dpTrainingEnd_reached (hl : lanes = 1 ∨ lanes = 2 ∨ lanes = 4) (h1 : 1 ≤ rate) (h4 : rate ≤ 4)
    (hc : dpCarries h k lanes rate = true) : dpTrainingEnd k true lanes rate h =
      linkGoes k .up 1 (updPort h k fun p => { p with
        training := none, inUse := (lanes, rate), trained := if p.trained.isNone then some (lanes, rate) else p.trained }) := by
  unfold dpTrainingEnd
  extract_lets p g₁ first carries reached g₂
  simp -zeta only [show p.training = some cfg from ht]
  rw [if_neg (by simp only [hd, show p.sink = true from hs, Bool.not_true, Bool.or_self, Bool.false_eq_true, not_false_eq_true])]
  have hreach : reached = true := by simpa [reached, h1, h4, or_assoc] using hl
  have hcar : carries = true := hc
  simp only [hreach, hcar, Bool.true_and, Bool.and_self, if_true, g₂, first, p]
  by_cases hf : (getPort h k).trained.isNone = true
  · simp only [hf, if_true, g₁, updPort_updPort]
    exact congrArg (linkGoes k .up 1) (updPort_congr h k (by simp only [hf, if_true]))
  · simp only [hf, Bool.false_eq_true, if_false, g₁, updPort_updPort]
    exact congrArg (linkGoes k .up 1) (updPort_congr h k (by simp only [hf, Bool.false_eq_true, if_false]))

/-- A first attempt that has reached one which does not carry the mode. -/
theorem dpTrainingEnd_short (hf : (getPort h k).trained = none) (hl : lanes = 1 ∨ lanes = 2 ∨ lanes = 4) (h1 : 1 ≤ rate) (h4 : rate ≤ 4)
    (hc : dpCarries h k lanes rate = false) : dpTrainingEnd k true lanes rate h =
      linkGoes k .down 2 (updPort h k fun p => { p with training := none, trained := some (lanes, rate) }) := by
  unfold dpTrainingEnd
  extract_lets p g₁ first carries reached g₂
  simp -zeta only [show p.training = some cfg from ht]
  rw [if_neg (by simp only [hd, show p.sink = true from hs, Bool.not_true, Bool.or_self, Bool.false_eq_true, not_false_eq_true])]
  have hreach : reached = true := by simpa [reached, h1, h4, or_assoc] using hl
  have hcar : carries = false := hc
  have hfirst : first = true := by simp only [first, p, hf, Option.isNone_none]
  simp only [hreach, hcar, hfirst, Bool.and_false, Bool.and_self, Bool.false_eq_true, if_false, if_true, g₂, g₁, updPort_updPort]

/-- A first attempt that has failed. -/
theorem dpTrainingEnd_failed (hf : (getPort h k).trained = none) : dpTrainingEnd k false lanes rate h =
    linkGoes k .down 2 (updPort h k fun p => { p with training := none }) := by
  simp only [dpTrainingEnd, ht, hd, hs, hf, Bool.not_true, Bool.or_self, Bool.false_eq_true, if_false, Bool.false_and,
    Option.isNone_none, if_true]

end

/-- Settles O49: a sink that appears and goes, the short pulse, and the ends of a training attempt. -/
theorem displayPortEvents : Obligations.DisplayPortEvents := by
  intro k s hk
  have hd : isDp k = true := decide_eq_true hk
  refine ⟨fun lanes rate caps width granX granY hup hr => ⟨fun h0 => next_onHub_congr ?_, fun h0 => next_onHub_congr ?_⟩,
    fun hs => ?unplug, fun hs hkind => ⟨fun hu hr => next_onHub_congr ?_, next_onHub_congr (g := s.hub) dpIrq_nothing, ?psr⟩,
    fun cfg lanes rate ht hs => ⟨fun hf hl h1 h4 => ⟨fun hc => ?_, fun hc => ?_⟩, fun hf => next_onHub_congr (dpTrainingEnd_failed hd ht hs hf),
      fun hf hn hl h1 h4 => ?_⟩⟩
  case unplug =>
    by_cases h0 : (getPort s.hub k).kind = 0
    · have hp := getPort_unplugCut (k := k) (h := s.hub)
      refine ⟨_, next_onHub_congr ((dpUnplug_sink hd hs).trans (if_pos h0)), rfl, rfl, (congrArg Port.sink hp :), (congrArg Port.trained hp :),
        (congrArg Port.training hp :), fun h => absurd h0 h, fun _ => (congrArg Port.state hp :), fun o ho => psr_unplugCut ho⟩
    · have hp : getPort (linkGoes k .alone 6 (unplugCut k s.hub)) k =
          { unplugged (getPort s.hub k) with state := .alone, stateTime := (unplugCut k s.hub).now } := by
        rw [getPort_linkGoes, getPort_unplugCut]
      refine ⟨_, next_onHub_congr ((dpUnplug_sink hd hs).trans (if_neg h0)), rfl, rfl, (congrArg Port.sink hp :), (congrArg Port.trained hp :),
        (congrArg Port.training hp :), fun _ => (congrArg Port.state hp :), fun h => absurd h h0, fun o ho => ?_⟩
      exact (congrArg Output.psr (getOut_linkGoes k .alone 6 _ o)).trans (psr_unplugCut ho)
  case psr =>
    have hg : getPort (updPort s.hub k fun p => { p with psrOff := true }) k = { getPort s.hub k with psrOff := true } :=
      getPort_updPort _ _ _
    refine ⟨_, next_onHub_congr (dpIrq_psr hd hs hkind), rfl, rfl, ?_, fun o ho => ?_⟩
    · refine (getPort_linkEvent k 5 _ k).trans ?_
      split
      · exact (getPort_of_ports ports_psrEnds k).trans hg
      · exact hg
    · refine (congrArg Output.psr (getOut_linkEvent k 5 _ o)).trans ?_
      split
      · exact psr_psrEnds ((portOut_updPort s.hub k k _).trans ho)
      · next hoff =>
        have hoff' : psrOn s.hub k = false := Bool.not_eq_true _ ▸ hoff
        rw [psrOn, ho] at hoff'
        exact (congrArg Output.psr (getOut_updPort s.hub k o _)).trans hoff'
  · exact (dpHotPlug_dp hd hup lanes rate caps _).trans (if_pos h0)
  · refine ((dpHotPlug_dp hd hup lanes rate caps _).trans (if_neg h0)).trans ((dpTrain_kept ((unitRetired_updPort _ k _ _).trans hr) 6 _).trans ?_)
    rw [updPort_updPort]
    rfl
  · refine (dpIrq_lost hd hs hkind hu).trans ?_
    have hr' : unitRetired (cutFrame k s.hub) (unitId 5 (k / 8) (k % 8)) = false :=
      (congrArg (unitRetired · (unitId 5 (k / 8) (k % 8))) (offOuts_cutFrame k s.hub) :).trans hr
    refine (dpTrain_kept hr' 2 _).trans (congrArg (linkGoes k .seek 2) (updPort_congr _ k ?_))
    rw [getPort_cutFrame]
  · refine next_onHub_congr ((dpTrainingEnd_reached hd ht hs hl h1 h4 ((dpCarries_iff _ _).mpr hc)).trans ?_)
    exact congrArg (linkGoes k .up 1) (updPort_congr s.hub k (by simp only [hf, Option.isNone_none, if_true]))
  · exact next_onHub_congr (dpTrainingEnd_short hd ht hs hf hl h1 h4 (Bool.eq_false_iff.mpr fun h => hc ((dpCarries_iff _ _).mp h)))
  · have hcar : dpCarries s.hub k lanes rate = true := by simp only [dpCarries, hn]
    refine next_onHub_congr ((dpTrainingEnd_reached hd ht hs hl h1 h4 hcar).trans ?_)
    refine congrArg (linkGoes k .up 1) (updPort_congr s.hub k ?_)
    simp only [Option.isNone_eq_false_iff.mpr hf, Bool.false_eq_true, if_false]

end Sys2Proof.Machine
end

section
/-!
Enumeration, chain time, broadcasts and barriers (13 R353; 18 R465-R471; log entry 56).
-/

namespace Sys2Proof.Machine

/-! ### What sends and events leave of the chain -/

@[simp] theorem chain_sendBlock (k typ : Nat) (bytes data : Bytes) (h : Hub) : (sendBlock k typ bytes data h).chain = h.chain :=
  (congrArg Hub.chain (offPorts_sendBlock k typ bytes data h) :)

@[simp] theorem chain_sendMgmt (k msg : Nat) (bytes : Bytes) (h : Hub) : (sendMgmt k msg bytes h).chain = h.chain :=
  chain_sendBlock k 0x87 _ _ h

@[simp] theorem chain_chainEvent (reason : Nat) (h : Hub) : (chainEvent reason h).chain = h.chain :=
  (congrArg Hub.chain (rest_toIntegrator _ _ _ h) :)

@[simp] theorem chain_sendEnum (k : Nat) (h : Hub) : (sendEnum k h).chain = { h.chain with asking := true, askAt := h.now } :=
  chain_sendMgmt k 1 _ _

/-- A length that becomes known is the package's own count of what it reaches, and nothing else of the chain (18 R466, R467). -/
theorem chain_chainLength (len : Nat) (h : Hub) : (chainLength len h).chain = { h.chain with len := h.chain.reach len } := by
  unfold chainLength
  extract_lets c g₁ g₂
  have h₂ : g₂.chain = g₁.chain := by
    simp only [g₂]
    split
    · rfl
    · exact chain_chainEvent 1 g₁
  split
  · exact h₂
  · split
    · exact (chain_sendMgmt _ 4 _ g₂).trans h₂
    · exact h₂

/-- What the enumeration onward leaves of the chain: all but the request and the length. -/
def Chain.link (c : Chain) : Chain := { c with asking := false, askAt := 0, len := 0 }

theorem Chain.eq_of_link {a c : Chain} (e : a.link = c.link) : a = { c with asking := a.asking, askAt := a.askAt, len := a.len } :=
  (congrArg (fun x : Chain => { x with asking := a.asking, askAt := a.askAt, len := a.len }) e :)

theorem link_chainLength (len : Nat) (h : Hub) : (chainLength len h).chain.link = h.chain.link := by
  rw [chain_chainLength]
  rfl

theorem link_sendEnum (k : Nat) (h : Hub) : (sendEnum k h).chain.link = h.chain.link := by
  rw [chain_sendEnum]
  rfl

theorem link_enumOnward (h : Hub) : (enumOnward h).chain.link = h.chain.link := by
  unfold enumOnward
  dsimp only
  split
  · rfl
  · split
    · split
      · rfl
      · exact link_chainLength _ h
    · split
      · exact link_sendEnum _ h
      · split
        · rfl
        · exact link_chainLength _ h
      · rfl

theorem link_enumAgain (h : Hub) : (enumAgain h).chain.link = h.chain.link := by
  unfold enumAgain
  split
  · exact link_enumOnward h
  · split
    · exact link_sendEnum _ h
    · rfl

/-! ### A snapshot armed (18 R471) -/

theorem rest_snapGoes (state reason : Nat) (h : Hub) : (snapGoes state reason h).rest = h.rest := by
  unfold snapGoes
  dsimp only
  split
  · rfl
  · exact rest_intEvent _ _ _

/-- The principal's Keeper block after a change of KPR_SNAP_STATE. -/
theorem kpr_snapGoes (state reason : Nat) (h : Hub) : (getDie (snapGoes state reason h) h.pkg.principal).kpr =
    { (getDie h h.pkg.principal).kpr with snapState := state, snapReason := reason } := by
  unfold snapGoes
  dsimp only
  split
  · rw [getDie_updDie]
  · refine (congrArg Die.kpr (getDie_intEvent_rest _ _ _ _) :).trans ?_
    rw [getDie_updDie]
    rfl

theorem chain_armChain (t : Nat) (h : Hub) : (armChain t h).chain = h.chain := (congrArg Hub.chain (rest_snapGoes 1 0 _) :)

theorem kpr_armChain (t : Nat) (h : Hub) : (getDie (armChain t h) h.pkg.principal).kpr =
    { (getDie h h.pkg.principal).kpr with armed := some (t, 2), snapState := 1, snapReason := 0 } := by
  refine (kpr_snapGoes 1 0 (updDie h h.pkg.principal fun x => { x with kpr := { x.kpr with armed := some (t, 2) } })).trans ?_
  rw [updDie_pkg, getDie_updDie]

/-! ### Enumeration, message by message (18 R465-R467) -/

section
variable {k : Nat} {data : Bytes} {h : Hub} (hc : chainUp h k = true) (hd : (getPort h k).rxDoze = false)
include hc hd

theorem enumReq_head (hr : ready h = true) (hh : h.chain.head = true) : enumReq k data h = sendMgmt k 3 (leBytes 1 2) h := by
  simp only [enumReq, hc, hr, hh, streamHeard_of_awake hd, Bool.not_true, Bool.or_self, Bool.false_eq_true, if_false, if_true]

theorem enumReq_far (hr : ready h = true) (hh : h.chain.head = false) (hp : 4 ≤ msgN data 0 1) :
    enumReq k data h = sendMgmt k 3 (leBytes 1 1) h := by
  simp only [enumReq, hc, hr, hh, streamHeard_of_awake hd, Bool.not_true, Bool.or_self, Bool.false_eq_true, if_false, ge_iff_le, hp, if_true]

/-- The chain of a package that takes a new position. -/
def Chain.placed (k : Nat) (data : Bytes) (c : Chain) : Chain :=
  { c with
    pos := msgN data 0 1, headDev := msgN data 4 4, enumerated := true, up := some k, upSide := some k, set := false, aligned := false
    good := 0, down := none, asking := false }

theorem enumReq_new (hr : ready h = true) (hh : h.chain.head = false) (hp : msgN data 0 1 < 4)
    (hn : ¬ (h.chain.enumerated = true ∧ h.chain.up = some k ∧ h.chain.pos = msgN data 0 1)) :
    (enumReq k data h).chain.link = (h.chain.placed k data).link := by
  have hcond : ¬ (h.chain.enumerated && decide (h.chain.up = some k) && decide (h.chain.pos = msgN data 0 1)) = true := by
    simpa [and_assoc] using hn
  simp only [enumReq, hc, hr, hh, streamHeard_of_awake hd, Bool.not_true, Bool.or_self, Bool.false_eq_true, if_false, ge_iff_le,
    Nat.not_le.mpr hp, hcond]
  rw [link_enumOnward, chain_chainEvent, chain_sendMgmt]
  simp only [Chain.placed, Chain.link, hh]

/-- A request that repeats the position of the package changes nothing of the chain but the request or length that goes on. -/
theorem enumReq_again (hr : ready h = true) (hh : h.chain.head = false) (hp : msgN data 0 1 < 4) (he : h.chain.enumerated = true)
    (hu : h.chain.up = some k) (hpos : h.chain.pos = msgN data 0 1) : (enumReq k data h).chain.link = h.chain.link := by
  simp only [enumReq, hc, hr, hh, streamHeard_of_awake hd, Bool.not_true, Bool.or_self, Bool.false_eq_true, if_false, ge_iff_le,
    Nat.not_le.mpr hp, he, hu, hpos, decide_true, Bool.and_self, if_true]
  rw [link_enumAgain, chain_sendMgmt]

theorem enumAck_asked (ha : h.chain.asking = true) (hp : downPort h = some k) :
    enumAck k h = { h with chain := { h.chain with asking := false, down := some k } } := by
  simp only [enumAck, hc, ha, hp, streamHeard_of_awake hd, Bool.not_true, ne_eq, not_true_eq_false, decide_false, Bool.or_self,
    Bool.false_eq_true, if_false]

/-- A rejected request is reported and told, and a package that is not the head is the last one. -/
theorem enumReject_asked (ha : h.chain.asking = true) (hp : downPort h = some k) : enumReject k data h =
    (let g := { h with chain := { h.chain with asking := false }, freeIx := h.freeIx + 1 }
     let e := chainEvent (if msgN data 0 1 = 1 then 6 else 5)
      (faultReport (k / 8) 0x0703 (unitId 5 (k / 8) (k % 8)) (unitId 5 (k / 8) (k % 8)) (Config.freeWord h.freeIx).toNat g)
     if h.chain.head then e else chainLength (h.chain.pos + 1) e) := by
  simp only [enumReject, hc, ha, hp, streamHeard_of_awake hd, Bool.not_true, ne_eq, not_true_eq_false, decide_false, Bool.or_self,
    Bool.false_eq_true, if_false, takeFree, chain_chainEvent, faultReport_chain]

theorem chainEnd_down (hdn : h.chain.down = some k) (h1 : 1 ≤ msgN data 0 1) (h4 : msgN data 0 1 ≤ 4) :
    chainEnd k data h = chainLength (msgN data 0 1) h := by
  have h0 : ¬ msgN data 0 1 = 0 := by omega
  simp only [chainEnd, hc, hdn, h0, Nat.not_lt.mpr h4, streamHeard_of_awake hd, Bool.not_true, ne_eq, not_true_eq_false,
    decide_false, Bool.or_self, Bool.false_eq_true, if_false]

/-! ### Chain time, broadcasts and barriers (18 R468, R470, R471) -/

/-- A TIME_OFS: at once the first time, later through the correction (18 R468). -/
theorem timeOfs_up (hu : h.chain.up = some k) : timeOfs k data h =
    (let θ := signed 64 (msgN data 0 8)
     let c := h.chain
     let good := if θ.natAbs ≤ 6 then min 16 (c.good + 1) else 0
     { h with
       freeIx := h.freeIx + 1
       chain := { c with
         ofs := if c.set then chainOfs h else chainOfs h - θ, todo := if c.set then -θ else 0, ofsAt := h.now, set := true
         good := good, aligned := c.aligned || (good = 16 && (c.pos = 1 || Config.freeBit h.freeIx)) } }) := by
  simp only [timeOfs, hc, hu, streamHeard_of_awake hd, Bool.not_true, ne_eq, not_true_eq_false, decide_false, Bool.or_self,
    Bool.false_eq_true, if_false, takeFree]

/-- A barrier goes on downstream. -/
theorem bcast_barrier_on (hu : h.chain.up = some k) (h1 : msgN data 0 1 = 1) {d : Nat} (hdn : h.chain.down = some d) : bcast k data h =
    sendMgmt d 6 (data.take 16) { h with chain := { h.chain with barrier := some (msgN data 1 1) } } := by
  simp [bcast, hc, hu, h1, streamHeard_of_awake hd, hdn]

/-- A barrier that comes to the last package is answered. -/
theorem bcast_barrier_last (hu : h.chain.up = some k) (h1 : msgN data 0 1 = 1) (hdn : h.chain.down = none) : bcast k data h =
    sendMgmt k 7 (leBytes 1 0 ++ leBytes 1 (msgN data 1 1)) { h with chain := { h.chain with barrier := none } } := by
  simp [bcast, hc, hu, h1, streamHeard_of_awake hd, hdn]

theorem bcast_snapshot (hu : h.chain.up = some k) (h2 : msgN data 0 1 = 2) (hdn : h.chain.down = none) :
    bcast k data h = armChain (msgN data 8 8) h := by
  have hchain : (armChain (msgN data 8 8) h).chain = h.chain := chain_armChain _ _
  simp [bcast, hc, hu, h2, streamHeard_of_awake hd, hchain, hdn]

/-- An acknowledged barrier ends at a package without an upstream neighbour. -/
theorem barrierAck_top (hdn : h.chain.down = some k) (hb : h.chain.barrier = some (msgN data 1 1)) (hu : h.chain.up = none) :
    barrierAck k data h = { h with chain := { h.chain with barrier := none } } := by
  simp [barrierAck, hc, hdn, hb, hu, streamHeard_of_awake hd]

theorem barrierAck_up (hdn : h.chain.down = some k) (hb : h.chain.barrier = some (msgN data 1 1)) {u : Nat} (hu : h.chain.up = some u)
    (hcu : chainUp h u = true) : barrierAck k data h =
      sendMgmt u 7 (leBytes 1 0 ++ leBytes 1 (msgN data 1 1)) { h with chain := { h.chain with barrier := none } } := by
  have hcu' : chainUp { h with chain := { h.chain with barrier := none } } u = true := hcu
  simp only [barrierAck, hc, hdn, hb, hu, streamHeard_of_awake hd, Bool.not_true, ne_eq, not_true_eq_false, decide_false, Bool.or_self,
    Bool.false_eq_true, if_false]
  exact if_pos hcu'

end

/-- Settles O50: enumeration, chain time, broadcasts and barriers, message by message. -/
theorem chainMessages : Obligations.ChainMessages := by
  refine ⟨fun k data s hc hr hd => ⟨fun hh => next_onHub_congr (enumReq_head hc hd hr hh),
    fun hh hp => next_onHub_congr (enumReq_far hc hd hr hh hp), fun hh hp hn => ?new, fun hh hp he hu hpos => ?again, fun ha hp => ?retry,
    fun ha hp => ⟨next_onHub_congr (enumAck_asked hc hd ha hp), _, _, rfl, enumReject_asked hc hd ha hp⟩, fun hdn h1 h4 => ?ends⟩,
    fun s hr hdn he => ?timeout, fun k data s hc hd => ⟨fun hu => ?ofs, fun hu h1 => ⟨fun d hdn => next_onHub_congr (bcast_barrier_on hc hd hu h1 hdn),
      fun hdn => next_onHub_congr (bcast_barrier_last hc hd hu h1 hdn)⟩, fun hu h2 hdn => ?snapshot,
      fun hdn hb => ⟨fun hu => next_onHub_congr (barrierAck_top hc hd hdn hb hu),
        fun u hu hcu => next_onHub_congr (barrierAck_up hc hd hdn hb hu hcu)⟩⟩⟩
  case new =>
    have hl := enumReq_new hc hd hr hh hp hn (data := data)
    exact ⟨_, rfl, rfl, rfl, (congrArg Chain.pos hl :), (congrArg Chain.enumerated hl :), (congrArg Chain.up hl :),
      (congrArg Chain.upSide hl :), (congrArg Chain.down hl :), (congrArg Chain.aligned hl :), (congrArg Chain.headDev hl :)⟩
  case again => exact ⟨_, _, _, _, rfl, rfl, rfl, Chain.eq_of_link (enumReq_again hc hd hr hh hp he hu hpos)⟩
  case retry =>
    refine ⟨next_onHub_congr ?_, chain_sendEnum k s.hub⟩
    simp only [enumRetry, hc, hr, ha, hp, decide_true, Bool.and_self, if_true]
  case ends =>
    refine ⟨_, rfl, rfl, rfl, chainEnd_down hc hd hdn h1 h4, ?_⟩
    refine (congrArg Hub.chain (chainEnd_down hc hd hdn h1 h4)).trans ((chain_chainLength _ _).trans ?_)
    have hreach : s.hub.chain.reach (msgN data 0 1) =
        if s.hub.chain.up = none ∧ s.hub.chain.head = false then msgN data 0 1 - s.hub.chain.pos else msgN data 0 1 := by
      simp only [Chain.reach, Bool.and_eq_true, Option.isNone_iff_eq_none, Bool.not_eq_true']
    rw [hreach]
    rfl
  case timeout =>
    refine next_onHub_congr ?_
    have hn : (s.hub.chain.enumerated && !s.hub.chain.head) = false := by
      rcases he with he | he <;> simp [he]
    simp only [chainEnumTimeout, hr, hdn, hn, Option.isSome_none, Bool.not_true, Bool.or_self, Bool.false_eq_true, if_false]
  case ofs =>
    refine ⟨_, next_onHub_congr (timeOfs_up hc hd hu), fun hal => ?_, fun hal hg => ?_, fun hp hg => ?_⟩
    · rw [hal, Bool.true_or]
    · rw [hal, Bool.false_or, Bool.and_eq_false_iff]
      exact Or.inl (decide_eq_false (Nat.ne_of_lt hg))
    · rw [Bool.or_eq_true, Bool.and_eq_true, Bool.or_eq_true]
      exact Or.inr ⟨decide_eq_true hg, Or.inl (decide_eq_true hp)⟩
  case snapshot =>
    have hs := bcast_snapshot hc hd hu h2 hdn
    have hk := kpr_armChain (msgN data 8 8) s.hub
    exact ⟨_, next_onHub_congr hs, rfl, rfl, chain_armChain _ _, congrArg Kpr.snapState hk, congrArg Kpr.armed hk⟩

end Sys2Proof.Machine
end

section
/-!
What dies keep over reports, sends and the state changes of links: all but their registers, their Survey block and their Field book, of
which they keep whether it is suspended (15 R394; 17 R441-R443; 20 R511; 22 R540-R542).
-/

namespace Sys2Proof.Machine

/-- A die without what reports change. -/
def Die.kept (d : Die) : Die := { d with regs := {}, srv := {}, fbk := { suspended := d.fbk.suspended } }

/-- The dies of two hubs agree but for what reports change. -/
def KeepsDies (g h : Hub) : Prop := ∀ k, (getDie g k).kept = (getDie h k).kept

theorem KeepsDies.refl (h : Hub) : KeepsDies h h := fun _ => rfl

theorem KeepsDies.trans {a b c : Hub} (hab : KeepsDies a b) (hbc : KeepsDies b c) : KeepsDies a c := fun k => (hab k).trans (hbc k)

theorem KeepsDies.of_dies {g h : Hub} (e : g.dies = h.dies) : KeepsDies g h := fun k => by rw [getDie, getDie, e]

theorem KeepsDies.of_rest_update {h : Hub} {d : Nat} {f : Die → Die} (hf : ∀ x, (f x).kept = x.kept) : KeepsDies (updDie h d f) h :=
  fun k => getDie_updDie_keeps Die.kept h d k hf

/-- Folding keeps the dies where each step does. -/
theorem KeepsDies.foldl {α : Type} {f : Hub → α → Hub} (hf : ∀ g a, KeepsDies (f g a) g) (l : List α) (h : Hub) :
    KeepsDies (l.foldl f h) h :=
  List.foldlRecOn l f (motive := fun g => KeepsDies g h) (.refl h) fun g hg a _ => (hf g a).trans hg

section
variable {g h : Hub} (e : KeepsDies g h) (k : Nat)
include e

theorem KeepsDies.pwr : (getDie g k).pwr = (getDie h k).pwr := (congrArg Die.pwr (e k) :)
theorem KeepsDies.clk : (getDie g k).clk = (getDie h k).clk := (congrArg Die.clk (e k) :)
theorem KeepsDies.kpr : (getDie g k).kpr = (getDie h k).kpr := (congrArg Die.kpr (e k) :)
theorem KeepsDies.kdbg : (getDie g k).kdbg = (getDie h k).kdbg := (congrArg Die.kdbg (e k) :)
theorem KeepsDies.atc : (getDie g k).atc = (getDie h k).atc := (congrArg Die.atc (e k) :)
theorem KeepsDies.suspended : (getDie g k).fbk.suspended = (getDie h k).fbk.suspended := (congrArg (fun x : Die => x.fbk.suspended) (e k) :)

end

/-! ### Reports -/

theorem suspended_fbkAdd (f : Fbk) (now time die src typ a0 a1 : Nat) (al : Bool) :
    (fbkAdd f now time die src typ a0 a1 al).suspended = f.suspended := by
  unfold fbkAdd
  split
  · rfl
  · split
    · rfl
    · split <;> rfl

theorem keepsDies_fbkRecord (d src typ a0 a1 : Nat) (h : Hub) : KeepsDies (fbkRecord d src typ a0 a1 h) h := by
  unfold fbkRecord
  split
  · refine .of_rest_update fun x => ?_
    simp only [Die.kept, suspended_fbkAdd]
  · exact .refl h

theorem keepsDies_complete (p : Pend) (st off r0 r1 : Nat) (h : Hub) : KeepsDies (complete p st off r0 r1 h) h := by
  have hf := keepsDies_fbkRecord (homeDie p.ctx) 1 0x0101 (p.opcode + 65536 * st) (p.ctx + 4096 * p.tag) h
  unfold complete
  dsimp only
  split
  · exact hf
  · split
    · exact (KeepsDies.of_dies rfl).trans hf
    · exact (KeepsDies.of_dies (dies_postEntry _ _ _ _ _ _ _ _ _ _ _)).trans hf

theorem keepsDies_postEvent (c code r0 r1 : Nat) (h : Hub) : KeepsDies (postEvent c code r0 r1 h) h :=
  .of_dies (dies_postEvent c code r0 r1 h)

theorem keepsDies_postEvents (cs : List Nat) (code r0 r1 : Nat) (h : Hub) : KeepsDies (postEvents cs code r0 r1 h) h :=
  .of_dies (dies_postEvents cs code r0 r1 h)

theorem keepsDies_intRaise (d : Nat) (h : Hub) : KeepsDies (intRaise d h) h := by
  unfold intRaise
  dsimp only
  split
  · exact .of_rest_update fun _ => rfl
  · exact .refl h

theorem keepsDies_intEvent (d n : Nat) (h : Hub) : KeepsDies (intEvent d n h) h := by
  unfold intEvent
  have hc : KeepsDies (updDie h d fun x =>
      { x with regs := { x.regs with intCount := x.regs.intCount.set n ((x.regs.intCount.get n 0 + 1) % 65536) } }) h :=
    .of_rest_update fun _ => rfl
  split
  · exact .refl h
  · dsimp only
    split
    · exact (keepsDies_intRaise d _).trans hc
    · exact hc

theorem keepsDies_dropErrors (d n : Nat) (h : Hub) : KeepsDies (dropErrors d n h) h := fun k =>
  getDie_updDie_keeps Die.kept h d k (f := fun x => { x with srv := { x.srv with dropped := satAdd 255 x.srv.dropped n } }) fun _ => rfl

theorem keepsDies_faultReport (d cause unit reporter detail : Nat) (h : Hub) : KeepsDies (faultReport d cause unit reporter detail h) h := by
  unfold faultReport
  split
  · exact .refl h
  · extract_lets srv new g
    have hg : KeepsDies g h := by
      simp only [g]
      split
      · exact keepsDies_intEvent d 12 h
      · exact .refl h
    split
    · refine KeepsDies.trans (.of_rest_update fun _ => ?_) hg
      rfl
    · split
      · exact (KeepsDies.of_dies rfl).trans hg
      · split
        · split
          · exact (keepsDies_dropErrors d 1 g).trans hg
          · have hh : KeepsDies (updDie g d fun x => { x with srv := { x.srv with held := satInc 255 x.srv.held } }) g :=
              .of_rest_update fun _ => rfl
            exact fun k => (hh k).trans (hg k)
        · split
          · exact (keepsDies_dropErrors d 1 g).trans hg
          · refine KeepsDies.trans (.of_rest_update fun _ => ?_) hg
            rfl

theorem keepsDies_toIntegrator (code r0 r1 : Nat) (h : Hub) : KeepsDies (toIntegrator code r0 r1 h) h := by
  unfold toIntegrator
  split
  · exact .refl h
  · exact keepsDies_postEvent _ _ _ _ h

/-! ### Ports -/

theorem keepsDies_of_offPorts {g h : Hub} (e : g.offPorts = h.offPorts) : KeepsDies g h := .of_dies (congrArg Hub.dies e :)

theorem keepsDies_sendBlock (k typ : Nat) (bytes data : Bytes) (h : Hub) : KeepsDies (sendBlock k typ bytes data h) h :=
  keepsDies_of_offPorts (offPorts_sendBlock k typ bytes data h)

theorem keepsDies_linkEvent (k r : Nat) (h : Hub) : KeepsDies (linkEvent k r h) h :=
  (keepsDies_postEvents _ _ _ _ _).trans (keepsDies_fbkRecord _ _ _ _ _ h)

theorem keepsDies_linkGoes (k : Nat) (st : LinkState) (r : Nat) (h : Hub) : KeepsDies (linkGoes k st r h) h :=
  (keepsDies_linkEvent k r _).trans (.of_dies rfl)

theorem keepsDies_enterSeek (k r : Nat) (h : Hub) : KeepsDies (enterSeek k r h) h :=
  (keepsDies_of_offPorts (offPorts_trainSend 1 k _)).trans ((keepsDies_linkGoes k .seek r _).trans (.of_dies rfl))

theorem keepsDies_chainBreak (k : Nat) (h : Hub) : KeepsDies (chainBreak k h) h := by
  unfold chainBreak
  extract_lets c g₁ g₂
  have h₂ : KeepsDies g₂ h := (keepsDies_toIntegrator _ _ _ g₁).trans (.of_dies rfl)
  split
  · split
    · exact h₂
    · split
      · exact (keepsDies_sendBlock _ 0x87 _ _ g₂).trans h₂
      · exact h₂
  · split
    · exact (keepsDies_toIntegrator _ _ _ _).trans (.of_dies rfl)
    · exact .of_dies rfl

theorem keepsDies_camIncomplete (k : Nat) (h : Hub) : KeepsDies (camIncomplete k h) h := by
  unfold camIncomplete
  split
  · exact .refl h
  · dsimp only
    split
    · exact .refl h
    · split
      · exact .of_dies rfl
      · exact (keepsDies_postEvents _ _ _ _ _).trans (.of_dies rfl)

theorem keepsDies_leaveUp (k : Nat) (h : Hub) : KeepsDies (leaveUp k h) h := by
  unfold leaveUp
  extract_lets g₁ g₂
  have h₂ : KeepsDies g₂ h := (keepsDies_camIncomplete k g₁).trans (.of_dies (congrArg Hub.dies (offOuts_cutFrame k h) :))
  split
  · exact (keepsDies_chainBreak k g₂).trans h₂
  · exact h₂

theorem keepsDies_goDeep (k : Nat) (h : Hub) : KeepsDies (goDeep k h) h := by
  have hl : KeepsDies (if carries h k then leaveUp k h else h) h := by
    split
    · exact keepsDies_leaveUp k h
    · exact .refl h
  exact (keepsDies_linkGoes k .deep 1 _).trans ((KeepsDies.of_dies rfl).trans hl)

/-! ### The hub outside its dies, outputs, ports and chain -/

/-- The hub without what reports and the state changes of links change. -/
def Hub.linkRest (h : Hub) : Hub := { h.rest with ports := [], outs := [], chain := {} }

theorem linkRest_of_rest {g h : Hub} (e : g.rest = h.rest) : g.linkRest = h.linkRest := (congrArg Hub.linkRest e :)

theorem linkRest_of_offPorts {g h : Hub} (e : g.offPorts = h.offPorts) : g.linkRest = h.linkRest := (congrArg Hub.linkRest e :)

theorem linkRest_sendBlock (k typ : Nat) (bytes data : Bytes) (h : Hub) : (sendBlock k typ bytes data h).linkRest = h.linkRest :=
  linkRest_of_offPorts (offPorts_sendBlock k typ bytes data h)

theorem linkRest_linkGoes (k : Nat) (st : LinkState) (r : Nat) (h : Hub) : (linkGoes k st r h).linkRest = h.linkRest :=
  (linkRest_of_rest (rest_linkEvent k r _)).trans rfl

theorem linkRest_enterSeek (k r : Nat) (h : Hub) : (enterSeek k r h).linkRest = h.linkRest :=
  (linkRest_of_offPorts (offPorts_trainSend 1 k _)).trans (linkRest_linkGoes k .seek r _)

theorem linkRest_chainEvent (r : Nat) (h : Hub) : (chainEvent r h).linkRest = h.linkRest := linkRest_of_rest (rest_toIntegrator _ _ _ h)

theorem linkRest_chainBreak (k : Nat) (h : Hub) : (chainBreak k h).linkRest = h.linkRest := by
  unfold chainBreak
  extract_lets c g₁ g₂
  have h₂ : g₂.linkRest = h.linkRest := linkRest_chainEvent 3 g₁
  split
  · split
    · exact h₂
    · split
      · exact (linkRest_sendBlock _ 0x87 _ _ g₂).trans h₂
      · exact h₂
  · split
    · exact linkRest_chainEvent 4 _
    · rfl

theorem linkRest_camIncomplete (k : Nat) (h : Hub) : (camIncomplete k h).linkRest = h.linkRest := by
  unfold camIncomplete
  split
  · rfl
  · dsimp only
    split
    · rfl
    · split
      · rfl
      · exact (linkRest_of_rest (rest_postEvents _ _ _ _ _)).trans rfl

theorem linkRest_leaveUp (k : Nat) (h : Hub) : (leaveUp k h).linkRest = h.linkRest := by
  unfold leaveUp
  extract_lets g₁ g₂
  have h₁ : g₁.linkRest = h.linkRest := (congrArg Hub.linkRest (offOuts_cutFrame k h) :)
  have h₂ : g₂.linkRest = h.linkRest := (linkRest_camIncomplete k g₁).trans h₁
  split
  · exact (linkRest_chainBreak k g₂).trans h₂
  · exact h₂

theorem linkRest_goDeep (k : Nat) (h : Hub) : (goDeep k h).linkRest = h.linkRest := by
  have hl : (if carries h k then leaveUp k h else h).linkRest = h.linkRest := by
    split
    · exact linkRest_leaveUp k h
    · rfl
  exact (linkRest_linkGoes k .deep 1 _).trans hl

end Sys2Proof.Machine
end

section
/-!
Power states: entries, their commit point, wake events, exits, and the PWR_ commands (15 R392-R399, R416-R419; log entries 57, 59, 85).
-/

namespace Sys2Proof.Machine

/-! ### Changes of state, of clocks and of ports -/

/-- A change of power state reports itself, and is otherwise the state and its instant. -/
theorem keepsDies_pwrGoes (d : Nat) (p : PwrState) (h : Hub) :
    KeepsDies (pwrGoes d p h) (updPwr h d fun x => { x with state := p, stateTime := h.now }) :=
  (keepsDies_toIntegrator _ _ _ _).trans (keepsDies_intEvent d 4 _)

theorem pwr_pwrGoes (d : Nat) (p : PwrState) (h : Hub) :
    (getDie (pwrGoes d p h) d).pwr = { (getDie h d).pwr with state := p, stateTime := h.now } := by
  rw [(keepsDies_pwrGoes d p h).pwr d, updPwr, getDie_updDie]

theorem clk_pwrGoes (d : Nat) (p : PwrState) (h : Hub) : (getDie (pwrGoes d p h) d).clk = (getDie h d).clk := by
  rw [(keepsDies_pwrGoes d p h).clk d, updPwr, getDie_updDie]

theorem suspended_pwrGoes (d : Nat) (p : PwrState) (h : Hub) :
    (getDie (pwrGoes d p h) d).fbk.suspended = (getDie h d).fbk.suspended := by
  rw [(keepsDies_pwrGoes d p h).suspended d, updPwr, getDie_updDie]

theorem updPwr_now (h : Hub) (d : Nat) (f : Pwr → Pwr) : (updPwr h d f).now = h.now := rfl

theorem keepsDies_pllRecord (d i : Nat) (h : Hub) : KeepsDies (pllRecord d i h) h :=
  (keepsDies_fbkRecord _ _ _ _ _ _).trans (.of_dies rfl)

/-- A PLL that changes reports itself, and is otherwise written. -/
theorem keepsDies_updPll (d i : Nat) (f : Pll → Pll) (h : Hub) :
    KeepsDies (updPll d i f h) (updDie h d fun x => { x with clk := x.clk.setPll i (f (getPll h d i)) }) := by
  unfold updPll
  dsimp only
  split
  · exact .refl _
  · exact (keepsDies_pllRecord d i _).trans (keepsDies_intEvent d 9 _)

/-- The die whose clocks have stopped. -/
theorem kept_stopClocks (d : Nat) (h : Hub) : (getDie (stopClocks d h) d).kept = { (getDie h d).kept with
    clk := { (getDie h d).clk.setPll 0 { getPll h d 0 with locked := false, bypass := true } with
      rootOn := 0, rcActive := true, aligned := false } } := by
  have hp := keepsDies_updPll d 0 (fun p => { p with locked := false, bypass := true }) h d
  rw [getDie_updDie] at hp
  rw [stopClocks, getDie_updDie]
  exact (congrArg (fun x : Die => { x with clk := { x.clk with rootOn := 0, rcActive := true, aligned := false } }) hp :)

/-- The ports of a die that go down with it: its PCIe port holds its link in L1. -/
theorem kept_portsDeep (d : Nat) (h : Hub) : (getDie (portsDeep d h) d).kept =
    { (getDie h d).kept with pwr := { (getDie h d).pwr with l1 := true } } := by
  unfold portsDeep
  extract_lets g₁ g₂
  have h₁ : KeepsDies g₁ h := by
    refine KeepsDies.foldl (fun g k => ?_) _ h
    split
    case h_8 => exact .refl g
    all_goals exact keepsDies_goDeep k g
  rw [updPwr, getDie_updDie]
  exact (congrArg (fun x : Die => { x with pwr := { x.pwr with l1 := true } }) (h₁ d) :)

theorem now_portsDeep (d : Nat) (h : Hub) : (portsDeep d h).now = h.now := by
  unfold portsDeep
  extract_lets g₁ g₂
  have h₁ : g₁.linkRest = h.linkRest := by
    refine foldl_keeps Hub.linkRest (fun g k => ?_) _ h
    split
    case h_8 => rfl
    all_goals exact linkRest_goDeep k g
  exact (congrArg Hub.now h₁ :)

theorem suspended_fbkFlushed (f : Fbk) : (fbkFlushed f).suspended = f.suspended := by
  unfold fbkFlushed
  split <;> rfl

/-! ### The commit point of an entry to SLEEP or DEEP (15 R394) -/

/-- Step 4: the Field book records the entry and is flushed. -/
def entryBook (d : Nat) (e : PwrEntry) (h : Hub) : Hub := fbkFlush d (fbkRecord d 0 0x0001 e.target 0 h)

/-- Step 5: the Field book is suspended and the ports go down. -/
def entryPorts (d : Nat) (h : Hub) : Hub := portsDeep d (updFbk h d fun f => { f with suspended := true, enterAt := h.now })

/-- The commit point as the power manager counts it. -/
def Pwr.committed (e : PwrEntry) (now : Nat) (p : Pwr) : Pwr :=
  { p with
    entries := (p.entries + 1) % 65536, commitAt := now, entry := none
    replays := if e.wake = some 0 || e.wake.isSome then satInc 255 p.replays else p.replays }

/-- The completion of the PWR_STATE, where no other die holds it. -/
def entryPaid (e : PwrEntry) (h : Hub) : Hub := match e.cmd with | none => h | some p => if pwrHeld h p then h else completeOk p 0 0 h

/-- The hub once an entry has committed, but for a wake event latched. -/
def entryDone (d : Nat) (e : PwrEntry) (h : Hub) : Hub :=
  let h := entryPorts d (entryBook d e h)
  pwrGoes d (targetState e.target) (stopClocks d (entryPaid e (updPwr h d (Pwr.committed e h.now))))

theorem keepsDies_entryBook (d : Nat) (e : PwrEntry) (h : Hub) : KeepsDies (entryBook d e h) h :=
  (KeepsDies.of_rest_update fun x => by simp only [Die.kept, suspended_fbkFlushed]).trans (keepsDies_fbkRecord d 0 0x0001 e.target 0 h)

theorem now_entryBook (d : Nat) (e : PwrEntry) (h : Hub) : (entryBook d e h).now = h.now :=
  (now_of_rest (rest_fbkRecord d 0 0x0001 e.target 0 h) :)

theorem kept_entryPorts (d : Nat) (h : Hub) : (getDie (entryPorts d h) d).kept =
    { (getDie h d).kept with fbk := { suspended := true }, pwr := { (getDie h d).pwr with l1 := true } } := by
  rw [entryPorts, kept_portsDeep, updFbk, getDie_updDie]
  rfl

theorem now_entryPorts (d : Nat) (h : Hub) : (entryPorts d h).now = h.now := now_portsDeep d _

theorem keepsDies_entryPaid (e : PwrEntry) (h : Hub) : KeepsDies (entryPaid e h) h := by
  unfold entryPaid
  split
  · exact .refl h
  · split
    · exact .refl h
    · exact keepsDies_complete _ 0 255 0 0 h

theorem now_entryPaid (e : PwrEntry) (h : Hub) : (entryPaid e h).now = h.now := by
  unfold entryPaid
  split
  · rfl
  · split
    · rfl
    · exact now_of_rest (rest_complete _ 0 255 0 0 h)

theorem now_stopClocks (d : Nat) (h : Hub) : (stopClocks d h).now = h.now := by
  have hp : (updPll d 0 (fun p => { p with locked := false, bypass := true }) h).now = h.now := by
    unfold updPll
    dsimp only
    split
    · rfl
    · exact (now_of_rest (rest_fbkRecord _ _ _ _ _ _)).trans (now_of_rest (rest_intEvent d 9 _) :)
  exact hp

section
variable {d : Nat} {e : PwrEntry} {h : Hub} (hup : dieUp h d = true) (he : (getDie h d).pwr.entry = some e)
  (hs : (getDie h d).pwr.state = .entering) (hr : entryReady h d e.target = true) (ht : e.target = 2 ∨ e.target = 3)
include hup he hs hr ht

theorem entryCommit_asleep (hw : e.wake = none) : entryCommit d h = (entryDone d e h, []) := by
  have h4 : e.target ≠ 4 := by omega
  simp only [entryCommit, he, hs, hup, hr, h4, Bool.not_true, Bool.or_self, Bool.false_eq_true, if_false, decide_false, Bool.not_false,
    Bool.and_true]
  split
  next => rfl
  next w hw' => cases hw.symm.trans hw'

/-- A wake event latched during the entry starts the exit at once. -/
theorem entryCommit_woken {w : Nat} (hw : e.wake = some w) : entryCommit d h =
    (pwrGoes d .exiting (updPwr (entryDone d e h) d fun x => { x with lastWake := w + 1 }), []) := by
  have h4 : e.target ≠ 4 := by omega
  simp only [entryCommit, he, hs, hup, hr, h4, Bool.not_true, Bool.or_self, Bool.false_eq_true, if_false, decide_false, Bool.not_false,
    Bool.and_true]
  split
  next hw' => cases hw.symm.trans hw'
  next w' hw' =>
    cases hw.symm.trans hw'
    rfl

end

/-- The die whose entry has committed, but for its power manager, its clocks and its Field book. -/
theorem entryDone_pwr (d : Nat) (e : PwrEntry) (h : Hub) : (getDie (entryDone d e h) d).pwr =
    { ({ (getDie h d).pwr with l1 := true } : Pwr).committed e h.now with state := targetState e.target, stateTime := h.now } := by
  have hstop (g : Hub) : (getDie (stopClocks d g) d).pwr = (getDie g d).pwr := (congrArg Die.pwr (kept_stopClocks d g) :)
  have hports (g : Hub) : (getDie (entryPorts d g) d).pwr = { (getDie g d).pwr with l1 := true } :=
    (congrArg Die.pwr (kept_entryPorts d g) :)
  simp only [entryDone, pwr_pwrGoes, hstop, now_stopClocks, now_entryPaid, (keepsDies_entryPaid e _).pwr d, updPwr_now, now_entryPorts,
    now_entryBook]
  rw [updPwr, getDie_updDie, hports, (keepsDies_entryBook d e h).pwr d]

theorem entryDone_suspended (d : Nat) (e : PwrEntry) (h : Hub) : (getDie (entryDone d e h) d).fbk.suspended = true := by
  have hstop (g : Hub) : (getDie (stopClocks d g) d).fbk.suspended = (getDie g d).fbk.suspended :=
    (congrArg (fun x : Die => x.fbk.suspended) (kept_stopClocks d g) :)
  have hports (g : Hub) : (getDie (entryPorts d g) d).fbk.suspended = true :=
    (congrArg (fun x : Die => x.fbk.suspended) (kept_entryPorts d g) :)
  simp only [entryDone, suspended_pwrGoes, hstop, (keepsDies_entryPaid e _).suspended d]
  rw [updPwr, getDie_updDie]
  exact hports _

theorem entryDone_root (d : Nat) (e : PwrEntry) (h : Hub) : (getDie (entryDone d e h) d).clk.root.locked = false := by
  rw [entryDone, clk_pwrGoes]
  exact (congrArg (fun x : Die => x.clk.root.locked) (kept_stopClocks d _) :)

/-! ### Wake events (15 R396, R397) -/

section
variable {d cause : Nat} {h : Hub} (hup : dieUp h d = true) (hen : (getDie h d).pwr.wakeEn.testBit cause = true ∨ cause = 1) (hc : cause ≤ 5)
include hup hen hc

theorem wakeEvent_enabled : wakeEvent d cause h =
    if (getDie h d).pwr.state == .entering then
      updPwr h d fun x => { x with entry := x.entry.map fun e => { e with wake := if e.wake.isNone then some cause else e.wake } }
    else if asleep h d then pwrGoes d .exiting (updPwr h d fun x => { x with lastWake := cause + 1 })
    else h := by
  have hb : (bit (getDie h d).pwr.wakeEn cause || cause == 1) = true := by simpa [bit] using hen
  simp only [wakeEvent, hup, hb, Nat.not_lt.mpr hc, decide_false, Bool.not_true, Bool.or_self, Bool.false_eq_true, if_false]

/-- A die in SLEEP or DEEP starts its exit. -/
theorem wakeEvent_asleep (ha : asleep h d = true) :
    wakeEvent d cause h = pwrGoes d .exiting (updPwr h d fun x => { x with lastWake := cause + 1 }) := by
  have hs : ((getDie h d).pwr.state == .entering) = false := by
    have hor : (getDie h d).pwr.state = .sleep ∨ (getDie h d).pwr.state = .deep := by simpa [asleep] using ha
    rcases hor with e | e <;> rw [e] <;> rfl
  rw [wakeEvent_enabled hup hen hc, hs, if_neg Bool.false_ne_true, if_pos ha]

/-- A die in its entry remembers the first. -/
theorem wakeEvent_entering (hs : (getDie h d).pwr.state = .entering) {e : PwrEntry} (he : (getDie h d).pwr.entry = some e) :
    wakeEvent d cause h =
      updPwr h d fun x => { x with entry := some { e with wake := if e.wake.isNone then some cause else e.wake } } := by
  rw [wakeEvent_enabled hup hen hc, hs, if_pos (beq_self_eq_true _)]
  refine updDie_congr h d ?_
  simp only [he, Option.map_some]

theorem wakeEvent_run (hs : (getDie h d).pwr.state = .run) : wakeEvent d cause h = h := by
  have ha : asleep h d = false := by simp [asleep, hs]
  rw [wakeEvent_enabled hup hen hc, hs, ha, if_neg (by decide), if_neg Bool.false_ne_true]

end

theorem wakeRow_plain {d cause : Nat} {h : Hub} (h3 : cause ≠ 3) (h5 : cause = 5 → (getDie h d).pwr.level ≠ 0) :
    wakeRow d cause h = wakeEvent d cause h := by
  have hn : ¬ (decide (cause = 5) && decide ((getDie h d).pwr.level = 0)) = true := by
    simp only [Bool.and_eq_true, decide_eq_true_eq]
    exact fun ⟨h, h0⟩ => h5 h h0
  simp only [wakeRow, if_neg h3, if_neg hn]

/-- The timer of a die asleep elapses its ticks after the commit point. -/
theorem wakeRow_timer {d : Nat} {h : Hub} (hup : dieUp h d = true) (ha : asleep h d = true) (ht : (getDie h d).pwr.wakeTimer ≠ 0)
    (hen : (getDie h d).pwr.wakeEn.testBit 3 = true) {t n : Nat} (hticks : ticksNs d (getDie h d).pwr.wakeTimer h = (t, { h with freeIx := n })) :
    wakeRow d 3 h = pwrGoes d .exiting
      (updPwr (at_ ((getDie h d).pwr.commitAt + t) { h with freeIx := n }) d fun x => { x with lastWake := 4 }) := by
  have hen' : bit (getDie h d).pwr.wakeEn 3 = true := hen
  simp only [wakeRow, if_true, ht, ha, hen', decide_false, Bool.not_true, Bool.or_self, Bool.false_eq_true, if_false, hticks]
  exact wakeEvent_asleep (h := at_ ((getDie h d).pwr.commitAt + t) { h with freeIx := n }) hup (Or.inl hen) (by omega) ha

theorem ticksNs_crystal {d n : Nat} {h : Hub} (hx : (getDie h d).clk.xtalOk = true) :
    ticksNs d n h = (n * (30517 * 64 + 37) / 64, { h with freeIx := h.freeIx }) := by
  simp only [ticksNs, hx, if_true, crystalNs]

/-- On the slow RC oscillator a tick takes from 28,409 to 34,723 ns (16 R422). -/
theorem ticksNs_rc {d n : Nat} {h : Hub} (hx : (getDie h d).clk.xtalOk = false) : ∃ t, 28409 * n ≤ t ∧ t ≤ 34723 * n ∧
    ticksNs d n h = (t, { h with freeIx := h.freeIx + 1 }) := by
  have hlt : (Config.freeWord h.freeIx).toNat % (n * 6314 + 1) < n * 6314 + 1 := Nat.mod_lt _ (Nat.succ_pos _)
  refine ⟨n * 28409 + (Config.freeWord h.freeIx).toNat % (n * 6314 + 1), ?_, ?_, ?_⟩
  · omega
  · omega
  · simp only [ticksNs, hx, Bool.false_eq_true, if_false, takeFree]

/-! ### The exit (15 R395) -/

theorem keepsDies_runDone (d : Nat) (h : Hub) : KeepsDies (runDone d h) (updPwr h d fun x => { x with runCmds := [] }) := by
  unfold runDone
  refine KeepsDies.foldl (fun g p => ?_) _ _
  split
  · exact .refl g
  · exact keepsDies_complete p 0 255 0 0 g

/-- The power manager of a die whose exit has ended, before it is in RUN. -/
def Pwr.woken (p : Pwr) : Pwr :=
  { p with
    l1 := false, wakes := satInc 255 p.wakes
    sensors := (List.range 12).map fun n => (n, { sensorOf p n with valid := false, seen := 0 }) }

/-- The dies and ports at the end of an exit, before reports. -/
def exitWoken (d : Nat) (h : Hub) : Hub :=
  let h := updPort (updPwr h d fun p => { p with l1 := false }) (8 * d + 2) fun p => { p with ulps := false }
  let h := updPwr h d fun p => { p with
    wakes := satInc 255 p.wakes
    sensors := (List.range 12).map fun n => (n, { sensorOf p n with valid := false, seen := 0 }) }
  let h := updDie h d fun x => { x with clk := { x.clk with aligned := true } }
  updFbk h d fun f => { f with suspended := false }

/-- A crystal lost while the die slept is reported now (16 R432). -/
def exitLost (d : Nat) (lost : Bool) (h : Hub) : Hub :=
  if lost then
    let u := unitId 6 d 0
    faultReport d 0x0704 u u 0 (updDie h d fun x => { x with clk := { x.clk with xtalLost := false } })
  else h

/-- The Traverse ports of a die that has woken train. -/
def exitPorts (d : Nat) (h : Hub) : Hub :=
  ([4, 5, 6, 7].map (· + 8 * d)).foldl (fun h k => if (getPort h k).state == .deep then enterSeek k 1 h else h) h

/-- What follows the change to RUN: the record of the exit, a crystal lost in it, the ports that train, and the commands that waited. -/
def exitTold (d : Nat) (lost : Bool) (h : Hub) : Hub :=
  runDone d (exitPorts d (exitLost d lost (fbkRecord d 0 0x0002 (getDie h d).pwr.lastWake (getDie h d).fbk.enterAt h)))

theorem keepsDies_exitPorts (d : Nat) (h : Hub) : KeepsDies (exitPorts d h) h := by
  refine KeepsDies.foldl (fun g k => ?_) _ h
  split
  · exact keepsDies_enterSeek k 1 g
  · exact .refl g

/-- The hub whose timebase has resumed, where the principal's die wakes. -/
def exitClock (d : Nat) (h : Hub) : Hub := if d = h.pkg.principal then (let (t, h) := crystalTime d h; { h with now := t }) else h

theorem exitComplete_locked {d : Nat} {h : Hub} (hup : dieUp h d = true) (hs : (getDie h d).pwr.state = .exiting)
    (hl : (getDie h d).clk.root.locked = true) : exitComplete d h =
      exitTold d (getDie h d).clk.xtalLost (pwrGoes d .run (exitWoken d (exitClock d h))) := by
  simp only [exitComplete, hup, hs, hl, Bool.not_true, bne_self_eq_false, Bool.or_self, Bool.false_eq_true, if_false]
  rfl

theorem keepsDies_exitClock (d : Nat) (h : Hub) : KeepsDies (exitClock d h) h := by
  have ht (n : Nat) : (ticksIn d n h).2.dies = h.dies := by
    unfold ticksIn
    split <;> rfl
  unfold exitClock
  split
  · exact .of_dies (ht _)
  · exact .refl h

theorem getDie_exitWoken (d : Nat) (h : Hub) : getDie (exitWoken d h) d = { getDie h d with
    pwr := (getDie h d).pwr.woken, clk := { (getDie h d).clk with aligned := true }
    fbk := { (getDie h d).fbk with suspended := false } } := by
  simp only [exitWoken, updFbk, updPwr, getDie_updDie, getDie_updPort]
  rfl

/-- What the end of an exit tells leaves of the die all but commands that waited, and a crystal reported lost. -/
theorem exitTold_die (d : Nat) (lost : Bool) (h : Hub) : (getDie (exitTold d lost h) d).kept = { (getDie h d).kept with
    pwr := { (getDie h d).pwr with runCmds := [] }
    clk := { (getDie h d).clk with xtalLost := if lost then false else (getDie h d).clk.xtalLost } } := by
  have k₁ : KeepsDies (fbkRecord d 0 0x0002 (getDie h d).pwr.lastWake (getDie h d).fbk.enterAt h) h := keepsDies_fbkRecord _ _ _ _ _ h
  rw [exitTold]
  generalize fbkRecord d 0 0x0002 (getDie h d).pwr.lastWake (getDie h d).fbk.enterAt h = g₁ at k₁ ⊢
  have k₂ : (getDie (exitLost d lost g₁) d).kept = { (getDie h d).kept with
      clk := { (getDie h d).clk with xtalLost := if lost then false else (getDie h d).clk.xtalLost } } := by
    cases lost with
    | false => exact k₁ d
    | true =>
      refine (keepsDies_faultReport d 0x0704 _ _ 0 _ d).trans ?_
      rw [getDie_updDie]
      exact (congrArg (fun x : Die => { x with clk := { x.clk with xtalLost := false } }) (k₁ d) :)
  have k₃ := (keepsDies_exitPorts d (exitLost d lost g₁) d).trans k₂
  generalize exitPorts d (exitLost d lost g₁) = g₃ at k₃ ⊢
  rw [keepsDies_runDone d g₃ d, updPwr, getDie_updDie]
  exact (congrArg (fun x : Die => { x with pwr := { x.pwr with runCmds := [] } }) k₃ :)

theorem Tab.find_map_pair {α : Type} (f : Nat → α) {l : List Nat} {n : Nat} (hn : n ∈ l) :
    Tab.find (l.map fun n => (n, f n)) n = some (f n) := by
  induction l with
  | nil => cases hn
  | cons a l ih =>
    by_cases ha : a = n
    · rw [List.map_cons, Tab.find, if_pos ha, ha]
    · rw [List.map_cons, Tab.find, if_neg ha]
      exact ih ((List.mem_cons.mp hn).resolve_left (Ne.symm ha))

/-- No sensor is valid after an exit. -/
theorem sensorOf_woken (p : Pwr) {n : Nat} (hn : n < 12) : (sensorOf p.woken n).valid = false := by
  have hfind := Tab.find_map_pair (fun n => ({ sensorOf p n with valid := false, seen := 0 } : Sensor)) (List.mem_range.mpr hn)
  rw [sensorOf, Pwr.woken, Tab.get, hfind]
  rfl

/-- The die once its exit has ended. -/
theorem exitComplete_die {d : Nat} {h : Hub} (hup : dieUp h d = true) (hs : (getDie h d).pwr.state = .exiting)
    (hl : (getDie h d).clk.root.locked = true) : ∃ t lost, (getDie (exitComplete d h) d).kept = { (getDie h d).kept with
      pwr := { (getDie h d).pwr.woken with state := .run, stateTime := t, runCmds := [] }
      clk := { (getDie h d).clk with aligned := true, xtalLost := lost }, fbk := { suspended := false } } := by
  have hclock := keepsDies_exitClock d h d
  rw [exitComplete_locked hup hs hl]
  generalize exitClock d h = g at hclock ⊢
  have hgoes := keepsDies_pwrGoes d .run (exitWoken d g) d
  rw [updPwr, getDie_updDie, getDie_exitWoken] at hgoes
  refine ⟨(exitWoken d g).now, if (getDie h d).clk.xtalLost then false else (getDie g d).clk.xtalLost, (exitTold_die d _ _).trans ?_⟩
  generalize pwrGoes d .run (exitWoken d g) = f at hgoes ⊢
  refine (congrArg (fun x : Die => { x with
    pwr := { x.pwr with runCmds := [] }
    clk := { x.clk with xtalLost := if (getDie h d).clk.xtalLost then false else x.clk.xtalLost } }) hgoes :).trans ?_
  exact (congrArg (fun x : Die => { x with
    pwr := { x.pwr.woken with state := .run, stateTime := (exitWoken d g).now, runCmds := [] }
    clk := { x.clk with aligned := true, xtalLost := if (getDie h d).clk.xtalLost then false else (getDie g d).clk.xtalLost }
    fbk := { suspended := false } }) hclock :)

/-- Settles O51: the commands, the commit point, wake events by source, the exit, and IDLE. -/
theorem powerStates : Obligations.PowerStates := by
  refine ⟨fun c s => ⟨fun ha ht => ⟨fun hn => ?enter, fun e k i hr => ?refuse⟩, fun ha ht => ⟨fun hd => ?awake, fun hd => ?wait⟩,
    fun ha => ⟨fun hd => ?package, fun hd => ?die⟩, fun ha => ha.next_done rfl⟩, fun d e s hup he hs hr ht => ?commit,
    fun d cause s hup hen hc h3 h5 => ⟨fun ha => ?asleep, fun e hs he => ?entering, fun hs => ?run⟩,
    fun d s => ⟨fun hup ha ht hen => ⟨fun hx => ?crystal, fun hx => ?rc⟩, fun hup hs hl => ?exit, fun hup hp => ⟨fun hs => ?idle, fun hs => ?busy⟩⟩⟩
  case enter =>
    refine ha.next_later ?_
    simp only [pwrStateCmd, if_neg ht]
    rw [show firstRefusal (fetched c.ctx s.hub) (entryDies (fetched c.ctx s.hub) (arg8 c 16)) = none from hn]
    rfl
  case refuse =>
    refine ha.next_fail ?_
    simp only [pwrStateCmd, if_neg ht]
    rw [show firstRefusal (fetched c.ctx s.hub) (entryDies (fetched c.ctx s.hub) (arg8 c 16)) = some (e, k, i) from hr]
    rfl
  case awake =>
    refine ha.next_done ?_
    simp only [pwrStateCmd, ht, if_true, runDies]
    exact if_pos (List.isEmpty_iff.mpr hd)
  case wait =>
    refine ha.next_later ?_
    simp only [pwrStateCmd, ht, if_true, runDies]
    exact if_neg fun h => hd (List.isEmpty_iff.mp h)
  case package => exact ha.next_done (congrArg okRes (if_pos hd))
  case die => exact ha.next_done (congrArg okRes (if_neg hd))
  case commit =>
    have hp := entryDone_pwr d e s.hub
    cases hw : e.wake with
    | none =>
      refine ⟨_, congrArg Host.Outcome.next (act_eq_of_no_writes (entryCommit_asleep hup he hs hr ht hw)), rfl, rfl,
        (congrArg Pwr.entries hp :), (congrArg Pwr.commitAt hp :), (congrArg Pwr.entry hp :), entryDone_suspended d e s.hub,
        (congrArg Pwr.l1 hp :), entryDone_root d e s.hub, fun _ => (congrArg Pwr.state hp).trans ?_, fun w hw => (Option.some_ne_none w hw.symm).elim⟩
      rcases ht with h | h <;> rw [h] <;> rfl
    | some w =>
      have hq : (getDie (pwrGoes d .exiting (updPwr (entryDone d e s.hub) d fun x => { x with lastWake := w + 1 })) d).pwr =
          { (getDie (entryDone d e s.hub) d).pwr with
            lastWake := w + 1, state := .exiting, stateTime := (entryDone d e s.hub).now } := by
        rw [pwr_pwrGoes, updPwr, getDie_updDie]
        rfl
      rw [hp] at hq
      refine ⟨_, congrArg Host.Outcome.next (act_eq_of_no_writes (entryCommit_woken hup he hs hr ht hw)), rfl, rfl,
        (congrArg Pwr.entries hq :), (congrArg Pwr.commitAt hq :), (congrArg Pwr.entry hq :), ?_, (congrArg Pwr.l1 hq :), ?_,
        fun hn => (Option.some_ne_none w hn).elim, fun v hv => ?_⟩
      · refine (suspended_pwrGoes d .exiting _).trans ?_
        rw [updPwr, getDie_updDie]
        exact entryDone_suspended d e s.hub
      · refine (congrArg (fun x : Clk => x.root.locked) (clk_pwrGoes d .exiting _)).trans ?_
        rw [updPwr, getDie_updDie]
        exact entryDone_root d e s.hub
      · cases hv
        exact ⟨(congrArg Pwr.state hq :), (congrArg Pwr.lastWake hq :)⟩
  case asleep => exact next_onHub_congr ((wakeRow_plain h3 h5).trans (wakeEvent_asleep hup hen hc ha))
  case entering => exact next_onHub_congr ((wakeRow_plain h3 h5).trans (wakeEvent_entering hup hen hc hs he))
  case run => exact next_onHub_congr (g := s.hub) ((wakeRow_plain h3 h5).trans (wakeEvent_run hup hen hc hs))
  case crystal => exact next_onHub_congr (wakeRow_timer hup ha ht hen (ticksNs_crystal hx))
  case rc =>
    obtain ⟨t, hlo, hhi, hticks⟩ := ticksNs_rc hx
    exact ⟨t, hlo, hhi, next_onHub_congr (wakeRow_timer hup ha ht hen hticks)⟩
  case exit =>
    obtain ⟨t, lost, hk⟩ := exitComplete_die hup hs hl
    refine ⟨_, next_onHub_congr rfl, rfl, rfl, (congrArg (fun x : Die => x.pwr.state) hk :), (congrArg (fun x : Die => x.pwr.wakes) hk :),
      (congrArg (fun x : Die => x.clk.aligned) hk :), (congrArg (fun x : Die => x.fbk.suspended) hk :), fun n hn => ?_⟩
    exact (congrArg (fun x : Die => (sensorOf x.pwr n).valid) hk :).trans (sensorOf_woken (getDie s.hub d).pwr hn)
  case idle =>
    refine next_onHub_congr ?_
    simp only [idleGoes, hup, hp, hs, beq_self_eq_true, Bool.and_self, if_true]
  case busy =>
    refine next_onHub_congr ?_
    simp only [idleGoes, hup, hp, hs, beq_self_eq_true, Bool.and_self, if_true]

end Sys2Proof.Machine
end

section
/-!
What the end of work, contexts, transactions and outputs leaves as it was: the package, the timebase, the TAP, and of each die the Keeper's
registers, the power state, the root PLL, the stand-in oscillator, and the engines that Survey has retired (15 R390; 16 R425; 17 R449;
18 R471-R474).
-/

namespace Sys2Proof.Machine

/-- What no end of work touches of a die. -/
def Die.fixed (d : Die) : Kpr × PwrState × Bool × Pll × Nat × Nat :=
  (d.kpr, d.pwr.state, d.clk.rcActive, d.clk.root, d.srv.engRetired, d.srv.cLasting)

/-- What no end of work touches of the hub. -/
def Hub.fixed (h : Hub) : Pkg × Nat × (Nat → Kpr × PwrState × Bool × Pll × Nat × Nat) × Jtag :=
  (h.pkg, h.now, fun k => (getDie h k).fixed, h.jtag)

section
variable {g h : Hub}

theorem fixed_of (hp : g.pkg = h.pkg) (hn : g.now = h.now) (hj : g.jtag = h.jtag)
    (hd : ∀ k, (getDie g k).fixed = (getDie h k).fixed) : g.fixed = h.fixed := by
  simp only [Hub.fixed, hp, hn, hj, hd]

theorem fixed_of_rest (e : g.rest = h.rest) (hd : ∀ k, (getDie g k).fixed = (getDie h k).fixed) : g.fixed = h.fixed :=
  fixed_of (pkg_of_rest e) (now_of_rest e) (jtag_of_rest e) hd

theorem fixed_of_rest_dies (e : g.rest = h.rest) (hd : g.dies = h.dies) : g.fixed = h.fixed :=
  fixed_of_rest e fun k => by rw [getDie, getDie, hd]

theorem fixed_of_offPorts (e : g.offPorts = h.offPorts) : g.fixed = h.fixed := (congrArg Hub.fixed e :)

theorem fixed_of_offOuts (e : g.offOuts = h.offOuts) : g.fixed = h.fixed := (congrArg Hub.fixed e :)

section
variable (e : g.fixed = h.fixed)
include e

theorem pkg_of_fixed : g.pkg = h.pkg := (congrArg Prod.fst e :)
theorem now_of_fixed : g.now = h.now := (congrArg (fun x => x.2.1) e :)
theorem jtag_of_fixed : g.jtag = h.jtag := (congrArg (fun x => x.2.2.2) e :)
theorem die_of_fixed (k : Nat) : (getDie g k).fixed = (getDie h k).fixed := (congrArg (fun x => x.2.2.1 k) e :)
theorem kpr_of_fixed (k : Nat) : (getDie g k).kpr = (getDie h k).kpr := (congrArg Prod.fst (die_of_fixed e k) :)
theorem pwrState_of_fixed (k : Nat) : (getDie g k).pwr.state = (getDie h k).pwr.state :=
  (congrArg (fun x => x.2.1) (die_of_fixed e k) :)
theorem rcActive_of_fixed (k : Nat) : (getDie g k).clk.rcActive = (getDie h k).clk.rcActive :=
  (congrArg (fun x => x.2.2.1) (die_of_fixed e k) :)
theorem root_of_fixed (k : Nat) : (getDie g k).clk.root = (getDie h k).clk.root :=
  (congrArg (fun x => x.2.2.2.1) (die_of_fixed e k) :)
theorem engRetired_of_fixed (k : Nat) : (getDie g k).srv.engRetired = (getDie h k).srv.engRetired :=
  (congrArg (fun x => x.2.2.2.2.1) (die_of_fixed e k) :)
theorem cLasting_of_fixed (k : Nat) : (getDie g k).srv.cLasting = (getDie h k).srv.cLasting :=
  (congrArg (fun x => x.2.2.2.2.2) (die_of_fixed e k) :)

end
end

theorem fixed_foldl {α : Type} {f : Hub → α → Hub} (hf : ∀ g a, (f g a).fixed = g.fixed) (l : List α) (h : Hub) :
    (l.foldl f h).fixed = h.fixed :=
  foldl_keeps Hub.fixed hf l h

theorem fixed_updDie (h : Hub) (d : Nat) {f : Die → Die} (hf : ∀ x, (f x).fixed = x.fixed) : (updDie h d f).fixed = h.fixed :=
  fixed_of rfl rfl rfl fun k => getDie_updDie_keeps Die.fixed h d k hf

/-! ### Reports and messages -/

theorem fixed_fbkRecord (d src typ a0 a1 : Nat) (h : Hub) : (fbkRecord d src typ a0 a1 h).fixed = h.fixed := by
  unfold fbkRecord
  split
  · exact fixed_updDie h d fun _ => rfl
  · rfl

theorem fixed_postEvent (c code r0 r1 : Nat) (h : Hub) : (postEvent c code r0 r1 h).fixed = h.fixed :=
  fixed_of_rest_dies (rest_postEvent c code r0 r1 h) (dies_postEvent c code r0 r1 h)

theorem fixed_postEvents (cs : List Nat) (code r0 r1 : Nat) (h : Hub) : (postEvents cs code r0 r1 h).fixed = h.fixed :=
  fixed_of_rest_dies (rest_postEvents cs code r0 r1 h) (dies_postEvents cs code r0 r1 h)

theorem fixed_complete (p : Pend) (st off r0 r1 : Nat) (h : Hub) : (complete p st off r0 r1 h).fixed = h.fixed := by
  have hf := fixed_fbkRecord (homeDie p.ctx) 1 0x0101 (p.opcode + 65536 * st) (p.ctx + 4096 * p.tag) h
  unfold complete
  dsimp only
  split
  · exact hf
  · split
    · exact Eq.trans rfl hf
    · exact (fixed_of_rest_dies (rest_postEntry _ _ _ _ _ _ _ _ _ _ _) (dies_postEntry _ _ _ _ _ _ _ _ _ _ _)).trans (Eq.trans rfl hf)

theorem fixed_intRaise (d : Nat) (h : Hub) : (intRaise d h).fixed = h.fixed := by
  unfold intRaise
  dsimp only
  split
  · exact fixed_updDie h d fun _ => rfl
  · rfl

theorem fixed_intEvent (d n : Nat) (h : Hub) : (intEvent d n h).fixed = h.fixed := by
  have hc : (updDie h d fun x =>
      { x with regs := { x.regs with intCount := x.regs.intCount.set n ((x.regs.intCount.get n 0 + 1) % 65536) } }).fixed = h.fixed :=
    fixed_updDie h d fun _ => rfl
  unfold intEvent
  split
  · rfl
  · dsimp only
    split
    · exact (fixed_intRaise d _).trans hc
    · exact hc

theorem fixed_dropErrors (d n : Nat) (h : Hub) : (dropErrors d n h).fixed = h.fixed :=
  fixed_updDie h d (f := fun x => { x with srv := { x.srv with dropped := satAdd 255 x.srv.dropped n } }) fun _ => rfl

theorem fixed_faultReport (d cause unit reporter detail : Nat) (h : Hub) :
    (faultReport d cause unit reporter detail h).fixed = h.fixed := by
  unfold faultReport
  split
  · rfl
  · extract_lets srv new g
    have hg : g.fixed = h.fixed := by
      simp only [g]
      split
      · exact fixed_intEvent d 12 h
      · rfl
    split
    · refine Eq.trans (fixed_updDie g d fun _ => ?_) hg
      rfl
    · split
      · exact Eq.trans rfl hg
      · split
        · split
          · exact (fixed_dropErrors d 1 g).trans hg
          · have hh : (updDie g d fun x => { x with srv := { x.srv with held := satInc 255 x.srv.held } }).fixed = g.fixed :=
              fixed_updDie g d fun _ => rfl
            exact Eq.trans rfl (hh.trans hg)
        · split
          · exact (fixed_dropErrors d 1 g).trans hg
          · refine Eq.trans (fixed_updDie g d fun _ => ?_) hg
            rfl

theorem fixed_toIntegrator (code r0 r1 : Nat) (h : Hub) : (toIntegrator code r0 r1 h).fixed = h.fixed := by
  unfold toIntegrator
  split
  · rfl
  · exact fixed_postEvent _ _ _ _ h

theorem fixed_emptyBuffer (d : Nat) (h : Hub) : (emptyBuffer d h).fixed = h.fixed := by
  unfold emptyBuffer
  split
  · rfl
  · exact fixed_updDie h d fun _ => rfl

theorem fixed_broadcast (h : Hub) : (broadcast h).fixed = h.fixed := fixed_foldl (fun g d => fixed_emptyBuffer d g) _ h

theorem fixed_writesTouched (ws : List MemWrite) (h : Hub) : (writesTouched ws h).fixed = h.fixed :=
  fixed_of_offOuts (offOuts_writesTouched ws h)

/-! ### Ports and the chain -/

theorem fixed_linkEvent (k r : Nat) (h : Hub) : (linkEvent k r h).fixed = h.fixed :=
  (fixed_postEvents _ _ _ _ _).trans (fixed_fbkRecord _ _ _ _ _ h)

theorem fixed_linkGoes (k : Nat) (st : LinkState) (r : Nat) (h : Hub) : (linkGoes k st r h).fixed = h.fixed :=
  (fixed_linkEvent k r _).trans rfl

theorem fixed_chainEvent (r : Nat) (h : Hub) : (chainEvent r h).fixed = h.fixed := fixed_toIntegrator _ _ _ h

theorem fixed_chainBreak (k : Nat) (h : Hub) : (chainBreak k h).fixed = h.fixed := by
  unfold chainBreak
  extract_lets c g₁ g₂
  have h₂ : g₂.fixed = h.fixed := fixed_chainEvent 3 g₁
  split
  · split
    · exact h₂
    · split
      · exact (fixed_of_offPorts (offPorts_sendBlock _ 0x87 _ _ g₂)).trans h₂
      · exact h₂
  · split
    · exact fixed_chainEvent 4 _
    · rfl

theorem fixed_camFault (k cause frame : Nat) (h : Hub) : (camFault k cause frame h).fixed = h.fixed :=
  fixed_postEvents _ _ _ _ (updPort h k _)

theorem fixed_portIdles (o : Nat) (h : Hub) : (portIdles o h).fixed = h.fixed := by
  unfold portIdles
  split
  · rfl
  · split
    · split
      · exact fixed_of_offPorts (offPorts_sendBlock _ _ _ _ h)
      · rfl
    · rfl

theorem fixed_linkForMode (o : Nat) (h : Hub) : (linkForMode o h).fixed = h.fixed := by
  unfold linkForMode
  extract_lets x
  split
  · extract_lets g p
    have hg : g.fixed = h.fixed := by
      simp only [g]
      split <;> rfl
    split
    · split
      · exact (fixed_linkGoes _ _ _ g).trans hg
      · split
        · exact hg
        · exact (fixed_linkGoes _ _ _ (updPort g _ _)).trans hg
    · exact hg
  · rfl

/-! ### Display PLLs -/

theorem fixed_pllRecord (d i : Nat) (h : Hub) : (pllRecord d i h).fixed = h.fixed := by
  unfold pllRecord
  exact (fixed_fbkRecord d 8 0x0801 _ _ (takeFree h).2).trans rfl

theorem root_setPll {i : Nat} (hi : i ≠ 0) (c : Clk) (p : Pll) : (c.setPll i p).root = c.root ∧ (c.setPll i p).rcActive = c.rcActive := by
  unfold Clk.setPll
  split
  · exact absurd rfl hi
  · exact ⟨rfl, rfl⟩
  · exact ⟨rfl, rfl⟩

/-- A display PLL is not the root (16 R426). -/
theorem fixed_updPll (d i : Nat) (f : Pll → Pll) (h : Hub) (hi : i ≠ 0) : (updPll d i f h).fixed = h.fixed := by
  unfold updPll
  extract_lets p q g
  have hg : g.fixed = h.fixed := fixed_updDie h d fun x => by
    simp only [Die.fixed, root_setPll hi]
  split
  · exact hg
  · exact (fixed_pllRecord d i _).trans ((fixed_intEvent d 9 g).trans hg)

theorem fixed_shareSpread (o : Nat) (h : Hub) : (shareSpread o h).fixed = h.fixed := by
  unfold shareSpread
  dsimp only
  split
  · rfl
  · refine fixed_foldl (fun g m => ?_) _ h
    split
    · rfl
    · exact fixed_updPll _ _ _ g (Nat.succ_ne_zero _)

theorem fixed_releasePlls (d : Nat) (h : Hub) : (releasePlls d h).fixed = h.fixed := by
  refine fixed_foldl (fun g k => ?_) _ h
  split
  · exact fixed_updPll _ _ _ g (Nat.succ_ne_zero _)
  · rfl

theorem fixed_takePll (o : Nat) (e : ModeEntry) (h : Hub) : (takePll o e h).fixed = h.fixed := by
  unfold takePll
  extract_lets d k runs g₁ g₂ g₃
  have h₁ : g₁.fixed = h.fixed := by
    simp only [g₁]
    split
    · rfl
    · refine fixed_foldl (fun g u => ?_) _ h
      rfl
  have h₃ : g₃.fixed = h.fixed := by
    simp only [g₃]
    split
    · exact h₁
    · exact (fixed_updPll _ _ _ g₂ (Nat.succ_ne_zero _)).trans h₁
  exact (fixed_releasePlls d _).trans ((fixed_shareSpread o g₃).trans h₃)

/-! ### Outputs -/

theorem fixed_settleCache (o : Nat) (h : Hub) : (settleCache o h).fixed = h.fixed := by
  unfold settleCache
  dsimp only
  split
  · rfl
  · split <;> rfl

theorem fixed_latchStart (h : Hub) (o : Nat) : (latchStart h o).fixed = h.fixed := by
  unfold latchStart
  dsimp only
  split <;> rfl

theorem fixed_openStart (o : Nat) (h : Hub) : (openStart o h).fixed = h.fixed := by
  unfold openStart
  dsimp only
  split <;> rfl

theorem fixed_outEvent (o : Nat) (h : Hub) : (outEvent o h).fixed = h.fixed := by
  unfold outEvent
  split
  · rfl
  · exact fixed_postEvent _ _ _ _ h

theorem fixed_newDivisor (r o : Nat) (h : Hub) : (newDivisor r o h).fixed = h.fixed := by
  unfold newDivisor
  extract_lets x q g
  split
  · rfl
  · split
    · rfl
    · exact fixed_postEvent _ _ _ _ g

theorem fixed_rungGoes (d r : Nat) (h : Hub) : (rungGoes d r h).fixed = h.fixed := by
  unfold rungGoes
  extract_lets p g₁ g₂
  have h₁ : g₁.fixed = h.fixed := (fixed_intEvent d 4 _).trans (fixed_updDie h d fun _ => rfl)
  split
  · rfl
  · exact (fixed_foldl (fun g o => fixed_newDivisor r o g) _ g₂).trans ((fixed_fbkRecord d 0 0x0003 _ _ g₁).trans h₁)

theorem fixed_drainOut (o : Nat) (h : Hub) : (drainOut o h).fixed = h.fixed := (fixed_portIdles o _).trans rfl

theorem fixed_beginMode (o : Nat) (h : Hub) : (beginMode o h).fixed = h.fixed := by
  unfold beginMode
  extract_lets x run g₁ g₂ g₃
  split
  · rfl
  · have h₁ : g₁.fixed = h.fixed := by
      simp only [g₁]
      split
      · exact fixed_drainOut o h
      · rfl
    have h₃ : g₃.fixed = g₂.fixed := by
      simp only [g₃]
      split <;> rfl
    calc
      _ = (openStart o (linkForMode o (takePll o _ (settleCache o g₃)))).fixed := fixed_latchStart _ o
      _ = (linkForMode o (takePll o _ (settleCache o g₃))).fixed := fixed_openStart o _
      _ = (takePll o _ (settleCache o g₃)).fixed := fixed_linkForMode o _
      _ = (settleCache o g₃).fixed := fixed_takePll o _ _
      _ = g₃.fixed := fixed_settleCache o g₃
      _ = g₂.fixed := h₃
      _ = h.fixed := h₁

theorem fixed_beginStop (o : Nat) (old : Option ModeEntry) (h : Hub) : (beginStop o old h).fixed = h.fixed := by
  unfold beginStop
  dsimp only
  split
  · rfl
  · exact Eq.trans rfl (fixed_drainOut o h)

theorem fixed_outStopped (o : Nat) (h : Hub) : (outStopped o h).fixed = h.fixed :=
  (fixed_outEvent o _).trans ((fixed_releasePlls (o / 4) _).trans rfl)

theorem fixed_endOp (st r1 : Nat) (h : Hub) (p : LaneOp) : (endOp st r1 h p).fixed = h.fixed := by
  unfold endOp
  split
  · rfl
  · exact fixed_complete _ _ _ _ _ h

theorem fixed_dropOps (o st : Nat) (p : LaneOp → Bool) (h : Hub) : (dropOps o st p h).fixed = h.fixed :=
  (fixed_foldl (fun g q => fixed_endOp st 0 g q) _ _).trans rfl

theorem fixed_dropGrant (o : Nat) (new : Option Nat) (h : Hub) : (dropGrant o new h).fixed = h.fixed := by
  have hf : (forgetOps o (fun _ => true) h).fixed = h.fixed :=
    (congrArg Hub.fixed (offCtxs_forgetOps o (fun _ => true) h) :)
  exact Eq.trans rfl hf

theorem fixed_stopStream (o : Nat) (h : Hub) : (stopStream o h).fixed = h.fixed := rfl

theorem fixed_killOut (o : Nat) (h : Hub) : (killOut o h).fixed = h.fixed := by
  unfold killOut
  dsimp only
  split
  · rfl
  · exact (fixed_dropOps o _ _ _).trans ((fixed_outStopped o _).trans rfl)

theorem fixed_killPort (k : Nat) (h : Hub) : (killPort k h).fixed = h.fixed := by
  unfold killPort
  extract_lets p cmds g
  have hg : g.fixed = h.fixed := by
    simp only [g]
    split
    · exact fixed_chainBreak k h
    · rfl
  exact (fixed_foldl (fun g c => fixed_complete c _ _ _ _ g) _ _).trans (Eq.trans rfl hg)

end Sys2Proof.Machine
end

section
/-!
What applying and ending transactions, signalling timelines, stopping jobs, descriptors and streams, and ending contexts leave as it was:
`Hub.fixed` (07 R170-R176; 11 R300; 12 R319; 02 R26, R27; 18 R474).
-/

namespace Sys2Proof.Machine

/-! ### Transactions and timelines -/

theorem engRetired_spareWing (d hold : Nat) (pick : Option Nat) (s : Srv) (w : Nat) :
    (spareWing d hold pick s w).engRetired = s.engRetired ∧ (spareWing d hold pick s w).cLasting = s.cLasting := by
  unfold spareWing
  dsimp only
  split
  · exact ⟨rfl, rfl⟩
  · split
    · split <;> exact ⟨rfl, rfl⟩
    · split
      · exact ⟨rfl, rfl⟩
      · split
        · exact ⟨rfl, rfl⟩
        · unfold heldFenced
          exact ⟨rfl, rfl⟩
  · exact ⟨rfl, rfl⟩

theorem fixed_putSpares (d hold : Nat) (pick : Option Nat) (h : Hub) : (putSpares d hold pick h).fixed = h.fixed :=
  fixed_updDie h d fun _ => by simp only [Die.fixed, engRetired_spareWing]

theorem fixed_applyDie (d : Nat) (t : Txn) (h : Hub) : (applyDie d t h).fixed = h.fixed := by
  unfold applyDie
  extract_lets g
  have hg : g.fixed = h.fixed := by
    simp only [g]
    split
    · rfl
    · exact fixed_putSpares _ _ _ h
  split
  · rfl
  · split
    · exact hg
    · refine Eq.trans (fixed_updDie g d fun _ => ?_) hg
      rfl

theorem fixed_putOut (h : Hub) (o : Nat) (s : OutStage) : (putOut h o s).fixed = h.fixed := by
  refine fixed_foldl (fun _ _ => ?_) _ h
  rfl

theorem fixed_applyTable (d : Nat) (o : Option Nat) (t : Txn) (h : Hub) : (applyTable d o t h).fixed = h.fixed := by
  unfold applyTable
  extract_lets first mine ms g₁ g₂
  have h₁ : g₁.fixed = h.fixed := by
    refine fixed_foldl (fun _ _ => ?_) _ h
    rfl
  have h₂ : g₂.fixed = g₁.fixed := by
    refine fixed_foldl (fun _ _ => ?_) _ g₁
    rfl
  split
  · refine Eq.trans (fixed_updDie g₂ d fun _ => ?_) (h₂.trans h₁)
    rfl
  · exact h₂.trans h₁

theorem fixed_applyOut (o : Nat) (s : OutStage) (inc : Bool) (h : Hub) : (applyOut o s inc h).fixed = h.fixed := by
  unfold applyOut
  extract_lets ms chg stop old g₁ g₂ g₃
  have h₂ : g₂.fixed = g₁.fixed := by
    refine fixed_foldl (fun _ _ => ?_) _ g₁
    rfl
  replace h₂ : g₂.fixed = h.fixed := h₂.trans (fixed_putOut h o s)
  have h₃ : g₃.fixed = h.fixed := (fixed_foldl (fun g m => fixed_settleCache m g) _ g₂).trans h₂
  split
  · exact (fixed_foldl (fun g m => fixed_beginStop m old g) _ g₂).trans h₂
  · split
    · exact (fixed_foldl (fun g m => fixed_beginMode m g) _ g₃).trans h₃
    · exact h₃

theorem fixed_closeTxn (k st r0 r1 : Nat) (h : Hub) : (closeTxn k st r0 r1 h).fixed = h.fixed := by
  unfold closeTxn
  split
  · rfl
  · dsimp only
    split
    · rfl
    · exact fixed_complete _ _ _ _ _ (endTxn k h)

theorem fixed_finishTxn (k : Nat) (h : Hub) : (finishTxn k h).fixed = h.fixed := by
  unfold finishTxn
  split
  · rfl
  · split
    · rfl
    · split <;> exact fixed_closeTxn _ _ _ _ h

theorem fixed_applyTxn (k o l : Nat) (inc : Bool) (h : Hub) : (applyTxn k o l inc h).fixed = h.fixed := by
  unfold applyTxn
  split
  · rfl
  · extract_lets ls ms dies anew num flips t g₁ g₂ g₃ g₄ g₅ t₁ t₂ g₆ g₇ g₈ g₉
    have h₁ : g₁.fixed = h.fixed := by
      refine fixed_foldl (fun _ _ => ?_) _ h
      rfl
    have h₂ : g₂.fixed = h.fixed := (fixed_foldl (fun g d => fixed_applyDie d t g) _ g₁).trans h₁
    have h₃ : g₃.fixed = g₂.fixed := by
      simp only [g₃]
      split
      · rfl
      · exact fixed_foldl (fun g d => fixed_applyTable d _ t g) _ g₂
    have h₄ : g₄.fixed = g₃.fixed := by
      simp only [g₄]
      split
      · refine fixed_foldl (fun _ _ => ?_) _ g₃
        rfl
      · rfl
    have h₅ : g₅.fixed = g₄.fixed := by
      simp only [g₅]
      split
      · rfl
      · split
        · rfl
        · exact fixed_applyOut o _ inc g₄
    have h₆ : g₆.fixed = g₅.fixed := by
      refine Eq.trans (fixed_foldl (fun _ _ => ?_) _ _) ?_ <;> rfl
    have h₈ : g₈.fixed = g₆.fixed := (fixed_fbkRecord _ _ _ _ _ _).trans (fixed_foldl fixed_latchStart _ g₆)
    have h₉ : g₉.fixed = g₈.fixed := by
      simp only [g₉]
      split
      · exact fixed_postEvent _ _ _ _ g₈
      · rfl
    exact (fixed_finishTxn k _).trans (Eq.trans rfl (h₉.trans (h₈.trans (h₆.trans (h₅.trans (h₄.trans (h₃.trans h₂)))))))

theorem fixed_meetClock (dm : Demand) (h : Hub) (d : Nat) : (meetClock dm h d).fixed = h.fixed := by
  unfold meetClock
  dsimp only
  split
  · split
    · rfl
    · exact (fixed_rungGoes d _ _).trans (fixed_updDie h d fun _ => rfl)
  · exact (fixed_rungGoes d _ _).trans (fixed_updDie h d fun _ => rfl)

theorem fixed_raiseClock (h : Hub) : (raiseClock h).fixed = h.fixed := fixed_foldl (fun g d => fixed_meetClock _ g d) _ h

theorem fixed_applyIdle (k : Nat) (h : Hub) : (applyIdle k h).fixed = h.fixed := by
  unfold applyIdle
  split
  · rfl
  · split
    · rfl
    · exact fixed_foldl (fun g o => fixed_applyTxn k o g.now true g) _ h

theorem fixed_armTxn (k : Nat) (h : Hub) : (armTxn k h).fixed = h.fixed := by
  unfold armTxn
  split
  · rfl
  · extract_lets todo t g₁ waits free g₂ g₃ g₄
    have h₁ : g₁.fixed = h.fixed := (fixed_raiseClock _).trans rfl
    have h₂ : g₂.fixed = g₁.fixed := fixed_foldl (fun g d => by
      refine Eq.trans rfl ((fixed_applyTable d none t _).trans (fixed_applyDie d t g))) _ g₁
    have h₄ : g₄.fixed = g₃.fixed := fixed_foldl (fun g o => fixed_foldl fixed_latchStart _ g) _ g₃
    exact (fixed_finishTxn k _).trans ((fixed_applyIdle k g₄).trans (h₄.trans (Eq.trans rfl (h₂.trans h₁))))

theorem fixed_armIfReady (k : Nat) (h : Hub) : (armIfReady k h).fixed = h.fixed := by
  unfold armIfReady
  split
  · rfl
  · split
    · exact fixed_armTxn k h
    · rfl

theorem fixed_signalTl (tl v : Nat) (h : Hub) : (signalTl tl v h).fixed = h.fixed := by
  unfold signalTl
  split
  · rfl
  · split
    · rfl
    · exact (fixed_foldl (fun g k => (fixed_applyIdle k _).trans (fixed_armIfReady k g)) _ _).trans rfl

theorem fixed_failFences (k st : Nat) (p : Fence → Bool) (h : Hub) : (failFences k st p h).fixed = h.fixed := by
  unfold failFences
  split
  · rfl
  · dsimp only
    split
    · rfl
    · split
      · exact fixed_closeTxn k st 0 0 h
      · split
        · rfl
        · exact (fixed_finishTxn k _).trans rfl

theorem fixed_dropTl (k st : Nat) (h : Hub) : (dropTl k st h).fixed = h.fixed := by
  unfold dropTl
  split
  · rfl
  · refine Eq.trans rfl (?_ : (failAllFences st _ h).fixed = h.fixed)
    exact fixed_foldl (fun g (e : Nat × Txn) => fixed_failFences e.1 st _ g) _ h

/-! ### Cameras, jobs, descriptors -/

theorem fixed_camComplete (k : Nat) (h : Hub) : (camComplete k h).fixed = h.fixed := by
  unfold camComplete
  extract_lets p
  split
  · split
    · rfl
    · split
      · exact (fixed_broadcast _).trans rfl
      · exact (fixed_signalTl _ _ _).trans ((fixed_broadcast _).trans rfl)
  · rfl

theorem fixed_camStop (k : Nat) (lost : Bool) (h : Hub) : (camStop k lost h).fixed = h.fixed := by
  unfold camStop
  extract_lets p n g₁ g₂
  have h₂ : g₂.fixed = h.fixed := Eq.trans rfl (fixed_camComplete k h)
  split
  · exact (fixed_camFault k 3 n g₂).trans h₂
  · exact h₂

theorem fixed_stopRunning (m : List Host.Cell) (h : Hub) (j : Job) : (stopRunning m h j).2.1.fixed = h.fixed :=
  (fixed_writesTouched _ _).trans rfl

theorem fixed_stopJobs (d : Nat) (p : Job → Option Nat) (m : List Host.Cell) (h : Hub) : (stopJobs d p m h).1.fixed = h.fixed := by
  have hend (g : Hub) (j : Job) : (match p j with | none => g | some st => endJob st j g).fixed = g.fixed := by
    split
    · rfl
    · exact fixed_complete _ _ _ _ _ g
  unfold stopJobs
  extract_lets x head
  have hhead (q : Job × Hub × List MemWrite) (e : head = some q) : q.2.1.fixed = h.fixed := by
    simp only [head] at e
    split at e
    · split at e
      · obtain rfl := Option.some.inj e
        exact fixed_stopRunning _ h _
      · exact nomatch e
    · exact nomatch e
  split
  next js g₀ ws he =>
  have h₀ : g₀.fixed = h.fixed := by
    split at he
    next e _ =>
      obtain ⟨-, rfl, -⟩ := he
      exact hhead _ e
    next =>
      obtain ⟨-, rfl, -⟩ := he
      rfl
  extract_lets g₁ g₂
  have h₁ : g₁.fixed = g₀.fixed := by
    simp only [g₁]
    split
    · exact fixed_broadcast g₀
    · rfl
  have h₂ : g₂.fixed = g₁.fixed := fixed_updDie g₁ d fun _ => rfl
  exact (fixed_foldl hend _ g₂).trans (h₂.trans (h₁.trans h₀))

theorem fixed_stopJobsOn (ds : List Nat) (p : Job → Option Nat) (m : List Host.Cell) (h : Hub) :
    (stopJobsOn ds p m h).1.fixed = h.fixed := by
  induction ds generalizing m h with
  | nil => rfl
  | cons d t ih => exact (ih _ _).trans (fixed_stopJobs d p m h)

theorem fixed_hostWrite (f a : Nat) (bs : Bytes) (h : Hub) : (hostWrite f a bs h).fixed = h.fixed := rfl

theorem fixed_descEnds (k st moved : Nat) (diff : Option Nat) (d : DmaDesc) (h : Hub) : (descEnds k st moved diff d h).fixed = h.fixed := by
  unfold descEnds
  split
  · rfl
  · extract_lets sig may mm a fl bs w g₁ t g₂ g₃
    have h₁ : g₁.fixed = h.fixed := fixed_hostWrite _ _ _ h
    clear_value g₁
    have h₂ : g₂.fixed = h.fixed := Eq.trans rfl h₁
    clear_value g₂
    have h₃ : g₃.fixed = h.fixed := by
      simp only [g₃]
      split
      · rfl
      · split
        · exact (fixed_postEvent _ _ _ _ g₂).trans h₂
        · exact h₂
    clear_value g₃
    split
    · split
      · exact h₃
      · exact (fixed_signalTl _ _ g₃).trans h₃
    · exact h₃

theorem fixed_stopChan (k st : Nat) (h : Hub) : (stopChan k st h).fixed = h.fixed := by
  unfold stopChan
  split
  · rfl
  · extract_lets g₁ g₂
    have h₂ : g₂.fixed = h.fixed := by
      simp only [g₂]
      split
      · exact (fixed_broadcast g₁).trans rfl
      · rfl
    clear_value g₂
    refine Eq.trans (fixed_foldl (fun g e => ?_) _ g₂) h₂
    exact fixed_descEnds k st _ none e.1 g

/-! ### Surfaces and contexts -/

theorem fixed_stopUses (v : Nat) (lost : List (Nat × Nat)) (st : Nat) (m : List Host.Cell) (h : Hub) :
    (stopUses v lost st m h).1.fixed = h.fixed := by
  unfold stopUses
  have hr := fixed_stopJobsOn (upDies h) (fun j => if jobHit v lost j then some st else none) m h
  generalize stopJobsOn (upDies h) (fun j => if jobHit v lost j then some st else none) m h = r at hr ⊢
  extract_lets r' ks g₁
  have h₁ : g₁.fixed = h.fixed := (fixed_foldl (fun g k => fixed_stopChan k st g) ks r.1).trans hr
  clear_value g₁
  have h₂ : (stopStreams v lost g₁).fixed = g₁.fixed := fixed_foldl (fun g o => fixed_stopStream o g) _ g₁
  have h₃ : (stopCameras v lost (stopStreams v lost g₁)).fixed = (stopStreams v lost g₁).fixed :=
    fixed_foldl (fun g k => fixed_camStop k true g) _ _
  exact Eq.trans rfl (h₃.trans (h₂.trans h₁))

theorem fixed_retireSurf (ix : Nat) (m : List Host.Cell) (h : Hub) : (retireSurf ix m h).1.fixed = h.fixed := by
  unfold retireSurf
  split
  · rfl
  · split
    · rfl
    · next s _ _ =>
      have he := fixed_stopUses (handleOf ix s) (allRights s) 0x0304 m h
      dsimp only
      generalize stopUses (handleOf ix s) (allRights s) 0x0304 m h = e at he ⊢
      generalize hg' : ({ e.1 with atlas := _ } : Hub) = g
      have hg : g.fixed = h.fixed := by
        rw [← hg']
        exact he
      exact (fixed_foldl (fun q a => fixed_postEvent _ _ _ _ q) _ g).trans hg

theorem fixed_retireAll (l : List Nat) (m : List Host.Cell) (h : Hub) : (retireAll l m h).1.fixed = h.fixed := by
  induction l generalizing m h with
  | nil => rfl
  | cons ix t ih => exact (ih _ _).trans (fixed_retireSurf ix m h)

theorem fixed_dropGrants (c : Nat) (m : List Host.Cell) (h : Hub) : (dropGrants c m h).1.fixed = h.fixed := by
  refine foldl_keeps (fun r : Eff => r.1.fixed) (fun r e => ?_) _ (h, [])
  exact (fixed_stopUses _ _ _ _ _).trans rfl

theorem fixed_stopWork (c st : Nat) (m : List Host.Cell) (h : Hub) : (stopWork c st m h).1.fixed = h.fixed := by
  have hr := fixed_stopJobsOn (upDies h) (fun j => if j.pend.ctx = c then some st else none) m h
  unfold stopWork
  generalize stopJobsOn (upDies h) (fun j => if j.pend.ctx = c then some st else none) m h = r at hr ⊢
  exact (fixed_foldl (fun g k => fixed_stopChan k st g) _ r.1).trans hr

theorem fixed_endRegions (c : Nat) (h : Hub) : (endRegions c h).fixed = h.fixed := by
  refine fixed_foldl (fun g e => ?_) _ h
  split <;> rfl

theorem fixed_endTimelines (c : Nat) (h : Hub) : (endTimelines c h).fixed = h.fixed :=
  Eq.trans rfl (fixed_foldl (fun g k => fixed_dropTl k 0x0904 g) _ h)

theorem fixed_endObjects (c : Nat) (h : Hub) : (endObjects c h).fixed = h.fixed := rfl

theorem fixed_endLists (c : Nat) (h : Hub) : (endLists c h).fixed = h.fixed := rfl

theorem fixed_endContext (c st : Nat) (m : List Host.Cell) (h : Hub) : (endContext c st m h).1.fixed = h.fixed := by
  unfold endContext
  extract_lets a m1 g₁ b m2 g
  have ha : a.1.fixed = h.fixed := (fixed_stopWork c st m _).trans rfl
  have h₁ : g₁.fixed = a.1.fixed := (fixed_foldl (fun q k => fixed_camStop k false q) _ _).trans
    (fixed_foldl (fun q (e : Nat × Txn) => fixed_closeTxn e.1 0x040D _ 0 q) _ a.1)
  have hb : b.1.fixed = g₁.fixed := fixed_retireAll _ m1 g₁
  have hg : g.1.fixed = b.1.fixed := fixed_dropGrants c m2 b.1
  calc
    _ = (endObjects c (endTimelines c (endLists c (endRegions c g.1)))).fixed := fixed_foldl (fun q o => fixed_dropGrant o none q) _ _
    _ = (endTimelines c (endLists c (endRegions c g.1))).fixed := fixed_endObjects c _
    _ = (endLists c (endRegions c g.1)).fixed := fixed_endTimelines c _
    _ = (endRegions c g.1).fixed := fixed_endLists c _
    _ = g.1.fixed := fixed_endRegions c g.1
    _ = h.fixed := hg.trans (hb.trans (h₁.trans ha))

/-! ### The parts of a die's loss -/

theorem fixed_endDieContexts (cs : List Nat) (m : List Host.Cell) (h : Hub) : (endDieContexts cs m h).1.fixed = h.fixed := by
  induction cs generalizing m h with
  | nil => rfl
  | cons c t ih =>
    unfold endDieContexts
    extract_lets x g₁ g₂ r q
    have h₂ : g₂.fixed = h.fixed := by
      simp only [g₂]
      split
      · rfl
      · exact (fixed_complete _ _ _ _ _ g₁).trans rfl
    have hr : r.1.fixed = h.fixed := (fixed_endContext c 0x0707 m g₂).trans h₂
    clear_value r
    exact (ih _ (freeChans c r.1)).trans (Eq.trans rfl hr)

theorem fixed_stopDieWork (d : Nat) (m : List Host.Cell) (h : Hub) : (stopDieWork d m h).1.fixed = h.fixed := by
  have ha := fixed_stopJobs d (fun _ => some 0x0707) m h
  unfold stopDieWork
  generalize stopJobs d (fun _ => some 0x0707) m h = a at ha ⊢
  extract_lets a' m1 b
  have hb : b.1.fixed = a.1.fixed := fixed_stopJobsOn _ _ m1 a.1
  clear_value b
  exact (fixed_foldl (fun g k => fixed_stopChan k 0x0707 g) _ b.1).trans (hb.trans ha)

theorem fixed_stopDieStreams (d : Nat) (h : Hub) : (stopDieStreams d h).fixed = h.fixed := by
  unfold stopDieStreams
  extract_lets g on
  have hg : g.fixed = h.fixed := fixed_foldl (fun q o => fixed_stopStream o q) _ h
  exact (fixed_foldl (fun q k => fixed_camStop k true q) _ g).trans hg

theorem fixed_dropDieTxns (d : Nat) (h : Hub) : (dropDieTxns d h).fixed = h.fixed := by
  refine fixed_foldl (fun g e => ?_) _ h
  split
  · exact (fixed_finishTxn _ _).trans rfl
  · exact fixed_closeTxn _ _ _ _ g

theorem fixed_dropSurvey (d : Nat) (h : Hub) : (dropSurvey d h).fixed = h.fixed :=
  (fixed_foldl (fun g p => fixed_complete p _ _ _ _ g) _ _).trans (fixed_updDie h d fun _ => rfl)

/-- The power state of a die goes to OFF, and nothing else of what is fixed changes (15 R394). -/
theorem fixed_dropPower (d : Nat) (h : Hub) :
    (dropPower d h).fixed = (updPwr h d fun x => { x with state := .off, entry := none, runCmds := [], shutdown := false }).fixed := by
  unfold dropPower
  extract_lets p g₁ g₂
  have h₂ : g₂.fixed = g₁.fixed := fixed_foldl (fun g c => fixed_complete c _ _ _ _ g) _ g₁
  split
  · exact h₂
  · split
    · exact h₂
    · exact (fixed_complete _ _ _ _ _ g₂).trans h₂

theorem fixed_forgetDie (d : Nat) (h : Hub) : (forgetDie d h).fixed = h.fixed := by
  refine fixed_of rfl rfl rfl fun k => ?_
  simp only [forgetDie, getDie, Tab.get]
  rw [Tab.find_map_of_fst (g := fun e : Nat × Die => (e.1, { e.2 with rbuf := e.2.rbuf.filter fun g => g.1 / 2 ^ 28 != d })) fun _ => rfl]
  cases h.dies.find k <;> rfl

end Sys2Proof.Machine
end

section
/-!
The loss of a die: what `LostDie` says of it, the instant, and what it keeps of the dies (17 R451, R452; log entry 7: its memory reads 0).
-/

namespace Sys2Proof.Machine

/-- The hub with a die's power state OFF (15 R390). -/
def powerOff (h : Hub) (d : Nat) : Hub := updPwr h d fun x => { x with state := .off, entry := none, runCmds := [], shutdown := false }

section
variable {g h : Hub} (e : g.fixed = h.fixed)
include e

theorem fixed_setPkg (q : Pkg) : ({ g with pkg := q } : Hub).fixed = ({ h with pkg := q } : Hub).fixed :=
  fixed_of rfl (now_of_fixed e :) (jtag_of_fixed e :) (die_of_fixed e :)

theorem fixed_powerOff (d : Nat) : (powerOff g d).fixed = (powerOff h d).fixed := by
  refine fixed_of (pkg_of_fixed e :) (now_of_fixed e :) (jtag_of_fixed e :) fun k => ?_
  by_cases hk : k = d
  · rw [hk, powerOff, powerOff, updPwr, updPwr, getDie_updDie, getDie_updDie]
    simp only [Die.fixed, kpr_of_fixed e, rcActive_of_fixed e, root_of_fixed e, engRetired_of_fixed e, cLasting_of_fixed e]
  · rw [powerOff, powerOff, updPwr, updPwr, getDie_updDie_ne g d k _ hk, getDie_updDie_ne h d k _ hk, die_of_fixed e]

end

/-- The package without die `d`: another die may be its principal, and THERM_ALERT_N may have another level (15 R400; 17 R451). -/
def Pkg.without (q : Pkg) (d p : Nat) (alert : Bool) : Pkg :=
  { q with lost := q.lost ||| 2 ^ d, sitesUp := q.sitesUp &&& (255 - 2 ^ d), principal := p, alertN := alert }

theorem passPrincipal_eq (h : Hub) : ∃ p, passPrincipal h = { h with pkg := { h.pkg with principal := p } } := by
  unfold passPrincipal
  split
  · exact ⟨h.pkg.principal, rfl⟩
  · split
    · exact ⟨h.pkg.principal, rfl⟩
    · exact ⟨_, rfl⟩

theorem fixed_killOuts (l : List Nat) (h : Hub) : (l.foldl (fun h o => killOut o h) h).fixed = h.fixed :=
  fixed_foldl (fun g o => fixed_killOut o g) l h

theorem fixed_killPorts (l : List Nat) (h : Hub) : (l.foldl (fun h k => if h.ports.has k then killPort k h else h) h).fixed = h.fixed := by
  refine fixed_foldl (fun g k => ?_) l h
  split
  · exact fixed_killPort k g
  · rfl

/-- The package stops using a die: it is out of the package, its power state is OFF, and nothing else of what is fixed changes. -/
theorem fixed_dieGone (d : Nat) (m : List Host.Cell) (h : Hub) :
    ∃ p a, (dieGone d m h).1.fixed = (powerOff { h with pkg := h.pkg.without d p a } d).fixed := by
  unfold dieGone
  have hw := fixed_stopDieWork d m h
  generalize stopDieWork d m h = w at hw ⊢
  extract_lets a m1 g₁ q g₂ b g₃ g₄ g₅ g₆ g₇ z
  have h₁ : g₁.fixed = h.fixed := (fixed_stopDieStreams d w.1).trans hw
  clear_value g₁
  obtain ⟨p, hp⟩ := passPrincipal_eq
    { g₁ with pkg := { g₁.pkg with lost := g₁.pkg.lost ||| 2 ^ d, sitesUp := g₁.pkg.sitesUp &&& (255 - 2 ^ d) } }
  have h₂ : g₂.fixed = ({ h with pkg := h.pkg.without d p h.pkg.alertN } : Hub).fixed := by
    refine (congrArg Hub.fixed hp).trans ?_
    rw [pkg_of_fixed h₁]
    exact fixed_setPkg h₁ _
  have hb : b.1.fixed = g₂.fixed := fixed_endDieContexts _ m1 g₂
  clear_value g₂ b
  have h₃ : g₃.fixed = (powerOff { h with pkg := h.pkg.without d p h.pkg.alertN } d).fixed := by
    refine (fixed_dropPower d _).trans ?_
    exact fixed_powerOff ((fixed_dropSurvey d _).trans ((fixed_dropDieTxns d b.1).trans (hb.trans h₂))) d
  clear_value g₃
  have h₅ : g₅.fixed = g₃.fixed := (fixed_killPorts _ g₄).trans (fixed_killOuts _ g₃)
  clear_value g₅
  have h₇ : g₇.fixed = g₃.fixed := Eq.trans rfl h₅
  clear_value g₇
  have hf := (fixed_forgetDie d g₇).trans (h₇.trans h₃)
  refine ⟨p, !(upDies (forgetDie d g₇)).any fun d' => (getDie (forgetDie d g₇) d').pwr.level ≥ 1, ?_⟩
  refine (?_ : (setAlert (forgetDie d g₇)).fixed = _)
  unfold setAlert
  rw [pkg_of_fixed hf]
  exact fixed_setPkg hf _

/-- The last write of a die's end is its memory (log entry 7). -/
theorem writes_dieGone (d : Nat) (m : List Host.Cell) (h : Hub) :
    ∃ ws, (dieGone d m h).2 = ws ++ [.zeros (d * 2 ^ 34) (2 ^ 34)] := by
  unfold dieGone
  exact ⟨_, rfl⟩

theorem fixed_dieLost {d : Nat} {h : Hub} (hup : dieUp h d = true) (reason : Nat) (m : List Host.Cell) : ∃ p a,
    (dieLost d reason m h).1.fixed =
      (powerOff { h with pkg := Pkg.without { h.pkg with why := h.pkg.why.set d reason } d p a } d).fixed := by
  obtain ⟨p, a, he⟩ := fixed_dieGone d m { h with pkg := { h.pkg with why := h.pkg.why.set d reason } }
  refine ⟨p, a, ?_⟩
  simp only [dieLost, hup, Bool.not_true, Bool.false_eq_true, if_false]
  generalize dieGone d m { h with pkg := { h.pkg with why := h.pkg.why.set d reason } } = e at he ⊢
  have hf := (fixed_faultReport e.1.pkg.principal 0x0707 (unitId 0x0D d 0) (unitId 0x0B e.1.pkg.principal 0) reason e.1).trans he
  split
  · refine Eq.trans (fixed_updDie _ _ fun _ => ?_) hf
    rfl
  · exact hf

theorem writes_dieLost {d : Nat} {h : Hub} (hup : dieUp h d = true) (reason : Nat) (m : List Host.Cell) :
    ∃ ws, (dieLost d reason m h).2 = ws ++ [.zeros (d * 2 ^ 34) (2 ^ 34)] := by
  simp only [dieLost, hup, Bool.not_true, Bool.false_eq_true, if_false]
  exact writes_dieGone d m _

/-- A zeroed die reads 0 whatever was written before. -/
theorem read_die_zeroed {d a : Nat} (ws : List MemWrite) (m : List Host.Cell) (hlo : d * 2 ^ 34 ≤ a) (hhi : a < (d + 1) * 2 ^ 34) :
    Memory.read ((ws ++ [MemWrite.zeros (d * 2 ^ 34) (2 ^ 34)]).foldl Memory.apply m) a = 0 := by
  rw [List.foldl_append, List.foldl_cons, List.foldl_nil]
  exact Memory.read_zero_in _ (d * 2 ^ 34) (2 ^ 34) a hlo (by omega)

theorem dieUp_without (h : Hub) (d p : Nat) (a : Bool) : dieUp { h with pkg := h.pkg.without d p a } d = false := by
  simp [dieUp, Pkg.without, bit]

/-- A machine whose hub and writes are those of the loss of a die has lost it. -/
theorem lostDie_of_dieLost {d reason : Nat} {s u : State} {h : Hub} {m : List Host.Cell} (hup : dieUp h d = true)
    (hhub : u.hub = (dieLost d reason m h).1) (hmem : u.lp5x = (dieLost d reason m h).2.foldl Memory.apply s.lp5x)
    (hpend : u.pending = s.pending) : LostDie d reason s u := by
  obtain ⟨p, a, he⟩ := fixed_dieLost hup reason m
  obtain ⟨ws, hws⟩ := writes_dieLost hup reason m
  rw [← hhub] at he
  have hpkg := pkg_of_fixed he
  refine ⟨hpend, ?_, ?_, ?_, fun _ a' hlo hhi => ?_⟩
  · exact (congrArg (fun q : Pkg => bit q.sites d && !bit q.lost d) hpkg).trans
      (dieUp_without { h with pkg := { h.pkg with why := h.pkg.why.set d reason } } d p a)
  · exact (congrArg (fun q : Pkg => q.why.get d 0) hpkg).trans (Tab.get_set_same _ _ _ _)
  · exact (pwrState_of_fixed he d).trans (congrArg (fun x : Die => x.pwr.state) (getDie_updDie _ d _))
  · rw [hmem, hws]
    exact read_die_zeroed ws s.lp5x hlo hhi

theorem lostDie_act {d reason : Nat} {s : State} {f : List Host.Cell → Hub → Eff} {h : Hub} (hup : dieUp h d = true)
    (hf : f s.lp5x s.hub = dieLost d reason s.lp5x h) : LostDie d reason s (act f s) :=
  lostDie_of_dieLost hup (congrArg Prod.fst hf) (congrArg (fun e : Eff => e.2.foldl Memory.apply s.lp5x) hf) rfl

theorem now_dieLost (d reason : Nat) (m : List Host.Cell) (h : Hub) : (dieLost d reason m h).1.now = h.now := by
  by_cases hup : dieUp h d = true
  · obtain ⟨p, a, he⟩ := fixed_dieLost hup reason m
    exact (now_of_fixed he).trans rfl
  · simp only [dieLost, hup]
    rfl

end Sys2Proof.Machine
end

section
/-!
Heat and budget: sensors and levels, the allowance, the rung and the tokens of a tick, the engine clock, and the loss of a die for heat
(15 R400-R411; log entry 7).
-/

namespace Sys2Proof.Machine

/-! ### Levels (15 R400) -/

/-- What a conversion is about: the sensors, the maximum, the level and whether the die is to be shut down. -/
def Pwr.heat (p : Pwr) : Tab Sensor × Nat × Nat × Bool × Nat := (p.sensors, p.maxTemp, p.maxSensor, p.shutdown, p.level)

/-- The heat of a die. -/
def heatOf (h : Hub) (d : Nat) : Tab Sensor × Nat × Nat × Bool × Nat := (getDie h d).pwr.heat

theorem heatOf_of_keepsDies {g h : Hub} (e : KeepsDies g h) (d : Nat) : heatOf g d = heatOf h d := congrArg Pwr.heat (e.pwr d)

theorem heatOf_updPwr (h : Hub) (d : Nat) (f : Pwr → Pwr) (hf : ∀ x, (f x).heat = x.heat) : heatOf (updPwr h d f) d = heatOf h d := by
  rw [heatOf, updPwr, getDie_updDie]
  exact hf _

theorem heatOf_pwrGoes (d : Nat) (p : PwrState) (h : Hub) : heatOf (pwrGoes d p h) d = heatOf h d :=
  (heatOf_of_keepsDies (keepsDies_pwrGoes d p h) d).trans (heatOf_updPwr h d _ fun _ => rfl)

theorem heatOf_wakeEvent (d cause : Nat) (h : Hub) : heatOf (wakeEvent d cause h) d = heatOf h d := by
  unfold wakeEvent
  dsimp only
  split
  · rfl
  · split
    · exact heatOf_updPwr h d _ fun _ => rfl
    · split
      · exact (heatOf_pwrGoes d .exiting _).trans (heatOf_updPwr h d _ fun _ => rfl)
      · rfl

/-- The command of an entry given up, taken out of the entries of all dies. -/
theorem heatOf_forgetCmd (f : Die → Option PwrEntry) (d : Nat) (h : Hub) :
    heatOf { h with dies := h.dies.map fun k => (k.1, { k.2 with pwr := { k.2.pwr with entry := f k.2 } }) } d = heatOf h d := by
  simp only [heatOf, getDie, Tab.get]
  rw [Tab.find_map_of_fst (g := fun k : Nat × Die => (k.1, { k.2 with pwr := { k.2.pwr with entry := f k.2 } })) fun _ => rfl]
  cases h.dies.find d <;> rfl

theorem heatOf_abortEntry (d kind index : Nat) (h : Hub) : heatOf (abortEntry d kind index h) d = heatOf h d := by
  unfold abortEntry
  split
  · rfl
  · next e _ =>
    extract_lets g₁ held g₂ g₃
    have h₁ : heatOf g₁ d = heatOf h d := heatOf_updPwr h d _ fun _ => rfl
    have h₂ : heatOf g₂ d = heatOf g₁ d := by
      refine foldl_keeps (fun g => heatOf g d) (fun g o => ?_) _ g₁
      rfl
    have h₃ : heatOf g₃ d = heatOf g₂ d := calc
      _ = heatOf (fbkRecord d 0 0x0002 8 (getDie g₂ d).fbk.enterAt (pwrGoes d .run g₂)) d :=
        (heatOf_of_keepsDies (keepsDies_runDone d _) d).trans (heatOf_updPwr _ d _ fun _ => rfl)
      _ = heatOf (pwrGoes d .run g₂) d := heatOf_of_keepsDies (keepsDies_fbkRecord _ _ _ _ _ _) d
      _ = heatOf g₂ d := heatOf_pwrGoes d .run g₂
    clear_value g₃
    split
    · exact h₃.trans (h₂.trans h₁)
    · next p _ =>
      refine (heatOf_of_keepsDies (keepsDies_complete _ _ _ _ _ _) d).trans (Eq.trans ?_ (h₃.trans (h₂.trans h₁)))
      exact heatOf_forgetCmd (fun x => x.pwr.entry.map fun e => { e with cmd := if e.cmd = some p then none else e.cmd }) d g₃

/-- A change of level is the level, and two counts of the die's power block. -/
theorem heatOf_levelGoes (d l : Nat) (h : Hub) :
    heatOf (levelGoes d l h) d = ((getDie h d).pwr.sensors, (getDie h d).pwr.maxTemp, (getDie h d).pwr.maxSensor, (getDie h d).pwr.shutdown, l) := by
  unfold levelGoes
  extract_lets p g₁ g₂ g₃
  have h₁ : heatOf g₁ d = (p.sensors, p.maxTemp, p.maxSensor, p.shutdown, l) := by
    rw [heatOf, show g₁ = updPwr h d _ from rfl, updPwr, getDie_updDie]
    rfl
  have h₂ : heatOf g₂ d = heatOf g₁ d :=
    (heatOf_of_keepsDies (keepsDies_fbkRecord _ _ _ _ _ _) d).trans (heatOf_of_keepsDies (keepsDies_intEvent d 5 g₁) d)
  have h₃ : heatOf g₃ d = heatOf g₂ d := heatOf_of_keepsDies (keepsDies_postEvents _ _ _ _ g₂) d
  split
  · next hl =>
    simp only [heatOf, Pwr.heat, ← hl]
    rfl
  · split
    · exact (heatOf_wakeEvent d 5 g₃).trans (h₃.trans (h₂.trans h₁))
    · exact h₃.trans (h₂.trans h₁)

theorem hottest_of_sensors {p q : Pwr} (e : p.sensors = q.sensors) : hottest p = hottest q := by
  have hs : ∀ n, sensorOf p n = sensorOf q n := fun n => by rw [sensorOf, sensorOf, e]
  simp only [hottest, hs]

/-! ### SENSOR_CONVERSION -/

/-- The power block with a reading of sensor `n` taken. -/
def Pwr.read (p : Pwr) (n v : Nat) : Pwr :=
  { p with sensors := p.sensors.set n { temp := v, valid := (sensorOf p n).seen ≥ 2, seen := min 2 ((sensorOf p n).seen + 1) } }

/-- The power block with its maximum told. -/
def Pwr.maxed (p : Pwr) : Pwr :=
  match hottest p with
  | none => p
  | some t => { p with maxTemp := unsigned 12 t.2, maxSensor := t.1 }

theorem sensors_maxed (p : Pwr) : p.maxed.sensors = p.sensors := by
  unfold Pwr.maxed
  split <;> rfl

theorem level_maxed (p : Pwr) : p.maxed.level = p.level ∧ p.maxed.shutdown = p.shutdown := by
  unfold Pwr.maxed
  split <;> exact ⟨rfl, rfl⟩

theorem max_of_hottest {p : Pwr} {w : Nat × Int} (hw : hottest p = some w) :
    p.maxed.maxTemp = unsigned 12 w.2 ∧ p.maxed.maxSensor = w.1 := by
  rw [Pwr.maxed, hw]
  exact ⟨rfl, rfl⟩

/-- What a reading leaves of the heat of a die. -/
def heatAfter (p : Pwr) (t : Int) : Tab Sensor × Nat × Nat × Bool × Nat :=
  if 1120 ≤ t then (p.sensors, p.maxTemp, p.maxSensor, true, 3)
  else match hottest p with
    | none => p.heat
    | some w => (p.sensors, p.maxTemp, p.maxSensor, p.shutdown, levelAt p.level w.2)

theorem heatOf_conversion {d n : Nat} {v : Nat} {h : Hub} (hn : n < 12) (hup : dieUp h d = true) (hp : powered h = true)
    (hs : (getDie h d).pwr.state ≠ .off) :
    heatOf (conversion d n v h) d = heatAfter ((getDie h d).pwr.read n v).maxed (signed 12 v) := by
  have hc : ¬ ((decide (n ≥ 12) || !dieUp h d || !powered h || (getDie h d).pwr.state == .off) = true) := by
    simp [hup, hp, hs, hn]
  unfold conversion
  rw [if_neg hc]
  extract_lets g₁ g₂ g₃
  have h₁ : (getDie g₁ d).pwr = (getDie h d).pwr.read n v := by
    rw [show g₁ = updPwr h d _ from rfl, updPwr, getDie_updDie]
    rfl
  have h₂ : (getDie g₂ d).pwr = ((getDie h d).pwr.read n v).maxed := by
    rw [← h₁]
    simp only [g₂, Pwr.maxed]
    cases hottest (getDie g₁ d).pwr with
    | none => rfl
    | some t => simp only [updPwr, getDie_updDie]
  clear_value g₂
  rw [heatAfter, ← h₂]
  split
  · have h₃ : (getDie (updPwr g₂ d fun p => { p with shutdown := true }) d).pwr = { (getDie g₂ d).pwr with shutdown := true } := by
      rw [updPwr, getDie_updDie]
    refine (heatOf_abortEntry d 5 0 _).trans ((heatOf_levelGoes d 3 _).trans ?_)
    rw [h₃]
  · cases hottest (getDie g₂ d).pwr with
    | none => rfl
    | some t => exact heatOf_levelGoes d _ g₂

theorem sensorOf_read (p : Pwr) (n v : Nat) : sensorOf (p.read n v) n =
    { temp := v, valid := decide (2 ≤ (sensorOf p n).seen), seen := min 2 ((sensorOf p n).seen + 1) } := Tab.get_set_same _ _ _ _

theorem sensorOf_read_ne (p : Pwr) {n k : Nat} (v : Nat) (hk : k ≠ n) : sensorOf (p.read n v) k = sensorOf p k :=
  Tab.get_set_ne _ _ _ _ _ hk

theorem levelAt_spec (l : Nat) (t : Int) : (l = 3 → levelAt l t = 3) ∧
    (l ≠ 3 → (944 ≤ t ∨ (l = 2 ∧ 920 ≤ t) → levelAt l t = 2) ∧
      (t < 944 → ¬ (l = 2 ∧ 920 ≤ t) → (920 ≤ t ∨ (1 ≤ l ∧ 896 ≤ t)) → levelAt l t = 1) ∧
      (t < 896 → levelAt l t = 0) ∧ (t < 920 → l = 0 → levelAt l t = 0)) := by
  refine ⟨fun hl => by rw [levelAt, if_pos hl], fun hl => ?_⟩
  simp only [levelAt, if_neg hl, Bool.or_eq_true, Bool.and_eq_true, decide_eq_true_eq]
  refine ⟨fun hh => if_pos hh, fun h₁ h₂ h₃ => ?_, fun h₁ => ?_, fun h₁ h₂ => ?_⟩
  · rw [if_neg (by omega), if_pos h₃]
  · rw [if_neg (by omega), if_neg (by omega)]
  · rw [if_neg (by omega), if_neg (by omega)]

/-! ### The loss of a die for heat (15 R401) -/

theorem lostDie_heatLoss {d reason : Nat} {ok : Die → Bool} {s : State} (hp : powered s.hub = true) (hup : dieUp s.hub d = true)
    (hok : ok (getDie s.hub d) = true) : LostDie d reason s (act (heatLoss d reason ok) s) :=
  lostDie_act hup (by rw [heatLoss, hp, hok]; rfl)

theorem heatLoss_of_not_up {d reason : Nat} {ok : Die → Bool} {s : State} (hup : dieUp s.hub d = false) :
    act (heatLoss d reason ok) s = s := by
  refine act_eq_of_no_writes (g := s.hub) ?_
  unfold heatLoss
  split
  · simp only [dieLost, hup]
    rfl
  · rfl

/-! ### The tick (15 R403-R411) -/

theorem nextAllow_of_none {p : Pwr} (hh : hottest p = none) : nextAllow p = p.allow := by
  rw [nextAllow, hh]

theorem nextAllow_of_some {p : Pwr} {w : Nat × Int} (hh : hottest p = some w) :
    (944 ≤ w.2 → nextAllow p = min (max (p.allow - 500) p.floorMw) p.limit) ∧
      (w.2 < 896 → nextAllow p = min (max (p.allow + 250) p.floorMw) p.limit) ∧
      (896 ≤ w.2 → w.2 < 944 → nextAllow p = min (max p.allow p.floorMw) p.limit) := by
  simp only [nextAllow, hh]
  refine ⟨fun h₁ => ?_, fun h₁ => ?_, fun h₁ h₂ => ?_⟩
  · rw [if_pos h₁]
    omega
  · rw [if_neg (by omega), if_pos h₁]
    omega
  · rw [if_neg (by omega), if_neg (by omega)]
    omega

theorem keepsDies_newDivisor (r o : Nat) (h : Hub) : KeepsDies (newDivisor r o h) h := by
  unfold newDivisor
  extract_lets x q g
  split
  · exact .refl h
  · split
    · exact .of_dies rfl
    · exact (keepsDies_postEvent _ _ _ _ g).trans (.of_dies rfl)

/-- A change of rung, of the power block of its die. -/
def Pwr.runged (p : Pwr) (r now : Nat) : Pwr := if p.rung = r then p else { p with rung := r, rungTime := now, below := 0 }

theorem pwr_rungGoes (d r : Nat) (h : Hub) : (getDie (rungGoes d r h) d).pwr = (getDie h d).pwr.runged r h.now := by
  unfold rungGoes Pwr.runged
  extract_lets p g₁ g₂
  split
  · rfl
  · have hf : KeepsDies (((List.range 4).map (· + 4 * d)).foldl (fun h o => newDivisor r o h) g₂) g₂ :=
      .foldl (fun g o => keepsDies_newDivisor r o g) _ g₂
    rw [(hf.trans ((keepsDies_fbkRecord d 0 0x0003 _ _ g₁).trans (keepsDies_intEvent d 4 _))).pwr d, updPwr, getDie_updDie]

/-- A clock step begun, of the power block of its die. -/
def Pwr.stepped (p : Pwr) (now : Nat) : Pwr :=
  if p.stepTo.isSome || p.step = rungStep p.rung then p
  else if rungStep p.rung < p.step then rampTo (p.step - 1) now 2000 { p with stepTo := some (p.step - 1) }
  else { p with stepTo := some (p.step + 1) }

theorem stepped_keeps (p : Pwr) (now : Nat) : (p.stepped now).allow = p.allow ∧ (p.stepped now).budget = p.budget ∧
    (p.stepped now).rung = p.rung ∧ (p.stepped now).below = p.below ∧ (p.stepped now).short = p.short ∧
    (p.stepped now).step = p.step := by
  unfold Pwr.stepped rampTo
  split
  · exact ⟨rfl, rfl, rfl, rfl, rfl, rfl⟩
  · split <;> exact ⟨rfl, rfl, rfl, rfl, rfl, rfl⟩

theorem stepped_of_none {p : Pwr} (hs : p.stepTo = none) (now : Nat) :
    (rungStep p.rung < p.step → (p.stepped now).stepTo = some (p.step - 1) ∧ (p.stepped now).volt = p.step - 1 ∧
      now + 2000 ≤ (p.stepped now).rampEnd) ∧
    (p.step < rungStep p.rung → (p.stepped now).stepTo = some (p.step + 1) ∧ (p.stepped now).volt = p.volt) ∧
    (p.step = rungStep p.rung → (p.stepped now).stepTo = none ∧ (p.stepped now).volt = p.volt) := by
  simp only [Pwr.stepped, hs, Option.isSome_none, Bool.false_or, decide_eq_true_eq]
  refine ⟨fun hl => ?_, fun hl => ?_, fun he => ?_⟩
  · rw [if_neg (by omega), if_pos hl]
    refine ⟨rfl, rfl, ?_⟩
    simp only [rampTo]
    omega
  · rw [if_neg (by omega), if_neg (by omega)]
    exact ⟨rfl, rfl⟩
  · rw [if_pos he]
    exact ⟨hs, rfl⟩

/-- The rung of a tick, the ticks below, and whether the die is short (15 R406; 22 R550). -/
def tickRung (d : Nat) (h : Hub) : Nat × Nat × Bool :=
  let p := (getDie h d).pwr
  let dm := demandOf (heldViews h)
  if (getDie h d).kdbg.halted.isSome then (p.rung, p.below, p.short)
  else nextRung p (topRung h dm d) (fun r => estimate h dm (camResvs h) d r (rungStep r)) p.budget

/-- The power block of a die after a tick but for its buckets, from the one with the new allowance. -/
theorem pwr_powerTick {d : Nat} {h : Hub} (hup : dieUp h d = true) (hr : ready h = true) (ha : awake h d = true) :
    let g := updPwr h d fun x => { x with allow := nextAllow (getDie h d).pwr, budget := nextAllow (getDie h d).pwr }
    let n := tickRung d g
    ∃ est refill bucket, (getDie (powerTick d h) d).pwr =
      let q := { (getDie g d).pwr.runged n.1 h.now with below := n.2.1, short := n.2.2, estimate := est }.stepped h.now
      { q with pool := rungPool q.rung, refill := refill, bucket := bucket } := by
  have hc : ¬ ((!dieUp h d || !ready h || !awake h d) = true) := by simp [hup, hr, ha]
  have hg : (updPwr h d fun p => { p with allow := nextAllow p, budget := nextAllow p }) =
      updPwr h d fun x => { x with allow := nextAllow (getDie h d).pwr, budget := nextAllow (getDie h d).pwr } := updDie_congr h d rfl
  intro g n
  unfold powerTick
  rw [if_neg hc, hg]
  extract_lets dm cams e p n' g₁ g₂ g₃
  have hn : n' = n := rfl
  have hnow : g₁.now = h.now := (now_of_fixed (fixed_rungGoes d n'.1 g) : g₁.now = g.now)
  have h₁ : (getDie g₁ d).pwr = (getDie g d).pwr.runged n.1 h.now := pwr_rungGoes d n.1 g
  clear_value g₁
  have h₂ : (getDie g₂ d).pwr = { (getDie g₁ d).pwr with below := n.2.1, short := n.2.2, estimate := (e n.1).ceil.toNat % 65536 } := by
    rw [show g₂ = updPwr g₁ d _ from rfl, updPwr, getDie_updDie, hn]
  have hnow₂ : g₂.now = h.now := hnow
  clear_value g₂
  have h₃ : (getDie g₃ d).pwr = (getDie g₂ d).pwr ∧ g₃.now = g₂.now := by
    simp only [g₃]
    split
    · exact ⟨(keepsDies_postEvents _ _ _ _ g₂).pwr d, now_of_rest (rest_postEvents _ _ _ _ g₂)⟩
    · exact ⟨rfl, rfl⟩
  have h₄ : (getDie (startStep d g₃) d).pwr = (getDie g₃ d).pwr.stepped g₃.now := by
    rw [startStep, updPwr, getDie_updDie]
    rfl
  generalize startStep d g₃ = g₄ at h₄ ⊢
  rw [h₃.1, h₃.2, hnow₂, h₂, h₁] at h₄
  refine ⟨(e n.1).ceil.toNat % 65536, ?_⟩
  rw [refill, updPwr, getDie_updDie, h₄]
  exact ⟨_, _, rfl⟩

/-! ### The engine clock (15 R408) -/

theorem updPwr_congr (h : Hub) (d : Nat) {f g : Pwr → Pwr} (e : f (getDie h d).pwr = g (getDie h d).pwr) : updPwr h d f = updPwr h d g :=
  updDie_congr h d (congrArg (fun p => { getDie h d with pwr := p }) e)

section
variable {d t : Nat} {h : Hub} (hup : dieUp h d = true) (ha : awake h d = true) (ht : (getDie h d).pwr.stepTo = some t)
include hup ha ht

theorem clockSwitch_down (hl : t < (getDie h d).pwr.step) : clockSwitch d h = updPwr (at_ (getDie h d).pwr.rampEnd h) d fun x => { x with
    step := (getDie h d).pwr.step - 1, stepTo := if (getDie h d).pwr.step - 1 = t then none else some t } := by
  have hc : ¬ ((!dieUp h d || !awake h d) = true) := by simp [hup, ha]
  simp only [clockSwitch, if_neg hc, ht, if_pos hl]
  exact updPwr_congr (at_ (getDie h d).pwr.rampEnd h) d (if_neg (Nat.not_lt.mpr hl.le))

theorem clockSwitch_same (he : t = (getDie h d).pwr.step) : clockSwitch d h = updPwr h d fun x => { x with stepTo := none } := by
  have hc : ¬ ((!dieUp h d || !awake h d) = true) := by simp [hup, ha]
  simp only [clockSwitch, if_neg hc, ht, if_neg (Nat.not_lt.mpr he.ge), if_neg (show ¬ t > (getDie h d).pwr.step from Nat.not_lt.mpr he.le),
    if_pos he.symm]
  exact updPwr_congr h d (if_neg (Nat.not_lt.mpr he.le))

theorem clockSwitch_up (hl : (getDie h d).pwr.step < t) : clockSwitch d h = updPwr h d fun x => { x with
    step := (getDie h d).pwr.step + 1, stepTo := if (getDie h d).pwr.step + 1 = t then none else some t
    volt := (getDie h d).pwr.step + 1, vid := stepVid ((getDie h d).pwr.step + 1)
    rampEnd := h.now + 1000 * (max (stepVid ((getDie h d).pwr.step + 1)) (getDie h d).pwr.vid -
      min (stepVid ((getDie h d).pwr.step + 1)) (getDie h d).pwr.vid) } := by
  have hc : ¬ ((!dieUp h d || !awake h d) = true) := by simp [hup, ha]
  simp only [clockSwitch, if_neg hc, ht, if_neg (Nat.not_lt.mpr hl.le), if_pos (show t > (getDie h d).pwr.step from hl)]
  exact updPwr_congr h d (if_pos hl)

end


/-! ### The obligation -/

theorem conversion_spec {d n : Nat} {v : BitVec 12} {s : State} (hn : n < 12) (hup : dieUp s.hub d = true) (hp : powered s.hub = true)
    (hs : (getDie s.hub d).pwr.state ≠ .off) :
    let p := (getDie s.hub d).pwr
    let t := signed 12 v.toNat
    let q := (getDie (conversion d n v.toNat s.hub) d).pwr
    sensorOf q n = { temp := v.toNat, valid := decide (2 ≤ (sensorOf p n).seen), seen := min 2 ((sensorOf p n).seen + 1) } ∧
      (∀ k, k ≠ n → sensorOf q k = sensorOf p k) ∧
      (1120 ≤ t → q.shutdown = true ∧ q.level = 3) ∧
      (t < 1120 → q.shutdown = p.shutdown ∧
        (hottest q = none → q.level = p.level) ∧
        (∀ w, hottest q = some w → q.maxTemp = unsigned 12 w.2 ∧ q.maxSensor = w.1 ∧ q.level = levelAt p.level w.2)) := by
  intro p t q
  have hq : q.heat = heatAfter (p.read n v.toNat).maxed t := heatOf_conversion hn hup hp hs
  clear_value q
  have hsens : q.sensors = (p.read n v.toNat).sensors := by
    refine (congrArg Prod.fst hq).trans ?_
    rw [heatAfter]
    split
    · exact sensors_maxed _
    · split <;> exact sensors_maxed _
  have hhot : hottest q = hottest (p.read n v.toNat) := hottest_of_sensors hsens
  have hhot' : hottest (p.read n v.toNat).maxed = hottest (p.read n v.toNat) := hottest_of_sensors (sensors_maxed _)
  obtain ⟨hlev, hshut⟩ := level_maxed (p.read n v.toNat)
  have hread (k : Nat) : sensorOf q k = sensorOf (p.read n v.toNat) k := by rw [sensorOf, sensorOf, hsens]
  refine ⟨(hread n).trans (sensorOf_read p n _), fun k hk => (hread k).trans (sensorOf_read_ne p _ hk), fun ht => ?_, fun ht => ?_⟩
  · rw [heatAfter, if_pos ht] at hq
    exact ⟨(congrArg (fun x => x.2.2.2.1) hq :), (congrArg (fun x => x.2.2.2.2) hq :)⟩
  · rw [heatAfter, if_neg (by omega), hhot'] at hq
    cases hw : hottest (p.read n v.toNat) with
    | none =>
      rw [hw] at hq
      refine ⟨(congrArg (fun x => x.2.2.2.1) hq :).trans hshut, fun _ => (congrArg (fun x => x.2.2.2.2) hq :).trans hlev, fun w hw' => ?_⟩
      exact absurd (hw.symm.trans (hhot.symm.trans hw')) (by simp)
    | some w =>
      obtain ⟨hmax, hsen⟩ := max_of_hottest hw
      rw [hw] at hq
      refine ⟨(congrArg (fun x => x.2.2.2.1) hq :).trans hshut, fun hn' => absurd (hn'.symm.trans (hhot.trans hw)) (by simp), fun w' hw' => ?_⟩
      obtain rfl : w = w' := Option.some.inj (hw.symm.trans (hhot.symm.trans hw'))
      refine ⟨(congrArg (fun x => x.2.1) hq :).trans hmax, (congrArg (fun x => x.2.2.1) hq :).trans hsen, ?_⟩
      exact (congrArg (fun x => x.2.2.2.2) hq :).trans (congrArg (levelAt · w.2) hlev)

theorem runged_keeps (p : Pwr) (r now : Nat) : (p.runged r now).allow = p.allow ∧ (p.runged r now).budget = p.budget ∧
    (p.runged r now).rung = r ∧ (p.runged r now).step = p.step ∧ (p.runged r now).stepTo = p.stepTo ∧ (p.runged r now).volt = p.volt := by
  unfold Pwr.runged
  split
  · next e => exact ⟨rfl, rfl, e, rfl, rfl, rfl⟩
  · exact ⟨rfl, rfl, rfl, rfl, rfl, rfl⟩

theorem powerTick_spec {d : Nat} {h : Hub} (hup : dieUp h d = true) (hr : ready h = true) (ha : awake h d = true) :
    let p := (getDie h d).pwr
    let n := tickRung d (updPwr h d fun x => { x with allow := nextAllow p, budget := nextAllow p })
    let q := (getDie (powerTick d h) d).pwr
    q.allow = nextAllow p ∧ q.budget = nextAllow p ∧ q.rung = n.1 ∧ q.below = n.2.1 ∧ q.short = n.2.2 ∧
      q.pool = rungPool q.rung ∧ q.step = p.step ∧
      (p.stepTo = none →
        (rungStep q.rung < p.step → q.stepTo = some (p.step - 1) ∧ q.volt = p.step - 1 ∧ h.now + 2000 ≤ q.rampEnd) ∧
        (p.step < rungStep q.rung → q.stepTo = some (p.step + 1) ∧ q.volt = p.volt) ∧
        (p.step = rungStep q.rung → q.stepTo = none ∧ q.volt = p.volt)) := by
  intro p n q
  obtain ⟨est, refill, bucket, hq⟩ := pwr_powerTick hup hr ha
  have hg : (getDie (updPwr h d fun x => { x with allow := nextAllow p, budget := nextAllow p }) d).pwr =
      { p with allow := nextAllow p, budget := nextAllow p } := by
    rw [updPwr, getDie_updDie]
  replace hq : q = _ := hq
  clear_value q
  simp only [p] at hg
  simp only [hg] at hq
  obtain ⟨ra, rb, rr, rs, rt, rv⟩ := runged_keeps { p with allow := nextAllow p, budget := nextAllow p } n.1 h.now
  set b : Pwr := { Pwr.runged { p with allow := nextAllow p, budget := nextAllow p } n.1 h.now with
    below := n.2.1, short := n.2.2, estimate := est } with hb
  obtain ⟨sa, sb, sr, sl, ss, st⟩ := stepped_keeps b h.now
  replace hq : q = { b.stepped h.now with pool := rungPool (b.stepped h.now).rung, refill := refill, bucket := bucket } := hq
  subst hq
  refine ⟨sa.trans ra, sb.trans rb, sr.trans rr, sl, ss, rfl, st.trans rs, fun hn => ?_⟩
  obtain ⟨hdown, hupw, hsame⟩ := stepped_of_none (p := b) (rt.trans hn) h.now
  have hrung : rungStep (b.stepped h.now).rung = rungStep b.rung := congrArg rungStep sr
  refine ⟨fun hl => ?_, fun hl => ?_, fun he => ?_⟩
  · rw [← show b.step = p.step from rs]
    exact hdown (by rw [show b.step = p.step from rs, ← hrung]; exact hl)
  · obtain ⟨hto, hvolt⟩ := hupw (by rw [show b.step = p.step from rs, ← hrung]; exact hl)
    exact ⟨hto.trans (by rw [show b.step = p.step from rs]), hvolt.trans rv⟩
  · obtain ⟨hto, hvolt⟩ := hsame (by rw [show b.step = p.step from rs, ← hrung]; exact he)
    exact ⟨hto, hvolt.trans rv⟩

/-- Settles O52: conversions and levels, losses for heat, the tick of the budget and the ladder, and the clock's steps. -/
theorem heatAndBudget : Obligations.HeatAndBudget := by
  unfold Obligations.HeatAndBudget
  refine ⟨fun d n v s => ?_, fun d s hp => ⟨fun hup => ⟨fun hsd => ?_, ?_⟩, fun hup => ⟨?_, ?_⟩⟩,
    fun d s hup hr ha => ?_, fun d t s hup ha ht => ?_⟩
  · intro p t hn hup hp hs
    obtain ⟨hread, hother, hhot, hcool⟩ := conversion_spec (v := v) hn hup hp hs
    refine ⟨_, rfl, rfl, rfl, hread, hother, hhot, fun ht => ?_⟩
    obtain ⟨hshut, hnone, hsome⟩ := hcool ht
    refine ⟨hshut, hnone, fun w hw => ?_⟩
    obtain ⟨hmax, hsen, hlev⟩ := hsome w hw
    obtain ⟨h3, hrest⟩ := levelAt_spec (getDie s.hub d).pwr.level w.2
    rw [← hlev] at h3 hrest
    exact ⟨hmax, hsen, h3, hrest⟩
  · exact ⟨_, rfl, lostDie_heatLoss hp hup hsd⟩
  · exact ⟨_, rfl, lostDie_heatLoss hp hup rfl⟩
  · exact congrArg Host.Outcome.next (heatLoss_of_not_up hup)
  · exact congrArg Host.Outcome.next (heatLoss_of_not_up hup)
  · obtain ⟨hallow, hbudget, hrung, hbelow, hshort, hpool, hstep, hclock⟩ := powerTick_spec hup hr ha
    intro p g dm r
    have hhalt : (getDie g d).kdbg.halted = (getDie s.hub d).kdbg.halted := by
      simp only [g, updPwr, getDie_updDie]
    refine ⟨_, rfl, rfl, rfl, hallow, hbudget, fun hn => hallow.trans (nextAllow_of_none hn), fun w hw _ => ?_, fun hn => ?_, fun hs => ?_,
      hpool, hstep, hclock⟩
    · obtain ⟨hhot, hcold, hmid⟩ := nextAllow_of_some hw
      exact ⟨fun h₁ => hallow.trans (hhot h₁), fun h₁ => hallow.trans (hcold h₁), fun h₁ h₂ => hallow.trans (hmid h₁ h₂)⟩
    · have hr' : tickRung d g = r := by
        have hb : (getDie g d).pwr.budget = nextAllow p := by simp only [g, updPwr, getDie_updDie]
        rw [tickRung, hhalt, hn, hb]
        rfl
      exact ⟨hrung.trans (congrArg Prod.fst hr'), hbelow.trans (congrArg (fun x => x.2.1) hr'), hshort.trans (congrArg (fun x => x.2.2) hr')⟩
    · have hr' : tickRung d g = (p.rung, p.below, p.short) := by
        rw [tickRung, hhalt, if_pos hs]
        simp only [g, updPwr, getDie_updDie, p]
      exact ⟨hrung.trans (congrArg Prod.fst hr'), hbelow.trans (congrArg (fun x => x.2.1) hr')⟩
  · exact ⟨fun hl => next_onHub_congr (clockSwitch_down hup ha ht hl), fun he => next_onHub_congr (clockSwitch_same hup ha ht he),
      fun hl => next_onHub_congr (clockSwitch_up hup ha ht hl)⟩

end Sys2Proof.Machine
end

section
/-!
PLLs: what an update of one leaves of the others and of the dies' reference flags, a lock, a failed attempt, a retry, and the loss of a
display PLL with the outputs that it clocks (16 R425-R434; log entries 8, 60, 83).
-/

namespace Sys2Proof.Machine

/-! ### One PLL of a die -/

/-- The slot that a PLL number names. -/
theorem pll_setPll (c : Clk) (i j : Nat) (p : Pll) : (c.setPll j p).pll i = if min i 2 = min j 2 then p else c.pll i := by
  unfold Clk.setPll Clk.pll
  split <;> split <;> simp_all <;> omega

theorem vidOk_setPll (c : Clk) (i : Nat) (p : Pll) : (c.setPll i p).vidOk = c.vidOk := by
  unfold Clk.setPll
  split <;> rfl

theorem clk_updPll (d i : Nat) (f : Pll → Pll) (h : Hub) :
    (getDie (updPll d i f h) d).clk = (getDie h d).clk.setPll i (f (getPll h d i)) := by
  rw [(keepsDies_updPll d i f h).clk d, getDie_updDie]

theorem clk_updPll_ne (d i : Nat) (f : Pll → Pll) (h : Hub) {k : Nat} (hk : k ≠ d) :
    (getDie (updPll d i f h) k).clk = (getDie h k).clk := by
  rw [(keepsDies_updPll d i f h).clk k, getDie_updDie_ne h d k _ hk]

theorem getPll_updPll (d i : Nat) (f : Pll → Pll) (h : Hub) : getPll (updPll d i f h) d i = f (getPll h d i) := by
  rw [getPll, clk_updPll, pll_setPll, if_pos rfl]

/-- A property of one PLL that an update gives and keeps. -/
theorem getPll_updPll_of {P : Pll → Prop} {d i : Nat} {f : Pll → Pll} {h : Hub} (hf : ∀ p, P p → P (f p)) (e j : Nat)
    (hP : P (getPll h e j)) : P (getPll (updPll d i f h) e j) := by
  by_cases he : e = d
  · subst he
    rw [getPll, clk_updPll, pll_setPll]
    split
    next hij =>
      refine hf _ ?_
      rwa [show getPll h e i = getPll h e j from ?_]
      have hc := pll_setPll (getDie h e).clk
      unfold getPll Clk.pll
      split <;> split <;> simp_all <;> omega
    next => exact hP
  · rw [getPll, clk_updPll_ne d i f h he]
    exact hP

theorem getPll_of_keepsDies {g h : Hub} (e : KeepsDies g h) (d i : Nat) : getPll g d i = getPll h d i := by
  rw [getPll, e.clk, getPll]

/-! ### Programming and failed attempts (16 R426, R427) -/

theorem getPll_programPll (d k n p : Nat) (use : Bool × Nat × Nat × Nat) (h : Hub) : getPll (programPll d k n p use h) d (k + 1) =
    { getPll h d (k + 1) with
      n := n, p := p, locked := false, bypass := true, ramp := false, frac := 0, rampAt := none, mod := none
      used := use, progAt := h.now, lockAt := 0, attempts := 1 } := getPll_updPll d (k + 1) _ h

theorem now_programPll (d k n p : Nat) (use : Bool × Nat × Nat × Nat) (h : Hub) : (programPll d k n p use h).now = h.now :=
  now_updPll _ _ _ h

/-- The PLL that is programmed again: unlocked, on bypass, as attempt `n` from now, with its counts. -/
theorem getPll_relock {d i : Nat} (hi : i ≠ 0) (n : Nat) (h : Hub) :
    (getPll (relock d i n h) d i).attempts = n ∧ (getPll (relock d i n h) d i).locked = false ∧
      (getPll (relock d i n h) d i).bypass = true ∧ (getPll (relock d i n h) d i).progAt = h.now ∧
      (getPll (relock d i n h) d i).timeouts = (getPll h d i).timeouts ∧ (getPll (relock d i n h) d i).losses = (getPll h d i).losses := by
  obtain ⟨k, rfl⟩ := Nat.exists_eq_succ_of_ne_zero hi
  unfold relock
  rw [getPll_updPll, Nat.succ_sub_one, Nat.succ_eq_add_one, getPll_programPll]
  exact ⟨rfl, rfl, rfl, rfl, rfl, rfl⟩

theorem now_relock (d i n : Nat) (h : Hub) : (relock d i n h).now = h.now := (now_updPll _ _ _ _).trans (now_programPll _ _ _ _ _ h)

theorem outsTxns_relock (d i n : Nat) (h : Hub) : (relock d i n h).outsTxns = h.outsTxns :=
  (outsTxns_updPll _ _ _ _).trans (outsTxns_updPll _ _ _ h)

/-- A failed attempt: counted, and the next one begun now. -/
theorem getPll_attemptFails {d i : Nat} (hi : i ≠ 0) (h : Hub) :
    (getPll (attemptFails d i h) d i).timeouts = satInc 255 (getPll h d i).timeouts ∧
      (getPll (attemptFails d i h) d i).attempts = (getPll h d i).attempts + 1 ∧
      (getPll (attemptFails d i h) d i).locked = false ∧ (getPll (attemptFails d i h) d i).progAt = h.now ∧
      (attemptFails d i h).now = h.now := by
  unfold attemptFails
  extract_lets p g
  have hg : g.now = h.now := now_updPll _ _ _ h
  have hp : getPll g d i = { p with timeouts := satInc 255 p.timeouts } := getPll_updPll d i _ h
  have hnow : (faultReport d 0x0804 (pllUnit d i) (pllUnit d i) p.attempts g).now = h.now :=
    (faultReport_now _ _ _ _ _ g).trans hg
  have hf := getPll_of_keepsDies (keepsDies_faultReport d 0x0804 (pllUnit d i) (pllUnit d i) p.attempts g) d i
  obtain ⟨ha, hl, -, hprog, ht, -⟩ := getPll_relock hi (p.attempts + 1) (faultReport d 0x0804 (pllUnit d i) (pllUnit d i) p.attempts g)
  refine ⟨?_, ha, hl, hprog.trans hnow, (now_relock _ _ _ _).trans hnow⟩
  rw [ht, hf, hp]

theorem locking_iff {h : Hub} {d i : Nat} (hl : locking h d i = true) :
    dieUp h d = true ∧ (i = 1 ∨ i = 2) ∧ (pllUsers h d (i - 1)).isEmpty = false ∧ (getPll h d i).locked = false := by
  simpa [locking, and_assoc] using hl

/-! ### A lock (16 R426) -/

theorem getPll_vidBack {d i : Nat} (hi : i = 1 ∨ i = 2) (h : Hub) : ∃ r, getPll (vidBack h) d i = { getPll h d i with refOk := r } := by
  simp only [getPll, getDie, Tab.get, vidBack]
  rw [Tab.find_map_of_fst (g := fun e : Nat × Die => (e.1, { e.2 with clk := { e.2.clk with
    vidOk := true, disp0 := { e.2.clk.disp0 with refOk := true }, disp1 := { e.2.clk.disp1 with refOk := true } } })) fun _ => rfl]
  cases h.dies.find d with
  | none => exact ⟨_, rfl⟩
  | some x =>
    obtain rfl | rfl := hi
    · exact ⟨true, rfl⟩
    · exact ⟨true, rfl⟩

theorem dispLock_of_locking {d i : Nat} {h : Hub} (hl : locking h d i = true) :
    getPll (dispLock d i h) d i = { getPll h d i with locked := true, bypass := false, refOk := true, lockAt := h.now } ∧
      (getDie (dispLock d i h) d).clk.vidOk = true := by
  obtain ⟨hup, hi, hu, hlock⟩ := locking_iff hl
  obtain ⟨r, hr⟩ := getPll_vidBack (d := d) hi h
  have hc : ¬ ((!dieUp h d || decide (i = 0) || decide (i > 2) || (pllUsers h d (i - 1)).isEmpty || (getPll h d i).locked) = true) := by
    obtain rfl | rfl := hi <;> simp_all
  unfold dispLock
  rw [if_neg (by simpa using hc)]
  dsimp only
  have hg : getPll (updDie (vidBack h) d fun x => { x with clk := { x.clk with vidOk := true } }) d i = getPll (vidBack h) d i := by
    rw [getPll, getDie_updDie]
    obtain rfl | rfl := hi <;> rfl
  refine ⟨?_, ?_⟩
  · rw [getPll_updPll, hg, hr]
  · rw [clk_updPll, vidOk_setPll, getDie_updDie]

/-! ### Outputs that lose their clock (16 R432) -/

/-- What a change of a display PLL keeps of a die, unless it counts a loss. -/
def videoOf (h : Hub) (d : Nat) : Bool × Nat × Nat :=
  ((getDie h d).clk.vidOk, (getPll h d 1).losses, (getPll h d 2).losses)

theorem videoOf_of_keepsDies {g h : Hub} (e : KeepsDies g h) (d : Nat) : videoOf g d = videoOf h d := by
  rw [videoOf, e.clk, getPll_of_keepsDies e, getPll_of_keepsDies e, videoOf]

theorem videoOf_of_dies {g h : Hub} (e : g.dies = h.dies) (d : Nat) : videoOf g d = videoOf h d := videoOf_of_keepsDies (.of_dies e) d

theorem vidOk_updPll (d i : Nat) (f : Pll → Pll) (h : Hub) (k : Nat) : (getDie (updPll d i f h) k).clk.vidOk = (getDie h k).clk.vidOk := by
  by_cases hk : k = d
  · rw [hk, clk_updPll, vidOk_setPll]
  · rw [clk_updPll_ne d i f h hk]

theorem videoOf_updPll (d i : Nat) {f : Pll → Pll} (h : Hub) (hf : ∀ p, (f p).losses = p.losses) (k : Nat) :
    videoOf (updPll d i f h) k = videoOf h k := by
  have hl (j : Nat) : (getPll (updPll d i f h) k j).losses = (getPll h k j).losses :=
    getPll_updPll_of (P := fun p => p.losses = (getPll h k j).losses) (fun p hp => (hf p).trans hp) k j rfl
  rw [videoOf, vidOk_updPll, hl, hl, videoOf]

theorem videoOf_programPll (d j n p : Nat) (use : Bool × Nat × Nat × Nat) (h : Hub) (k : Nat) :
    videoOf (programPll d j n p use h) k = videoOf h k := by
  refine videoOf_updPll d (j + 1) h (fun _ => ?_) k
  rfl

theorem videoOf_relock (d i n : Nat) (h : Hub) (k : Nat) : videoOf (relock d i n h) k = videoOf h k := by
  unfold relock
  refine (videoOf_updPll d i _ (fun _ => ?_) k).trans (videoOf_programPll _ _ _ _ _ h k)
  rfl

theorem videoOf_attemptFails (d i : Nat) (h : Hub) (k : Nat) : videoOf (attemptFails d i h) k = videoOf h k := by
  refine (videoOf_relock _ _ _ _ k).trans ((videoOf_of_keepsDies (keepsDies_faultReport _ _ _ _ _ _) k).trans
    (videoOf_updPll d i h (fun _ => ?_) k))
  rfl

theorem dies_portIdles (o : Nat) (h : Hub) : (portIdles o h).dies = h.dies := by
  unfold portIdles
  split
  · rfl
  · split
    · split
      · exact (congrArg Hub.dies (offPorts_sendBlock _ _ _ _ h) :)
      · rfl
    · rfl

theorem dies_drainOut (o : Nat) (h : Hub) : (drainOut o h).dies = h.dies := dies_portIdles o _

theorem dies_openStart (o : Nat) (h : Hub) : (openStart o h).dies = h.dies := by
  unfold openStart
  dsimp only
  split <;> rfl

theorem dies_latchStart (h : Hub) (o : Nat) : (latchStart h o).dies = h.dies := by
  unfold latchStart
  dsimp only
  split <;> rfl

theorem videoOf_retarget (o : Nat) (h : Hub) (k : Nat) : videoOf (retarget o h) k = videoOf h k := by
  unfold retarget
  dsimp only
  split
  · rfl
  · split
    · rfl
    · exact videoOf_programPll _ _ _ _ _ h k

theorem dies_outEvent (o : Nat) (h : Hub) : (outEvent o h).dies = h.dies := by
  unfold outEvent
  split
  · rfl
  · exact dies_postEvent _ _ _ _ h

theorem videoOf_blankOut (o : Nat) (h : Hub) (k : Nat) : videoOf (blankOut o h) k = videoOf h k := by
  unfold blankOut
  split
  · rfl
  · extract_lets g₁ g₂
    have h₂ : g₂.dies = h.dies := dies_drainOut o h
    calc
      _ = videoOf (retarget o (latchStart (openStart o g₂) o)) k := videoOf_of_dies (dies_outEvent o _) k
      _ = videoOf (latchStart (openStart o g₂) o) k := videoOf_retarget o _ k
      _ = videoOf h k := videoOf_of_dies ((dies_latchStart _ o).trans ((dies_openStart o g₂).trans h₂)) k

theorem videoOf_losePll (o : Nat) (h : Hub) (k : Nat) : videoOf (losePll o h) k = videoOf h k := by
  unfold losePll settleLoss
  dsimp only
  split
  · rfl
  · split
    · split
      · rfl
      · split
        · exact (videoOf_blankOut o _ k).trans rfl
        · rfl
    · rfl

/-- What a loss of clock may change of an output. -/
def Output.clocked (x : Output) : OutState × Bool × Option ModeEntry × Option Scan := (x.state, x.pllLost, x.mode, x.scan)

theorem outsTxns_portIdles (o : Nat) (h : Hub) : (portIdles o h).outsTxns = h.outsTxns := by
  unfold portIdles
  split
  · rfl
  · split
    · split
      · exact outsTxns_sendBlock _ _ _ _ h
      · rfl
    · rfl

theorem outsTxns_retarget (o : Nat) (h : Hub) : (retarget o h).outsTxns = h.outsTxns := by
  unfold retarget
  dsimp only
  split
  · rfl
  · split
    · rfl
    · exact outsTxns_updPll _ _ _ h

theorem clocked_openStart (o q : Nat) (h : Hub) : (getOut (openStart o h) q).clocked = (getOut h q).clocked := by
  unfold openStart
  dsimp only
  split
  · rfl
  · exact getOut_updOut_keeps Output.clocked _ _ _ fun _ => rfl

theorem clocked_latchStart (o q : Nat) (h : Hub) : (getOut (latchStart h o) q).clocked = (getOut h q).clocked := by
  unfold latchStart
  dsimp only
  split
  · exact getOut_updOut_keeps Output.clocked _ _ _ fun _ => rfl
  · rfl

/-- Blanking touches, of what is said here, the state of its own output alone. -/
theorem clocked_blankOut_ne {o q : Nat} (hq : q ≠ o) (h : Hub) : (getOut (blankOut o h) q).clocked = (getOut h q).clocked := by
  unfold blankOut
  split
  · rfl
  · extract_lets g₁ g₂
    have h₂ : getOut g₂ q = getOut h q := calc
      _ = getOut g₁ q := getOut_updOut_ne _ _ _ _ hq
      _ = _ := getOut_of_outsTxns (outsTxns_portIdles o _) q
      _ = getOut h q := Eq.trans rfl
        (getOut_updOut_ne h o q (fun x => { endFrame (truncateFrame h.now x) with scan := none, bands := [], undPosted := false, pllLost := false }) hq)
    calc
      _ = (getOut (retarget o (latchStart (openStart o g₂) o)) q).clocked :=
        congrArg Output.clocked (getOut_of_outsTxns (outsTxns_of_rest (rest_outEvent o _)) q)
      _ = (getOut (latchStart (openStart o g₂) o) q).clocked := congrArg Output.clocked (getOut_of_outsTxns (outsTxns_retarget o _) q)
      _ = (getOut g₂ q).clocked := (clocked_latchStart o q _).trans (clocked_openStart o q g₂)
      _ = (getOut h q).clocked := congrArg Output.clocked h₂

theorem state_blankOut {o : Nat} {h : Hub} (hs : (getOut h o).state = .running) : (getOut (blankOut o h) o).state = .changing := by
  have hc : ¬ (((getOut h o).state != .running) = true) := by simp [hs]
  unfold blankOut
  rw [if_neg hc]
  extract_lets g₁ g₂
  have h₂ : (getOut g₂ o).state = .changing := by
    rw [show g₂ = updOut g₁ o _ from rfl, getOut_updOut]
  refine Eq.trans ?_ h₂
  have h₃ : (getOut (latchStart (openStart o g₂) o) o).clocked = (getOut g₂ o).clocked :=
    (clocked_latchStart o o _).trans (clocked_openStart o o g₂)
  rw [getOut_of_outsTxns (outsTxns_of_rest (rest_outEvent o _)), getOut_of_outsTxns (outsTxns_retarget o _)]
  exact (congrArg Prod.fst h₃ :)

theorem clocked_losePll_ne {o q : Nat} (hq : q ≠ o) (h : Hub) : (getOut (losePll o h) q).clocked = (getOut h q).clocked := by
  unfold losePll
  dsimp only
  split
  · rfl
  · have h₁ : getOut (updOut h o fun x => { x with pllLost := true }) q = getOut h q := getOut_updOut_ne _ _ _ _ hq
    split
    · unfold settleLoss
      dsimp only
      split
      · rw [h₁]
      · have h₂ : getOut (updOut (updOut h o fun x => { x with pllLost := true }) o fun x => { x with pllLost := false }) q = getOut h q :=
          (getOut_updOut_ne _ _ _ _ hq).trans h₁
        split
        · exact (clocked_blankOut_ne hq _).trans (congrArg Output.clocked h₂)
        · rw [h₂]
    · rw [h₁]

section
variable {o : Nat} {h : Hub} {e : ModeEntry} {sc : Scan} (hs : (getOut h o).state = .running) (he : (getOut h o).mode = some e)
  (hsc : (getOut h o).scan = some sc)
include hs he hsc

/-- In a vertical blank the output goes to CHANGING at once (log 83). -/
theorem losePll_of_blank (hline : sc.line = 0) : (getOut (losePll o h) o).state = .changing := by
  have hc : ¬ (((getOut h o).state != .running) = true) := by simp [hs]
  have hz : (((getOut h o).scan.map Scan.line).getD 0 = 0) := by rw [hsc]; exact hline
  unfold losePll
  dsimp only
  rw [if_neg hc, if_pos hz]
  unfold settleLoss
  have hl : ¬ ((!(getOut (updOut h o fun x => { x with pllLost := true }) o).pllLost) = true) := by simp [getOut_updOut]
  dsimp only
  rw [if_neg hl]
  simp only [getOut_updOut, he, hsc]
  refine state_blankOut (Eq.trans ?_ hs)
  rw [show ∀ (t : Nat) (g : Hub), getOut (at_ t g) o = getOut g o from fun _ _ => rfl, getOut_updOut, getOut_updOut]

/-- Within the active lines the output runs on, marked, to its next line start. -/
theorem losePll_of_active (hline : sc.line ≠ 0) : (getOut (losePll o h) o).clocked = (.running, true, some e, some sc) := by
  have hc : ¬ (((getOut h o).state != .running) = true) := by simp [hs]
  have hz : ¬ (((getOut h o).scan.map Scan.line).getD 0 = 0) := by rw [hsc]; exact hline
  unfold losePll
  dsimp only
  rw [if_neg hc, if_neg hz, getOut_updOut]
  simp only [Output.clocked, hs, he, hsc]

end

/-- An output that changes already is left as it is. -/
theorem losePll_of_changing {o : Nat} {h : Hub} (hs : (getOut h o).state = .changing) : losePll o h = h := by
  unfold losePll
  dsimp only
  rw [if_pos (by simp [hs])]

end Sys2Proof.Machine
end

section
/-!
The loss of a display PLL: its outputs lose their clock, and all that restart with it are programmed anew (16 R434; log entries 8, 83).
-/

namespace Sys2Proof.Machine

/-! ### The outputs that a loss reaches -/

/-- An output with a display PLL is among its own peers. -/
theorem mem_clockPeers {h : Hub} {o : Nat} {os : List Nat} (ho : o < 32) (hp : (getOut h o).pll < 2) (hm : o ∈ os) :
    o ∈ clockPeers h os := by
  simp only [clockPeers, List.mem_filter, List.mem_range, Bool.and_eq_true, decide_eq_true_eq, List.any_eq_true]
  exact ⟨ho, hp, o, hm, by simp⟩

theorem mem_clockClosure {h : Hub} {o : Nat} {os : List Nat} (ho : o < 32) (hp : (getOut h o).pll < 2) (hm : o ∈ os) (n : Nat) :
    o ∈ clockClosure h n os := by
  induction n generalizing os with
  | zero => exact hm
  | succ n ih => exact ih (mem_clockPeers ho hp hm)

/-- After the outputs of a list have lost their clock, one of them that ran in its blank changes, and another that ran is marked. -/
theorem foldl_losePll {o : Nat} {e : ModeEntry} {sc : Scan} {l : List Nat} (hm : o ∈ l) {h : Hub} (hs : (getOut h o).state = .running)
    (he : (getOut h o).mode = some e) (hsc : (getOut h o).scan = some sc) :
    (sc.line = 0 → (getOut (l.foldl (fun h o => losePll o h) h) o).state = .changing) ∧
      (sc.line ≠ 0 → (getOut (l.foldl (fun h o => losePll o h) h) o).state = .running ∧
        (getOut (l.foldl (fun h o => losePll o h) h) o).pllLost = true) := by
  have hrest (t : List Nat) (g : Hub) (hg : (getOut g o).state = .changing) :
      (getOut (t.foldl (fun h o => losePll o h) g) o).state = .changing := by
    refine List.foldlRecOn t _ (motive := fun q => (getOut q o).state = .changing) hg fun q hq a _ => ?_
    by_cases ha : o = a
    · rw [← ha, losePll_of_changing hq]
      exact hq
    · exact (congrArg Prod.fst (clocked_losePll_ne ha q) :).trans hq
  have hmark (t : List Nat) (g : Hub) (hline : sc.line ≠ 0) (hg : (getOut g o).clocked = (.running, true, some e, some sc)) :
      (getOut (t.foldl (fun h o => losePll o h) g) o).clocked = (.running, true, some e, some sc) := by
    refine List.foldlRecOn t _ (motive := fun q => (getOut q o).clocked = (.running, true, some e, some sc)) hg fun q hq a _ => ?_
    by_cases ha : o = a
    · rw [← ha]
      exact losePll_of_active (congrArg Prod.fst hq :) (congrArg (fun x => x.2.2.1) hq :) (congrArg (fun x => x.2.2.2) hq :) hline
    · exact (clocked_losePll_ne ha q).trans hq
  induction l generalizing h with
  | nil => cases hm
  | cons a t ih =>
    by_cases ha : o = a
    · subst ha
      refine ⟨fun hline => hrest t _ (losePll_of_blank hs he hsc hline), fun hline => ?_⟩
      have hc := hmark t _ hline (losePll_of_active hs he hsc hline)
      exact ⟨(congrArg Prod.fst hc :), (congrArg (fun x => x.2.1) hc :)⟩
    · have hc := clocked_losePll_ne ha h
      exact ih (List.mem_of_ne_of_mem ha hm) ((congrArg Prod.fst hc :).trans hs) ((congrArg (fun x => x.2.2.1) hc :).trans he)
        ((congrArg (fun x => x.2.2.2) hc :).trans hsc)

/-! ### The PLLs that restart -/

/-- A PLL as a loss leaves it. -/
def Restarted (losses : Nat) (p : Pll) : Prop := p.locked = false ∧ p.bypass = true ∧ p.attempts = 1 ∧ p.losses = losses

theorem restarted_relock {n d i e j : Nat} {h : Hub} (hi : i ≠ 0) (hP : Restarted n (getPll h e j)) :
    Restarted n (getPll (relock d i 1 h) e j) := by
  obtain ⟨k, rfl⟩ := Nat.exists_eq_succ_of_ne_zero hi
  unfold relock
  refine getPll_updPll_of (fun p hp => ?_) e j (getPll_updPll_of (fun p hp => ?_) e j hP)
  · obtain ⟨hl, hb, -, hn⟩ := hp
    exact ⟨hl, hb, rfl, hn⟩
  · exact ⟨rfl, rfl, rfl, hp.2.2.2⟩

theorem restarted_foldl {n d i : Nat} (hi : i ≠ 0) {l : List (Nat × Nat)} (hl : ∀ p ∈ l, p.2 ≠ 0) {h : Hub}
    (hn : (getPll h d i).losses = n) : Restarted n (getPll (((d, i) :: l).foldl (fun h p => relock p.1 p.2 1 h) h) d i) := by
  obtain ⟨ha, hlk, hb, -, -, hlo⟩ := getPll_relock (d := d) hi 1 h
  rw [List.foldl_cons]
  exact List.foldlRecOn l _ (motive := fun g => Restarted n (getPll g d i)) ⟨hlk, hb, ha, hlo.trans hn⟩
    fun g hg p hp => restarted_relock (hl p hp) hg

theorem getPll_losses_of_video {g h : Hub} {d i : Nat} (hi : i = 1 ∨ i = 2) (e : videoOf g d = videoOf h d) :
    (getPll g d i).losses = (getPll h d i).losses := by
  obtain rfl | rfl := hi
  · exact (congrArg (fun x => x.2.1) e :)
  · exact (congrArg (fun x => x.2.2) e :)

theorem keepsDies_pllFault (d i cause : Nat) (h : Hub) : KeepsDies (pllFault d i cause h) h :=
  (keepsDies_faultReport _ _ _ _ _ _).trans (.of_dies rfl)

theorem outsTxns_pllFault (d i cause : Nat) (h : Hub) : (pllFault d i cause h).outsTxns = h.outsTxns :=
  (outsTxns_of_rest (rest_faultReport _ _ _ _ _ _)).trans rfl

/-- One display PLL that was locked loses lock. -/
def lossCounted (d i : Nat) (h : Hub) : Hub := updPll d i (fun p => { p with losses := satInc 255 p.losses }) (pllFault d i 0x0704 h)

theorem getOut_lossCounted (d i : Nat) (h : Hub) (o : Nat) : getOut (lossCounted d i h) o = getOut h o :=
  getOut_of_outsTxns ((outsTxns_updPll _ _ _ _).trans (outsTxns_pllFault d i 0x0704 h)) o

section
variable {d i : Nat} {h : Hub} (hup : dieUp h d = true) (hi : i = 1 ∨ i = 2) (hl : (getPll h d i).locked = true)

/-- The outputs that lose their clock with it. -/
def lossOuts (d i : Nat) (h : Hub) : List Nat := clockClosure (lossCounted d i h) 8 (pllUsers (lossCounted d i h) d (i - 1))

/-- The other PLLs that restart with it. -/
def lossPlls (d i : Nat) (h : Hub) : List (Nat × Nat) :=
  (((lossOuts d i h).map fun o => (o / 4, (getOut (lossCounted d i h) o).pll + 1)).filter fun p => !p == (d, i)).eraseDups

omit hup hi hl in
theorem lossPlls_ne_zero {p : Nat × Nat} (hp : p ∈ lossPlls d i h) : p.2 ≠ 0 := by
  rw [lossPlls, List.mem_eraseDups, List.mem_filter, List.mem_map] at hp
  obtain ⟨⟨o, -, rfl⟩, -⟩ := hp
  exact Nat.succ_ne_zero _

include hup hl in
theorem dispLoses_one : dispLoses [(d, i)] h =
    ((d, i) :: lossPlls d i h).foldl (fun h p => relock p.1 p.2 1 h)
      ((lossOuts d i h).foldl (fun h o => losePll o h) (lossCounted d i h)) := by
  have hnot : locking h d i = false := by simp [locking, hl]
  have hup' : [(d, i)].filter (fun q => dieUp h q.1) = [(d, i)] := by simp [hup]
  have hlock : [(d, i)].filter (fun q => (getPll h q.1 q.2).locked) = [(d, i)] := by simp [hl]
  have hno : [(d, i)].filter (fun q => locking h q.1 q.2) = [] := by simp [hnot]
  rw [dispLoses, hup', hlock, hno, List.foldl_nil, dispLoss, List.foldl_cons, List.foldl_nil, List.flatMap_cons, List.flatMap_nil,
    List.append_nil, List.cons_append, List.nil_append, List.eraseDups_cons]
  rfl

include hup hi hl

theorem getPll_dispLoses : Restarted (satInc 255 (getPll h d i).losses) (getPll (dispLoses [(d, i)] h) d i) := by
  have hi0 : i ≠ 0 := by omega
  rw [dispLoses_one hup hl]
  refine restarted_foldl hi0 (fun p hp => lossPlls_ne_zero hp) ?_
  have hv : videoOf ((lossOuts d i h).foldl (fun h o => losePll o h) (lossCounted d i h)) d = videoOf (lossCounted d i h) d :=
    foldl_keeps (fun g => videoOf g d) (fun g o => videoOf_losePll o g d) (lossOuts d i h) (lossCounted d i h)
  rw [getPll_losses_of_video hi hv, lossCounted, getPll_updPll, getPll_of_keepsDies (keepsDies_pllFault d i 0x0704 h)]

omit hup hl in
theorem mem_lossOuts {o : Nat} (hp : (getOut h o).pll = i - 1) (hd : o / 4 = d) (ho : o < 32) : o ∈ lossOuts d i h := by
  have hout := getOut_lossCounted d i h o
  have hpll : (getOut (lossCounted d i h) o).pll < 2 := by
    rw [hout, hp]
    omega
  refine mem_clockClosure ho hpll ?_ 8
  simp only [pllUsers, List.mem_filter, List.mem_map, List.mem_range, beq_iff_eq]
  exact ⟨⟨o % 4, Nat.mod_lt _ (by decide), by omega⟩, by rw [hout, hp]⟩

omit hup hi hl in
theorem getOut_relocks (l : List (Nat × Nat)) (g : Hub) (o : Nat) : getOut (l.foldl (fun h p => relock p.1 p.2 1 h) g) o = getOut g o := by
  refine getOut_of_outsTxns (foldl_keeps Hub.outsTxns (fun g (p : Nat × Nat) => ?_) l g) o
  exact outsTxns_relock p.1 p.2 1 g

theorem getOut_dispLoses {o : Nat} {e : ModeEntry} {sc : Scan} (hp : (getOut h o).pll = i - 1) (hd : o / 4 = d) (ho : o < 32)
    (hs : (getOut h o).state = .running) (he : (getOut h o).mode = some e) (hsc : (getOut h o).scan = some sc) :
    (sc.line = 0 → (getOut (dispLoses [(d, i)] h) o).state = .changing) ∧
      (sc.line ≠ 0 → (getOut (dispLoses [(d, i)] h) o).state = .running ∧ (getOut (dispLoses [(d, i)] h) o).pllLost = true) := by
  have hout := getOut_lossCounted d i h o
  rw [dispLoses_one hup hl, getOut_relocks]
  exact foldl_losePll (mem_lossOuts hi hp hd ho) (by rw [hout, hs]) (by rw [hout, he]) (by rw [hout, hsc])

end

/-! ### A missing reference (16 R432) -/

/-- CLK_REF.VID_OK of a die. -/
def vidOf (h : Hub) (k : Nat) : Bool := (getDie h k).clk.vidOk

theorem vidOf_of_video {g h : Hub} {k : Nat} (e : videoOf g k = videoOf h k) : vidOf g k = vidOf h k := (congrArg Prod.fst e :)

theorem vidOf_foldl {α : Type} {f : Hub → α → Hub} (k : Nat) (hf : ∀ g a, vidOf (f g a) k = vidOf g k) (l : List α) (h : Hub) :
    vidOf (l.foldl f h) k = vidOf h k := foldl_keeps (fun g => vidOf g k) hf l h

theorem vidOf_updPll (d i : Nat) (f : Pll → Pll) (h : Hub) (k : Nat) : vidOf (updPll d i f h) k = vidOf h k := vidOk_updPll d i f h k

theorem vidOf_dispLoss (l : List (Nat × Nat)) (h : Hub) (k : Nat) : vidOf (dispLoss l h) k = vidOf h k := by
  unfold dispLoss
  extract_lets g₁ os ps g₂
  have h₁ : vidOf g₁ k = vidOf h k := by
    refine vidOf_foldl k (fun g q => (vidOf_updPll _ _ _ _ k).trans ?_) l h
    exact congrArg Clk.vidOk ((keepsDies_pllFault q.1 q.2 0x0704 g).clk k)
  clear_value g₁
  have h₂ : vidOf g₂ k = vidOf g₁ k := vidOf_foldl k (fun g o => vidOf_of_video (videoOf_losePll o g k)) os g₁
  clear_value g₂
  refine (vidOf_foldl k (fun g (p : Nat × Nat) => ?_) ps g₂).trans (h₂.trans h₁)
  exact vidOf_of_video (videoOf_relock p.1 p.2 1 g k)

theorem vidOf_dispLoses (l : List (Nat × Nat)) (h : Hub) (k : Nat) : vidOf (dispLoses l h) k = vidOf h k := by
  unfold dispLoses
  extract_lets up
  refine (vidOf_dispLoss _ _ k).trans ?_
  refine vidOf_foldl k (fun g (q : Nat × Nat) => ?_) _ h
  exact vidOf_of_video (videoOf_attemptFails q.1 q.2 g k)

theorem vidOf_lost {l : List Nat} {e : Nat} (he : e ∈ l) (h : Hub) :
    vidOf (l.foldl (fun h d => updDie h d fun x => { x with clk := { x.clk with vidOk := false } }) h) e = false := by
  induction l generalizing h with
  | nil => cases he
  | cons a t ih =>
    by_cases hm : e ∈ t
    · exact ih hm _
    · obtain rfl : e = a := (List.mem_cons.mp he).resolve_right hm
      rw [List.foldl_cons]
      refine Eq.trans (List.foldlRecOn t _ (motive := fun g => vidOf g e = vidOf (updDie h e fun x =>
        { x with clk := { x.clk with vidOk := false } }) e) rfl fun g hg b hb => Eq.trans ?_ hg) ?_
      · exact congrArg (fun x : Die => x.clk.vidOk) (getDie_updDie_ne g b e _ fun heb => hm (heb ▸ hb))
      · rw [vidOf, getDie_updDie]

theorem vidOf_vidMissing {h : Hub} {e : Nat} (he : e ∈ upDies h) : vidOf (vidMissing h) e = false := by
  unfold vidMissing
  extract_lets ps g
  have hg : vidOf g e = false := vidOf_lost he h
  clear_value g
  refine (vidOf_dispLoses _ _ e).trans ((vidOf_foldl e (fun q p => ?_) ps g).trans hg)
  exact vidOf_updPll p.1 p.2 _ q e

/-! ### The loss of the root PLL (16 R433) -/

theorem pkg_updPll (d i : Nat) (f : Pll → Pll) (h : Hub) : (updPll d i f h).pkg = h.pkg := by
  unfold updPll
  dsimp only
  split
  · rfl
  · have hrec (g : Hub) : (pllRecord d i g).pkg = g.pkg := fbkRecord_pkg _ _ _ _ _ (takeFree g).2
    rw [hrec]
    exact pkg_of_rest (rest_intEvent d 9 _)

/-- The hub with a die on its stand-in oscillator. -/
def onOscillator (d : Nat) (h : Hub) : Hub :=
  updDie (updPll d 0 (fun p => { p with losses := satInc 255 p.losses, locked := false, bypass := true, refOk := true,
                                        progAt := h.now, attempts := 1 }) (pllFault d 0 0x0704 h))
    d fun x => { x with clk := { x.clk with sysOk := true, rcActive := true, aligned := false, rootOn := 0xFC0 } }

section
variable {d : Nat} {s : State} (hup : dieUp s.hub d = true) (hp : powered s.hub = true) (hl : (getPll s.hub d 0).locked = true)
include hup hp hl

theorem lockLoss_root : lockLoss d 0 s.lp5x s.hub = dieLost d 3 s.lp5x (onOscillator d s.hub) := by
  have hc : ¬ ((!dieUp s.hub d || !powered s.hub || !(getPll s.hub d 0).locked) = true) := by simp [hup, hp, hl]
  rw [lockLoss, if_pos rfl, rootLoss, if_neg hc]
  rfl

omit hp hl in
theorem dieUp_onOscillator : dieUp (onOscillator d s.hub) d = true := by
  have hpkg : (onOscillator d s.hub).pkg = s.hub.pkg := by
    unfold onOscillator
    refine Eq.trans rfl ((pkg_updPll d 0 _ _).trans ?_)
    exact (faultReport_pkg _ _ _ _ _ _).trans rfl
  rw [dieUp, hpkg]
  exact hup

theorem root_lost : LostDie d 3 s (act (lockLoss d 0) s) ∧ (getPll (act (lockLoss d 0) s).hub d 0).locked = false ∧
    (getDie (act (lockLoss d 0) s).hub d).clk.rcActive = true := by
  have he := lockLoss_root hup hp hl
  have hup' := dieUp_onOscillator hup
  obtain ⟨p, a, hf⟩ := fixed_dieLost hup' 3 s.lp5x
  have hclk : (getDie (onOscillator d s.hub) d).clk.root.locked = false ∧ (getDie (onOscillator d s.hub) d).clk.rcActive = true := by
    unfold onOscillator
    rw [getDie_updDie]
    refine ⟨?_, rfl⟩
    exact congrArg Pll.locked (getPll_updPll d 0 _ _)
  have hhub : (act (lockLoss d 0) s).hub = (dieLost d 3 s.lp5x (onOscillator d s.hub)).1 := by rw [act_hub, he]
  refine ⟨lostDie_act hup' he, ?_, ?_⟩
  · rw [hhub]
    refine (congrArg Pll.locked (root_of_fixed hf d)).trans (Eq.trans ?_ hclk.1)
    rw [powerOff, updPwr, getDie_updDie]
    rfl
  · rw [hhub]
    refine (rcActive_of_fixed hf d).trans (Eq.trans ?_ hclk.2)
    rw [powerOff, updPwr, getDie_updDie]
    rfl

end

end Sys2Proof.Machine
end

section
/-!
The crystal and the timebase, the PLL_ and CLK_ registers, and the statement about clocks (16 R432-R438; log entries 8, 60).
-/

namespace Sys2Proof.Machine

/-! ### The timebase (16 R436) -/

section
variable {d : Nat} {h : Hub} (hup : dieUp h d = true) (ha : awake h d = true) (hl : (getDie h d).clk.root.locked = true)
  (hs : 5 ≤ (getDie h d).kpr.step)

theorem correctTime_principal (hp : d = h.pkg.principal) : correctTime d h = h := by
  simp [correctTime, hp]

include hup ha hl hs

theorem correctTime_aligned (hp : d ≠ h.pkg.principal) (ho : (getDie h d).clk.tbOff = 0) :
    correctTime d h = updDie h d fun x => { x with clk := { x.clk with aligned := true } } := by
  have hc : (dieUp h d && awake h d && (getDie h d).clk.root.locked && decide ((getDie h d).kpr.step ≥ 5) && decide (d ≠ h.pkg.principal)) = true := by
    simp [hup, ha, hl, hs, hp]
  unfold correctTime
  dsimp only
  rw [if_pos hc, if_pos ho, if_pos ho]
  refine updDie_congr h d ?_
  simp only [ho]
  rfl

theorem correctTime_off (hp : d ≠ h.pkg.principal) (ho : (getDie h d).clk.tbOff ≠ 0) :
    let c := (getDie h d).clk
    let o : Int := if 0 < c.tbOff then c.tbOff - 1 else c.tbOff + 1
    let g := at_ (c.corrAt + 1000) h
    correctTime d h = updDie g d fun x => { x with clk := { x.clk with tbOff := o, corrAt := g.now, aligned := decide (o.natAbs ≤ 2) } } := by
  intro c o g
  have hc : (dieUp h d && awake h d && (getDie h d).clk.root.locked && decide ((getDie h d).kpr.step ≥ 5) && decide (d ≠ h.pkg.principal)) = true := by
    simp [hup, ha, hl, hs, hp]
  have ht : towards0 c.tbOff = o := by
    have hne : c.tbOff ≠ 0 := ho
    simp only [towards0, o]
    split
    · rfl
    · rw [if_pos (by omega)]
  unfold correctTime
  dsimp only
  rw [if_pos hc, if_neg ho, if_neg ho]
  exact congrArg (fun t : Int => updDie g d fun x => { x with clk := { x.clk with tbOff := t, corrAt := g.now, aligned := decide (t.natAbs ≤ 2) } }) ht

end

/-! ### Registers (16 R435, R438) -/

theorem regGateHub_of_takes {h : Hub} {fn d : Nat} (ht : RegTakes h fn d) (off : Nat) (f : Hub → Hub) :
    regGateHub fn d off false f h = f (accessWakes d fn h) := by
  rw [regGateHub, regGate_of_takes ht]

section
variable {d i : Nat} {h : Hub} (hi : i ≤ 2) (v : Nat)
include hi

theorem pllWrite32_at {off : Nat} (ho : off < 0x40) : ((0x40 * i + off) / 0x40 = i ∧ (0x40 * i + off) % 0x40 = off) ∧ ¬ i > 2 := by
  omega

theorem pllWrite32_ssc (hz : i ≠ 0) (h₁ : bits v 4 6 ≤ 50) (h₂ : bits v 10 3 ≤ 6) : pllWrite32 d (0x40 * i + 8) v h =
    updDie h d fun x => { x with clk := x.clk.setPll i { x.clk.pll i with sscEn := v.testBit 0, spread := bits v 4 6, fmod := bits v 10 3 } } := by
  obtain ⟨⟨hd, hm⟩, hn⟩ := pllWrite32_at hi (off := 8) (by decide)
  have hc : ¬ ((decide (i = 0) || decide (bits v 4 6 > 50) || decide (bits v 10 3 > 6)) = true) := by
    simp only [Bool.or_eq_true, decide_eq_true_eq]
    omega
  simp only [pllWrite32, hd, hm, if_neg hn, if_neg hc]
  rfl

theorem pllWrite32_ssc_bad (hb : i = 0 ∨ 50 < bits v 4 6 ∨ 6 < bits v 10 3) : pllWrite32 d (0x40 * i + 8) v h =
    updDie h d fun x => { x with clk := x.clk.setPll i { x.clk.pll i with ignored := satInc 255 (x.clk.pll i).ignored } } := by
  obtain ⟨⟨hd, hm⟩, hn⟩ := pllWrite32_at hi (off := 8) (by decide)
  have hc : (decide (i = 0) || decide (bits v 4 6 > 50) || decide (bits v 10 3 > 6)) = true := by
    simp only [Bool.or_eq_true, decide_eq_true_eq]
    omega
  simp only [pllWrite32, hd, hm, if_neg hn, if_pos hc]

theorem pllWrite32_seed (hz : i ≠ 0) (hv : v % 65536 ≠ 0) : pllWrite32 d (0x40 * i + 0x0C) v h =
    updDie h d fun x => { x with clk := x.clk.setPll i { x.clk.pll i with seed := v % 65536 } } := by
  obtain ⟨⟨hd, hm⟩, hn⟩ := pllWrite32_at hi (off := 0x0C) (by decide)
  have hb : bits v 0 16 = v % 65536 := by simp [bits]
  have hc : ¬ ((decide (i = 0) || decide (v % 65536 = 0)) = true) := by
    simp [hz, hv]
  simp only [pllWrite32, hd, hm, if_neg hn, hb, if_neg hc]

theorem pllWrite32_count : pllWrite32 d (0x40 * i + 0x14) v h =
    updDie h d fun x => { x with clk := x.clk.setPll i { x.clk.pll i with
      losses := bits v 0 8, timeouts := bits v 8 8, ignored := bits v 16 8 } } := by
  obtain ⟨⟨hd, hm⟩, hn⟩ := pllWrite32_at hi (off := 0x14) (by decide)
  simp only [pllWrite32, hd, hm, if_neg hn]

end

section
variable {d n : Nat} {h : Hub} (hn : n < 2) (v : Nat)
include hn

theorem clkWrite32_out (hv : bits v 0 3 ≤ 5) : clkWrite32 d (0x10 + 4 * n) v h =
    updDie h d fun x => { x with clk := { x.clk with outs := x.clk.outs.set n (clkOutBits v) } } := by
  have hc : ¬ (((decide (0x10 + 4 * n = 0x10) || decide (0x10 + 4 * n = 0x14)) && decide (bits v 0 3 > 5)) = true) := by
    simp only [Bool.and_eq_true, decide_eq_true_eq]
    omega
  obtain rfl | rfl : n = 0 ∨ n = 1 := by omega
  · rw [clkWrite32, if_neg hc]
  · rw [clkWrite32, if_neg hc]

theorem clkWrite32_bad (hv : 5 < bits v 0 3) : clkWrite32 d (0x10 + 4 * n) v h =
    updPll d 0 (fun p => { p with ignored := satInc 255 p.ignored }) h := by
  have hc : ((decide (0x10 + 4 * n = 0x10) || decide (0x10 + 4 * n = 0x14)) && decide (bits v 0 3 > 5)) = true := by
    simp only [Bool.and_eq_true, Bool.or_eq_true, decide_eq_true_eq]
    omega
  unfold clkWrite32
  rw [if_pos hc]

end

/-! ### The obligation -/

theorem next_act_of_no_writes {f : List Host.Cell → Hub → Eff} {s : State} {g : Hub} (hf : f s.lp5x s.hub = (g, [])) :
    (Host.Outcome.next (act f s) : Host.Outcome State Fault Refusal) = .next { s with hub := g } :=
  congrArg _ (act_eq_of_no_writes hf)

theorem lockLoss_display {i : Nat} (hi : i = 1 ∨ i = 2) (d : Nat) (m : List Host.Cell) (h : Hub) :
    lockLoss d i m h = (dispLoses [(d, i)] h, []) := by
  rw [lockLoss, if_neg (by omega), if_pos (by omega)]

theorem pllLock_display {i : Nat} (hi : i ≠ 0) (d : Nat) (m : List Host.Cell) (h : Hub) : pllLock d i m h = (dispLock d i h, []) := by
  rw [pllLock, if_neg hi]

theorem refMissing_video {i : Nat} (hi : i ≠ 0) {h : Hub} (hp : powered h = true) (m : List Host.Cell) :
    refMissing i m h = (vidMissing h, []) := by
  rw [refMissing, if_neg (by simp [hp]), if_neg hi]

/-- Settles O53: PLLs lock, fail, retry and are lost; the references, the crystal and the timebase; the PLL_ and CLK_ registers. -/
theorem clocksAndPlls : Obligations.ClocksAndPlls := by
  unfold Obligations.ClocksAndPlls
  refine ⟨fun d i s hl => ?_, fun d i s hup hi hl => ?_, fun d s hup hp hl => ?_, fun d i s hp hup hi => ?_, fun d s hup => ⟨fun hp hx => ?_, fun ha hl hs => ?_⟩,
    fun fn d i v s ht => ?_⟩
  · intro p
    obtain ⟨-, hi, -, -⟩ := locking_iff hl
    have hi0 : i ≠ 0 := by omega
    refine ⟨⟨_, next_act_of_no_writes (pllLock_display hi0 d s.lp5x s.hub), rfl, rfl, dispLock_of_locking hl⟩, ?_, ?_⟩
    · refine ⟨_, next_onHub_congr (if_pos hl), rfl, rfl, ?_⟩
      obtain ⟨ht, ha, hlk, hprog, hnow⟩ := getPll_attemptFails (d := d) hi0 (at_ (p.progAt + 300000) s.hub)
      exact ⟨hnow, ht, ha, hlk, hprog.trans hnow.symm⟩
    · refine ⟨_, next_onHub_congr (if_pos hl), rfl, rfl, ?_⟩
      obtain ⟨ha, hlk, -, hprog, ht, -⟩ := getPll_relock (d := d) hi0 (p.attempts + 1) (at_ (p.progAt + 1000000) s.hub)
      have hnow := now_relock d i (p.attempts + 1) (at_ (p.progAt + 1000000) s.hub)
      exact ⟨hnow, ha, ht, hlk, hprog.trans hnow.symm⟩
  · obtain ⟨hlk, hb, ha, hlo⟩ := getPll_dispLoses hup hi hl
    exact ⟨_, next_act_of_no_writes (lockLoss_display hi d s.lp5x s.hub), rfl, rfl, hlo, hlk, hb, ha,
      fun o e sc hp hd ho hs he hsc => getOut_dispLoses hup hi hl hp hd ho hs he hsc⟩
  · refine ⟨?_, _, rfl, root_lost hup hp hl⟩
    exact congrArg (fun e : Eff => Host.Outcome.next { s with hub := e.1, lp5x := e.2.foldl Memory.apply s.lp5x }) (lockLoss_root hup hp hl)
  · refine ⟨_, next_act_of_no_writes (g := vidMissing s.hub) ?_, rfl, rfl, fun e he => vidOf_vidMissing he⟩
    rw [if_pos hup, refMissing_video hi hp]
  · exact next_onHub_congr (if_neg (by simp [hup, hp, hx]))
  · intro c o
    exact ⟨fun hp => next_onHub_congr (correctTime_principal hp), fun hp ho => next_onHub_congr (correctTime_aligned hup ha hl hs hp ho),
      fun hp ho => next_onHub_congr (correctTime_off hup ha hl hs hp ho)⟩
  · intro h w set
    refine ⟨fun hi => ⟨fun hz h₁ h₂ => ?_, fun hb => ?_, fun hz hv => ?_, ?_⟩, fun hn => ⟨fun hv => ?_, fun hv => ?_⟩⟩
    · exact next_onHub_congr ((regGateHub_of_takes ht _ _).trans (pllWrite32_ssc hi w hz h₁ h₂))
    · exact next_onHub_congr ((regGateHub_of_takes ht _ _).trans (pllWrite32_ssc_bad hi w hb))
    · exact next_onHub_congr ((regGateHub_of_takes ht _ _).trans (pllWrite32_seed hi w hz hv))
    · exact next_onHub_congr ((regGateHub_of_takes ht _ _).trans (pllWrite32_count hi w))
    · exact next_onHub_congr ((regGateHub_of_takes ht _ _).trans (clkWrite32_out hn w hv))
    · exact next_onHub_congr ((regGateHub_of_takes ht _ _).trans (clkWrite32_bad hn w hv))

end Sys2Proof.Machine
end

section
/-!
Fault records: reports and their windows, an LP5X channel's uncorrectable error, records on their way to software, and FLT_READ
(17 R440-R445, R456; log entries 63, 84, 87).
-/

namespace Sys2Proof.Machine

/-! ### A report and its window (17 R441-R443) -/

theorem wins_intEvent (d n k : Nat) (h : Hub) : (getDie (intEvent d n h) k).srv = (getDie h k).srv := by
  have hc : (getDie (updDie h d fun x => { x with regs := { x.regs with
      intCount := x.regs.intCount.set n ((x.regs.intCount.get n 0 + 1) % 65536) } }) k).srv = (getDie h k).srv :=
    getDie_updDie_keeps Die.srv h d k fun _ => rfl
  unfold intEvent
  split
  · rfl
  · dsimp only
    split
    · unfold intRaise
      dsimp only
      split
      · refine Eq.trans (getDie_updDie_keeps Die.srv _ d k fun _ => ?_) hc
        rfl
      · exact hc
    · exact hc

theorem flt_intRaise (d : Nat) (h : Hub) : (intRaise d h).flt = h.flt := by
  unfold intRaise
  dsimp only
  split <;> rfl

theorem flt_intEvent (d n : Nat) (h : Hub) : (intEvent d n h).flt = h.flt := by
  unfold intEvent
  split
  · rfl
  · dsimp only
    split
    · exact flt_intRaise d _
    · rfl

theorem flt_fbkRecord (d src typ a0 a1 : Nat) (h : Hub) : (fbkRecord d src typ a0 a1 h).flt = h.flt := by
  unfold fbkRecord
  split <;> rfl

theorem wins_fbkRecord (d src typ a0 a1 k : Nat) (h : Hub) : (getDie (fbkRecord d src typ a0 a1 h) k).srv = (getDie h k).srv := by
  unfold fbkRecord
  split
  · exact getDie_updDie_keeps Die.srv h d k fun _ => rfl
  · rfl

section
variable {d cause unit rep det : Nat} {h : Hub} (hup : dieUp h d = true)
include hup

/-- A report on its way: an access error is an event of its own (20 R511). -/
def reportHub (d cause : Nat) (h : Hub) : Hub := if cause == 0x0306 then intEvent d 12 h else h

omit hup in
theorem reportHub_keeps (d cause k : Nat) (h : Hub) : (getDie (reportHub d cause h) k).srv = (getDie h k).srv ∧
    (reportHub d cause h).flt = h.flt ∧ (reportHub d cause h).now = h.now := by
  unfold reportHub
  split
  · exact ⟨wins_intEvent d 12 k h, flt_intEvent d 12 h, now_of_rest (rest_intEvent d 12 h)⟩
  · exact ⟨rfl, rfl, rfl⟩

theorem wins_faultReport_join (hj : ((getDie h d).srv.wins.any fun w => w.is cause unit) = true) :
    (getDie (faultReport d cause unit rep det h) d).srv.wins =
      (getDie h d).srv.wins.map fun w => if w.is cause unit then w.join rep h.now else w := by
  have hc : ¬ ((!dieUp h d) = true) := by simp [hup]
  unfold faultReport
  rw [if_neg hc]
  extract_lets srv new g
  obtain ⟨hs, -, hn⟩ : (getDie g d).srv = (getDie h d).srv ∧ g.flt = h.flt ∧ g.now = h.now := reportHub_keeps d cause d h
  clear_value g
  rw [if_pos hj, getDie_updDie, hn]
  exact congrArg (fun v : Srv => v.wins.map fun w => if w.is cause unit then w.join rep h.now else w) hs

theorem wins_faultReport_new (hj : ((getDie h d).srv.wins.any fun w => w.is cause unit) = false)
    (hheld : (h.flt.wins.any fun p => p.held && p.win.is cause unit) = false) (hrec : recentlyPosted h cause unit = false)
    (hroom : (getDie h d).srv.wins.length < 32) :
    (getDie (faultReport d cause unit rep det h) d).srv.wins = (getDie h d).srv.wins ++ [{
      cause := cause, unit := unit, reporters := 1, firstRep := rep, lastRep := rep
      firstTime := h.now, lastTime := h.now, detail := det, action := 0 }] := by
  have hc : ¬ ((!dieUp h d) = true) := by simp [hup]
  unfold faultReport
  rw [if_neg hc]
  extract_lets srv new g
  obtain ⟨hs, hf, hn⟩ : (getDie g d).srv = (getDie h d).srv ∧ g.flt = h.flt ∧ g.now = h.now := reportHub_keeps d cause d h
  clear_value g
  have hrec' : recentlyPosted g cause unit = false := by
    rw [← hrec, recentlyPosted, recentlyPosted, hf, hn]
  rw [if_neg (by simpa [srv] using hj), hf, if_neg (by rw [hheld]; exact Bool.false_ne_true), if_neg (by rw [hrec']; exact Bool.false_ne_true),
    if_neg (Nat.not_le.mpr hroom), getDie_updDie]
  exact congrArg (fun v : Srv => v.wins ++ [new]) hs

end

theorem memError_of_other {cause unit rep off : Nat} (hne : cause ≠ 0x0701 ∨ unitClass unit ≠ 3) (m : List Host.Cell) (h : Hub) :
    memError cause unit rep off m h = (h, []) := by
  have hc : (decide (cause ≠ 0x0701) || decide (unitClass unit ≠ 3) || decide (lpChannel off ≠ unitInst unit)) = true := by
    obtain hc | hc := hne <;> simp [hc]
  unfold memError
  dsimp only
  rw [if_pos hc]

theorem exec_faultReport {d : Nat} {cause : BitVec 16} {unit rep : BitVec 32} {det : BitVec 64} {s : State} (hp : powered s.hub = true) :
    exec (.faultReport d cause unit rep det) s = .next (act (fun m h => memError cause.toNat unit.toNat rep.toNat det.toNat m
      (faultReport d cause.toNat unit.toNat rep.toNat det.toNat h)) s) := by
  refine (?_ : execFaultReport d cause unit rep det s = _)
  simp only [execFaultReport, act, hp, if_true]

/-- A report that writes no LP5X. -/
theorem exec_faultReport_of_no_writes {d : Nat} {cause : BitVec 16} {unit rep : BitVec 32} {det : BitVec 64} {s : State} {g : Hub}
    (hp : powered s.hub = true) (hf : memError cause.toNat unit.toNat rep.toNat det.toNat s.lp5x
      (faultReport d cause.toNat unit.toNat rep.toNat det.toNat s.hub) = (g, [])) :
    exec (.faultReport d cause unit rep det) s = .next { s with hub := g } :=
  (exec_faultReport hp).trans (next_act_of_no_writes hf)

/-! ### An uncorrectable error of an LP5X channel (14 R378; 11 R300; 12 R319) -/

section
variable {unit rep off : Nat} (hu : unitClass unit = 3) (hi : unitInst unit = lpChannel off) (m : List Host.Cell) {h : Hub}
include hu hi

theorem memError_unit : ¬ ((decide (0x0701 ≠ 0x0701) || decide (unitClass unit ≠ 3) || decide (lpChannel off ≠ unitInst unit)) = true) := by
  simp [hu, hi]

/-- The granule of an engine's fetch is zero. -/
theorem memError_engine (hr : unitClass rep = 1) (he : h.engines.has (24 * unitDie rep + unitInst rep) = true) :
    memError 0x0701 unit rep off m h = (updDie h (unitDie rep) fun x =>
      { x with zeroed := x.zeroed ++ [(unitInst rep, (unitDie unit * 2 ^ 34 + off) / 64)] }, []) := by
  unfold memError
  dsimp only
  rw [if_neg (memError_unit hu hi), hr]
  exact if_pos he

/-- A running job fails. -/
theorem memError_job (hr : unitClass rep = 8) : memError 0x0701 unit rep off m h = jobFails (unitDie rep) m h := by
  unfold memError
  dsimp only
  rw [if_neg (memError_unit hu hi), hr]
  rfl

/-- A privileged operation stops. -/
theorem memError_priv (hr : unitClass rep = 9) (hlt : unitInst rep < 4) :
    memError 0x0701 unit rep off m h = privStop (unitDie rep) (unitInst rep) 0x0701 m h := by
  unfold memError
  dsimp only
  rw [if_neg (memError_unit hu hi), hr]
  exact if_pos hlt

end

theorem plt_of_keepsDies {g h : Hub} (e : KeepsDies g h) (k : Nat) : (getDie g k).plt = (getDie h k).plt := (congrArg Die.plt (e k) :)

theorem jobFails_of_idle {d : Nat} {j : Job} {rest : List Job} {h : Hub} (hj : (getDie h d).plt.jobs = j :: rest)
    (hb : (getDie h d).plt.busy = true) (hl : j.line = []) (m : List Host.Cell) :
    (jobFails d m h).2 = [] ∧ (getDie (jobFails d m h).1 d).plt.jobs = rest ∧ (getDie (jobFails d m h).1 d).plt.busy = false := by
  have he : jobFails d m h =
      (endJob 0x0701 j (updDie (broadcast h) d fun x => { x with plt := { x.plt with jobs := rest, busy := false } }), []) := by
    simp only [jobFails, hj, hb, Bool.not_true, Bool.false_eq_true, if_false, hl, List.isEmpty_nil, if_true]
  have hk : (getDie (jobFails d m h).1 d).plt = { (getDie (broadcast h) d).plt with jobs := rest, busy := false } := by
    rw [he]
    exact (plt_of_keepsDies (keepsDies_complete _ _ _ _ _ _) d).trans (congrArg Die.plt (getDie_updDie _ d _))
  rw [hk, he]
  exact ⟨rfl, rfl, rfl⟩

/-! ### Survey is asked for (17 R446) -/

/-- Asking for Survey changes the dies alone. -/
theorem offDies_surveyAsk (u t : Nat) (detail : Option Nat) (h : Hub) : (surveyAsk u t detail h).2.offDies = h.offDies := by
  unfold surveyAsk
  dsimp only
  split
  · rfl
  · split <;> rfl

theorem offDies_askSerial (d : Nat) (seq : Option Nat) (es : List Nat) (h : Hub) : (askSerial d seq es h).2.offDies = h.offDies := by
  induction es generalizing h with
  | nil => rfl
  | cons e es ih =>
    have hask := offDies_surveyAsk (unitId 1 d e) h.now none h
    unfold askSerial
    extract_lets u r
    split
    · split
      · exact hask
      · split
        · exact Eq.trans rfl hask
        · exact hask
    · exact (ih _).trans hask

theorem offDies_nextSerial (u : Nat) (seq : Option Nat) (h : Hub) : (nextSerial u seq h).offDies = h.offDies := by
  unfold nextSerial
  refine Eq.trans rfl (foldl_keeps (fun r : List (List Nat) × Hub => r.2.offDies) (fun r l => ?_) _ _)
  split
  · exact offDies_askSerial _ seq _ r.2
  · rfl

/-- What asking for Survey keeps of a die's Survey block: all but its queue, its tests' requests and its serial lists. -/
def Srv.unasked (v : Srv) : Srv := { v with queue := [], tests := [], serial := [] }

/-- The Survey block of a die without its queue, tests and serial lists. -/
def srvOf (h : Hub) (k : Nat) : Srv := (getDie h k).srv.unasked

theorem srvOf_updSrv (h : Hub) (d k : Nat) {f : Srv → Srv} (hf : ∀ y, (f y).unasked = y.unasked) : srvOf (updSrv h d f) k = srvOf h k :=
  getDie_updDie_keeps (fun x => x.srv.unasked) h d k fun x => hf x.srv

theorem srvOf_surveyAsk (u t : Nat) (detail : Option Nat) (h : Hub) (k : Nat) : srvOf (surveyAsk u t detail h).2 k = srvOf h k := by
  unfold surveyAsk
  dsimp only
  split
  · rfl
  · split
    · rfl
    · exact srvOf_updSrv h _ k fun _ => rfl

theorem srvOf_numberReq (u seq : Nat) (h : Hub) (k : Nat) : srvOf (numberReq u seq h) k = srvOf h k :=
  srvOf_updSrv h _ k fun _ => rfl

theorem srvOf_askSerial (d : Nat) (seq : Option Nat) (es : List Nat) (h : Hub) (k : Nat) :
    srvOf (askSerial d seq es h).2 k = srvOf h k := by
  induction es generalizing h with
  | nil => rfl
  | cons e es ih =>
    have hask := srvOf_surveyAsk (unitId 1 d e) h.now none h k
    unfold askSerial
    extract_lets u r
    split
    · split
      · exact hask
      · split
        · exact (srvOf_numberReq u _ r.2 k).trans hask
        · exact hask
    · exact (ih _).trans hask

theorem srvOf_nextSerial (u : Nat) (seq : Option Nat) (h : Hub) (k : Nat) : srvOf (nextSerial u seq h) k = srvOf h k := by
  unfold nextSerial
  extract_lets d step r
  have hr : srvOf r.2 k = srvOf h k := by
    refine foldl_keeps (fun r : List (List Nat) × Hub => srvOf r.2 k) (fun r l => ?_) _ _
    simp only [step]
    split
    · exact srvOf_askSerial _ seq _ r.2 k
    · rfl
  refine Eq.trans (srvOf_updSrv r.2 d k fun _ => ?_) hr
  rfl

/-! ### The windows close (17 R442-R445) -/

/-- A die's window closes: it is gone and counted, and its record is on its way. -/
theorem dieWindowClose_spec {d cause unit : Nat} {w : DieWin} {h : Hub} (hw : (getDie h d).srv.wins.find? (·.is cause unit) = some w) :
    ∃ a, (dieWindowClose d cause unit h).now = max h.now (w.firstTime + 2000) ∧
      (dieWindowClose d cause unit h).flt.transit = h.flt.transit ++ [(d, { w with action := w.action ||| a })] ∧
      (getDie (dieWindowClose d cause unit h) d).srv.wins = (getDie h d).srv.wins.filter (fun x => !x.is cause unit) ∧
      (getDie (dieWindowClose d cause unit h) d).srv.windows = ((getDie h d).srv.windows + 1) % 65536 ∧ (namesTest w = false → a = 0) := by
  simp only [dieWindowClose, hw]
  generalize hg : updSrv (at_ (w.firstTime + 2000) h) d (fun s => { s with
    wins := s.wins.filter fun x => !x.is cause unit, windows := (s.windows + 1) % 65536 }) = g
  have hg0 : g.offDies = (at_ (w.firstTime + 2000) h).offDies := hg ▸ rfl
  have hgs : (srvOf g d).wins = (getDie h d).srv.wins.filter (fun x => !x.is cause unit) ∧
      (srvOf g d).windows = ((getDie h d).srv.windows + 1) % 65536 := by
    rw [← hg, srvOf, updSrv, getDie_updDie]
    exact ⟨rfl, rfl⟩
  generalize hr : (if (namesTest w && !bandExcused g w) = true then surveyAsk unit w.firstTime (some w.detail) g else (0, g)) = r
  have hr0 : r.2.offDies = g.offDies ∧ srvOf r.2 d = srvOf g d ∧ (namesTest w = false → r.1 = 0) := by
    rw [← hr]
    split
    next hc => exact ⟨offDies_surveyAsk _ _ _ g, srvOf_surveyAsk _ _ _ g d, fun hn => by simp [hn] at hc⟩
    next => exact ⟨rfl, rfl, fun _ => rfl⟩
  generalize hq : (if surveyed r.2 unit = true then r.2 else nextSerial unit none r.2) = q
  have hq0 : q.offDies = r.2.offDies ∧ srvOf q d = srvOf r.2 d := by
    rw [← hq]
    split
    · exact ⟨rfl, rfl⟩
    · exact ⟨offDies_nextSerial _ _ _, srvOf_nextSerial _ _ _ d⟩
  have hoff : q.offDies = (at_ (w.firstTime + 2000) h).offDies := hq0.1.trans (hr0.1.trans hg0)
  have hsrv : srvOf q d = srvOf g d := hq0.2.trans hr0.2.1
  refine ⟨r.1, (congrArg Hub.now hoff :), ?_, (congrArg Srv.wins hsrv :).trans hgs.1, (congrArg Srv.windows hsrv :).trans hgs.2, hr0.2.2⟩
  exact congrArg (· ++ [(d, { w with action := w.action ||| r.1 })]) (congrArg (fun x : Hub => x.flt.transit) hoff :)

/-- The record of a die opens a window of the package (17 R442). -/
theorem dieRecord_opens {d cause unit : Nat} {e : Nat × DieWin} {h : Hub}
    (he : (h.flt.transit.find? fun e => e.1 == d && e.2.is cause unit) = some e)
    (hw : (h.flt.wins.any fun p => p.win.is cause unit) = false) (hroom : h.flt.wins.length < 64)
    (hrec : recentlyPosted h cause unit = false) :
    dieRecord d cause unit h = { h with flt := { h.flt with
      transit := h.flt.transit.erase e
      wins := h.flt.wins ++ [{ win := e.2, dies := 2 ^ d, openAt := h.now, held := false }] } } := by
  have hrec' : recentlyPosted { h with flt := { h.flt with transit := h.flt.transit.erase e } } cause unit = false := hrec
  simp only [dieRecord, he, hw, Bool.false_eq_true, if_false, hrec', if_neg (Nat.not_le.mpr hroom), Nat.or_zero]

/-- A record is posted: numbered, kept, its window gone. -/
theorem postFault_spec (p : PkgWin) (h : Hub) :
    (postFault p h).now = h.now ∧ (postFault p h).flt.wins = h.flt.wins.erase p ∧ (postFault p h).flt.seq = (h.flt.seq + 1) % 2 ^ 32 ∧
      (postFault p h).flt.dropped = 0 ∧
      (postFault p h).flt.records = ((h.flt.seq, faultBytes p h.flt.seq h.flt.dropped) :: h.flt.records).take 256 := by
  unfold postFault
  extract_lets w seq f g₁ g₂ g₃ g₄
  have hnow : g₄.now = h.now ∧ g₄.flt = g₁.flt := by
    have h₂ : g₂.now = g₁.now ∧ g₂.flt = g₁.flt := by
      simp only [g₂]
      split <;> exact ⟨rfl, rfl⟩
    have h₃ : g₃.now = g₂.now ∧ g₃.flt = g₂.flt := ⟨now_of_rest (rest_fbkRecord _ _ _ _ _ g₂), flt_fbkRecord _ _ _ _ _ g₂⟩
    clear_value g₂ g₃
    have h₄ : (g₄.now, g₄.flt) = (g₃.now, g₃.flt) := by
      refine foldl_keeps (fun q : Hub => (q.now, q.flt)) (fun q c => ?_) _ g₃
      exact Prod.ext (now_of_rest (rest_postEventAt _ _ _ _ _ q)) (flt_postEventAt _ _ _ _ _ q)
    refine ⟨(congrArg Prod.fst h₄ :).trans (h₃.1.trans (h₂.1.trans rfl)), (congrArg Prod.snd h₄ :).trans (h₃.2.trans h₂.2)⟩
  clear_value g₄
  have hflt : (intEvent g₄.pkg.principal 7 g₄).flt = g₁.flt := (flt_intEvent _ 7 g₄).trans hnow.2
  rw [hflt]
  exact ⟨(now_of_rest (rest_intEvent _ 7 g₄)).trans hnow.1, rfl, rfl, rfl, rfl⟩

theorem packageWindowClose_of_some {cause unit : Nat} {p : PkgWin} {h : Hub}
    (hp : (h.flt.wins.find? fun p => !p.held && p.win.is cause unit) = some p) :
    packageWindowClose cause unit h = postFault p (at_ (p.openAt + 10000) h) := by
  simp only [packageWindowClose, hp]

theorem heldExpiry_of_some {cause unit : Nat} {p : PkgWin} {h : Hub}
    (hp : (h.flt.wins.find? fun p => p.held && p.win.is cause unit) = some p) :
    heldExpiry cause unit h = postFault p (at_ (p.win.firstTime + 10000000) h) := by
  simp only [heldExpiry, hp]

/-! ### FLT_READ (17 R456) -/

theorem fltRead_done {c : Cmd} {s : State} (ha : Accepts fltRead c s) :
    ∃ r ∈ (fetched c.ctx s.hub).flt.records, r.1 = arg32 c 16 ∧
      exec (.fltRead c) s = .next (done 0x0A00 c 64 0 (ctxWrite c.ctx (arg64 c 24) r.2 (fetched c.ctx s.hub)) s) := by
  have hck := ha.checks_pass (ck 0x0404 16 (!(fetched c.ctx s.hub).flt.records.any fun r => r.1 == arg32 c 16)) (by simp [fltRead])
  have hany : ((fetched c.ctx s.hub).flt.records.any fun r => r.1 == arg32 c 16) = true := by simpa [ck] using hck
  obtain ⟨r, hr⟩ := Option.isSome_iff_exists.mp ((List.find?_isSome).mpr (List.any_eq_true.mp hany))
  refine ⟨r, List.mem_of_find?_eq_some hr, by simpa using List.find?_some hr, ha.next_done ?_⟩
  simp only [fltRead, hr]

/-! ### The obligation -/

/-- Settles O54: reports, uncorrectable errors, the windows of a die and of the package, FLT_READ, and the loss of a die. -/
theorem faultRecords : Obligations.FaultRecords := by
  unfold Obligations.FaultRecords
  refine ⟨fun d cause unit rep det s hp hup hne => ?_, fun d unit rep det s => ?_, fun d cause unit w s hw => ?_,
    fun d cause unit e s he hw hroom hrec => next_onHub_congr (dieRecord_opens he hw hroom hrec), fun cause unit p s => ?_,
    fun c s ha => fltRead_done ha, fun d reason s hp hup h1 h7 => ?_⟩
  · intro is ws
    exact ⟨_, exec_faultReport_of_no_writes hp (memError_of_other hne s.lp5x _), rfl, rfl, fun hj => wins_faultReport_join hup hj,
      fun hj hheld hrec hroom => wins_faultReport_new hup hj hheld hrec hroom⟩
  · intro r i hp hu hi
    have hk := keepsDies_faultReport d 0x0701 unit.toNat rep.toNat det.toNat s.hub
    have heng := engines_of_rest (rest_faultReport d 0x0701 unit.toNat rep.toNat det.toNat s.hub)
    refine ⟨fun hr he => ?_, fun j rest hr hj hb hl => ?_, fun hr hlt hb => ?_⟩
    · refine ⟨_, exec_faultReport_of_no_writes hp (memError_engine hu hi s.lp5x hr (heng ▸ he)), rfl, rfl, heng, ?_⟩
      refine (congrArg Die.zeroed (getDie_updDie _ r _)).trans ?_
      exact congrArg (· ++ [(i, (unitDie unit.toNat * 2 ^ 34 + det.toNat) / 64)]) (congrArg Die.zeroed (hk r) :)
    · have hplt := plt_of_keepsDies hk r
      obtain ⟨hws, hjobs, hbusy⟩ := jobFails_of_idle (hplt ▸ hj) (hplt ▸ hb) hl s.lp5x
      exact ⟨_, exec_faultReport_of_no_writes hp ((memError_job hu hi s.lp5x hr).trans (Prod.ext rfl hws)), rfl, rfl, hjobs, hbusy⟩
    · have hpriv : ∀ ch, getPriv (faultReport d 0x0701 unit.toNat rep.toNat det.toNat s.hub) r ch = getPriv s.hub r ch :=
        getPriv_of_priv (congrArg Die.priv (hk r) :)
      obtain ⟨⟨src, dst, len, ctrl, pat⟩, hq⟩ := Option.isSome_iff_exists.mp hb
      obtain ⟨n, hn⟩ := getPriv_privStop ((congrArg PrivDma.busy (hpriv i)).trans hq) s.lp5x 0x0701
      have hgot : getPriv (memError 0x0701 unit.toNat rep.toNat det.toNat s.lp5x
          (faultReport d 0x0701 unit.toNat rep.toNat det.toNat s.hub)).1 r i = _ :=
        (congrArg (fun e : Eff => getPriv e.1 r i) (memError_priv hu hi s.lp5x hr hlt)).trans hn
      exact ⟨_, exec_faultReport hp, rfl, (congrArg PrivDma.busy hgot :), (congrArg PrivDma.last hgot :)⟩
  · obtain ⟨a, hnow, htr, hwins, hcount, hz⟩ := dieWindowClose_spec hw
    exact ⟨_, a, rfl, rfl, rfl, hnow, htr, hwins, hcount, hz⟩
  · intro told
    refine ⟨fun hp => ⟨_, next_onHub_congr (packageWindowClose_of_some hp), rfl, rfl, postFault_spec p _⟩,
      fun hp => ⟨_, next_onHub_congr (heldExpiry_of_some hp), rfl, rfl, postFault_spec p _⟩⟩
  · have hf : (fun m h => if powered h && 1 ≤ reason && reason ≤ 7 then dieLost d reason m h else (h, [])) s.lp5x s.hub =
        dieLost d reason s.lp5x s.hub := by
      simp [hp, h1, h7]
    exact ⟨_, rfl, lostDie_act hup hf, congrArg Prod.fst hf⟩

end Sys2Proof.Machine
end

section
/-!
Survey: the fence of a test and its start, the verdict, retirement and what it loses, and the SRV_ commands (17 R446-R457; log entries 7,
64, 84).
-/

namespace Sys2Proof.Machine

/-! ### The fence of a test (17 R447; 04 R101) -/

/-- What a fence keeps of a die's Survey block. -/
def Srv.queued (v : Srv) : List SrvTest × List SrvReq × Nat := (v.tests, v.queue, v.cTests)

/-- The Survey block of a die. -/
def srvAt (h : Hub) (k : Nat) : Srv := (getDie h k).srv

theorem srvAt_of_dies {g h : Hub} (e : g.dies = h.dies) (k : Nat) : srvAt g k = srvAt h k := by
  rw [srvAt, srvAt, getDie, getDie, e]

theorem srvAt_updSrv (h : Hub) (d : Nat) (f : Srv → Srv) : srvAt (updSrv h d f) d = f (srvAt h d) := by
  rw [srvAt, updSrv, getDie_updDie, srvAt]

theorem dies_toIntegrator (code r0 r1 : Nat) (h : Hub) : (toIntegrator code r0 r1 h).dies = h.dies := by
  unfold toIntegrator
  split
  · rfl
  · exact dies_postEvent _ _ _ _ h

theorem dies_chainBreak (k : Nat) (h : Hub) : (chainBreak k h).dies = h.dies := by
  unfold chainBreak
  extract_lets c g₁ g₂
  have h₂ : g₂.dies = h.dies := dies_toIntegrator _ _ _ g₁
  split
  · split
    · exact h₂
    · split
      · exact (congrArg Hub.dies (offPorts_sendBlock _ 0x87 _ _ g₂) :).trans h₂
      · exact h₂
  · split
    · exact dies_toIntegrator _ _ _ _
    · rfl

theorem dies_camIncomplete (k : Nat) (h : Hub) : (camIncomplete k h).dies = h.dies := by
  unfold camIncomplete
  split
  · rfl
  · dsimp only
    split
    · rfl
    · split
      · rfl
      · exact dies_postEvents _ _ _ _ _

theorem dies_leaveUp (k : Nat) (h : Hub) : (leaveUp k h).dies = h.dies := by
  unfold leaveUp
  extract_lets g₁ g₂
  have h₂ : g₂.dies = h.dies := (dies_camIncomplete k g₁).trans (congrArg Hub.dies (offOuts_cutFrame k h) :)
  split
  · exact (dies_chainBreak k g₂).trans h₂
  · exact h₂

theorem srvAt_linkGoes (j : Nat) (st : LinkState) (r : Nat) (h : Hub) (k : Nat) : srvAt (linkGoes j st r h) k = srvAt h k :=
  (srvAt_of_dies (dies_postEvents _ _ _ _ _) k).trans (wins_fbkRecord _ _ _ _ _ k (updPort h j _))

theorem now_linkGoes (j : Nat) (st : LinkState) (r : Nat) (h : Hub) : (linkGoes j st r h).now = h.now := now_of_fixed (fixed_linkGoes j st r h)

theorem dies_moveCols_srv (d a b : Nat) (h : Hub) (k : Nat) : srvAt (moveCols d a b h) k = srvAt h k :=
  getDie_updDie_keeps Die.srv _ d k fun _ => rfl

theorem queued_updSrv (h : Hub) (d k : Nat) {f : Srv → Srv} (hf : ∀ y, (f y).queued = y.queued) :
    (srvAt (updSrv h d f) k).queued = (srvAt h k).queued :=
  getDie_updDie_keeps (fun x => x.srv.queued) h d k fun x => hf x.srv

/-- A fence that keeps the instant, and the tests and requests of die `k`. -/
def FenceKeeps (h : Hub) (k : Nat) (t : UnitFence × Nat × Hub) : Prop := t.2.2.now = h.now ∧ (srvAt t.2.2 k).queued = (srvAt h k).queued

theorem fenceEngine_keeps (d e : Nat) (h : Hub) (k : Nat) : FenceKeeps h k (fenceEngine d e h) := by
  unfold fenceEngine
  extract_lets s g
  split
  · exact ⟨rfl, queued_updSrv g d k fun _ => rfl⟩
  · split
    · exact ⟨rfl, rfl⟩
    · split
      · refine ⟨rfl, (congrArg Srv.queued (dies_moveCols_srv _ _ _ _ k)).trans (queued_updSrv g d k fun _ => ?_)⟩
        rfl
      · exact ⟨rfl, queued_updSrv g d k fun _ => rfl⟩

/-- A fence keeps the instant, and the tests and requests of every die. -/
theorem fenceUnit_keeps (u : Nat) (h : Hub) (k : Nat) : FenceKeeps h k (fenceUnit u h) := by
  unfold fenceUnit
  extract_lets d j g₁ g₂ g₃
  split
  · exact fenceEngine_keeps _ _ h k
  · exact ⟨rfl, rfl⟩
  · have h₁ : g₁.now = h.now ∧ g₁.dies = h.dies :=
      ⟨(congrArg Hub.now (offOuts_cutFrame j h) :), (congrArg Hub.dies (offOuts_cutFrame j h) :)⟩
    have h₂ : g₂.now = h.now ∧ g₂.dies = h.dies := by
      simp only [g₂]
      split
      · exact h₁
      · exact ⟨(now_of_fixed (fixed_portIdles _ g₁)).trans h₁.1, (dies_portIdles _ g₁).trans h₁.2⟩
    clear_value g₂
    have hup : (if ((getPort g₂ j).state == LinkState.up) = true then leaveUp j g₂ else g₂).now = h.now ∧
        (if ((getPort g₂ j).state == LinkState.up) = true then leaveUp j g₂ else g₂).dies = h.dies := by
      split
      · exact ⟨(congrArg Hub.now (linkRest_leaveUp j g₂) :).trans h₂.1, (dies_leaveUp j g₂).trans h₂.2⟩
      · exact h₂
    have h₃ : g₃.now = h.now ∧ srvAt g₃ k = srvAt h k := by
      simp only [g₃]
      split
      · exact ⟨(now_linkGoes _ _ _ _).trans hup.1, (srvAt_linkGoes _ _ _ _ k).trans (srvAt_of_dies hup.2 k)⟩
      · split <;> exact ⟨(now_linkGoes _ _ _ _).trans h₂.1, (srvAt_linkGoes _ _ _ _ k).trans (srvAt_of_dies h₂.2 k)⟩
    exact ⟨h₃.1, congrArg Srv.queued h₃.2⟩
  · exact ⟨rfl, rfl⟩

/-- An engine in service is replaced by the spare of its wing (04 R101). -/
theorem fenceUnit_spare {u e b : Nat} {h : Hub} (hu : unitEngine u = some e) (hs : (srvAt h (unitDie u)).engSpare.testBit e = false)
    (hin : (srvAt h (unitDie u)).engIn.testBit e = true) (hb : (wingOf e).find? (bit (srvAt h (unitDie u)).engSpare) = some b) :
    (fenceUnit u h).1 = { spare := some b, wasSpare := false } ∧
      (srvAt (fenceUnit u h).2.2 (unitDie u)).engIn = (srvAt h (unitDie u)).engIn - 2 ^ e + 2 ^ b ∧
      (srvAt (fenceUnit u h).2.2 (unitDie u)).engSpare = (srvAt h (unitDie u)).engSpare - 2 ^ b := by
  have hs' : ¬ (bit (getDie h (unitDie u)).srv.engSpare e = true) := by
    rw [bit, show (getDie h (unitDie u)).srv.engSpare.testBit e = false from hs]
    exact Bool.false_ne_true
  have hin' : ¬ ((!bit (getDie h (unitDie u)).srv.engIn e) = true) := by
    simp [bit, show (getDie h (unitDie u)).srv.engIn.testBit e = true from hin]
  have hf : fenceUnit u h = fenceEngine (unitDie u) e h := by simp only [fenceUnit, hu]
  have he : fenceEngine (unitDie u) e h = ({ spare := some b, wasSpare := false }, 6, moveCols (unitDie u) e b
      (updSrv { h with engines := h.engines.del (24 * unitDie u + e) } (unitDie u) fun s =>
        { s with engIn := s.engIn - 2 ^ e + 2 ^ b, engSpare := s.engSpare - 2 ^ b })) := by
    unfold fenceEngine
    dsimp only
    rw [if_neg hs', if_neg hin', show (wingOf e).find? (bit (getDie h (unitDie u)).srv.engSpare) = some b from hb]
  rw [hf, he]
  dsimp only
  rw [dies_moveCols_srv, srvAt_updSrv]
  exact ⟨rfl, rfl, rfl⟩

/-! ### The start of a test (17 R446) -/

/-- How a test's unit is fenced: as the aborted test left it, or now. -/
def testFence (u : Nat) (q : SrvReq) (h : Hub) : UnitFence × Nat × Hub :=
  match q.fenced with
  | some f => (f, 0, h)
  | none => fenceUnit u h

theorem testFence_keeps (u : Nat) (q : SrvReq) (h : Hub) (k : Nat) : FenceKeeps h k (testFence u q h) := by
  unfold testFence
  split
  · exact ⟨rfl, rfl⟩
  · exact fenceUnit_keeps u h k

section
variable {u : Nat} {q : SrvReq} {h : Hub} (hq : ((getDie h (unitDie u)).srv.queue.find? fun r => laneOf r.unit == laneOf u) = some q)
  (hu : q.unit = u) (ht : ((getDie h (unitDie u)).srv.tests.any fun t => laneOf t.req.unit == laneOf u) = false)
  (hup : dieUp h (unitDie u) = true) (ha : awake h (unitDie u) = true)
include hq

theorem testStart_of_held (hm : mayTest h u = false) : testStart u h = h := by
  simp [testStart, hq, hm]

include hu ht hup ha

theorem testStart_of_may (hm : mayTest h u = true) : testStart u h =
    updSrv (addAction u (testFence u q h).2.1 (testFence u q h).2.2) (unitDie u) fun s => { s with
      queue := s.queue.filter fun r => r.unit != u, cTests := satInc 255 s.cTests
      tests := s.tests ++ [{ req := { q with fenced := none }, start := (testFence u q h).2.2.now, fence := (testFence u q h).1 }] } := by
  have hc : ¬ ((decide (q.unit ≠ u) || (getDie h (unitDie u)).srv.tests.any (fun t => laneOf t.req.unit == laneOf u) ||
      !dieUp h (unitDie u) || !awake h (unitDie u) || !mayTest h u) = true) := by
    simp [hu, ht, hup, ha, hm]
  unfold testStart
  dsimp only
  rw [hq]
  dsimp only
  rw [if_neg hc]
  rfl

theorem testStart_spec (hm : mayTest h u = true) : ∃ f,
    srvAt (testStart u h) (unitDie u) = { srvAt (testFence u q h).2.2 (unitDie u) with
      tests := (srvAt h (unitDie u)).tests ++ [{ req := { q with fenced := none }, start := h.now, fence := f }]
      queue := (srvAt h (unitDie u)).queue.filter (fun r => r.unit != u), cTests := satInc 255 (srvAt h (unitDie u)).cTests } ∧
    f = (testFence u q h).1 := by
  obtain ⟨hnow, hqueued⟩ := testFence_keeps u q h (unitDie u)
  have htests : (srvAt (testFence u q h).2.2 (unitDie u)).tests = (srvAt h (unitDie u)).tests := (congrArg Prod.fst hqueued :)
  have hqueue : (srvAt (testFence u q h).2.2 (unitDie u)).queue = (srvAt h (unitDie u)).queue := (congrArg (fun x => x.2.1) hqueued :)
  have hcount : (srvAt (testFence u q h).2.2 (unitDie u)).cTests = (srvAt h (unitDie u)).cTests := (congrArg (fun x => x.2.2) hqueued :)
  refine ⟨_, ?_, rfl⟩
  rw [testStart_of_may hq hu ht hup ha hm, srvAt_updSrv,
    show srvAt (addAction u (testFence u q h).2.1 (testFence u q h).2.2) (unitDie u) = srvAt (testFence u q h).2.2 (unitDie u) from rfl,
    htests, hqueue, hcount, hnow]

end

end Sys2Proof.Machine
end

section
/-!
The verdict of a test, a unit's retirement, and the SRV_ commands (17 R447-R457; log entries 7, 64, 84).
-/

namespace Sys2Proof.Machine

/-! ### What retirement leaves as it was -/

theorem fixed_hubStops (o : Nat) (h : Hub) : (hubStops o h).fixed = h.fixed := by
  refine fixed_foldl (fun g m => ?_) _ h
  split
  · rfl
  · rfl
  · rfl
  · exact fixed_beginStop m _ g

theorem fixed_rebuildTxns (d : Nat) (h : Hub) : (rebuildTxns d h).fixed = h.fixed := by
  refine fixed_foldl (fun g t => ?_) _ h
  split <;> rfl

theorem fixed_shrink (d : Nat) (table : Bool) (h : Hub) : (shrink d table h).fixed = h.fixed := by
  unfold shrink
  extract_lets g r g₁ g₂
  clear_value r
  have h₁ : g₁.fixed = h.fixed := by
    simp only [g₁]
    split
    · rfl
    · refine Eq.trans (fixed_updDie _ d fun _ => ?_) ?_ <;> rfl
  have h₂ : g₂.fixed = h.fixed := (fixed_foldl (fun q o => fixed_hubStops o q) r.1 g₁).trans h₁
  split
  · exact (fixed_raiseClock g₂).trans h₂
  · exact h₂

theorem fixed_writeRecords (d group : Nat) (l : List NewRec) (h : Hub) : (writeRecords d group l h).1.fixed = h.fixed := by
  unfold writeRecords
  extract_lets w g₀ g
  have hg : g.fixed = h.fixed := Eq.trans rfl (fixed_updDie h d (f := fun x => { x with atc := w.1 }) fun _ => rfl)
  split
  · exact hg
  · exact (fixed_faultReport _ _ _ _ _ g).trans hg

theorem fixed_tellVerdict (r : SrvReq) (code n : Nat) (h : Hub) : (tellVerdict r code n h).fixed = h.fixed := by
  unfold tellVerdict
  extract_lets r1 g₁ g₂
  have h₂ : g₂.fixed = h.fixed :=
    (fixed_intEvent _ 6 _).trans ((fixed_postEvents _ _ _ _ g₁).trans (fixed_fbkRecord _ _ _ _ _ h))
  exact (fixed_foldl (fun q p => fixed_complete p 0 255 code 0 q) _ g₂).trans h₂

theorem fixed_surveyAsk (u t : Nat) (detail : Option Nat) (h : Hub) : (surveyAsk u t detail h).2.fixed = h.fixed := by
  unfold surveyAsk
  dsimp only
  split
  · rfl
  · split
    · rfl
    · exact fixed_updDie h _ fun _ => rfl

theorem fixed_askSerial (d : Nat) (seq : Option Nat) (es : List Nat) (h : Hub) : (askSerial d seq es h).2.fixed = h.fixed := by
  induction es generalizing h with
  | nil => rfl
  | cons e es ih =>
    have hask := fixed_surveyAsk (unitId 1 d e) h.now none h
    unfold askSerial
    extract_lets u r
    split
    · split
      · exact hask
      · split
        · refine Eq.trans (fixed_updDie r.2 _ fun _ => ?_) hask
          rfl
        · exact hask
    · exact (ih _).trans hask

theorem fixed_nextSerial (u : Nat) (seq : Option Nat) (h : Hub) : (nextSerial u seq h).fixed = h.fixed := by
  unfold nextSerial
  extract_lets d step r
  have hr : r.2.fixed = h.fixed := by
    refine foldl_keeps (fun r : List (List Nat) × Hub => r.2.fixed) (fun r l => ?_) _ _
    simp only [step]
    split
    · exact fixed_askSerial _ seq _ r.2
    · rfl
  refine Eq.trans (fixed_updDie r.2 d fun _ => ?_) hr
  rfl

/-! ### Retirement (17 R449, R453) -/

/-- A retired engine is out of service, and no byte of LP5X is written. -/
theorem retire_engine {u e : Nat} (hu : unitEngine u = some e) (f : UnitFence) (m : List Host.Cell) (h : Hub) :
    (retire u f m h).2 = [] ∧
      (getDie (retire u f m h).1 (unitDie u)).srv.engRetired = (getDie h (unitDie u)).srv.engRetired ||| 2 ^ e ∧
      (getDie (retire u f m h).1 (unitDie u)).srv.cLasting = (getDie h (unitDie u)).srv.cLasting := by
  have hw := fixed_writeRecords (unitDie u) 0 [(0x0A, 0, u, [])] h
  unfold retire
  dsimp only
  rw [hu]
  dsimp only
  generalize (writeRecords (unitDie u) 0 [(0x0A, 0, u, [])] h).1 = w at hw ⊢
  generalize hg : (updSrv w (unitDie u) fun s => { s with engRetired := s.engRetired ||| 2 ^ e }) = g
  have hr : (getDie g (unitDie u)).srv.engRetired = (getDie h (unitDie u)).srv.engRetired ||| 2 ^ e ∧
      (getDie g (unitDie u)).srv.cLasting = (getDie h (unitDie u)).srv.cLasting := by
    rw [← hg, updSrv, getDie_updDie, ← engRetired_of_fixed hw, ← cLasting_of_fixed hw]
    exact ⟨rfl, rfl⟩
  refine ⟨rfl, ?_⟩
  split
  · have hs := fixed_shrink (unitDie u) true g
    exact ⟨(engRetired_of_fixed hs _).trans hr.1, (cLasting_of_fixed hs _).trans hr.2⟩
  · split
    · have hs := fixed_rebuildTxns (unitDie u) g
      exact ⟨(engRetired_of_fixed hs _).trans hr.1, (cLasting_of_fixed hs _).trans hr.2⟩
    · exact hr

/-- A retired LP5X channel takes its die with it. -/
theorem retire_channel {u : Nat} (hu : unitClass u = 3) (f : UnitFence) (m : List Host.Cell) (h : Hub) :
    retire u f m h = dieLost (unitDie u) 5 m (writeRecords (unitDie u) 0 [(0x0A, 0, u, [])] h).1 := by
  have he : unitEngine u = none := by simp [unitEngine, hu]
  unfold retire
  dsimp only
  rw [he, hu]
  rfl

/-! ### The verdict (17 R447, R448) -/

theorem unit_unitRec (v : Srv) (u : Nat) : (unitRec v u).unit = u := by
  unfold unitRec
  cases hf : v.units.find? (·.unit == u) with
  | none => rfl
  | some r => simpa using List.find?_some hf

/-- The verdict's code: transient, lasting by its failure, or lasting by three transients in 10 s. -/
def verdictCode (pass : Bool) (n : Nat) : Nat := if pass = false then 2 else if 3 ≤ n then 4 else 1

/-- The transients of a unit after a verdict. -/
def verdictTrans (u : Nat) (pass : Bool) (t : SrvTest) (v : Srv) : List (Nat × Option Nat) :=
  let kept := (unitRec v u).transients.filter fun e => decide (t.req.time < e.1 + 10000000000)
  if pass then addTransient u t.req.time t.req.detail kept else kept

/-- The hub as a verdict has been told. -/
def verdictHub (u : Nat) (pass : Bool) (t : SrvTest) (h : Hub) : Hub :=
  let d := unitDie u
  let v := (getDie h d).srv
  let trans := verdictTrans u pass t v
  let code := verdictCode pass trans.length
  let g := tellVerdict t.req code trans.length (updSrv (at_ (t.start + testNs u) h) d fun v => { v with
    tests := v.tests.filter fun x => x.req.unit != u
    units := (v.units.filter fun x => x.unit != u) ++
      [{ unitRec (getDie h d).srv u with transients := trans, lastVerdict := max h.now (t.start + testNs u), retired := decide (code ≠ 1) }]
    cTransient := if code = 1 then satInc 255 v.cTransient else v.cTransient
    cLasting := if code = 1 then v.cLasting else satInc 255 v.cLasting })
  if unitClass u = 1 then nextSerial u t.req.seq g else g

theorem verdict_eq {u : Nat} {pass : Bool} {t : SrvTest} {h : Hub}
    (ht : (getDie h (unitDie u)).srv.tests.find? (fun t => t.req.unit == u) = some t) (ha : awake h (unitDie u) = true) (m : List Host.Cell) :
    verdict u pass m h =
      if verdictCode pass (verdictTrans u pass t (getDie h (unitDie u)).srv).length = 1 then (unitBack u t.fence (verdictHub u pass t h), [])
      else retire u t.fence m (verdictHub u pass t h) := by
  have hu : (unitRec (getDie h (unitDie u)).srv u).unit = u := unit_unitRec _ u
  have hcode (n : Nat) : (if (!pass) = true then 2 else if n ≥ 3 then 4 else 1) = verdictCode pass n := by
    cases pass <;> rfl
  unfold verdict
  extract_lets d
  split
  next hn => exact absurd (ht.symm.trans hn) (Option.some_ne_none t)
  next t' ht' =>
  obtain rfl : t' = t := Option.some.inj (ht'.symm.trans ht)
  rw [if_neg (by simp [d, ha])]
  extract_lets g₁ old kept trans code g₂ g₃ g₄
  have hc : code = verdictCode pass trans.length := hcode trans.length
  have h₂ : g₂ = updSrv g₁ d fun v => { v with
      tests := v.tests.filter fun x => x.req.unit != u
      units := (v.units.filter fun x => x.unit != u) ++
        [{ old with transients := trans, lastVerdict := g₁.now, retired := decide (code ≠ 1) }]
      cTransient := if code = 1 then satInc 255 v.cTransient else v.cTransient
      cLasting := if code = 1 then v.cLasting else satInc 255 v.cLasting } := by
    simp only [g₂, putUnit, show old.unit = u from hu]
  clear_value code
  subst hc
  have h₄ : g₄ = verdictHub u pass t' h := by
    simp only [g₄, g₃, h₂]
    rfl
  rw [h₄]
  rfl

/-- What a verdict keeps: the instant and the count apart, what no end of work touches. -/
theorem fixed_verdictHub (u : Nat) (pass : Bool) (t : SrvTest) (h : Hub) : (verdictHub u pass t h).pkg = h.pkg ∧
    (getDie (verdictHub u pass t h) (unitDie u)).srv.engRetired = (getDie h (unitDie u)).srv.engRetired ∧
    (verdictCode pass (verdictTrans u pass t (getDie h (unitDie u)).srv).length ≠ 1 →
      (getDie (verdictHub u pass t h) (unitDie u)).srv.cLasting = satInc 255 (getDie h (unitDie u)).srv.cLasting) := by
  unfold verdictHub
  extract_lets d v trans code r g
  have hq (q : Hub) (hq : q.fixed = g.fixed) : q.pkg = h.pkg ∧ (getDie q d).srv.engRetired = (getDie h d).srv.engRetired ∧
      (code ≠ 1 → (getDie q d).srv.cLasting = satInc 255 (getDie h d).srv.cLasting) := by
    have he := hq.trans (fixed_tellVerdict t.req code trans.length _)
    refine ⟨(pkg_of_fixed he).trans rfl, (engRetired_of_fixed he d).trans ?_, fun hc => (cLasting_of_fixed he d).trans ?_⟩
    · rw [updSrv, getDie_updDie]
      rfl
    · rw [updSrv, getDie_updDie]
      exact if_neg hc
  split
  · exact hq _ (fixed_nextSerial u _ g)
  · exact hq g rfl

/-! ### The SRV_ commands (17 R455, R456) -/

theorem askTest_new {u : Nat} {p : Pend} {h : Hub} (hs : surveyed h u = false) : askTest u p h = updSrv h (unitDie u) fun v => { v with
    queue := insertReq { unit := u, seq := some 0xFFFFFFFF, time := h.now, detail := none, cmds := [p] } v.queue } := by
  simp only [askTest, hs, Bool.false_eq_true, if_false]

theorem askTest_joins {u : Nat} {p : Pend} {h : Hub} (hs : surveyed h u = true) :
    let add (r : SrvReq) : SrvReq := if r.unit = u then { r with cmds := r.cmds ++ [p] } else r
    askTest u p h = updSrv h (unitDie u) fun v => { v with
      queue := v.queue.map add, tests := v.tests.map fun t => { t with req := add t.req } } := by
  simp only [askTest, hs, if_true, beq_iff_eq]

/-! ### The obligation -/

/-- Settles O55: tests start behind a fence, verdicts return or retire their unit, and the SRV_ commands. -/
theorem surveyTests : Obligations.SurveyTests := by
  unfold Obligations.SurveyTests
  refine ⟨fun unit q s => ?_, fun unit pass t s => ?_, fun c s => ?_⟩
  · intro w d v hq hu ht hup ha
    have hrow (g : Hub) (hg : testStart w s.hub = g) : exec (.surveyTestStart d unit) s = .next { s with hub := g } :=
      next_onHub_congr ((if_pos rfl).trans hg)
    refine ⟨fun hm => hrow s.hub (testStart_of_held hq hm), fun hm => ?_⟩
    obtain ⟨f, hs, hf⟩ := testStart_spec hq hu ht hup ha hm
    refine ⟨_, f, hrow _ rfl, rfl, rfl, (congrArg Srv.tests hs :), (congrArg Srv.queue hs :), (congrArg Srv.cTests hs :),
      fun g hg => ?_, fun e b hn he hsp hin hb => ?_⟩
    · have ht' : testFence w q s.hub = (g, 0, s.hub) := by simp only [testFence, hg]
      rw [ht'] at hf hs
      exact ⟨hf, (congrArg Srv.engIn hs :)⟩
    · have ht' : testFence w q s.hub = fenceUnit w s.hub := by simp only [testFence, hn]
      rw [ht'] at hf hs
      obtain ⟨h₁, h₂, h₃⟩ := fenceUnit_spare he hsp hin hb
      exact ⟨hf.trans h₁, (congrArg Srv.engIn hs :).trans h₂, (congrArg Srv.engSpare hs :).trans h₃⟩
  · intro w d old kept trans code ht ha g₀ g
    have hg : g = verdictHub w pass t s.hub := by
      unfold verdictHub verdictTrans verdictCode
      rfl
    have hv := verdict_eq (pass := pass) ht ha s.lp5x
    have hact (e : Eff) (he : verdict w pass s.lp5x s.hub = e) :
        exec (.surveyVerdict d unit pass) s = .next { s with hub := e.1, lp5x := e.2.foldl Memory.apply s.lp5x } := by
      refine congrArg (fun e : Eff => Host.Outcome.next { s with hub := e.1, lp5x := e.2.foldl Memory.apply s.lp5x }) ?_
      exact (if_pos rfl).trans he
    have hret (hc : code ≠ 1) : verdict w pass s.lp5x s.hub = retire w t.fence s.lp5x g := hv.trans (if_neg hc)
    obtain ⟨hpkg, hre, hla⟩ := fixed_verdictHub w pass t s.hub
    rw [← hg] at hpkg hre hla
    refine ⟨fun hc => hact _ (hv.trans (if_pos hc)), fun hc => hact _ (hret hc), fun e hc he => ?_, fun hc hup hu => ?_⟩
    · obtain ⟨hws, hret', hlast⟩ := retire_engine he t.fence s.lp5x g
      refine ⟨_, hact _ (hret hc), ?_, rfl, hret'.trans (congrArg (· ||| 2 ^ e) hre), hlast.trans (hla hc)⟩
      exact congrArg (fun l : List MemWrite => l.foldl Memory.apply s.lp5x) hws
    · have hch := retire_channel hu t.fence s.lp5x g
      refine ⟨_, hact _ (hret hc), lostDie_of_dieLost (h := (writeRecords d 0 [(0x0A, 0, w, [])] g).1) ?_ (congrArg Prod.fst hch)
        (congrArg (fun e : Eff => e.2.foldl Memory.apply s.lp5x) hch) rfl⟩
      rw [dieUp, pkg_of_fixed (fixed_writeRecords d 0 _ g), hpkg]
      exact hup
  · intro h w p
    refine ⟨fun ha => ⟨fun hs => ?_, fun hs => ?_⟩, fun ha => ?_, fun ha => ?_⟩
    · exact ha.next_later (congrArg laterRes (askTest_new hs))
    · exact ha.next_later (congrArg laterRes (askTest_joins hs))
    · intro r
      refine ha.next_done ?_
      rw [List.countP_eq_length_filter]
      rfl
    · intro r
      split
      next hr => exact ha.next_done (if_pos hr)
      next hr => exact ha.next_failed (if_neg hr)

end Sys2Proof.Machine
end

section
/-!
PORST_N, its release, the boot of a die and the steps to a ready package (18 R459-R463, R472; 15 R399; log entries 7, 8, 45, 65).
-/

namespace Sys2Proof.Machine

/-! ### What step 6 leaves as it was -/

/-- What steps 6 to 9 leave as it was but for the step itself: the sites, the lost dies, the principal, and of each die the Keeper's
registers and whether its timebase is aligned. -/
def Hub.boot (h : Hub) : Nat × Nat × Nat × (Nat → Kpr × Bool) :=
  (h.pkg.sites, h.pkg.lost, h.pkg.principal, fun k => ((getDie h k).kpr, (getDie h k).clk.aligned))

section
variable {g h : Hub}

theorem boot_of (hp : g.pkg = h.pkg) (hk : ∀ k, (getDie g k).kpr = (getDie h k).kpr)
    (ha : ∀ k, (getDie g k).clk.aligned = (getDie h k).clk.aligned) : g.boot = h.boot := by
  simp only [Hub.boot, hp, hk, ha]

theorem boot_of_dies (hp : g.pkg = h.pkg) (hd : g.dies = h.dies) : g.boot = h.boot := by
  simp only [Hub.boot, getDie, hp, hd]

theorem boot_of_keepsDies (hp : g.pkg = h.pkg) (hd : KeepsDies g h) : g.boot = h.boot :=
  boot_of hp hd.kpr fun k => by rw [hd.clk k]

theorem boot_of_linkRest (e : g.linkRest = h.linkRest) (hd : g.dies = h.dies) : g.boot = h.boot :=
  boot_of_dies (congrArg Hub.pkg e :) hd

theorem boot_of_offPorts (e : g.offPorts = h.offPorts) : g.boot = h.boot := (congrArg Hub.boot e :)

section
variable (e : g.boot = h.boot)
include e

theorem principal_of_boot : g.pkg.principal = h.pkg.principal := (congrArg (fun x => x.2.2.1) e :)

theorem kpr_of_boot (k : Nat) : (getDie g k).kpr = (getDie h k).kpr := (congrArg (fun x => (x.2.2.2 k).1) e :)

theorem aligned_of_boot (k : Nat) : (getDie g k).clk.aligned = (getDie h k).clk.aligned := (congrArg (fun x => (x.2.2.2 k).2) e :)

theorem dieUp_of_boot (k : Nat) : dieUp g k = dieUp h k := by
  have hs : g.pkg.sites = h.pkg.sites := (congrArg Prod.fst e :)
  have hl : g.pkg.lost = h.pkg.lost := (congrArg (fun x => x.2.1) e :)
  rw [dieUp, dieUp, hs, hl]

theorem upDies_of_boot : upDies g = upDies h := List.filter_congr fun k _ => dieUp_of_boot e k

end
end

theorem boot_foldl {α : Type} {f : Hub → α → Hub} (hf : ∀ g a, (f g a).boot = g.boot) (l : List α) (h : Hub) :
    (l.foldl f h).boot = h.boot :=
  foldl_keeps Hub.boot hf l h

theorem boot_updDie (h : Hub) (d : Nat) {f : Die → Die} (hk : ∀ x, (f x).kpr = x.kpr) (ha : ∀ x, (f x).clk.aligned = x.clk.aligned) :
    (updDie h d f).boot = h.boot :=
  boot_of rfl (fun k => getDie_updDie_keeps Die.kpr h d k hk) fun k => getDie_updDie_keeps (fun x => x.clk.aligned) h d k ha

theorem boot_faultReport (d cause unit reporter detail : Nat) (h : Hub) : (faultReport d cause unit reporter detail h).boot = h.boot :=
  boot_of_keepsDies (faultReport_pkg d cause unit reporter detail h) (keepsDies_faultReport d cause unit reporter detail h)

theorem boot_linkGoes (k : Nat) (st : LinkState) (r : Nat) (h : Hub) : (linkGoes k st r h).boot = h.boot :=
  boot_of_keepsDies (congrArg Hub.pkg (linkRest_linkGoes k st r h) :) (keepsDies_linkGoes k st r h)

theorem boot_leaveUp (k : Nat) (h : Hub) : (leaveUp k h).boot = h.boot := boot_of_linkRest (linkRest_leaveUp k h) (dies_leaveUp k h)

theorem boot_enterSeek (k r : Nat) (h : Hub) : (enterSeek k r h).boot = h.boot :=
  boot_of_keepsDies (congrArg Hub.pkg (linkRest_enterSeek k r h) :) (keepsDies_enterSeek k r h)

theorem boot_sendMgmt (k msg : Nat) (bytes : Bytes) (h : Hub) : (sendMgmt k msg bytes h).boot = h.boot :=
  boot_of_offPorts (offPorts_sendBlock _ _ _ _ h)

theorem fixed_sendMgmt (k msg : Nat) (bytes : Bytes) (h : Hub) : (sendMgmt k msg bytes h).fixed = h.fixed :=
  fixed_of_offPorts (offPorts_sendBlock _ _ _ _ h)

theorem fixed_chainLength (len : Nat) (h : Hub) : (chainLength len h).fixed = h.fixed := by
  unfold chainLength
  extract_lets c g₁ g₂
  have h₂ : g₂.fixed = h.fixed := by
    simp only [g₂]
    split
    · rfl
    · exact (fixed_chainEvent 1 g₁).trans rfl
  split
  · exact h₂
  · split
    · exact (fixed_sendMgmt _ 4 _ g₂).trans h₂
    · exact h₂

theorem dies_chainLength (len : Nat) (h : Hub) : (chainLength len h).dies = h.dies := by
  unfold chainLength
  extract_lets c g₁ g₂
  have h₂ : g₂.dies = h.dies := by
    simp only [g₂]
    split
    · rfl
    · exact dies_toIntegrator _ _ _ g₁
  split
  · exact h₂
  · split
    · exact (congrArg Hub.dies (offPorts_sendBlock _ _ _ _ g₂) :).trans h₂
    · exact h₂

theorem dies_sendEnum (k : Nat) (h : Hub) : (sendEnum k h).dies = h.dies :=
  (congrArg Hub.dies (offPorts_sendBlock k 0x87 _ _ { h with chain := { h.chain with asking := true, askAt := h.now } }) :)

theorem fixed_sendEnum (k : Nat) (h : Hub) : (sendEnum k h).fixed = h.fixed :=
  (fixed_sendMgmt k 1 _ { h with chain := { h.chain with asking := true, askAt := h.now } }).trans rfl

/-- Enumeration going on touches ports and chain alone (18 R465). -/
theorem enumOnward_keeps (h : Hub) : (enumOnward h).fixed = h.fixed ∧ (enumOnward h).dies = h.dies := by
  unfold enumOnward
  extract_lets c
  split
  · exact ⟨rfl, rfl⟩
  · split
    · split
      · exact ⟨rfl, rfl⟩
      · exact ⟨fixed_chainLength _ h, dies_chainLength _ h⟩
    · split
      · exact ⟨fixed_sendEnum _ h, dies_sendEnum _ h⟩
      · split
        · exact ⟨rfl, rfl⟩
        · exact ⟨fixed_chainLength _ h, dies_chainLength _ h⟩
      · exact ⟨rfl, rfl⟩

theorem boot_enumOnward (h : Hub) : (enumOnward h).boot = h.boot :=
  boot_of_dies (pkg_of_fixed (enumOnward_keeps h).1) (enumOnward_keeps h).2

theorem boot_dpTrain (k r : Nat) (cfg : Nat × Nat) (h : Hub) : (dpTrain k r cfg h).boot = h.boot := by
  unfold dpTrain
  split
  · exact boot_linkGoes k _ r h
  · exact (boot_linkGoes k _ r _).trans rfl

theorem boot_lnkApply (k : Nat) (c : Cmd) (h : Hub) : (lnkApply k c h).boot = h.boot := by
  unfold lnkApply
  extract_lets old g p left g₁
  have hg : g.boot = h.boot := rfl
  have hleft : (leaveUp k g).boot = h.boot := (boot_leaveUp k g).trans hg
  clear_value g p
  split
  · split
    · exact hg
    · refine (boot_linkGoes k .off 1 _).trans (Eq.trans (rfl : (updPort left k _).boot = left.boot) ?_)
      simp only [left]
      split
      · exact hleft
      · exact hg
  · split
    · split
      · exact (boot_enterSeek k 1 g).trans hg
      · split
        · refine (boot_enterSeek k 1 _).trans ?_
          split
          · exact hleft
          · exact hg
        · split
          · exact (boot_enumOnward g).trans hg
          · exact hg
    · split
      · split
        · exact hg
        · split
          · exact (boot_dpTrain k 1 _ g).trans hg
          · exact (boot_linkGoes k .alone 1 g).trans hg
      · split
        · exact Eq.trans (rfl : g₁.boot = g.boot) hg
        · exact (boot_linkGoes k .up 1 g₁).trans (Eq.trans (rfl : g₁.boot = g.boot) hg)

/-! ### Outputs that start -/

theorem boot_updPll (d i : Nat) (f : Pll → Pll) (h : Hub) : (updPll d i f h).boot = h.boot := by
  have hk := keepsDies_updPll d i f h
  have hb : (updDie h d fun x => { x with clk := x.clk.setPll i (f (getPll h d i)) }).boot = h.boot := by
    refine boot_updDie h d (fun _ => rfl) fun x => ?_
    unfold Clk.setPll
    split <;> rfl
  refine (boot_of_keepsDies ?_ hk).trans hb
  exact pkg_updPll d i f h

theorem boot_shareSpread (o : Nat) (h : Hub) : (shareSpread o h).boot = h.boot := by
  unfold shareSpread
  dsimp only
  split
  · rfl
  · refine boot_foldl (fun g m => ?_) _ h
    split
    · rfl
    · exact boot_updPll _ _ _ g

theorem boot_releasePlls (d : Nat) (h : Hub) : (releasePlls d h).boot = h.boot := by
  refine boot_foldl (fun g k => ?_) _ h
  split
  · exact boot_updPll _ _ _ g
  · rfl

theorem boot_takePll (o : Nat) (e : ModeEntry) (h : Hub) : (takePll o e h).boot = h.boot := by
  unfold takePll
  extract_lets d k runs g₁ g₂ g₃
  have h₁ : g₁.boot = h.boot := by
    simp only [g₁]
    split
    · rfl
    · refine boot_foldl (fun g u => ?_) _ h
      rfl
  have h₃ : g₃.boot = h.boot := by
    simp only [g₃]
    split
    · exact h₁
    · exact (boot_updPll _ _ _ g₂).trans h₁
  exact (boot_releasePlls d _).trans ((boot_shareSpread o g₃).trans h₃)

theorem boot_settleCache (o : Nat) (h : Hub) : (settleCache o h).boot = h.boot := by
  unfold settleCache
  dsimp only
  split
  · rfl
  · split <;> rfl

theorem boot_linkForMode (o : Nat) (h : Hub) : (linkForMode o h).boot = h.boot := by
  unfold linkForMode
  extract_lets x
  split
  · extract_lets g p
    have hg : g.boot = h.boot := by
      simp only [g]
      split <;> rfl
    split
    · split
      · exact (boot_linkGoes _ _ _ g).trans hg
      · split
        · exact hg
        · exact (boot_linkGoes _ _ _ (updPort g _ _)).trans hg
    · exact hg
  · rfl

theorem boot_beginMode (o : Nat) (h : Hub) : (beginMode o h).boot = h.boot := by
  unfold beginMode
  extract_lets x run g₁ g₂ g₃
  split
  · rfl
  · have h₁ : g₁.boot = h.boot := by
      simp only [g₁]
      split
      · exact boot_of_dies (pkg_of_fixed (fixed_drainOut o h)) (dies_drainOut o h)
      · rfl
    have h₃ : g₃.boot = g₂.boot := by
      simp only [g₃]
      split <;> rfl
    calc
      _ = (openStart o (linkForMode o (takePll o _ (settleCache o g₃)))).boot :=
        boot_of_dies (pkg_of_fixed (fixed_latchStart _ o)) (dies_latchStart _ o)
      _ = (linkForMode o (takePll o _ (settleCache o g₃))).boot :=
        boot_of_dies (pkg_of_fixed (fixed_openStart o _)) (dies_openStart o _)
      _ = (takePll o _ (settleCache o g₃)).boot := boot_linkForMode o _
      _ = (settleCache o g₃).boot := boot_takePll o _ _
      _ = g₃.boot := boot_settleCache o g₃
      _ = g₂.boot := h₃
      _ = h.boot := h₁

/-! ### Provisioning (18 R462, R464; 19 R486) -/

theorem boot_writeRecords (d group : Nat) (l : List NewRec) (h : Hub) : (writeRecords d group l h).1.boot = h.boot := by
  unfold writeRecords
  extract_lets w g₀ g
  have hg : g.boot = h.boot := Eq.trans rfl (boot_updDie h d (f := fun x => { x with atc := w.1 }) (fun _ => rfl) fun _ => rfl)
  split
  · exact hg
  · exact (boot_faultReport _ _ _ _ _ g).trans hg

theorem boot_slotFault (d : Nat) (h : Hub) : (slotFault d h).boot = h.boot := by
  unfold slotFault
  dsimp only
  split
  · rfl
  · exact boot_faultReport _ _ _ _ _ h

theorem boot_syncDie (d : Nat) (h : Hub) : (syncDie d h).boot = h.boot := by
  unfold syncDie
  split
  · rfl
  · split
    · rfl
    · exact boot_writeRecords d 0 _ h

theorem boot_provMemory (h : Hub) : (provMemory h).boot = h.boot := by
  unfold provMemory
  split
  · rfl
  · dsimp only
    split <;> rfl

theorem boot_provModes (h : Hub) : (provModes h).boot = h.boot := by
  refine boot_foldl (fun g e => ?_) _ h
  dsimp only
  split
  · rfl
  · exact boot_faultReport _ _ _ _ _ g

theorem boot_provided (h : Hub) : (provided h).boot = h.boot := by
  unfold provided
  extract_lets g
  have hg : g.boot = h.boot := boot_foldl (fun q d => boot_slotFault d q) _ h
  calc
    _ = (provMemory (loadProv ((upDies g).foldl (fun h d => syncDie d h) g))).boot := boot_provModes _
    _ = (loadProv ((upDies g).foldl (fun h d => syncDie d h) g)).boot := boot_provMemory _
    _ = g.boot := Eq.trans rfl (boot_foldl (fun q d => boot_syncDie d q) _ g)
    _ = h.boot := hg

theorem boot_provContexts (d : Nat) (rejoin : Bool) (h : Hub) : (provContexts d rejoin h).boot = h.boot := by
  unfold provContexts
  extract_lets l g
  have hg : g.boot = h.boot := by
    refine boot_foldl (fun q e => ?_) l h
    rfl
  exact Eq.trans rfl hg

theorem boot_provRetired (d : Nat) (h : Hub) : (provRetired d h).boot = h.boot := by
  refine boot_foldl (fun g u => ?_) _ h
  exact boot_updDie g d (fun _ => rfl) fun _ => rfl

theorem boot_takeList (o : Nat) (h : Hub) : (takeList o h).boot = h.boot := by
  unfold takeList
  split
  · rfl
  · extract_lets g
    split
    · rfl
    · refine (boot_foldl (fun q m => ?_) _ g).trans rfl
      rfl

theorem boot_outConfigRun (c : Cmd) (h : Hub) : (outConfigRun c h).boot = h.boot := by
  unfold outConfigRun
  extract_lets o fl own g g₁
  split
  · rfl
  · split
    · rfl
    · split
      · exact boot_takeList o g₁
      · rfl

theorem boot_provDie (d : Nat) (h : Hub) : (provDie d h).boot = h.boot := by
  unfold provDie
  extract_lets g₁ g₂ g₃
  have h₁ : g₁.boot = h.boot := boot_provRetired d h
  have h₂ : g₂.boot = g₁.boot := by
    refine boot_foldl (fun q e => ?_) _ g₁
    rfl
  have h₃ : g₃.boot = g₂.boot := by
    refine boot_foldl (fun q (e : Nat × Bytes) => ?_) _ g₂
    dsimp only
    split
    · exact (boot_linkGoes e.1 .down 1 _).trans (boot_lnkApply e.1 _ q)
    · exact boot_lnkApply e.1 _ q
  exact (boot_foldl (fun q (e : Nat × Bytes) => boot_outConfigRun _ q) _ g₃).trans (h₃.trans (h₂.trans h₁))

theorem boot_bootOut (o : Nat) (p : Bytes) (h : Hub) : (bootOut o p h).1.boot = h.boot := by
  unfold bootOut
  extract_lets n d
  dsimp -zeta only
  extract_lets image
  split
  · refine Eq.trans rfl ((boot_beginMode o _).trans ?_)
    rfl
  · exact (boot_faultReport _ _ _ _ _ (takeFree h).2).trans rfl

theorem boot_bootOuts (l : List (Nat × Bytes)) (h : Hub) : (bootOuts l h).1.boot = h.boot := by
  induction l generalizing h with
  | nil => rfl
  | cons e t ih =>
    unfold bootOuts
    extract_lets a b
    have ha : a.1.boot = h.boot := by
      simp only [a]
      split
      · exact boot_bootOut _ _ h
      · rfl
    exact (ih a.1).trans ha

theorem boot_rebuilt (d : Nat) (h : Hub) : (rebuilt d h).boot = h.boot := by
  unfold rebuilt rebuildTxns
  refine (boot_foldl (fun g t => ?_) _ _).trans rfl
  split <;> rfl

/-! ### The boot step (20 R511) -/

theorem keepsDies_kprStep (n d : Nat) (h : Hub) :
    KeepsDies (kprStep n d h) (updDie h d fun x => { x with kpr := { x.kpr with step := n } }) := by
  unfold kprStep
  split
  next hs =>
    rw [updDie_congr h d (g := id) (by rw [← hs]; rfl)]
    exact fun k => (getDie_updDie_keeps Die.kept h d k fun _ => rfl).symm
  next => exact keepsDies_intEvent d 10 _

theorem pkg_kprStep (n d : Nat) (h : Hub) : (kprStep n d h).pkg = h.pkg := by
  unfold kprStep
  split
  · rfl
  · exact (pkg_of_fixed (fixed_intEvent d 10 _)).trans rfl

theorem now_kprStep (n d : Nat) (h : Hub) : (kprStep n d h).now = h.now := by
  unfold kprStep
  split
  · rfl
  · exact (now_of_fixed (fixed_intEvent d 10 _)).trans rfl

theorem step_kprStep (n d : Nat) (h : Hub) : (getDie (kprStep n d h) d).kpr.step = n := by
  rw [(keepsDies_kprStep n d h).kpr d, getDie_updDie]

theorem step_kprStep_of {n d k : Nat} {h : Hub} (hk : (getDie h k).kpr.step = n) : (getDie (kprStep n d h) k).kpr.step = n := by
  rw [(keepsDies_kprStep n d h).kpr k]
  by_cases hd : k = d
  · rw [hd, getDie_updDie]
  · rwa [getDie_updDie_ne _ _ _ _ hd]

theorem clk_kprStep (n d k : Nat) (h : Hub) : (getDie (kprStep n d h) k).clk = (getDie h k).clk :=
  ((keepsDies_kprStep n d h).clk k).trans (getDie_updDie_keeps Die.clk h d k fun _ => rfl)

/-- What a fold over dies gives each of them, and takes from none. -/
theorem foldl_sets {β : Type} {F : Hub → Nat → β} {f : Hub → Nat → Hub} {b : β} (hs : ∀ g d, F (f g d) d = b)
    (hk : ∀ g d k, F g k = b → F (f g d) k = b) {l : List Nat} {k : Nat} (hl : k ∈ l) (h : Hub) : F (l.foldl f h) k = b := by
  have hkeep (l : List Nat) (g : Hub) (hg : F g k = b) : F (l.foldl f g) k = b :=
    List.foldlRecOn l f (motive := fun g => F g k = b) hg fun g hg d _ => hk g d k hg
  induction l generalizing h with
  | nil => exact absurd hl List.not_mem_nil
  | cons d t ih =>
    rcases List.mem_cons.mp hl with rfl | ht
    · exact hkeep t _ (hs h k)
    · exact ih ht _

theorem pkgNow_foldl_kprStep (n : Nat) (l : List Nat) (h : Hub) :
    let g := l.foldl (fun h d => kprStep n d h) h
    (g.pkg, g.now) = (h.pkg, h.now) :=
  foldl_keeps (fun g : Hub => (g.pkg, g.now)) (fun g d => Prod.ext (pkg_kprStep n d g) (now_kprStep n d g)) l h

theorem step_foldl_kprStep (n : Nat) {l : List Nat} {k : Nat} (hk : k ∈ l) (h : Hub) :
    (getDie (l.foldl (fun h d => kprStep n d h) h) k).kpr.step = n :=
  foldl_sets (F := fun g k => (getDie g k).kpr.step) (fun g d => step_kprStep n d g) (fun _ _ _ hg => step_kprStep_of hg) hk h

theorem dieUp_congr {g h : Hub} (hs : g.pkg.sites = h.pkg.sites) (hl : g.pkg.lost = h.pkg.lost) (d : Nat) : dieUp g d = dieUp h d := by
  rw [dieUp, dieUp, hs, hl]

theorem upDies_congr {g h : Hub} (hs : g.pkg.sites = h.pkg.sites) (hl : g.pkg.lost = h.pkg.lost) : upDies g = upDies h :=
  List.filter_congr fun d _ => dieUp_congr hs hl d

/-! ### The start (18 R460, R461) -/

theorem coldStart_keeps (h : Hub) : (coldStart h).now = 0 ∧ (coldStart h).pkg = { h.pkg with phase := .starting } ∧
    ∀ d ∈ upDies h, (getDie (coldStart h) d).kpr.step = 1 := by
  unfold coldStart startDies
  generalize hg : (upDies h).foldl (fun h d => updDie h d fun x => { x with clk := refsOn x.clk })
    { h with now := 0, pkg := { h.pkg with phase := .starting } } = g
  have hk : (g.pkg, g.now) = ({ h.pkg with phase := .starting }, 0) := by
    rw [← hg]
    refine foldl_keeps (fun g : Hub => (g.pkg, g.now)) (fun g d => ?_) _ _
    rfl
  obtain ⟨hp, hn⟩ := Prod.mk.inj hk
  obtain ⟨hp', hn'⟩ := Prod.mk.inj (pkgNow_foldl_kprStep 1 (upDies g) g)
  refine ⟨hn'.trans hn, hp'.trans hp, fun d hd => step_foldl_kprStep 1 ?_ g⟩
  rwa [upDies_congr (g := g) (h := h) (by rw [hp]) (by rw [hp])]

theorem getPll_rootOnPll (d : Nat) (h : Hub) : (getPll (rootOnPll d h) d 0).locked = true ∧ (getPll (rootOnPll d h) d 0).bypass = false := by
  unfold rootOnPll
  extract_lets g
  rw [getPll_updPll]
  exact ⟨rfl, rfl⟩

/-- The root PLL of a die at step 1 has locked: the die is at step 2 (18 R462). -/
theorem rootStarts_root (d : Nat) (h : Hub) : (getDie (rootStarts d h) d).kpr.step = 2 ∧ (getPll (rootStarts d h) d 0).locked = true ∧
    (getPll (rootStarts d h) d 0).bypass = false := by
  unfold rootStarts
  extract_lets first pk g
  obtain ⟨hl, hb⟩ := getPll_rootOnPll d g
  generalize rootOnPll d g = r at hl hb ⊢
  have hp : (getPll (kprStep 2 d (updDie r d fun x => { x with clk := { x.clk with tbOff := -(g.now : Int) } })) d 0) = getPll r d 0 := by
    rw [getPll, clk_kprStep, getDie_updDie]
    rfl
  rw [hp]
  exact ⟨step_kprStep 2 d _, hl, hb⟩

theorem rootLock_step1 {d : Nat} {h : Hub} (hp : h.pkg.phase = .starting) (hd : d ∈ siteList h) (hs : (getDie h d).kpr.step = 1)
    (hu : dieUp h d = true) (hl : (getDie h d).clk.root.locked = false) (m : List Host.Cell) : rootLock d m h = (rootStarts d h, []) := by
  have hpow : powered h = true := by simp [powered, hp]
  have hbit : bit h.pkg.sites d = true := (List.mem_filter.mp hd).2
  simp [rootLock, hpow, hl, hbit, hu, hs, hp]

/-! ### The reports (18 R462) -/

theorem pkg_bootDie (d : Nat) (h : Hub) : (bootDie d h).pkg = h.pkg := by
  unfold bootDie
  extract_lets a g
  split
  · rfl
  · extract_lets v q
    exact (pkg_kprStep 4 d _).trans ((pkg_kprStep 3 d q).trans rfl)

/-- The hub as die `d` has reported: its report is kept. -/
def reported (d : Nat) (h : Hub) : Hub :=
  { h with pkg := { h.pkg with
      reported := h.pkg.reported ||| 2 ^ d
      reports := h.pkg.reports.set d
        { stepping := 0xB0, fw := (getDie h d).regs.fw, image := (getDie h d).atc.image
          selected := (getDie h d).atc.image == selectWord (getDie h d).atc d } } }

theorem upDies_reported (d : Nat) (h : Hub) : upDies (reported d (bootDie d h)) = upDies h :=
  upDies_congr (congrArg Pkg.sites (pkg_bootDie d h) :) (congrArg Pkg.lost (pkg_bootDie d h) :)

section
variable {d : Nat} {h : Hub} (hp : h.pkg.phase = .starting) (hd : d ∈ upDies h) (hs : (getDie h d).kpr.step = 2)
  (h5 : held5 h = false) (hr : (getDie (bootDie d h) d).atc.inRom = false) (m : List Host.Cell)
include hp hd hs h5 hr

theorem dieReport_eq : dieReport d m h =
    if (upDies h).all (bit (reported d (bootDie d h)).pkg.reported) then holdReports m (reported d (bootDie d h))
    else (reported d (bootDie d h), []) := by
  have hu : dieUp h d = true := (List.mem_filter.mp hd).2
  have hc : ¬(h.pkg.phase != .starting || !dieUp h d || decide ((getDie h d).kpr.step ≠ 2) || held5 h) = true := by
    simp [hp, hu, hs, h5]
  unfold dieReport
  rw [if_neg hc]
  extract_lets g x r pk q
  have hg : ¬(getDie g d).atc.inRom = true := by simpa [g] using hr
  have hq : q = reported d (bootDie d h) := rfl
  rw [if_neg hg, hq, upDies_reported]

theorem dieReport_missing {e : Nat} (he : e ∈ upDies h) (hm : (reported d (bootDie d h)).pkg.reported.testBit e = false) :
    dieReport d m h = (reported d (bootDie d h), []) := by
  rw [dieReport_eq hp hd hs h5 hr m, if_neg]
  intro ha
  have hb := List.all_eq_true.mp ha e he
  rw [bit, hm] at hb
  exact Bool.false_ne_true hb

theorem dieReport_last (ha : ∀ e ∈ upDies h, (reported d (bootDie d h)).pkg.reported.testBit e = true) :
    dieReport d m h = holdReports m (reported d (bootDie d h)) := by
  rw [dieReport_eq hp hd hs h5 hr m]
  exact if_pos (List.all_eq_true.mpr ha)

end

theorem loadTime_keeps (d : Nat) (h : Hub) : (loadTime d h).pkg = h.pkg ∧ (getDie (loadTime d h) d).clk.aligned = true ∧
    ∀ k, (getDie h k).clk.aligned = true → (getDie (loadTime d h) k).clk.aligned = true := by
  unfold loadTime
  have hr : (if d = h.pkg.principal then ((0 : Int), h) else loadError h).2.pkg = h.pkg ∧
      (if d = h.pkg.principal then ((0 : Int), h) else loadError h).2.dies = h.dies := by
    split <;> exact ⟨rfl, rfl⟩
  generalize (if d = h.pkg.principal then ((0 : Int), h) else loadError h) = r at hr ⊢
  obtain ⟨e, g⟩ := r
  have hg : g.pkg = h.pkg ∧ g.dies = h.dies := hr
  dsimp only
  refine ⟨hg.1, by rw [getDie_updDie], fun k hk => ?_⟩
  by_cases hd : k = d
  · rw [hd, getDie_updDie]
  · rwa [getDie_updDie_ne _ _ _ _ hd, getDie, hg.2]

/-- Each up die loads the principal's timebase, and step 5 ends (18 R462). -/
theorem alignAll_keeps (h : Hub) : (alignAll h).pkg = h.pkg ∧ ∀ d ∈ upDies h, (getDie (alignAll h) d).clk.aligned = true := by
  unfold alignAll
  refine ⟨foldl_keeps Hub.pkg (fun g d => (pkg_kprStep 5 d _).trans (loadTime_keeps d g).1) _ h, fun d hd =>
    foldl_sets (F := fun g k => (getDie g k).clk.aligned) (fun g d => ?_) (fun g d k hk => ?_) hd h⟩
  · rw [clk_kprStep]
    exact (loadTime_keeps d g).2.1
  · rw [clk_kprStep]
    exact (loadTime_keeps d g).2.2 k hk

/-- Step 6 of dies of which none is retired (18 R462). -/
theorem provisionAll_keeps {h : Hub} (hr : ∀ d ∈ upDies h, retiredDie (provided h) d = 0) (m : List Host.Cell) :
    (provisionAll m h).1.pkg.principal = h.pkg.principal ∧ upDies (provisionAll m h).1 = upDies h ∧
      (∀ d ∈ upDies h, (getDie (provisionAll m h).1 d).kpr.step = 6) ∧
      ∀ d, (getDie (provisionAll m h).1 d).clk.aligned = (getDie h d).clk.aligned := by
  have hb := boot_provided h
  have hu := upDies_of_boot hb
  unfold provisionAll
  extract_lets g a ds g₁ g₂ e
  have ha : a = (g, []) := by
    have hn : (((upDies g).map fun d => (d, retiredDie g d)).filter fun e => e.2 ≠ 0) = [] := by
      rw [List.filter_eq_nil_iff]
      simpa [g, hu] using hr
    simp only [a, hn]
    rfl
  have hds : ds = upDies h := by simp only [ds, ha, g, hu]
  have h₁ : g₁.boot = h.boot := by
    have hf := boot_foldl (fun q d => (boot_provDie d (provContexts d false q)).trans (boot_provContexts d false q)) ds a.1
    refine hf.trans ?_
    rw [ha]
    exact hb
  have h₃ : (ds.foldl (fun h d => rebuilt d h) e.1).boot = g₂.boot :=
    (boot_foldl (fun q d => boot_rebuilt d q) ds e.1).trans (boot_bootOuts _ g₂)
  have hp₂ : g₂.pkg = g₁.pkg := congrArg Prod.fst (pkgNow_foldl_kprStep 6 ds g₁)
  have hc₂ (d : Nat) : (getDie g₂ d).clk = (getDie g₁ d).clk :=
    foldl_keeps (fun q => (getDie q d).clk) (fun q e => clk_kprStep 6 e d q) ds g₁
  refine ⟨?_, ?_, fun d hd => ?_, fun d => ?_⟩
  · rw [principal_of_boot h₃, hp₂, principal_of_boot h₁]
  · rw [upDies_of_boot h₃, upDies_congr (h := g₁) (by rw [hp₂]) (by rw [hp₂]), upDies_of_boot h₁]
  · rw [kpr_of_boot h₃]
    exact step_foldl_kprStep 6 (by rwa [hds]) g₁
  · rw [aligned_of_boot h₃, hc₂, aligned_of_boot h₁]

theorem namePrincipal_keeps (p : Nat) (h : Hub) : (namePrincipal p h).dies = h.dies ∧ (namePrincipal p h).pkg.principal = p ∧
    upDies (namePrincipal p h) = upDies h := ⟨rfl, rfl, upDies_congr rfl rfl⟩

/-- All reports are held, of one firmware and of no retired die: the lowest die is principal, and no die is lost (18 R462). -/
theorem holdReports_all {p : Nat} {h : Hub} (hh : (upDies h).head? = some p)
    (ha : ∀ e ∈ upDies h, h.pkg.reported.testBit e = true) (hf : ∀ e ∈ upDies h, (getDie h e).regs.fw = (getDie h p).regs.fw)
    (m : List Host.Cell) : holdReports m h = provisionAll m (alignAll (namePrincipal p h)) := by
  obtain ⟨t, ht⟩ := List.head?_eq_some_iff.mp hh
  have hall : (upDies h).filter (bit h.pkg.reported) = p :: t := by
    rw [← ht]
    exact List.filter_eq_self.mpr ha
  have hout : ((upDies (namePrincipal p h)).filter fun d => !bit (namePrincipal p h).pkg.reported d ||
      decide ((getDie (namePrincipal p h) d).regs.fw ≠ (getDie (namePrincipal p h) p).regs.fw)) = [] := by
    rw [List.filter_eq_nil_iff, (namePrincipal_keeps p h).2.2]
    intro d hd
    have hb : bit (namePrincipal p h).pkg.reported d = true := ha d hd
    have hw : (getDie (namePrincipal p h) d).regs.fw = (getDie (namePrincipal p h) p).regs.fw := hf d hd
    simp [hb, hw]
  unfold holdReports
  rw [hall]
  dsimp only
  rw [hout]
  rfl

/-! ### The package is ready (18 R463) -/

/-- The hub as die `d` has passed steps 7 to 9. -/
def readyDie (ms d : Nat) (h : Hub) : Hub :=
  updDie (kprStep 9 d (kprStep 8 d (kprStep 7 d h))) d fun x => { x with kpr := { x.kpr with readyMs := ms } }

theorem pkg_readyDie (ms d : Nat) (h : Hub) : (readyDie ms d h).pkg = h.pkg := by
  have hu : (readyDie ms d h).pkg = (kprStep 9 d (kprStep 8 d (kprStep 7 d h))).pkg := rfl
  rw [hu, pkg_kprStep, pkg_kprStep, pkg_kprStep]

theorem now_readyDie (ms d : Nat) (h : Hub) : (readyDie ms d h).now = h.now := by
  have hu : (readyDie ms d h).now = (kprStep 9 d (kprStep 8 d (kprStep 7 d h))).now := rfl
  rw [hu, now_kprStep, now_kprStep, now_kprStep]

theorem readyDie_keeps (ms d : Nat) (h : Hub) : ((readyDie ms d h).pkg, (readyDie ms d h).now) = (h.pkg, h.now) := by
  rw [pkg_readyDie, now_readyDie]

theorem step_readyDie (ms d : Nat) (h : Hub) : (getDie (readyDie ms d h) d).kpr.step = 9 := by
  rw [readyDie, getDie_updDie]
  exact step_kprStep 9 d _

theorem step_readyDie_of {ms d k : Nat} {h : Hub} (hk : (getDie h k).kpr.step = 9) : (getDie (readyDie ms d h) k).kpr.step = 9 := by
  by_cases hd : k = d
  · rw [hd, step_readyDie]
  · rw [readyDie, getDie_updDie_ne _ _ _ _ hd, (keepsDies_kprStep 9 d _).kpr k, getDie_updDie_ne _ _ _ _ hd,
      (keepsDies_kprStep 8 d _).kpr k, getDie_updDie_ne _ _ _ _ hd, (keepsDies_kprStep 7 d h).kpr k, getDie_updDie_ne _ _ _ _ hd, hk]

theorem packageReady_held {h : Hub} (hp : h.pkg.phase = .starting) (h5 : held5 h = true) (m : List Host.Cell) :
    (packageReady m h).2 = [] ∧ (packageReady m h).1.pkg.phase = .ready ∧ (packageReady m h).1.pkg.readyAt = h.now ∧
      ∀ d ∈ upDies h, (getDie (packageReady m h).1 d).kpr.step = 9 := by
  have hc : ¬(h.pkg.phase != .starting) = true := by simp [hp]
  have hn : ¬(!held5 h) = true := by simp [h5]
  unfold packageReady
  rw [if_neg hc, if_pos h5]
  dsimp only
  rw [if_neg hn]
  dsimp only
  have hs (d : Nat) (hd : d ∈ upDies h) :=
    foldl_sets (F := fun g k => (getDie g k).kpr.step) (fun g d => step_readyDie ((h.now + h.pkg.startAt) / 1000000 % 65536) d g)
      (fun _ _ _ hg => step_readyDie_of hg) hd h
  have hk : (_, _) = _ := foldl_keeps (fun g : Hub => (g.pkg, g.now))
    (fun g d => readyDie_keeps ((h.now + h.pkg.startAt) / 1000000 % 65536) d g) (upDies h) h
  unfold readyDie at hs hk
  generalize (upDies h).foldl _ h = g at hs hk ⊢
  obtain ⟨hp', hn'⟩ := Prod.mk.inj hk
  generalize hq : ({ g with pkg := _, chain := _ } : Hub) = q
  obtain ⟨hf, -⟩ := enumOnward_keeps q
  refine ⟨rfl, ?_, ?_, fun d hd => ?_⟩
  · rw [pkg_of_fixed hf, ← hq]
  · rw [pkg_of_fixed hf, ← hq]
    exact hn'
  · rw [kpr_of_fixed hf, ← hq]
    exact hs d hd

/-- Settles O56: PORST_N leaves a hub without objects and a memory of zeros; its release and the wake of a package in OFF start every up
die at step 1; the root's lock, the reports and the readiness each move the step on. -/
theorem startOfThePackage : Obligations.StartOfThePackage := by
  unfold Obligations.StartOfThePackage
  refine ⟨fun s => ?_, fun s => ?_, fun d s hp hd hs hu hl => ?_, fun d s hp hd hs h5 => ?_, fun s hp h5 => ?_, fun d s hp => ?_⟩
  · exact ⟨act (fun _ h => (resetHub .porst h, clearMemory)) s, rfl, rfl, rfl, rfl, rfl, rfl, rfl, rfl, rfl, rfl, rfl, fun _ a ha =>
      Memory.read_zero_in s.lp5x 0 (2 ^ 37) a (Nat.zero_le a) (by simpa using ha)⟩
  · obtain ⟨hn, hp, hs⟩ := coldStart_keeps s.hub
    have hstart (u : State) (hu : u = onHub coldStart s) : u.lp5x = s.lp5x ∧ u.pending = s.pending ∧ u.hub.now = 0 ∧
        u.hub.pkg.phase = .starting ∧ ∀ d ∈ upDies s.hub, (getDie u.hub d).kpr.step = 1 := by
      subst hu
      exact ⟨rfl, rfl, hn, (congrArg Pkg.phase hp :), hs⟩
    refine ⟨fun hp => ⟨_, congrArg Host.Outcome.next ?_, hstart _ rfl⟩, fun hp => ⟨_, congrArg Host.Outcome.next ?_, hstart _ rfl⟩,
      fun hp => congrArg Host.Outcome.next ?_, fun hp => congrArg Host.Outcome.next ?_⟩
    all_goals simp [onHub, hp]
  · obtain ⟨hstep, hlock, hby⟩ := rootStarts_root d s.hub
    exact ⟨{ s with hub := rootStarts d s.hub }, next_act_of_no_writes (f := pllLock d 0) (rootLock_step1 hp hd hs hu hl s.lp5x),
      rfl, rfl, hstep, hlock, hby⟩
  · intro g hr x q
    have hq : q = reported d (bootDie d s.hub) := rfl
    have hu : upDies q = upDies s.hub := upDies_reported d s.hub
    have hlast (ha : ∀ e ∈ upDies s.hub, q.pkg.reported.testBit e = true) :
        exec (.dieReport d) s = .next (act (fun m _ => holdReports m q) s) := by
      refine congrArg Host.Outcome.next ?_
      rw [act, dieReport_last hp hd hs h5 hr s.lp5x ha]
      rfl
    refine ⟨fun ⟨e, he, hm⟩ => next_act_of_no_writes (f := dieReport d) (dieReport_missing hp hd hs h5 hr s.lp5x he hm),
      fun ha => ⟨hlast ha, fun p hh hf => ?_⟩⟩
    have hall := holdReports_all (h := q) (by rw [hu, hh]) (by rwa [hu]) (by
      rw [hu]
      exact fun e he => (hf e he).1.trans (hf p (List.mem_of_head? hh)).1.symm) s.lp5x
    have hua : upDies (alignAll (namePrincipal p q)) = upDies s.hub := by
      rw [upDies_congr (h := namePrincipal p q) (by rw [(alignAll_keeps _).1]) (by rw [(alignAll_keeps _).1]),
        (namePrincipal_keeps p q).2.2, hu]
    obtain ⟨hpr, hud, hstep, hal⟩ := provisionAll_keeps (h := alignAll (namePrincipal p q)) (by
      rw [hua]
      exact fun e he => (hf e he).2) s.lp5x
    refine ⟨_, hlast ha, rfl, ?_, ?_, fun e he => ⟨?_, ?_⟩⟩
    all_goals rw [act_hub, hall]
    · rw [hpr, (alignAll_keeps _).1]
      rfl
    · rw [hud, hua]
    · exact hstep e (by rwa [hua])
    · rw [hal]
      exact (alignAll_keeps _).2 e (by rwa [(namePrincipal_keeps p q).2.2, hu])
  · obtain ⟨hw, hph, hat, hst⟩ := packageReady_held hp h5 s.lp5x
    refine ⟨act packageReady s, rfl, ?_, rfl, hph, hat, hst⟩
    rw [act_lp5x, hw]
    rfl
  · have hc : (s.hub.pkg.phase != .starting) = true := by simpa using hp
    refine ⟨next_act_of_no_writes (f := dieReport d) ?_, next_act_of_no_writes (f := packageReady) ?_⟩
    · simp [dieReport, hc]
    · simp [packageReady, hc]

end Sys2Proof.Machine
end

section
/-!
The PCIe resets on a context table that lists a slot twice (18 R472; 21 R525): the functions' open contexts are found entry by entry, while
a slot's state is that of its first entry.
-/

namespace Sys2Proof.Machine

/-- Slot 0 of function 15, listed twice: CLOSED where it is read, OPEN in the entry behind. -/
def hubTwice : Hub := { ctxs := [(0, { state := .closed, fn := 15 }), (0, { state := .opened })] }

theorem closed_hubTwice : (getCtx hubTwice 0).state = .closed := rfl

theorem openOf_hubTwice : openOf hubTwice 15 = [0] := rfl

/-- The reset of die 0's port finds the second entry, and closes the slot that was not open. -/
theorem closing_portReset_hubTwice : (getCtx (portReset 0 [] hubTwice).1 0).state = .closing := rfl

/-- Refutes O57: a hot reset of die 0 makes the CLOSED slot 0 of `hubTwice` CLOSING, because the table lists it a second time as OPEN. -/
theorem not_resetsAndSnapshot : ¬ Obligations.ResetsAndSnapshot := by
  unfold Obligations.ResetsAndSnapshot
  rintro ⟨-, -, -, hpcie, -⟩
  obtain ⟨-, -, u, hu, -, -, -, hothers, -⟩ := hpcie 0 { pending := [], lp5x := [], hub := hubTwice }
  have hstate : (getCtx u.hub 0).state = .closing := by
    rw [← Host.Outcome.next.inj hu]
    exact closing_portReset_hubTwice
  have hsame := hothers 0 fun hopen => by
    rw [closed_hubTwice] at hopen
    exact absurd hopen.1 (by decide)
  rw [hstate, closed_hubTwice] at hsame
  exact absurd hsame (by decide)

end Sys2Proof.Machine
end

section
/-!
The key area of an Attic: what a field holds after a write of it (19 R479, R483; log entry 91).
-/

namespace Sys2Proof.Machine

/-! ### Headers -/

theorem revBits_lt (w v : Nat) : revBits w v < 2 ^ w := by
  induction w with
  | zero => simp [revBits]
  | succ w ih =>
    have hs : ((List.range w).map fun i => b2n (bit v i) * 2 ^ (w + 1 - 1 - i)).sum = 2 * revBits w v := by
      rw [revBits, ← List.sum_map_mul_left]
      refine congrArg List.sum (List.map_congr_left fun i hi => ?_)
      obtain ⟨k, rfl⟩ := Nat.exists_eq_add_of_lt (List.mem_range.mp hi)
      rw [show i + k + 1 + 1 - 1 - i = k + 1 by omega, show i + k + 1 - 1 - i = k by omega, pow_succ]
      ring
    have hb : b2n (bit v w) ≤ 1 := by cases bit v w <;> decide
    have hstep : revBits (w + 1) v = 2 * revBits w v + b2n (bit v w) := by
      rw [← hs, revBits, List.range_succ, List.map_append, List.sum_append]
      simp
    rw [hstep, pow_succ]
    omega

theorem crcOut_lt (w : Nat) (xorout : Bool) (r : Nat) : crcOut w true xorout r < 2 ^ w := by
  have hr := revBits_lt w r
  cases xorout with
  | true => exact Nat.xor_lt_two_pow hr (Nat.sub_lt (Nat.two_pow_pos w) Nat.one_pos)
  | false => exact hr

theorem crc32_lt (b : Bytes) : crc32 b < 2 ^ 32 := by
  rw [crc32]
  exact crcOut_lt 32 true _

theorem keyHeader_type {t : Nat} (ht : t < 256) (seq v : Nat) : keyHeader t seq v % 256 = t := by
  unfold keyHeader
  extract_lets low
  generalize crc32 _ = c
  omega

section
variable {t seq : Nat} (ht : t < 256) (hs : seq < 65536) (v : Nat)
include ht hs

theorem keyHeader_lt : keyHeader t seq v < 2 ^ 64 := by
  unfold keyHeader
  extract_lets low
  have hc := crc32_lt (leBytes 4 low ++ leBytes 8 v)
  generalize crc32 _ = c at hc ⊢
  omega

theorem keyHeader_seq : bits (keyHeader t seq v) 16 16 = seq := by
  unfold keyHeader bits
  extract_lets low
  generalize crc32 _ = c
  omega

/-- Both words of a copy make it valid. -/
theorem keyCopy_of_words {a : Atc} {d k : Nat} (hv : v < 2 ^ 64)
    (hh : a.words.find (keyWord t k) = some (BitVec.ofNat 64 (keyHeader t seq v)))
    (hw : a.words.find (keyWord t k + 1) = some (BitVec.ofNat 64 v)) : keyCopy a d t k = some (seq, v) := by
  have hh' : (atcWord a d (keyWord t k)).toNat = keyHeader t seq v := by
    rw [atcWord, hh, Option.getD_some, BitVec.toNat_ofNat, Nat.mod_eq_of_lt (keyHeader_lt ht hs v)]
  have hw' : (atcWord a d (keyWord t k + 1)).toNat = v := by
    rw [atcWord, hw, Option.getD_some, BitVec.toNat_ofNat, Nat.mod_eq_of_lt hv]
  simp [keyCopy, hh', hw', keyHeader_type ht, keyHeader_seq ht hs v]

end

theorem keyCopy_congr {a b : Atc} {t k : Nat} (d : Nat) (h0 : a.words.find (keyWord t k) = b.words.find (keyWord t k))
    (h1 : a.words.find (keyWord t k + 1) = b.words.find (keyWord t k + 1)) : keyCopy a d t k = keyCopy b d t k := by
  unfold keyCopy atcWord
  rw [h0, h1]

/-! ### Writing a copy -/

/-- An Attic but for its words and the counter of retries. -/
def Atc.aside (a : Atc) : Atc := { a with words := [], retries := 0 }

/-- The attempts touch the copy's two words, and after one that succeeds these hold the header and the value. -/
theorem tryKey_spec (n ix t k seq v : Nat) (a : Atc) :
    (tryKey n ix t k seq v a).1.aside = a.aside ∧
      (∀ w, w ≠ keyWord t k → w ≠ keyWord t k + 1 → (tryKey n ix t k seq v a).1.words.find w = a.words.find w) ∧
      ((tryKey n ix t k seq v a).2.1 = true →
        (tryKey n ix t k seq v a).1.words.find (keyWord t k) = some (BitVec.ofNat 64 (keyHeader t seq v)) ∧
        (tryKey n ix t k seq v a).1.words.find (keyWord t k + 1) = some (BitVec.ofNat 64 v)) := by
  induction n generalizing ix a with
  | zero => exact ⟨rfl, fun _ _ _ => rfl, fun h => absurd h Bool.false_ne_true⟩
  | succ n ih =>
    unfold tryKey
    extract_lets value junk
    split
    · refine ⟨rfl, fun w h0 h1 => ?_, fun _ => ⟨Tab.find_set_same _ _ _, ?_⟩⟩
      · rw [Tab.find_set_ne _ _ _ _ h0, Tab.find_set_ne _ _ _ _ h1]
      · rw [Tab.find_set_ne _ _ _ _ (Nat.succ_ne_self _), Tab.find_set_same]
    · obtain ⟨haside, hother, hok⟩ := ih (ix + 3) { a with
        words := if Config.freeBit (ix + 1) then a.words.set (keyWord t k + 1) junk
          else value.set (keyWord t k) (if junk.toNat % 256 = t then junk ^^^ 1 else junk)
        retries := satInc 255 a.retries }
      refine ⟨haside, fun w h0 h1 => (hother w h0 h1).trans ?_, hok⟩
      dsimp only
      split
      · rw [Tab.find_set_ne _ _ _ _ h1]
      · rw [Tab.find_set_ne _ _ _ _ h0, Tab.find_set_ne _ _ _ _ h1]

section
variable {t v : Nat} (ht : t < 256) (hv : v < 2 ^ 64) (ix d : Nat) (a : Atc)

theorem putKey_aside (ix d t v : Nat) (a : Atc) : (putKey ix d t v a).1.aside = a.aside := by
  unfold putKey
  split
  · exact (tryKey_spec _ _ _ _ _ _ a).1
  · exact (tryKey_spec _ _ _ _ _ _ a).1

/-- A copy that is written leaves the other. -/
theorem keyCopy_tryKey_ne {k j : Nat} (hk : k = 0 ∧ j = 1 ∨ k = 1 ∧ j = 0) (n seq : Nat) :
    keyCopy (tryKey n ix t k seq v a).1 d t j = keyCopy a d t j := by
  obtain ⟨-, hother, -⟩ := tryKey_spec n ix t k seq v a
  refine keyCopy_congr d (hother _ ?_ ?_) (hother _ ?_ ?_) <;> unfold keyWord <;> omega

theorem seqLater_succ (n : Nat) : seqLater ((n + 1) % 65536) n = true ∧ seqLater n ((n + 1) % 65536) = false := by
  simp only [seqLater, Bool.and_eq_true, Bool.and_eq_false_iff, decide_eq_true_eq, decide_eq_false_iff_not]
  omega

/-- The current copy of a field is one of the two, or there is none. -/
theorem keyField_cases (a : Atc) (d t : Nat) : (keyField a d t = none ∧ keyCopy a d t 1 = none) ∨
    (∃ x, keyField a d t = some (0, x) ∧ keyCopy a d t 0 = some x) ∨ ∃ y, keyField a d t = some (1, y) ∧ keyCopy a d t 1 = some y := by
  unfold keyField
  cases keyCopy a d t 0 <;> cases keyCopy a d t 1
  case none.none => exact .inl ⟨rfl, rfl⟩
  case none.some y => exact .inr (.inr ⟨y, rfl, rfl⟩)
  case some.none x => exact .inr (.inl ⟨x, rfl, rfl⟩)
  case some.some x y =>
    by_cases hl : seqLater y.1 x.1 = true
    · exact .inr (.inr ⟨y, if_pos hl, rfl⟩)
    · exact .inr (.inl ⟨x, if_neg hl, rfl⟩)

include ht hv in
/-- A field written without failure has the value. -/
theorem keyField_putKey (hok : (putKey ix d t v a).2.1 = true) :
    ∃ k seq, keyField (putKey ix d t v a).1 d t = some (k, seq, v) := by
  have hcopy {k seq : Nat} (hs : seq < 65536) (h : (tryKey 3 ix t k seq v a).2.1 = true) :
      keyCopy (tryKey 3 ix t k seq v a).1 d t k = some (seq, v) := by
    obtain ⟨h0, h1⟩ := (tryKey_spec 3 ix t k seq v a).2.2 h
    exact keyCopy_of_words ht hs v hv h0 h1
  rcases keyField_cases a d t with ⟨hf, hc⟩ | ⟨x, hf, hc⟩ | ⟨y, hf, hc⟩ <;> simp only [putKey, hf] at hok ⊢
  · have hnew := hcopy (by decide) hok
    have hold := (keyCopy_tryKey_ne ix d a (t := t) (v := v) (.inl ⟨rfl, rfl⟩) 3 1).trans hc
    exact ⟨0, 1, by simp only [keyField, hnew, hold]⟩
  · have hnew := hcopy (Nat.mod_lt _ (by decide)) hok
    have hold := (keyCopy_tryKey_ne ix d a (t := t) (v := v) (.inr ⟨rfl, rfl⟩) 3 ((x.1 + 1) % 65536)).trans hc
    exact ⟨1, (x.1 + 1) % 65536, by simp [keyField, hnew, hold, (seqLater_succ _).1]⟩
  · have hnew : keyCopy (tryKey 3 ix t 0 ((y.1 + 1) % 65536) v a).1 d t 0 = _ := hcopy (Nat.mod_lt _ (by decide)) hok
    have hold := (keyCopy_tryKey_ne ix d a (t := t) (v := v) (.inl ⟨rfl, rfl⟩) 3 ((y.1 + 1) % 65536)).trans hc
    exact ⟨0, (y.1 + 1) % 65536, by simp [keyField, hnew, hold, (seqLater_succ _).2]⟩

end

theorem atc_writeKey (d t v : Nat) (h : Hub) : (getDie (writeKey d t v h).1 d).atc = (putKey h.freeIx d t v (getDie h d).atc).1 :=
  congrArg Die.atc (getDie_updDie h d fun x => { x with atc := (putKey h.freeIx d t v (getDie h d).atc).1 })

theorem aside_writeKey (d t v : Nat) (h : Hub) : (getDie (writeKey d t v h).1 d).atc.aside = (getDie h d).atc.aside := by
  rw [atc_writeKey]
  exact putKey_aside _ d t v _

/-- A field of a die's Attic that is written without failure has the value (19 R479). -/
theorem keyField_writeKey {t v : Nat} (ht : t < 256) (hv : v < 2 ^ 64) {d : Nat} {h : Hub} (hok : (writeKey d t v h).2 = true) :
    ∃ k seq, keyField (getDie (writeKey d t v h).1 d).atc d t = some (k, seq, v) := by
  rw [atc_writeKey]
  exact keyField_putKey ht hv _ d _ hok

theorem getDie_writeKey_ne {d k : Nat} (hk : k ≠ d) (t v : Nat) (h : Hub) : getDie (writeKey d t v h).1 k = getDie h k :=
  getDie_updDie_ne h d k (fun x => { x with atc := (putKey h.freeIx d t v (getDie h d).atc).1 }) hk

end Sys2Proof.Machine
end

section
/-!
Firmware images, the running slot, and the ATC_ commands (19 R479-R495; log entries 21, 23, 91).
-/

namespace Sys2Proof.Machine

/-! ### Bytes of a number -/

theorem leNat_leBytes (n v : Nat) : leNat (leBytes n v) = v % 256 ^ n := by
  induction n generalizing v with
  | zero => simp [leBytes, leNat, Nat.mod_one]
  | succ n ih =>
    rw [leBytes, leNat, ih, BitVec.toNat_ofNat, show 256 ^ (n + 1) = 256 * 256 ^ n from pow_succ' 256 n, Nat.mod_mul]

theorem leBytes_zero (n : Nat) : leBytes n 0 = List.replicate n 0 := by
  induction n with
  | zero => rfl
  | succ n ih =>
    rw [leBytes, Nat.zero_div, ih]
    rfl

/-! ### Slots (19 R487, R488) -/

theorem Tab.find_append {α : Type} (t u : Tab α) (i : Nat) : Tab.find (t ++ u) i = (t.find i).or (Tab.find u i) := by
  induction t with
  | nil => rfl
  | cons e r ih =>
    obtain ⟨k, v⟩ := e
    by_cases hk : k = i
    · simp [Tab.find, hk]
    · simpa [Tab.find, hk] using ih

theorem Tab.find_filter_key {α : Type} (p : Nat → Bool) (t : Tab α) (i : Nat) :
    Tab.find (t.filter fun e => p e.1) i = if p i then t.find i else none := by
  induction t with
  | nil => simp [Tab.find]
  | cons e r ih =>
    obtain ⟨k, v⟩ := e
    by_cases hk : k = i
    · subst hk
      cases hp : p k <;> simp [Tab.find, hp, ih]
    · cases hp : p k <;> simp [Tab.find, hp, hk, ih]

/-- Outside a run of words the table is as it was. -/
theorem find_putWords {w x : Nat} {vs : List (BitVec 64)} (hx : x < w ∨ w + vs.length ≤ x) (t : Tab (BitVec 64)) :
    (putWords w vs t).find x = t.find x := by
  have hn : Tab.find (vs.zipIdx.map fun v => (w + v.2, v.1)) x = none := by
    refine Tab.find_eq_none_of_not_mem fun hm => ?_
    simp only [List.map_map, List.mem_map, Function.comp_apply] at hm
    obtain ⟨⟨v, i⟩, hi, rfl⟩ := hm
    have := (List.mem_zipIdx hi).2.1
    omega
  unfold putWords
  rw [Tab.find_append, Tab.find_append, hn, Option.or_none, Tab.find_filter_key (fun k => decide (k < w)),
    Tab.find_filter_key (fun k => decide (k ≥ w + vs.length))]
  rcases hx with hx | hx
  · have hge : ¬x ≥ w + vs.length := by omega
    simp [hx, hge]
  · have hlt : ¬x < w := by omega
    simp [hx, hlt]

theorem length_words64_le (n : Nat) (b : Bytes) : (words64 n b).length ≤ n := by
  induction n generalizing b with
  | zero => exact Nat.le_refl 0
  | succ n ih =>
    unfold words64
    split
    · exact Nat.zero_le _
    · exact Nat.succ_le_succ (ih _)

/-- The slot that runs is in `b` as it is in `a`. -/
def Atc.RunsAs (b a : Atc) : Prop :=
  b.image = a.image ∧ slotImg b (1 - idleSlot a) = slotImg a (1 - idleSlot a) ∧
    ∀ k, k < 90112 → b.words.get (slotBase (1 - idleSlot a) + k) 0 = a.words.get (slotBase (1 - idleSlot a) + k) 0

theorem Atc.RunsAs.refl (a : Atc) : a.RunsAs a := ⟨rfl, rfl, fun _ _ => rfl⟩

theorem Atc.RunsAs.trans {a b c : Atc} (hcb : c.RunsAs b) (hba : b.RunsAs a) : c.RunsAs a := by
  obtain ⟨hi, hs, hw⟩ := hba
  obtain ⟨hi', hs', hw'⟩ := hcb
  have he : idleSlot b = idleSlot a := by rw [idleSlot, idleSlot, hi]
  rw [he] at hs' hw'
  exact ⟨hi'.trans hi, hs'.trans hs, fun k hk => (hw' k hk).trans (hw k hk)⟩

theorem idleSlot_cases (a : Atc) : idleSlot a = 0 ∨ idleSlot a = 1 := by
  unfold idleSlot
  omega

/-- A word of the running slot is none of the idle slot. -/
theorem slots_apart (a : Atc) {k : Nat} (hk : k < 90112) :
    slotBase (1 - idleSlot a) + k < slotBase (idleSlot a) ∨ slotBase (idleSlot a) + 90112 ≤ slotBase (1 - idleSlot a) + k := by
  have h0 : slotBase 0 = 0x2000 := rfl
  have h1 : slotBase 1 = 0x18000 := rfl
  rcases idleSlot_cases a with hi | hi <;> rw [hi]
  · rw [h0, h1]
    omega
  · rw [h0, h1]
    omega

theorem slotImg_setSlotImg_idle (a b : Atc) (v : Option (Nat × Nat)) :
    slotImg (setSlotImg (idleSlot a) v b) (1 - idleSlot a) = slotImg b (1 - idleSlot a) := by
  rcases idleSlot_cases a with hi | hi <;> rw [hi] <;> rfl

theorem setSlotImg_fields (s : Nat) (v : Option (Nat × Nat)) (b : Atc) :
    (setSlotImg s v b).image = b.image ∧ (setSlotImg s v b).words = b.words := by
  unfold setSlotImg
  split <;> exact ⟨rfl, rfl⟩

/-- The idle slot's image and words may change. -/
theorem runsAs_setSlotImg {a b : Atc} (hb : b.RunsAs a) (v : Option (Nat × Nat)) : (setSlotImg (idleSlot a) v b).RunsAs a := by
  obtain ⟨hi, hs, hw⟩ := hb
  obtain ⟨hi', hw'⟩ := setSlotImg_fields (idleSlot a) v b
  exact ⟨hi'.trans hi, (slotImg_setSlotImg_idle a b v).trans hs, by rwa [hw']⟩

theorem runsAs_set {a b : Atc} (hb : b.RunsAs a) {j : Nat} (hj : j < 90112) (v : BitVec 64) :
    ({ b with words := b.words.set (slotBase (idleSlot a) + j) v } : Atc).RunsAs a := by
  obtain ⟨hi, hs, hw⟩ := hb
  refine ⟨hi, hs, fun k hk => (Tab.get_set_ne _ _ _ _ _ ?_).trans (hw k hk)⟩
  have := slots_apart a hk
  omega

theorem runsAs_putWords (a : Atc) {vs : List (BitVec 64)} (hv : vs.length ≤ 90112) :
    ({ a with words := putWords (slotBase (idleSlot a)) vs a.words } : Atc).RunsAs a := by
  refine ⟨rfl, rfl, fun k hk => ?_⟩
  have hx : slotBase (1 - idleSlot a) + k < slotBase (idleSlot a) ∨ slotBase (idleSlot a) + vs.length ≤ slotBase (1 - idleSlot a) + k := by
    have := slots_apart a hk
    omega
  simp only [Tab.get, find_putWords hx]

/-- Staging an image on a die leaves every die's running slot. -/
theorem runsAs_stageOn (b : Bytes) (r : Hub × Bool) (d k : Nat) : (getDie (stageOn b r d).1 k).atc.RunsAs (getDie r.1 k).atc := by
  unfold stageOn
  dsimp only
  by_cases hk : k = d
  · subst hk
    rw [updAtc, getDie_updDie]
    have hv := length_words64_le 90112 b
    have hp := runsAs_putWords (getDie r.1 k).atc hv
    refine runsAs_setSlotImg ?_ _
    split
    · have hj (jx : Nat) : 16 + jx % max 1 ((words64 90112 b).length - 16) < 90112 := by
        have := Nat.mod_lt jx (show 0 < max 1 ((words64 90112 b).length - 16) by omega)
        omega
      rw [Nat.add_assoc]
      exact runsAs_set hp (hj _) _
    · exact hp
  · rw [updAtc, getDie_updDie_ne _ _ _ _ hk]
    exact .refl _

theorem runsAs_unstage (h : Hub) (k : Nat) : (getDie (unstage h) k).atc.RunsAs (getDie h k).atc := by
  unfold unstage
  refine List.foldlRecOn (upDies h) _ (motive := fun g => (getDie g k).atc.RunsAs (getDie h k).atc) (.refl _) fun g hg d _ => .trans ?_ hg
  by_cases hk : k = d
  · subst hk
    rw [updAtc, getDie_updDie]
    exact runsAs_setSlotImg (runsAs_set (.refl _) (j := 0) (by decide) _) none
  · rw [updAtc, getDie_updDie_ne _ _ _ _ hk]
    exact .refl _

/-! ### The commands -/

/-- Some step of a run over dies gives each of them a property, where the run succeeds. -/
theorem foldl_succeeds {P : Nat → Hub → Prop} {f : Hub × Bool → Nat → Hub × Bool}
    (hf : ∀ r d, (f r d).2 = true → r.2 = true ∧ P d (f r d).1)
    (hk : ∀ r d k, k ≠ d → P k r.1 → P k (f r d).1) {l : List Nat} {r : Hub × Bool} (hr : (l.foldl f r).2 = true) {k : Nat} (hl : k ∈ l) :
    P k (l.foldl f r).1 := by
  induction l using List.reverseRecOn with
  | nil => exact absurd hl List.not_mem_nil
  | append_singleton l d ih =>
    rw [List.foldl_append] at hr ⊢
    obtain ⟨hprev, hd⟩ := hf _ d hr
    by_cases hkd : k = d
    · rw [hkd]
      exact hd
    · refine hk _ d k hkd (ih hprev ?_)
      simpa [hkd] using hl

/-- ATC_FW_SELECT on a die. -/
def selectOn (v : Nat) (r : Hub × Bool) (d : Nat) : Hub × Bool := ((writeKey d 0xF2 v r.1).1, (writeKey d 0xF2 v r.1).2 && r.2)

theorem selectWord_selectOn {v : Nat} (hv : v ≤ 1) {l : List Nat} {h : Hub} (hr : (l.foldl (selectOn v) (h, true)).2 = true)
    {d : Nat} (hd : d ∈ l) : selectWord (getDie (l.foldl (selectOn v) (h, true)).1 d).atc d = v := by
  refine foldl_succeeds (P := fun d g => selectWord (getDie g d).atc d = v) (fun r d hok => ?_) (fun r d k hk hP => ?_) hr hd
  · obtain ⟨hw, hprev⟩ := (Bool.and_eq_true _ _).mp hok
    obtain ⟨k, seq, hf⟩ := keyField_writeKey (by decide) (by omega) hw
    refine ⟨hprev, ?_⟩
    rw [selectOn, selectWord, hf]
    exact Nat.mod_eq_of_lt (Nat.lt_succ_of_le hv)
  · rw [selectOn, getDie_writeKey_ne hk]
    exact hP

/-- SVN_MIN of a die is high enough, or is written. -/
theorem raiseSvn_cases (r : Hub × Bool) (d : Nat) :
    (raiseSvn r d = r ∧ ∃ m, svnMin (getDie r.1 d).atc d = some m ∧ (getDie r.1 d).atc.svn ≤ m) ∨
      raiseSvn r d = ((writeKey d 0xF3 (getDie r.1 d).atc.svn r.1).1, (writeKey d 0xF3 (getDie r.1 d).atc.svn r.1).2 && r.2) := by
  unfold raiseSvn
  dsimp only
  cases svnMin (getDie r.1 d).atc d with
  | none => exact .inr (if_neg Bool.false_ne_true)
  | some m =>
    by_cases hm : (getDie r.1 d).atc.svn ≤ m
    · exact .inl ⟨if_pos (decide_eq_true hm), m, rfl, hm⟩
    · exact .inr (if_neg (by simpa using hm))

theorem svn_raiseSvn (r : Hub × Bool) (d k : Nat) : (getDie (raiseSvn r d).1 k).atc.svn = (getDie r.1 k).atc.svn := by
  rcases raiseSvn_cases r d with ⟨he, -⟩ | he <;> rw [he]
  by_cases hk : k = d
  · rw [hk]
    exact (congrArg Atc.svn (aside_writeKey d 0xF3 (getDie r.1 d).atc.svn r.1) :)
  · rw [getDie_writeKey_ne hk]

/-- A die's SVN_MIN is not below the SVN that runs, where it is of 32 bits. -/
def SvnRaised (d : Nat) (g : Hub) : Prop :=
  (getDie g d).atc.svn < 2 ^ 32 → ∃ m, svnMin (getDie g d).atc d = some m ∧ (getDie g d).atc.svn ≤ m

theorem svnRaised_foldl {l : List Nat} {h : Hub} (hr : (l.foldl raiseSvn (h, true)).2 = true) {d : Nat} (hd : d ∈ l) :
    SvnRaised d (l.foldl raiseSvn (h, true)).1 := by
  refine foldl_succeeds (fun r d hok => ?_) (fun r d k hk hP => ?_) hr hd
  · have hsvn := svn_raiseSvn r d d
    rcases raiseSvn_cases r d with ⟨he, hm⟩ | he
    · rw [he] at hok ⊢
      exact ⟨hok, fun _ => hm⟩
    · rw [he] at hok hsvn ⊢
      obtain ⟨hw, hprev⟩ := (Bool.and_eq_true _ _).mp hok
      refine ⟨hprev, fun hlt => ?_⟩
      rw [hsvn] at hlt ⊢
      obtain ⟨k, seq, hf⟩ := keyField_writeKey (by decide) (hlt.trans (by decide)) hw
      exact ⟨_, by rw [svnMin, hf, Option.map_some], (Nat.mod_eq_of_lt hlt).ge⟩
  · rcases raiseSvn_cases r d with ⟨he, -⟩ | he <;> rw [he]
    · exact hP
    · rw [SvnRaised, getDie_writeKey_ne hk]
      exact hP

theorem svnMin_raiseSvn {l : List Nat} {h : Hub} (hr : (l.foldl raiseSvn (h, true)).2 = true) {d : Nat} (hd : d ∈ l)
    (hs : (getDie h d).atc.svn < 2 ^ 32) :
    ∃ m, svnMin (getDie (l.foldl raiseSvn (h, true)).1 d).atc d = some m ∧ (getDie h d).atc.svn ≤ m := by
  have hsvn : (getDie (l.foldl raiseSvn (h, true)).1 d).atc.svn = (getDie h d).atc.svn :=
    foldl_keeps (fun r : Hub × Bool => (getDie r.1 d).atc.svn) (fun r e => svn_raiseSvn r e d) l (h, true)
  have hP := svnRaised_foldl hr hd
  rw [SvnRaised, hsvn] at hP
  exact hP hs

end Sys2Proof.Machine
end

section
/-!
The ATC_ commands and registers (19 R479, R488-R495; log entries 21, 23, 91).
-/

namespace Sys2Proof.Machine

/-! ### ATC_FW_STAGE -/

theorem stage_headChecks (c : Cmd) (h : Hub) : ∀ k ∈ headChecks Machine.atcFwStage c h, k.st ≠ 0x0308 := by
  simp [headChecks, atcFwStage]

/-- Is the image's length allowed? -/
def stageLen (c : Cmd) : Bool := 192 ≤ arg32 c 24 && decide (arg32 c 24 ≤ 720896)

/-- Of the command's own conditions, the signature alone has status 0x0308. -/
theorem stage_checks {c : Cmd} {m : List Host.Cell} {h : Hub} {k : Ck} (hm : k ∈ Machine.atcFwStage.checks c m h) (hst : k.st = 0x0308) :
    k = ck 0x0308 255 (stageLen c && !imgSigned (bufBytes c (arg32 c 24))) := by
  simp only [atcFwStage, bufCk, ck, List.mem_cons, List.not_mem_nil, or_false] at hm
  rcases hm with rfl | rfl | rfl | rfl | rfl
  case inr.inr.inr.inl => rfl
  all_goals exact absurd hst (by simp)

section
variable {c : Cmd} {s : State} (hr : ∀ k ∈ refusals Machine.atcFwStage c s, k.st ≠ 0x0308 → k.bad = false)
include hr

theorem stage_len : stageLen c = true := by
  have h := hr (ck 0x0201 24 !stageLen c) (List.mem_append_right _ (by simp [atcFwStage, stageLen])) (by simp [ck])
  simpa [ck] using h

/-- What fails is the signature. -/
theorem stage_bad {k : Ck} (hk : k ∈ refusals Machine.atcFwStage c s) (hb : k.bad = true) :
    k = ck 0x0308 255 (stageLen c && !imgSigned (bufBytes c (arg32 c 24))) := by
  have hst : k.st = 0x0308 := Decidable.byContradiction fun hne => by
    rw [hr k hk hne] at hb
    exact Bool.false_ne_true hb
  rcases List.mem_append.mp hk with hh | hc
  · exact absurd hst (stage_headChecks c _ k hh)
  · exact stage_checks hc hst

/-- Where no other condition refuses an image, the signature alone does. -/
theorem stage_refused (hs : imgSigned (bufBytes c (arg32 c 24)) = false) :
    firstFail Machine.atcFwStage.listed (refusals Machine.atcFwStage c s) = some (ck 0x0308 255 true) := by
  have hl := stage_len hr
  have hm : ck 0x0308 255 (stageLen c && !imgSigned (bufBytes c (arg32 c 24))) ∈ refusals Machine.atcFwStage c s :=
    List.mem_append_right _ (by simp [atcFwStage, stageLen])
  cases hk : firstFail Machine.atcFwStage.listed (refusals Machine.atcFwStage c s) with
  | none =>
    have hn := (firstFail_eq_none _ _).mp hk _ hm
    simp [ck, hl, hs] at hn
  | some k =>
    obtain ⟨hmem, hbad⟩ := firstFail_mem _ _ k hk
    rw [stage_bad hr hmem hbad, hl, hs]
    rfl

/-- A signed image is accepted. -/
theorem stage_accepts (hf : Fetches Machine.atcFwStage c s) (hs : imgSigned (bufBytes c (arg32 c 24)) = true) :
    Accepts Machine.atcFwStage c s := by
  refine ⟨hf, fun k hk => Bool.eq_false_iff.mpr fun hb => ?_⟩
  rw [stage_bad hr hk hb, hs] at hb
  simp [ck] at hb

end

/-- The hub as the images have been written, and whether no write failed. -/
def staged (c : Cmd) (h : Hub) : Hub × Bool := (upDies h).foldl (stageOn (bufBytes c (arg32 c 24))) (h, true)

theorem runsAs_staged (c : Cmd) (h : Hub) (k : Nat) : (getDie (staged c h).1 k).atc.RunsAs (getDie h k).atc :=
  List.foldlRecOn (upDies h) _ (motive := fun r : Hub × Bool => (getDie r.1 k).atc.RunsAs (getDie h k).atc) (.refl _)
    fun r hr d _ => (runsAs_stageOn _ r d k).trans hr

theorem dies_fetched (c : Nat) (h : Hub) : (fetched c h).dies = h.dies := rfl

theorem runsAs_complete {p : Pend} {st off r0 r1 : Nat} {g : Hub} {k : Nat} {a : Atc} (hg : (getDie g k).atc.RunsAs a) :
    (getDie (complete p st off r0 r1 g) k).atc.RunsAs a := by
  rwa [(keepsDies_complete p st off r0 r1 g).atc k]

theorem run_atcFwStage (c : Cmd) (p : Pend) (m : List Host.Cell) (h : Hub) : Machine.atcFwStage.run c p m h =
    if (staged c h).2 then okRes (staged c h).1 else failRes (unstage (staged c h).1) 0x0706 255 := rfl

theorem exec_atcFwStage {c : Cmd} {s : State} (hf : Fetches Machine.atcFwStage c s)
    (hr : ∀ k ∈ refusals Machine.atcFwStage c s, k.st ≠ 0x0308 → k.bad = false) :
    exec (.atcFwStage c) s = .next (
      if imgSigned (bufBytes c (arg32 c 24)) = false then
        { s with hub := complete (taken 0x0B01 c s.hub) 0x0308 255 0 0 (fetched c.ctx s.hub) }
      else if (staged c (fetched c.ctx s.hub)).2 then done 0x0B01 c 0 0 (staged c (fetched c.ctx s.hub)).1 s
      else { s with hub := complete (taken 0x0B01 c s.hub) 0x0706 255 0 0 (unstage (staged c (fetched c.ctx s.hub)).1) }) := by
  have he : exec (.atcFwStage c) s = .next (mail Machine.atcFwStage c s) := rfl
  rw [he]
  split
  next hs =>
    rw [mail_refused Machine.atcFwStage c s hf _ (stage_refused hr hs)]
    rfl
  next hs =>
    have ha := stage_accepts hr hf (by simpa using hs)
    split
    next hw => exact ha.next_done ((run_atcFwStage _ _ _ _).trans (if_pos hw))
    next hw => exact ha.next_failed ((run_atcFwStage _ _ _ _).trans (if_neg hw))

/-! ### ATC_QUERY -/

/-- FW_VERSION and SVN of a slot, where it is valid. -/
def queryImg (a : Atc) (d s : Nat) : Nat × Nat := if slotValid a d s then (slotImg a s).getD (0, 0) else (0, 0)

/-- The 64 bytes of ATC_QUERY (19 R495). -/
def queryBytes (h : Hub) (d : Nat) : Bytes :=
  let a := (getDie h d).atc
  leBytes 1 (a.image + 2 * selectWord a d) ++ leBytes 1 (b2n a.locked + 2 * b2n a.unlocked + 4 * b2n a.barred) ++
    leBytes 2 (atcFree h d) ++ leBytes 4 ((svnMin a d).getD 0) ++
    leBytes 4 (queryImg a d 0).1 ++ leBytes 4 (queryImg a d 0).2 ++ leBytes 4 (queryImg a d 1).1 ++ leBytes 4 (queryImg a d 1).2 ++
    leBytes 8 a.written ++ leBytes 32 0

theorem leBytes_drop {n k : Nat} (hk : n ≤ k) (v : Nat) : (leBytes n v).drop k = [] :=
  List.drop_eq_nil_of_le ((leBytes_length n v).le.trans hk)

theorem leBytes_take {n k : Nat} (hk : n ≤ k) (v : Nat) : (leBytes n v).take k = leBytes n v :=
  List.take_of_length_le ((leBytes_length n v).le.trans hk)

theorem queryImg_invalid {a : Atc} {d s : Nat} (hv : slotValid a d s = false) : queryImg a d s = (0, 0) := by simp [queryImg, hv]

theorem atcFree_lt (h : Hub) (d : Nat) : atcFree h d < 65536 := by
  unfold atcFree freeSlots
  split <;> omega

theorem svnMin_lt (a : Atc) (d : Nat) : (svnMin a d).getD 0 < 2 ^ 32 := by
  unfold svnMin
  cases keyField a d 0xF3 with
  | none => decide
  | some x => exact Nat.mod_lt _ (by decide)

theorem selectWord_le (a : Atc) (d : Nat) : selectWord a d ≤ 1 := by
  unfold selectWord
  split
  · exact Nat.zero_le 1
  · exact Nat.le_of_lt_succ (Nat.mod_lt _ (by decide))

section
variable (h : Hub) (d : Nat)

theorem queryBytes_length : (queryBytes h d).length = 64 := by simp [queryBytes, leBytes_length]

theorem queryBytes_image (hi : (getDie h d).atc.image < 2) :
    leNat ((queryBytes h d).take 1) = (getDie h d).atc.image + 2 * selectWord (getDie h d).atc d := by
  have := selectWord_le (getDie h d).atc d
  have ht : (queryBytes h d).take 1 = leBytes 1 ((getDie h d).atc.image + 2 * selectWord (getDie h d).atc d) := by
    simp [queryBytes, leBytes_length]
  rw [ht, leNat_leBytes]
  exact Nat.mod_eq_of_lt (by omega)

theorem queryBytes_flags : leNat (((queryBytes h d).drop 1).take 1) =
    b2n (getDie h d).atc.locked + 2 * b2n (getDie h d).atc.unlocked + 4 * b2n (getDie h d).atc.barred := by
  have hb (x : Bool) : b2n x ≤ 1 := by cases x <;> decide
  have h0 := hb (getDie h d).atc.locked
  have h1 := hb (getDie h d).atc.unlocked
  have h2 := hb (getDie h d).atc.barred
  have ht : ((queryBytes h d).drop 1).take 1 =
      leBytes 1 (b2n (getDie h d).atc.locked + 2 * b2n (getDie h d).atc.unlocked + 4 * b2n (getDie h d).atc.barred) := by
    simp [queryBytes, leBytes_length]
  rw [ht, leNat_leBytes]
  exact Nat.mod_eq_of_lt (by omega)

theorem queryBytes_free : leNat (((queryBytes h d).drop 2).take 2) = atcFree h d := by
  have ht : ((queryBytes h d).drop 2).take 2 = leBytes 2 (atcFree h d) := by simp [queryBytes, leBytes_length, List.drop_append, leBytes_drop]
  rw [ht, leNat_leBytes]
  exact Nat.mod_eq_of_lt (atcFree_lt h d)

theorem queryBytes_svn : leNat (((queryBytes h d).drop 4).take 4) = (svnMin (getDie h d).atc d).getD 0 := by
  have ht : ((queryBytes h d).drop 4).take 4 = leBytes 4 ((svnMin (getDie h d).atc d).getD 0) := by
    simp [queryBytes, leBytes_length, List.drop_append, leBytes_drop]
  rw [ht, leNat_leBytes]
  exact Nat.mod_eq_of_lt (svnMin_lt _ d)

theorem queryBytes_slotA (hv : slotValid (getDie h d).atc d 0 = false) : ((queryBytes h d).drop 8).take 8 = List.replicate 8 0 := by
  have ht : ((queryBytes h d).drop 8).take 8 = leBytes 4 (queryImg (getDie h d).atc d 0).1 ++ leBytes 4 (queryImg (getDie h d).atc d 0).2 := by
    simp [queryBytes, leBytes_length, List.drop_append, List.take_append, leBytes_drop, leBytes_take]
  rw [ht, queryImg_invalid hv]
  rfl

theorem queryBytes_slotB (hv : slotValid (getDie h d).atc d 1 = false) : ((queryBytes h d).drop 16).take 8 = List.replicate 8 0 := by
  have ht : ((queryBytes h d).drop 16).take 8 = leBytes 4 (queryImg (getDie h d).atc d 1).1 ++ leBytes 4 (queryImg (getDie h d).atc d 1).2 := by
    simp [queryBytes, leBytes_length, List.drop_append, List.take_append, leBytes_drop, leBytes_take]
  rw [ht, queryImg_invalid hv]
  rfl

theorem queryBytes_written : leNat (((queryBytes h d).drop 24).take 8) = (getDie h d).atc.written % 2 ^ 64 := by
  have ht : ((queryBytes h d).drop 24).take 8 = leBytes 8 (getDie h d).atc.written := by
    simp [queryBytes, leBytes_length, List.drop_append, leBytes_drop]
  rw [ht, leNat_leBytes]
  rfl

theorem queryBytes_rest : (queryBytes h d).drop 32 = List.replicate 32 0 := by
  have ht : (queryBytes h d).drop 32 = leBytes 32 0 := by simp [queryBytes, leBytes_length, List.drop_append, leBytes_drop]
  rw [ht, leBytes_zero]

end

/-! ### ATC_RAW_DONE (19 R491) -/

theorem reverify_fields (s ix : Nat) (a : Atc) : (reverify s ix a).words = a.words ∧ (reverify s ix a).busy = a.busy := by
  have hs (v : Option (Nat × Nat)) : (setSlotImg s v a).words = a.words ∧ (setSlotImg s v a).busy = a.busy := by
    unfold setSlotImg
    split <;> exact ⟨rfl, rfl⟩
  unfold reverify
  split
  · split
    · exact ⟨rfl, rfl⟩
    · exact hs none
  · exact hs _

/-- The Attic after a raw access. -/
def rawMade (a : Atc) (d ix : Nat) (r : RawAcc) : Atc :=
  if !r.write then { a with busy := none, data := rawRead a d r.addr ix }
  else match wordSlot r.addr with
    | none => { a with busy := none, words := a.words.set r.addr (BitVec.ofNat 64 r.data) }
    | some s => reverify s ix { a with busy := none, words := a.words.set r.addr (BitVec.ofNat 64 r.data) }

theorem atc_rawDone {d : Nat} {h : Hub} {r : RawAcc} (hb : (getDie h d).atc.busy = some r) :
    (getDie (rawDone d h) d).atc = rawMade (getDie h d).atc d h.freeIx r := by
  unfold rawDone
  rw [hb]
  dsimp only
  rw [(keepsDies_intEvent d 11 _).atc d, updAtc, getDie_updDie]
  unfold rawMade
  cases r.write with
  | false => rfl
  | true =>
    cases wordSlot r.addr with
    | none => rfl
    | some s => rfl

theorem rawMade_write {a : Atc} {d ix : Nat} {r : RawAcc} (hw : r.write = true) :
    (rawMade a d ix r).words = a.words.set r.addr (BitVec.ofNat 64 r.data) ∧ (rawMade a d ix r).busy = none := by
  unfold rawMade
  rw [hw]
  cases wordSlot r.addr with
  | none => exact ⟨rfl, rfl⟩
  | some s => exact reverify_fields s ix _

theorem rawMade_busy (a : Atc) (d ix : Nat) (r : RawAcc) : (rawMade a d ix r).busy = none := by
  cases hw : r.write with
  | false => simp [rawMade, hw]
  | true => exact (rawMade_write hw).2

theorem rawMade_word {a : Atc} {d ix : Nat} {r : RawAcc} (hw : r.write = true) (w : Nat) :
    atcWord (rawMade a d ix r) d w = if w = r.addr then BitVec.ofNat 64 r.data else atcWord a d w := by
  rw [atcWord, (rawMade_write hw).1, Tab.find_set]
  split <;> rfl

/-! ### The ATC_ registers (19 R490-R492) -/

section
variable {fn d : Nat} {s : State} (ht : RegTakes s.hub fn d) (hrom : (getDie s.hub d).atc.inRom = false)
include ht

theorem atc_accessWakes : (getDie (accessWakes d fn s.hub) d).atc = (getDie s.hub d).atc := by
  obtain ⟨e, he⟩ := getDie_accessWakes (f := fn) ht.2.1 d
  rw [he]

include hrom

theorem atcAccess_of_takes (off v : Nat) : atcAccess fn d off v s.hub = atcWrite32 (some fn) d off v (accessWakes d fn s.hub) := by
  have hr : ¬romReaches s.hub fn d = true := by simp [romReaches, hrom]
  rw [atcAccess, if_neg hr, regGateHub_of_takes ht]

theorem rawAllowed_of_takes (w : Nat) : rawAllowed (getDie (accessWakes d fn s.hub) d).atc w false =
    !(getDie (accessWakes d fn s.hub) d).atc.locked := by
  rw [atc_accessWakes ht]
  simp [rawAllowed, hrom]

end

theorem bits_of_one {v : Nat} (h : v % 4 = 1) : bit v 0 = true ∧ bit v 1 = false := by
  simp only [bit, Nat.testBit_zero, Nat.testBit_succ, decide_eq_true_eq, decide_eq_false_iff_not]
  omega

theorem bits_of_two {v : Nat} (h : v % 4 = 2) : bit v 0 = false ∧ bit v 1 = true := by
  simp only [bit, Nat.testBit_zero, Nat.testBit_succ, decide_eq_true_eq, decide_eq_false_iff_not]
  omega

/-- ATC_CTRL.READ without WRITE. -/
theorem atcCtrl_read {v : Nat} (hv : v % 4 = 1) (fn d : Nat) (h : Hub) : atcCtrl (some fn) d v h = rawStart d false h := by
  obtain ⟨h0, h1⟩ := bits_of_one hv
  simp only [atcCtrl, h0, h1]
  rfl

theorem rawStart_idle {d : Nat} {h : Hub} (hb : (getDie h d).atc.busy = none) (write : Bool) : rawStart d write h =
    updAtc h d fun a => { a with busy := some { write := write, addr := a.addr, data := a.data } } := by
  have hn : ¬(getDie h d).atc.busy.isSome = true := by simp [hb]
  rw [rawStart, if_neg hn]

theorem rawStart_busy {d : Nat} {h : Hub} (hb : (getDie h d).atc.busy.isSome = true) (write : Bool) : rawStart d write h = atcIgnore d h :=
  if_pos hb

/-- ATC_CTRL.WRITE without READ, while unlocked and while locked. -/
theorem atcCtrl_write {v : Nat} (hv : v % 4 = 2) (fn : Nat) {d : Nat} {h : Hub}
    (ha : rawAllowed (getDie h d).atc (getDie h d).atc.addr false = true) : atcCtrl (some fn) d v h = rawStart d true h := by
  obtain ⟨h0, h1⟩ := bits_of_two hv
  simp [atcCtrl, h0, h1, ha]

theorem atcCtrl_locked {v : Nat} (hv : v % 4 = 2) (fn : Nat) {d : Nat} {h : Hub}
    (ha : rawAllowed (getDie h d).atc (getDie h d).atc.addr false = false) :
    atcCtrl (some fn) d v h = accessFault fn (d * 0x100000 + 0x700) (atcIgnore d h) := by
  obtain ⟨h0, h1⟩ := bits_of_two hv
  simp [atcCtrl, h0, h1, ha]

theorem dbgCtrl_challenge {v : Nat} (hv : v % 4 = 1) (d : Nat) (h : Hub) : dbgCtrl d v h = dbgChallenge d h := by
  obtain ⟨h0, h1⟩ := bits_of_one hv
  simp [dbgCtrl, h0, h1]

theorem dbgCtrl_submit {v : Nat} (hv : v % 4 = 2) (d : Nat) (h : Hub) : dbgCtrl d v h = dbgSubmit d h := by
  obtain ⟨h0, h1⟩ := bits_of_two hv
  simp [dbgCtrl, h0, h1]

theorem updAtc_congr (h : Hub) (d : Nat) {f g : Atc → Atc} (e : f (getDie h d).atc = g (getDie h d).atc) : updAtc h d f = updAtc h d g := by
  rw [updAtc, updAtc, updDie, updDie, e]

theorem atc_dbgSubmit_barred {d : Nat} {h : Hub} (hb : (getDie h d).atc.barred = true) :
    (getDie (dbgSubmit d h) d).atc = (getDie h d).atc := by
  rw [dbgSubmit, updAtc, getDie_updDie]
  exact if_pos hb

theorem dbgSubmit_open {d : Nat} {h : Hub} (hb : (getDie h d).atc.barred = false) : dbgSubmit d h = updAtc h d fun a =>
    if dbgOk a d then { a with unlocked := true, fresh := false }
    else { a with fresh := false, dbgFails := satInc 255 a.dbgFails, fails := a.fails + 1, barred := decide (a.fails ≥ 2) } := by
  refine updAtc_congr h d ?_
  exact if_neg (Bool.eq_false_iff.mp hb)

/-! ### ATC_LOCK (19 R490; 20 R506) -/

/-- What ATC_LOCK reports of a die: LOCKERR and LOCKOFF. -/
def lockOf (h : Hub) (d : Nat) : Nat × Nat := ((getDie h d).regs.lockErr, (getDie h d).regs.lockOff)

theorem lockOf_updDie (h : Hub) (d : Nat) {f : Die → Die} (hf : ∀ x, (f x).regs.lockErr = x.regs.lockErr ∧ (f x).regs.lockOff = x.regs.lockOff)
    (k : Nat) : lockOf (updDie h d f) k = lockOf h k :=
  getDie_updDie_keeps (fun x : Die => (x.regs.lockErr, x.regs.lockOff)) h d k fun x => Prod.ext (hf x).1 (hf x).2

theorem lockOf_intEvent (d n : Nat) (h : Hub) (k : Nat) : lockOf (intEvent d n h) k = lockOf h k := by
  unfold intEvent
  split
  · rfl
  · extract_lets g
    have hg : lockOf g k = lockOf h k := by
      refine lockOf_updDie h d (fun x => ?_) k
      exact ⟨rfl, rfl⟩
    split
    · unfold intRaise
      dsimp only
      split
      · refine (lockOf_updDie g d (fun x => ?_) k).trans hg
        exact ⟨rfl, rfl⟩
      · exact hg
    · exact hg

theorem lockOf_faultReport (d cause unit reporter detail : Nat) (h : Hub) (k : Nat) :
    lockOf (faultReport d cause unit reporter detail h) k = lockOf h k := by
  unfold faultReport
  split
  · rfl
  · extract_lets srv new g
    have hg : lockOf g k = lockOf h k := by
      simp only [g]
      split
      · exact lockOf_intEvent d 12 h k
      · rfl
    have hu {f : Die → Die} (hf : ∀ x, (f x).regs = x.regs) : lockOf (updDie g d f) k = lockOf h k :=
      (lockOf_updDie g d (fun x => by simp only [hf x, and_self]) k).trans hg
    have hdrop : lockOf (dropErrors d 1 g) k = lockOf h k :=
      hu (f := fun x => { x with srv := { x.srv with dropped := satAdd 255 x.srv.dropped 1 } }) fun _ => rfl
    split
    · refine hu fun x => ?_
      rfl
    · split
      · exact hg
      · split
        · split
          · exact hdrop
          · refine Eq.trans (b := lockOf (updDie g d fun x => { x with srv := { x.srv with held := satInc 255 x.srv.held } }) k) rfl ?_
            exact hu fun _ => rfl
        · split
          · exact hdrop
          · refine hu fun x => ?_
            rfl

theorem lockIgnored_spec (d off : Nat) (h : Hub) : KeepsDies (lockIgnored d off h) h ∧
    lockOf (lockIgnored d off h) d = (satInc 255 (getDie h d).regs.lockErr, off) := by
  refine ⟨(keepsDies_intEvent d 12 _).trans (.of_rest_update fun _ => rfl), ?_⟩
  rw [lockIgnored, lockOf_intEvent, lockOf, getDie_updDie]

/-- PERSIST sets the key-area word, or its failure is reported; nothing else of the die's block changes. -/
theorem persist_keeps (d : Nat) (h : Hub) :
    let w := writeKey d 0xF1 1 h
    let g := if w.2 then w.1 else faultReport d 0x0706 (unitId 0x0C d 0) (unitId 0x0C d 0) 0x100 w.1
    (getDie g d).atc.aside = (getDie h d).atc.aside ∧ lockOf g d = lockOf h d := by
  have ha := aside_writeKey d 0xF1 1 h
  have hl : lockOf (writeKey d 0xF1 1 h).1 d = lockOf h d :=
    (lockOf_updDie h d (f := fun x => { x with atc := (putKey h.freeIx d 0xF1 1 (getDie h d).atc).1 }) (fun _ => ⟨rfl, rfl⟩) d :)
  intro w g
  simp only [g]
  split
  · exact ⟨ha, hl⟩
  · rw [(keepsDies_faultReport _ _ _ _ _ _).atc d, lockOf_faultReport]
    exact ⟨ha, hl⟩

/-- The hub as ATC_LOCK is set, before the key area is written. -/
def lockSet (d : Nat) (raw per : Bool) (h : Hub) : Hub :=
  updAtc (if ((getDie h d).atc.rawLock && !raw) || ((getDie h d).atc.persist && !per) then lockIgnored d 0x718 h else h) d fun a =>
    { a with rawLock := a.rawLock || raw, persist := a.persist || per, locked := a.locked || raw || per }

theorem atc_lockSet (d : Nat) (raw per : Bool) (h : Hub) : (getDie (lockSet d raw per h) d).atc = { (getDie h d).atc with
    rawLock := (getDie h d).atc.rawLock || raw, persist := (getDie h d).atc.persist || per
    locked := (getDie h d).atc.locked || raw || per } := by
  rw [lockSet, updAtc, getDie_updDie]
  split
  · rw [(lockIgnored_spec d 0x718 h).1.atc d]
  · rfl

theorem lockOf_lockSet {d : Nat} {h : Hub} (hr : (getDie h d).atc.rawLock = true) (per : Bool) :
    lockOf (lockSet d false per h) d = (satInc 255 (getDie h d).regs.lockErr, 0x718) := by
  have hc : ((getDie h d).atc.rawLock && !false || (getDie h d).atc.persist && !per) = true := by simp [hr]
  rw [lockSet, if_pos hc]
  refine (lockOf_updDie _ d (fun x => ?_) d).trans (lockIgnored_spec d 0x718 h).2
  exact ⟨rfl, rfl⟩

theorem atcLockWrite_spec (d v : Nat) (h : Hub) :
    (getDie (atcLockWrite d v h) d).atc.rawLock = ((getDie h d).atc.rawLock || v.testBit 0) ∧
      (getDie (atcLockWrite d v h) d).atc.persist = ((getDie h d).atc.persist || v.testBit 1) ∧
      (getDie (atcLockWrite d v h) d).atc.locked = ((getDie h d).atc.locked || v.testBit 0 || v.testBit 1) ∧
      (v.testBit 1 = false → (getDie (atcLockWrite d v h) d).atc.words = (getDie h d).atc.words) ∧
      ((getDie h d).atc.rawLock = true → v.testBit 0 = false →
        (getDie (atcLockWrite d v h) d).regs.lockErr = satInc 255 (getDie h d).regs.lockErr ∧
        (getDie (atcLockWrite d v h) d).regs.lockOff = 0x718) := by
  have hset := atc_lockSet d (v.testBit 0) (v.testBit 1) h
  have he : atcLockWrite d v h =
      if v.testBit 1 && !(getDie h d).atc.persist then
        (let w := writeKey d 0xF1 1 (lockSet d (v.testBit 0) (v.testBit 1) h)
        if w.2 then w.1 else faultReport d 0x0706 (unitId 0x0C d 0) (unitId 0x0C d 0) 0x100 w.1)
      else lockSet d (v.testBit 0) (v.testBit 1) h := rfl
  obtain ⟨ha, hl⟩ : (getDie (atcLockWrite d v h) d).atc.aside = (getDie (lockSet d (v.testBit 0) (v.testBit 1) h) d).atc.aside ∧
      lockOf (atcLockWrite d v h) d = lockOf (lockSet d (v.testBit 0) (v.testBit 1) h) d := by
    rw [he]
    split
    · exact persist_keeps d _
    · exact ⟨rfl, rfl⟩
  rw [hset] at ha
  refine ⟨(congrArg Atc.rawLock ha :), (congrArg Atc.persist ha :), (congrArg Atc.locked ha :), fun hp => ?_, fun hr h0 => ?_⟩
  · have hn : ¬(v.testBit 1 && !(getDie h d).atc.persist) = true := by simp [hp]
    rw [he, if_neg hn, hset]
  · rw [h0, lockOf_lockSet hr] at hl
    exact Prod.mk.inj hl

/-- Settles O58: an Attic command is its writes and their outcome; the running slot, SELECT and SVN_MIN are as the writes of the key area
leave them; the registers are the block's own writes. -/
theorem atticCommands : Obligations.AtticCommands := by
  unfold Obligations.AtticCommands
  refine ⟨fun c s => ?_, fun fn d v s ht hrom => ?_, fun d r s hb => ?_⟩
  · intro h fails
    refine ⟨fun ha => ?_, fun hf hr => ?_, fun ha => ?_, fun ha => ?_, fun ha => ?_⟩
    · intro w
      split
      next hw => exact ha.next_done (if_pos hw)
      next hw => exact ha.next_failed (if_neg hw)
    · intro b w
      have he := exec_atcFwStage hf hr
      refine ⟨he, _, he, fun d k hk => ?_⟩
      have hw := runsAs_staged c h d
      have hruns : (getDie (if imgSigned b = false then { s with hub := complete (taken 0x0B01 c s.hub) 0x0308 255 0 0 h }
          else if w.2 then done 0x0B01 c 0 0 w.1 s else fails 0x0B01 (unstage w.1)).hub d).atc.RunsAs (getDie s.hub d).atc := by
        split
        · exact runsAs_complete (g := h) (.refl _)
        · split
          · exact runsAs_complete hw
          · exact runsAs_complete ((runsAs_unstage w.1 d).trans hw)
      obtain ⟨-, himg, hwords⟩ := hruns
      exact ⟨hwords k hk, himg⟩
    · intro w
      have hv : arg8 c 16 ≤ 1 := by
        have hk := ha.checks_pass (ck 0x0106 16 (arg8 c 16 > 1)) (by simp [atcFwSelect])
        simpa [ck] using hk
      refine ⟨?_, ?_⟩
      · split
        next hw => exact ha.next_done (if_pos hw)
        next hw => exact ha.next_failed (if_neg hw)
      · split
        next hw => exact fun d hd => selectWord_selectOn hv hw hd
        next => trivial
    · intro w p
      refine ⟨?_, ?_⟩
      · split
        next hw => exact ha.next_done (if_pos hw)
        next hw => exact ha.next_failed (if_neg hw)
      · split
        next hw => exact fun d hd hs => svnMin_raiseSvn hw hd hs
        next => trivial
    · intro d a
      exact ⟨queryBytes h d, ha.next_done rfl, queryBytes_length h d, queryBytes_image h d, queryBytes_flags h d, queryBytes_free h d,
        queryBytes_svn h d, queryBytes_slotA h d, queryBytes_slotB h d, queryBytes_written h d, queryBytes_rest h d⟩
  · intro h a is starts counted
    have hallow := rawAllowed_of_takes ht hrom a.addr
    have hacc (off : Nat) : atcAccess fn d off v.toNat s.hub = atcWrite32 (some fn) d off v.toNat h := atcAccess_of_takes ht hrom off v.toNat
    refine ⟨fun hv => ⟨fun hb => ?_, fun hb => ?_, ?_⟩, fun hv =>
      ⟨fun hl hb => ?_, fun hl hb => ?_, fun hl => ?_, fun hbar => ?_, fun hbar => ?_⟩, ?_⟩
    · exact next_onHub_congr ((hacc 0x00).trans ((atcCtrl_read hv fn d h).trans (rawStart_idle hb false)))
    · exact next_onHub_congr ((hacc 0x00).trans ((atcCtrl_read hv fn d h).trans (rawStart_busy hb false)))
    · exact next_onHub_congr ((hacc 0x28).trans (dbgCtrl_challenge hv d h))
    · exact next_onHub_congr ((hacc 0x00).trans ((atcCtrl_write hv fn (hallow.trans (by rw [hl]; rfl))).trans (rawStart_idle hb true)))
    · exact next_onHub_congr ((hacc 0x00).trans ((atcCtrl_write hv fn (hallow.trans (by rw [hl]; rfl))).trans (rawStart_busy hb true)))
    · exact next_onHub_congr ((hacc 0x00).trans (atcCtrl_locked hv fn (hallow.trans (by rw [hl]; rfl))))
    · refine ⟨_, next_onHub_congr ((hacc 0x28).trans (dbgCtrl_submit hv d h)), ?_⟩
      exact atc_dbgSubmit_barred hbar
    · refine next_onHub_congr ((hacc 0x28).trans ((dbgCtrl_submit hv d h).trans ?_))
      exact dbgSubmit_open hbar
    · obtain ⟨h0, h1, h2, h3, h4⟩ := atcLockWrite_spec d v.toNat h
      exact ⟨_, next_onHub_congr (hacc 0x18), rfl, rfl, h0, h1, h2, h3, h4⟩
  · intro a
    refine ⟨onHub (rawDone d) s, rfl, rfl, rfl, ?_, fun hw => ?_, fun hw w => ?_⟩
    · rw [onHub_hub, atc_rawDone hb, rawMade_busy]
    · rw [onHub_hub, atc_rawDone hb, rawMade, hw]
      rfl
    · rw [onHub_hub, atc_rawDone hb, rawMade_word hw]

end Sys2Proof.Machine
end

section
/-!
Register writes and their aliases, the INT_ block and its message, MSI-X vectors, pads, and supply faults (20 R500-R513; 21 R527, R528,
R534; log entries 7, 27, 68, 74).
-/

namespace Sys2Proof.Machine

/-! ### Where an access falls (20 R497, R499) -/

section
variable {fn d off : Nat} {h : Hub} (hr : regReaches h fn d = true) (ha : asleep h d = false)
include hr ha

/-- An access of a function that is not the integrator's is reported (20 R500). -/
theorem regGate_of_foreign (hfn : fn ≠ integratorFn h) (f : Hub → Eff) :
    regGate fn d off false f h = (accessFault fn (d * 0x100000 + off) (accessWakes d fn h), []) := by
  have he : integratorFn (accessWakes d fn h) = integratorFn h := (congrArg integratorFn (offDies_accessWakes ha fn) :)
  have hint : fn ≠ integratorFn (accessWakes d fn h) := he ▸ hfn
  simp only [regGate, hr, ha, Bool.not_true, Bool.false_and, Bool.false_eq_true, if_false, if_pos hint]

end

theorem physical_of_reaches {h : Hub} {fn d : Nat} (hr : regReaches h fn d = true) : fn % 16 = 0 := by
  simp only [regReaches, Bool.and_eq_true, beq_iff_eq] at hr
  tauto

theorem regAccess_eq {fn bar0 d off : Nat} {h : Hub} (ho : off < 0x2100) (h5 : off / 0x100 ≠ 5) (h7 : off / 0x100 ≠ 7) (f : Hub → Eff) :
    regAccess fn bar0 d off f h = regGate fn d (bar0 - d * 0x100000) false f h := by
  have hend : ¬off ≥ regEnd := Nat.not_le.mpr ho
  have hrom : ¬(decide (off / 0x100 = 7) && romReaches h fn d) = true := by simp [h7]
  have hon : alwaysOn off = false := by simpa [alwaysOn] using h5
  rw [regAccess, if_neg hrom, if_neg hend, hon]

section
variable {fn d off : Nat} {h : Hub} (hr : regReaches h fn d = true) (hd : d < 8) (ho : off < 0x2100) (h5 : off / 0x100 ≠ 5)
  (h7 : off / 0x100 ≠ 7)
include hr hd ho h5 h7

/-- A direct write of a register falls on its die and offset. -/
theorem directWrite_eq (size v : Nat) (m : List Host.Cell) : directWrite fn (d * 0x100000 + off) size v m h =
    regGate fn d off false (fun h => if !accessOk off size then (accSizeError d h, [])
      else regWrite false fn (d * 0x100000 + off) d off size v m h) h := by
  have hfn := physical_of_reaches hr
  have hpage : pageAt fn (d * 0x100000 + off) = none := by
    have hlow : ¬0x02000000 ≤ d * 0x100000 + off := by omega
    simp [pageAt, hfn, hlow]
  have hdie : (d * 0x100000 + off) / 0x100000 = d := by omega
  have hoff : (d * 0x100000 + off) % 0x100000 = off := by omega
  have hge : ¬d ≥ 8 := by omega
  unfold directWrite
  rw [hpage]
  dsimp only
  rw [hdie, hoff, if_neg hge, regAccess_eq ho h5 h7, Nat.add_sub_cancel_left]

end

/-- The address that stands for one bit of a register (20 R508). -/
def aliasAt (d off n : Nat) : Nat := 0x800000 + d * 0x200000 + off * 32 + n * 4

/-- A write to a bit's own address falls on its die, register and bit. -/
theorem aliasWrite_eq {fn d off n : Nat} {h : Hub} (ht : RegTakes h fn d) (hd : d < 8) (hn : n < 32) (h4 : off % 4 = 0)
    (ho : off < 0x2100) (h5 : off / 0x100 ≠ 5) (h7 : off / 0x100 ≠ 7) (v : Nat) (m : List Host.Cell) :
    aliasWrite fn (aliasAt d off n) 4 v m h = bitWrite fn (aliasAt d off n) d off n (bit v 0) m (accessWakes d fn h) := by
  obtain ⟨q, rfl⟩ := Nat.dvd_of_mod_eq_zero h4
  have hin : ¬(decide (aliasAt d (4 * q) n < 0x800000) || decide (aliasAt d (4 * q) n ≥ 0x1800000)) = true := by
    rw [Bool.or_eq_true, decide_eq_true_eq, decide_eq_true_eq]
    unfold aliasAt
    omega
  have hdie : (aliasAt d (4 * q) n - 0x800000) / 0x200000 = d := by
    unfold aliasAt
    omega
  have hreg : aliasOf ((aliasAt d (4 * q) n - 0x800000) % 0x200000) = (4 * q, n) := by
    have ha : (aliasAt d (4 * q) n - 0x800000) % 0x200000 = 128 * q + 4 * n := by
      unfold aliasAt
      omega
    rw [ha, aliasOf]
    refine Prod.ext ?_ ?_ <;> dsimp only <;> omega
  have hal : ¬(decide ((4 : Nat) ≠ 4) || decide (aliasAt d (4 * q) n % 4 ≠ 0)) = true := by
    have hz : aliasAt d (4 * q) n % 4 = 0 := by
      unfold aliasAt
      omega
    simp [hz]
  unfold aliasWrite
  rw [if_neg hin]
  dsimp only
  rw [hdie, hreg, regAccess_eq ho h5 h7, regGate_of_takes ht, if_neg hal]

/-! ### Honoured writes (20 R502, R508, R510, R511) -/

theorem accessOk_word {off : Nat} (h4 : off % 4 = 0) : accessOk off 4 = true := by simp [accessOk, h4]

theorem regWrite_word {off : Nat} (hp : off / 0x100 ≠ 0x20) (jtag : Bool) (fn bar0 d v : Nat) (m : List Host.Cell) (h : Hub) :
    regWrite jtag fn bar0 d off 4 v m h = regWord jtag fn bar0 d off (v % 2 ^ 32) m h := by
  rw [regWrite, if_neg hp, if_pos rfl]

theorem bits_mod {lo w : Nat} (hw : lo + w ≤ 32) (v : Nat) : bits (v % 2 ^ 32) lo w = bits v lo w := by
  obtain ⟨k, hk⟩ := Nat.exists_eq_add_of_le hw
  unfold bits
  rw [hk, show lo + w + k = lo + (w + k) from Nat.add_assoc lo w k, pow_add, Nat.mod_mul_right_div_self, pow_add]
  exact Nat.mod_mul_right_mod _ _ _

theorem bit_mod {i : Nat} (hi : i < 32) (v : Nat) : bit (v % 2 ^ 32) i = bit v i := by
  rw [bit, bit, Nat.testBit_mod_two_pow, decide_eq_true hi, Bool.true_and]

/-- The INT_ block uses the low 32 bits of what is written to it. -/
theorem intWrite32_mod (d o v : Nat) (h : Hub) : intWrite32 d o (v % 2 ^ 32) h = intWrite32 d o v h := by
  have hen : intEnWrite d (v % 2 ^ 32) h = intEnWrite d v h := by
    have ha (r : Regs) : ((List.range 13).any fun n => bit (v % 2 ^ 32) n && !bit r.intEn n && intPending r n) =
        (List.range 13).any fun n => bit v n && !bit r.intEn n && intPending r n := by
      rw [Bool.eq_iff_iff, List.any_eq_true, List.any_eq_true]
      refine exists_congr fun n => and_congr_right fun hn => ?_
      rw [bit_mod ((List.mem_range.mp hn).trans (by decide))]
    unfold intEnWrite
    simp only [ha, bits_mod (show 0 + 13 ≤ 32 by decide)]
  unfold intWrite32
  simp only [hen, bits_mod (show 0 + 6 ≤ 32 by decide), bits_mod (show 16 + 16 ≤ 32 by decide), bit_mod (show 8 < 32 by decide)]

theorem regWord_int {off : Nat} (hb : off / 0x100 = 2) (jtag : Bool) (fn bar0 d v : Nat) (m : List Host.Cell) (h : Hub) :
    regWord jtag fn bar0 d off v m h = (intWrite32 d (off % 0x100) v h, []) := by
  rw [regWord, hb]
  rfl

theorem regWord_srv {off : Nat} (hb : off / 0x100 = 6) (jtag : Bool) (fn bar0 d v : Nat) (m : List Host.Cell) (h : Hub) :
    regWord jtag fn bar0 d off v m h = (h, []) := by
  rw [regWord, hb]
  rfl

theorem regWord_scratch (jtag : Bool) (fn bar0 d v : Nat) (m : List Host.Cell) (h : Hub) :
    regWord jtag fn bar0 d 0x18 v m h = (updRegs h d fun r => { r with scratch := BitVec.ofNat 32 v }, []) := rfl

theorem regWord_id {off : Nat} (ho : off < 0x18) (jtag : Bool) (fn bar0 d v : Nat) (m : List Host.Cell) (h : Hub) :
    regWord jtag fn bar0 d off v m h = (accessFault fn bar0 h, []) := by
  have hb : off / 0x100 = 0 := by omega
  have hm : off % 0x100 = off := by omega
  rw [regWord, hb, hm]
  exact (if_neg (by omega)).trans (if_pos ho)

theorem intWrite32_ack {n : Nat} (hn : n < 13) (d v : Nat) (h : Hub) :
    intWrite32 d (0x40 + 4 * n) v h = updRegs h d fun r => { r with intAck := r.intAck.set n (bits v 16 16) } := by
  have hc : (decide (0x40 ≤ 0x40 + 4 * n) && decide (0x40 + 4 * n < 0x40 + 4 * 13) && decide ((0x40 + 4 * n) % 4 = 0)) = true := by
    simp only [Bool.and_eq_true, decide_eq_true_eq]
    omega
  have hi : (0x40 + 4 * n - 0x40) / 4 = n := by omega
  unfold intWrite32
  split
  next he => omega
  next he => omega
  next => rw [if_pos hc, hi]

end Sys2Proof.Machine
end

section
/-!
The interrupt message, MSI-X vectors, pads and supply faults, and the obligation on registers and pins (20 R511-R513; 21 R527, R528, R534;
log entries 7, 27, 68, 74).
-/

namespace Sys2Proof.Machine

/-! ### INT_EN (20 R511) -/

theorem intRaise_keeps (d : Nat) (h : Hub) : (getDie (intRaise d h) d).regs.intEn = (getDie h d).regs.intEn ∧
    (getDie (intRaise d h) d).regs.intCount = (getDie h d).regs.intCount := by
  unfold intRaise
  dsimp only
  split
  · rw [getDie_updDie]
    exact ⟨rfl, rfl⟩
  · exact ⟨rfl, rfl⟩

theorem intOpen_intRaise {d : Nat} {h : Hub} (hm : (getDie h d).regs.intMsix = true) (hb : intBad h d = false)
    (ho : (getDie h d).regs.intOpen = none) : (getDie (intRaise d h) d).regs.intOpen = some h.now := by
  have hc : ((getDie h d).regs.intMsix && !intBad h d && (getDie h d).regs.intOpen.isNone) = true := by simp [hm, hb, ho]
  unfold intRaise
  dsimp only
  rw [if_pos hc, getDie_updDie]

/-- The hub with INT_EN written, before a message. -/
def intEnSet (d v : Nat) (h : Hub) : Hub := updRegs h d fun r => { r with intEn := bits v 0 13 }

theorem regs_intEnSet (d v : Nat) (h : Hub) : (getDie (intEnSet d v h) d).regs = { (getDie h d).regs with intEn := bits v 0 13 } :=
  congrArg Die.regs (getDie_updDie h d fun x => { x with regs := { x.regs with intEn := bits v 0 13 } })

theorem intBad_intEnSet (d v : Nat) (h : Hub) : intBad (intEnSet d v h) d = intBad h d := by
  unfold intBad
  rw [regs_intEnSet]
  rfl

theorem intEnWrite_keeps (d v : Nat) (h : Hub) : (getDie (intEnWrite d v h) d).regs.intEn = bits v 0 13 ∧
    (getDie (intEnWrite d v h) d).regs.intCount = (getDie h d).regs.intCount := by
  have hset := regs_intEnSet d v h
  unfold intEnWrite
  dsimp only
  split
  · obtain ⟨he, hc⟩ := intRaise_keeps d (intEnSet d v h)
    exact ⟨he.trans (by rw [hset]), hc.trans (by rw [hset])⟩
  · exact ⟨(congrArg Regs.intEn hset :), (congrArg Regs.intCount hset :)⟩

/-- Enabling a pending source opens a message. -/
theorem intOpen_intEnWrite {d v n : Nat} {h : Hub} (hn : n < 13) (hv : v.testBit n = true) (he : (getDie h d).regs.intEn.testBit n = false)
    (hp : intPending (getDie h d).regs n = true) (hm : (getDie h d).regs.intMsix = true) (hb : intBad h d = false)
    (ho : (getDie h d).regs.intOpen = none) : (getDie (intEnWrite d v h) d).regs.intOpen = some h.now := by
  have hc : ((List.range 13).any fun n => bit v n && !bit (getDie h d).regs.intEn n && intPending (getDie h d).regs n) = true :=
    List.any_eq_true.mpr ⟨n, List.mem_range.mpr hn, by simp [bit, hv, he, hp]⟩
  have hset := regs_intEnSet d v h
  unfold intEnWrite
  rw [if_pos hc]
  exact intOpen_intRaise (h := intEnSet d v h) (by rw [hset]; exact hm) (by rw [intBad_intEnSet]; exact hb) (by rw [hset]; exact ho)

/-! ### The message (20 R513) -/

theorem msix_keeps (f vec : Nat) (h : Hub) : (msix f vec h).dies = h.dies ∧ (msix f vec h).now = h.now := by
  unfold msix
  dsimp only
  split
  · exact ⟨rfl, rfl⟩
  · split <;> exact ⟨rfl, rfl⟩

section
variable {f vec : Nat} {h : Hub} (hv : vec < (getFn h f).msixSize) (hf : f < 128)
include hv hf

theorem msix_unmasked (hm : (getFn h f).vecMask.testBit vec = false) : (msix f vec h).outbox = h.outbox ++ [.msix f vec] := by
  have hc : ¬(decide (vec ≥ (getFn h f).msixSize) || decide (f ≥ 128)) = true := by simp [hv, hf]
  have hb : ¬bit (getFn h f).vecMask vec = true := by simp [bit, hm]
  unfold msix
  dsimp only
  rw [if_neg hc, if_neg hb]
  rfl

theorem msix_masked (hm : (getFn h f).vecMask.testBit vec = true) : (msix f vec h).outbox = h.outbox ∧
    (getFn (msix f vec h) f).vecPend = (getFn h f).vecPend ||| 2 ^ vec := by
  have hc : ¬(decide (vec ≥ (getFn h f).msixSize) || decide (f ≥ 128)) = true := by simp [hv, hf]
  unfold msix
  dsimp only
  rw [if_neg hc, if_pos (show bit _ _ = true from hm)]
  refine ⟨rfl, ?_⟩
  rw [getFn, updFn, Tab.get_set_same]

end

/-- The hub as a die's message is due. -/
def msgDue (d t : Nat) (h : Hub) : Hub := updRegs (at_ (t + 1000) h) d fun r => { r with intOpen := none }

theorem regs_msgDue (d t : Nat) (h : Hub) : (getDie (msgDue d t h) d).regs = { (getDie h d).regs with intOpen := none } :=
  congrArg Die.regs (getDie_updDie (at_ (t + 1000) h) d fun x => { x with regs := { x.regs with intOpen := none } })

section
variable {d t : Nat} {h : Hub} (ho : (getDie h d).regs.intOpen = some t) (hu : dieUp h d = true)
include ho hu

theorem intMessage_eq : intMessage d h =
    if (getDie h d).regs.intMsix && !intBad (msgDue d t h) d then msix (integratorFn h) (getDie h d).regs.intVec (msgDue d t h)
    else msgDue d t h := by
  have hr := regs_msgDue d t h
  have hd : dieUp (msgDue d t h) d = true := hu
  unfold intMessage
  rw [ho]
  dsimp only
  have hm : updRegs (at_ (t + 1000) h) d (fun r => { r with intOpen := none }) = msgDue d t h := rfl
  rw [hm, hd, hr]
  rfl

theorem intMessage_keeps : (intMessage d h).now = max h.now (t + 1000) ∧
    (getDie (intMessage d h) d).regs = { (getDie h d).regs with intOpen := none } := by
  have hr := regs_msgDue d t h
  rw [intMessage_eq ho hu]
  split
  · obtain ⟨hd, hn⟩ := msix_keeps (integratorFn h) (getDie h d).regs.intVec (msgDue d t h)
    exact ⟨hn.trans rfl, (by rw [getDie, hd]; exact hr)⟩
  · exact ⟨rfl, hr⟩

theorem intMessage_silent (hm : (getDie h d).regs.intMsix = false) : (intMessage d h).outbox = h.outbox := by
  rw [intMessage_eq ho hu, hm]
  rfl

theorem intMessage_sends (hm : (getDie h d).regs.intMsix = true) (hv : (getDie h d).regs.intVec < (getFn h (integratorFn h)).msixSize) :
    intMessage d h = msix (integratorFn h) (getDie h d).regs.intVec (msgDue d t h) := by
  have hb : intBad (msgDue d t h) d = false := by
    unfold intBad
    rw [regs_msgDue]
    have hf : (getFn (msgDue d t h) (integratorFn (msgDue d t h))).msixSize = (getFn h (integratorFn h)).msixSize := rfl
    simp [hf, hv]
  rw [intMessage_eq ho hu, hm, hb]
  rfl

end

/-! ### MSI-X vectors (02 R42) -/

theorem testBit_withBit_false (w n k : Nat) : (withBit w n false).testBit k = (w.testBit k && decide (k ≠ n)) := by
  cases hb : bit w n with
  | false =>
    have hw : withBit w n false = w := by simp [withBit, hb, b2n]
    rw [hw]
    by_cases hk : k = n
    · rw [hk, show w.testBit n = false from hb]
      rfl
    · simp [hk]
  | true =>
    have hlow : w % 2 ^ n < 2 ^ n := Nat.mod_lt _ (Nat.two_pow_pos n)
    have hodd : w / 2 ^ n = 2 * (w / 2 ^ n / 2) + 1 := by
      have h1 : w / 2 ^ n % 2 = 1 := by simpa [bit, Nat.testBit_eq_decide_div_mod_eq] using hb
      omega
    generalize w / 2 ^ n / 2 = a at hodd
    have hw : w = 2 ^ n * (2 * a + 1) + w % 2 ^ n := by rw [← hodd, Nat.div_add_mod]
    generalize w % 2 ^ n = b at hw hlow
    have hc : withBit w n false = 2 ^ n * (2 * a) + b := by
      have hset : b2n true * 2 ^ n = 2 ^ n := Nat.one_mul _
      have hclear : b2n false * 2 ^ n = 0 := Nat.zero_mul _
      rw [withBit, hb, hset, hclear, hw, Nat.mul_add, Nat.mul_one]
      omega
    rw [hc, hw, Nat.testBit_two_pow_mul_add _ hlow, Nat.testBit_two_pow_mul_add _ hlow]
    by_cases hk : k < n
    · simp [hk, hk.ne]
    · obtain ⟨j, rfl⟩ := Nat.exists_eq_add_of_le (Nat.not_lt.mp hk)
      cases j with
      | zero => simp
      | succ j => simp [Nat.testBit_succ, show (2 * a + 1) / 2 = a by omega]

section
variable {fn vec : Nat} {h : Hub} (ha : fnAnswers h fn = true) (hv : vec < 64) (hs : vec < (getFn h fn).msixSize)
include ha hv hs

theorem vecWrite_mask : vecWrite fn vec true h = updFn h fn fun x => { x with vecMask := x.vecMask ||| 2 ^ vec } := by
  simp [vecWrite, ha, Nat.not_le.mpr hv, Nat.not_le.mpr hs]

/-- The hub as a vector is unmasked. -/
def vecOpen (fn vec : Nat) (h : Hub) : Hub :=
  updFn h fn fun x => { x with vecMask := withBit x.vecMask vec false, vecPend := withBit x.vecPend vec false }

theorem vecWrite_unmask : vecWrite fn vec false h =
    if bit (getFn h fn).vecPend vec then send (.msix fn vec) (vecOpen fn vec h) else vecOpen fn vec h := by
  simp [vecWrite, ha, Nat.not_le.mpr hv, Nat.not_le.mpr hs, vecOpen]

end

theorem vecWrite_unmask_fn (ha : fnAnswers h fn = true) (hv : vec < 64) (hs : vec < (getFn h fn).msixSize) :
    getFn (vecWrite fn vec false h) fn = { getFn h fn with
      vecMask := withBit (getFn h fn).vecMask vec false, vecPend := withBit (getFn h fn).vecPend vec false } := by
  have ho : getFn (vecOpen fn vec h) fn = { getFn h fn with
      vecMask := withBit (getFn h fn).vecMask vec false, vecPend := withBit (getFn h fn).vecPend vec false } := by
    rw [getFn, vecOpen, updFn, Tab.get_set_same]
  rw [vecWrite_unmask ha hv hs]
  split
  · exact ho
  · exact ho

theorem barSize_eq {fn : Nat} {h : Hub} (ha : fnAnswers h fn = true) (size : Nat) : barSize fn size h =
    if size < 28 ∨ 34 < size then h else updFn h fn fun x => { x with bar2Log := size } := by
  have hp : h.pkg.phase = .ready := by
    simp only [fnAnswers, ready, Bool.and_eq_true, beq_iff_eq] at ha
    tauto
  have he : portEarly h fn = false := by simp [portEarly, hp]
  simp [barSize, he, ha]

/-! ### Pads (21 R527, R528) -/

theorem updPmx_congr (h : Hub) (d : Nat) {f g : Pmx → Pmx} (e : f (getDie h d).pmx = g (getDie h d).pmx) : updPmx h d f = updPmx h d g := by
  rw [updPmx, updPmx, updDie, updDie, e]

/-- A function is not for a pad: it is reserved, or exclusive and asked for by another pad. -/
def PadBarred (p : Pmx) (pad f : Nat) : Prop :=
  13 ≤ f ∨ (2 ≤ f ∧ f ≤ 8 ∧ ∃ k, k < 24 ∧ k ≠ pad ∧ (p.pads.get k {}).func = f)

theorem padBarred_iff (p : Pmx) (pad f : Nat) : PadBarred p pad f ↔
    (decide (f ≥ 13) || (padExclusive f && (List.range 24).any fun k => decide (k ≠ pad) && (p.pads.get k {}).func == f)) = true := by
  simp only [PadBarred, padExclusive, Bool.or_eq_true, Bool.and_eq_true, decide_eq_true_eq, List.any_eq_true, List.mem_range, beq_iff_eq,
    ge_iff_le, and_assoc]

section
variable {d pad v : Nat} {h : Hub}

theorem padWrite_barred (hb : PadBarred (getDie h d).pmx pad (v % 16)) :
    padWrite d pad v h = updPmx h d fun p => { p with ignored := satInc 255 p.ignored } := by
  have hf : bits v 0 4 = v % 16 := by simp [bits]
  refine updPmx_congr h d ?_
  dsimp only
  rw [hf]
  exact if_pos ((padBarred_iff _ pad _).mp hb)

theorem padWrite_taken (hb : ¬PadBarred (getDie h d).pmx pad (v % 16)) :
    padWrite d pad v h = updPmx h d fun p => { p with pads := p.pads.set pad { p.pads.get pad {} with
      func := v % 16, pull := v / 16 % 4, drive := v / 64 % 4, slow := v.testBit 8 } } := by
  have hf : bits v 0 4 = v % 16 := by simp [bits]
  refine updPmx_congr h d ?_
  dsimp only
  rw [hf]
  exact if_neg fun hc => hb ((padBarred_iff _ pad _).mpr hc)

end

theorem padsChange_eq {d : Nat} {h : Hub} (hp : powered h = true) (hu : dieUp h d = true) (ha : awake h d = true) :
    padsChange d h = updPmx h d fun p =>
      { p with pads := p.pads.map fun (e : Nat × Pad) => (e.1, padEdge h.now e.2), outNow := p.out } := by
  simp [padsChange, hp, hu, ha]

/-! ### Supplies (21 R534) -/

theorem supplyFault_die {d rail : Nat} {h : Hub} (hp : powered h = true) (hr : rail < 4 ∨ (rail = 4 ∧ awake h d = true)) (m : List Host.Cell) :
    supplyFault d rail m h = dieLost d 7 m h := by
  have h5 : rail ≠ 5 := by omega
  have hle : ¬rail > 5 := by omega
  have h4 : ¬(decide (rail = 4) && !awake h d) = true := by
    rcases hr with hr | ⟨-, ha⟩
    · simp [show rail ≠ 4 by omega]
    · simp [ha]
  have hc : ¬(!powered h || decide (rail > 5) || decide (rail = 4) && !awake h d) = true := by
    simp only [hp, decide_eq_false hle, Bool.eq_false_iff.mpr h4]
    decide
  rw [supplyFault, if_neg h5, if_neg hc]

/-- Settles O59: a register write is its block's own, whatever way it comes; a message, a vector and a pad follow their registers; a
supply that fails takes its die, or the package. -/
theorem registersAndPins : Obligations.RegistersAndPins := by
  unfold Obligations.RegistersAndPins
  refine ⟨fun fn d off size v s hr ha hd ho h5 h7 => ?_, fun fn d off n v s ht hd hn h4 ho => ?_, fun fn d v s ht => ?_,
    fun d t s hopen hu => ?_, fun fn vec size s hans => ?_, fun fn d pad v s ht hpad => ?_, fun d s hp hu ha => ?_, fun d rail s hp => ?_⟩
  · intro h is
    have hdw := directWrite_eq hr hd ho h5 h7 size v.toNat s.lp5x
    refine ⟨fun hfn => ?_, fun hfn hacc => ?_, fun hfn hsz h4 => ?_⟩
    · exact next_act_of_no_writes (hdw.trans (regGate_of_foreign hr ha hfn _))
    · have hg := regGate_of_takes ⟨hr, ha, hfn⟩ off (fun h => if !accessOk off size then (accSizeError d h, [])
        else regWrite false fn (d * 0x100000 + off) d off size v.toNat s.lp5x h)
      refine next_act_of_no_writes (hdw.trans (hg.trans ?_))
      rw [hacc]
      rfl
    · subst hsz
      have hacc := accessOk_word h4
      have hwrite (hp : off / 0x100 ≠ 0x20) : directWrite fn (d * 0x100000 + off) 4 v.toNat s.lp5x s.hub =
          regWord false fn (d * 0x100000 + off) d off (v.toNat % 2 ^ 32) s.lp5x h := by
        rw [hdw, regGate_of_takes ⟨hr, ha, hfn⟩, hacc]
        exact regWrite_word hp _ _ _ _ _ _ _
      refine ⟨fun hoff => ?_, fun hoff => ?_, fun hb => ?_, fun n hn hoff => ?_⟩
      · subst hoff
        refine next_act_of_no_writes ((hwrite (by decide)).trans ((regWord_scratch _ _ _ _ _ _ _).trans ?_))
        have hv : BitVec.ofNat 32 (v.toNat % 2 ^ 32) = v.setWidth 32 := BitVec.eq_of_toNat_eq (by simp)
        rw [hv]
        rfl
      · exact next_act_of_no_writes ((hwrite (by omega)).trans (regWord_id hoff _ _ _ _ _ _ _))
      · exact next_act_of_no_writes ((hwrite (by omega)).trans (regWord_srv hb _ _ _ _ _ _ _))
      · have hmod : off % 0x100 = 0x40 + 4 * n := by omega
        refine next_act_of_no_writes ((hwrite (by omega)).trans ((regWord_int (by omega) _ _ _ _ _ _ _).trans ?_))
        rw [intWrite32_mod, hmod, intWrite32_ack hn]
        rfl
  · intro h w toAlias
    have hal := aliasWrite_eq ht hd hn h4 ho
    refine ⟨fun hb hc => ?_, fun hc h5 h7 => ?_⟩
    · have hdw := directWrite_eq ht.1 hd ho (by omega) (by omega) 4 (BitVec.ofNat 64 (withBit w n (v.toNat.testBit 0))).toNat s.lp5x
      have hbar : ¬bit (cntMask off) n = true := by simp [bit, hc]
      have hlow : (BitVec.ofNat 64 (withBit w n (v.toNat.testBit 0))).toNat % 2 ^ 32 = withBit w n (v.toNat.testBit 0) % 2 ^ 32 := by
        rw [BitVec.toNat_ofNat]
        exact Nat.mod_mod_of_dvd _ (pow_dvd_pow 2 (by decide))
      have hleft : aliasWrite fn (aliasAt d off n) 4 v.toNat s.lp5x s.hub =
          (intWrite32 d (off % 0x100) (withBit w n (v.toNat.testBit 0)) h, []) := by
        rw [hal (by omega) (by omega), bitWrite, if_neg hbar, regWord_int hb]
        rfl
      have hright : directWrite fn (d * 0x100000 + off) 4 (BitVec.ofNat 64 (withBit w n (v.toNat.testBit 0))).toNat s.lp5x s.hub =
          (intWrite32 d (off % 0x100) (withBit w n (v.toNat.testBit 0)) h, []) := by
        rw [hdw, regGate_of_takes ht, accessOk_word h4]
        refine (regWrite_word (by omega) _ _ _ _ _ _ _).trans ((regWord_int hb _ _ _ _ _ _ _).trans ?_)
        rw [hlow, intWrite32_mod]
      exact (next_act_of_no_writes hleft).trans (next_act_of_no_writes hright).symm
    · refine next_act_of_no_writes ((hal h5 h7 v.toNat s.lp5x).trans ?_)
      rw [bitWrite, if_pos (show bit _ _ = true from hc)]
      rfl
  · obtain ⟨hen, hcount⟩ := intEnWrite_keeps d v.toNat (accessWakes d fn s.hub)
    refine ⟨{ s with hub := intEnWrite d v.toNat (accessWakes d fn s.hub) }, next_onHub_congr (regGateHub_of_takes ht _ _), rfl, rfl,
      hen.trans ?_, hcount, fun n hn hv he hpend hm hb ho => intOpen_intEnWrite hn hv he hpend hm hb ho⟩
    simp [bits]
  · obtain ⟨hnow, hregs⟩ := intMessage_keeps hopen hu
    refine ⟨onHub (intMessage d) s, rfl, rfl, rfl, hnow, hregs, fun hm hv hf => ?_, fun hm => intMessage_silent hopen hu hm⟩
    rw [onHub_hub, intMessage_sends hopen hu hm hv]
    exact ⟨fun hk => msix_unmasked (h := msgDue d t s.hub) hv hf hk, fun hk => msix_masked (h := msgDue d t s.hub) hv hf hk⟩
  · intro x
    refine ⟨fun hv hs => ⟨?_, ?_⟩, fun h28 h34 => ?_, fun hout => ?_⟩
    · exact next_onHub_congr (vecWrite_mask hans hv hs)
    · have hfn := vecWrite_unmask_fn hans hv hs
      refine ⟨onHub (vecWrite fn vec false) s, rfl, rfl, rfl, fun k _ => ?_, ?_, ?_⟩
      · rw [onHub_hub, hfn]
        exact testBit_withBit_false _ vec k
      · rw [onHub_hub, hfn, testBit_withBit_false]
        simp
      · rw [onHub_hub, vecWrite_unmask hans hv hs]
        have hpend : x.vecPend.testBit vec = bit (getFn s.hub fn).vecPend vec := rfl
        rw [hpend]
        split
        · rfl
        · exact (List.append_nil _).symm
    · exact next_onHub_congr ((barSize_eq hans size).trans (if_neg (by omega)))
    · exact next_onHub_congr ((barSize_eq hans size).trans (if_pos hout))
  · intro h p f no is
    have hg := regGateHub_of_takes ht (0x1000 + 4 * pad) (padWrite d pad v.toNat)
    exact ⟨fun hno => next_onHub_congr (hg.trans (padWrite_barred hno)), fun hno => next_onHub_congr (hg.trans (padWrite_taken hno))⟩
  · have he := padsChange_eq hp hu ha
    have hpmx : (getDie (padsChange d s.hub) d).pmx = { (getDie s.hub d).pmx with
        pads := (getDie s.hub d).pmx.pads.map fun (e : Nat × Pad) => (e.1, padEdge s.hub.now e.2), outNow := (getDie s.hub d).pmx.out } := by
      rw [he, updPmx, getDie_updDie]
    refine ⟨onHub (padsChange d) s, rfl, rfl, rfl, (congrArg Pmx.outNow hpmx :), fun k p hk => ?_⟩
    rw [onHub_hub, hpmx]
    dsimp only
    rw [Tab.find_map_of_fst (g := fun e : Nat × Pad => (e.1, padEdge s.hub.now e.2)) fun _ => rfl, hk]
    rfl
  · refine ⟨fun hu hr => ⟨_, rfl, lostDie_act (f := supplyFault d rail) hu (supplyFault_die hp hr s.lp5x)⟩, fun h5 => ?_⟩
    subst h5
    exact ⟨act (supplyFault d 5) s, rfl, rfl, rfl, rfl⟩

end Sys2Proof.Machine
end

section
/-!
What a register access leaves of the TAP: all of it (22 R547-R549).
-/

namespace Sys2Proof.Machine

/-! ### Reports and state changes -/

theorem jtag_intEvent (d n : Nat) (h : Hub) : (intEvent d n h).jtag = h.jtag := jtag_of_fixed (fixed_intEvent d n h)

theorem jtag_toIntegrator (code r0 r1 : Nat) (h : Hub) : (toIntegrator code r0 r1 h).jtag = h.jtag :=
  jtag_of_fixed (fixed_toIntegrator code r0 r1 h)

theorem jtag_faultReport (d cause unit reporter detail : Nat) (h : Hub) : (faultReport d cause unit reporter detail h).jtag = h.jtag :=
  jtag_of_fixed (fixed_faultReport d cause unit reporter detail h)

theorem jtag_accessFault (f bar0 : Nat) (h : Hub) : (accessFault f bar0 h).jtag = h.jtag := jtag_faultReport _ _ _ _ _ h

theorem jtag_accSizeError (d : Nat) (h : Hub) : (accSizeError d h).jtag = h.jtag := jtag_intEvent d 12 _

theorem jtag_pwrGoes (d : Nat) (p : PwrState) (h : Hub) : (pwrGoes d p h).jtag = h.jtag := by
  unfold pwrGoes
  exact (jtag_toIntegrator _ _ _ _).trans (jtag_intEvent d 4 _)

theorem jtag_wakeEvent (d src : Nat) (h : Hub) : (wakeEvent d src h).jtag = h.jtag := by
  unfold wakeEvent
  dsimp only
  split
  · rfl
  · split
    · rfl
    · split
      · exact (jtag_pwrGoes d .exiting _).trans rfl
      · rfl

theorem jtag_updPll (d i : Nat) (f : Pll → Pll) (h : Hub) : (updPll d i f h).jtag = h.jtag := by
  unfold updPll
  extract_lets p q g
  split
  · rfl
  · exact (jtag_of_fixed (fixed_pllRecord d i _)).trans (jtag_intEvent d 9 g)

theorem jtag_intRaise (d : Nat) (h : Hub) : (intRaise d h).jtag = h.jtag := jtag_of_fixed (fixed_intRaise d h)

/-! ### Resets (18 R473, R474) -/

theorem jtag_foldl {α : Type} {f : Hub → α → Hub} (hf : ∀ g a, (f g a).jtag = g.jtag) (l : List α) (h : Hub) : (l.foldl f h).jtag = h.jtag :=
  foldl_keeps Hub.jtag hf l h

theorem jtag_kprStep (n d : Nat) (h : Hub) : (kprStep n d h).jtag = h.jtag := by
  unfold kprStep
  split
  · rfl
  · exact jtag_intEvent d 10 _

theorem jtag_dieGone (d : Nat) (m : List Host.Cell) (h : Hub) : (dieGone d m h).1.jtag = h.jtag := by
  obtain ⟨p, a, he⟩ := fixed_dieGone d m h
  exact (jtag_of_fixed he).trans rfl

theorem jtag_freeDieObjects (d : Nat) (h : Hub) : (freeDieObjects d h).jtag = h.jtag := by
  unfold freeDieObjects
  extract_lets g₁ g₂ g₃
  have h₁ : g₁.jtag = h.jtag := by
    unfold g₁ freeDieSurfs
    extract_lets l q₁ q₂
    refine (jtag_foldl (fun g e => ?_) l q₂).trans rfl
    split
    · rfl
    · exact jtag_foldl (fun q e => jtag_of_rest (rest_postEvent _ _ _ _ q)) _ g
  have h₂ : g₂.jtag = g₁.jtag := by
    refine jtag_foldl (fun g r => ?_) _ g₁
    rfl
  have h₃ : g₃.jtag = g₂.jtag := jtag_foldl (fun g k => jtag_of_fixed (fixed_dropTl k 0x0904 g)) _ g₂
  exact Eq.trans rfl (h₃.trans (h₂.trans h₁))

theorem jtag_startDieReset (d : Nat) (m : List Host.Cell) (h : Hub) : (startDieReset d m h).1.jtag = h.jtag := by
  unfold startDieReset
  extract_lets a g₁ g₂
  have ha : a.1.jtag = h.jtag := by
    simp only [a]
    split
    · exact jtag_dieGone d m h
    · rfl
  clear_value a
  have h₁ : g₁.jtag = h.jtag := Eq.trans rfl ((jtag_freeDieObjects d a.1).trans ha)
  clear_value g₁
  have h₂ : g₂.jtag = h.jtag := Eq.trans rfl h₁
  clear_value g₂
  dsimp only
  rw [sysDie, jtag_toIntegrator]
  exact h₂

theorem jtag_warmReset (h : Hub) : (warmReset h).1.jtag = h.jtag := by
  unfold warmReset
  extract_lets g₁ g₂ g₃
  have h₁ : g₁.jtag = h.jtag := jtag_foldl (fun g o => jtag_of_fixed (fixed_portIdles o g)) _ h
  have h₃ : g₃.jtag = g₂.jtag := by
    refine jtag_foldl (fun g d => ?_) _ g₂
    rfl
  exact (jtag_foldl (fun g d => jtag_kprStep 1 d g) _ g₃).trans (h₃.trans h₁)

theorem jtag_wakeForReset (d : Nat) (h : Hub) : (wakeForReset d h).jtag = h.jtag := by
  unfold wakeForReset
  extract_lets g
  have hg : g.jtag = h.jtag := (jtag_pwrGoes d .exiting _).trans rfl
  exact (jtag_pwrGoes d .run _).trans (Eq.trans rfl hg)

theorem jtag_dieResetAsked (d : Nat) (m : List Host.Cell) (h : Hub) : (dieResetAsked d m h).1.jtag = h.jtag := by
  have hs := (jtag_startDieReset d m (wakeForReset d h)).trans (jtag_wakeForReset d h)
  unfold dieResetAsked
  generalize startDieReset d m (wakeForReset d h) = r at hs ⊢
  split
  · exact hs
  · exact jtag_startDieReset d m h

theorem jtag_kprReset (v : Nat) (m : List Host.Cell) (h : Hub) : (kprReset v m h).1.jtag = h.jtag := by
  unfold kprReset
  extract_lets act t g
  split
  · rfl
  · split
    · exact jtag_warmReset g
    · split
      · exact jtag_dieResetAsked _ m g
      · rfl

/-! ### The snapshot (18 R471) -/

theorem jtag_snapGoes (state reason : Nat) (h : Hub) : (snapGoes state reason h).jtag = h.jtag := by
  unfold snapGoes
  extract_lets p old g
  split
  · rfl
  · exact jtag_intEvent p 8 g

theorem jtag_armSnap (h : Hub) : (armSnap h).jtag = h.jtag := by
  unfold armSnap
  extract_lets p k now g
  split
  · rfl
  · split
    · exact jtag_snapGoes 3 2 _
    · split
      · exact jtag_snapGoes 3 1 _
      · split
        · exact jtag_snapGoes 1 0 _
        · have hg : g.jtag = h.jtag := jtag_snapGoes 1 0 _
          split
          · exact hg
          · exact (jtag_of_fixed (fixed_sendMgmt _ 6 _ g)).trans hg

theorem jtag_kprWrite32 (d off v : Nat) (m : List Host.Cell) (h : Hub) : (kprWrite32 d off v m h).1.jtag = h.jtag := by
  unfold kprWrite32
  split
  · exact jtag_kprReset v m h
  · rfl
  · rfl
  · rfl
  · unfold kprSnap
    dsimp only
    split
    · exact (jtag_armSnap _).trans rfl
    · rfl
  · rfl

/-! ### The other blocks -/

theorem jtag_intWrite32 (d off v : Nat) (h : Hub) : (intWrite32 d off v h).jtag = h.jtag := by
  unfold intWrite32
  split
  · unfold intEnWrite
    dsimp only
    split
    · exact (jtag_intRaise d _).trans rfl
    · rfl
  · rfl
  · split <;> rfl

theorem jtag_clkWrite32 (d off v : Nat) (h : Hub) : (clkWrite32 d off v h).jtag = h.jtag := by
  unfold clkWrite32
  split
  · exact jtag_updPll d 0 _ h
  · split <;> rfl

theorem jtag_pllWrite32 (d off v : Nat) (h : Hub) : (pllWrite32 d off v h).jtag = h.jtag := by
  unfold pllWrite32
  dsimp only
  split
  · rfl
  · split
    · split <;> rfl
    · split <;> rfl
    · rfl
    · rfl

theorem jtag_pwrWrite32 (d off v : Nat) (h : Hub) : (pwrWrite32 d off v h).jtag = h.jtag := by
  unfold pwrWrite32
  split <;> rfl

theorem jtag_rawStart (d : Nat) (write : Bool) (h : Hub) : (rawStart d write h).jtag = h.jtag := by
  unfold rawStart
  dsimp only
  split <;> rfl

theorem jtag_atcCtrl (fn : Option Nat) (d v : Nat) (h : Hub) : (atcCtrl fn d v h).jtag = h.jtag := by
  unfold atcCtrl
  extract_lets g q
  have hg : g.jtag = h.jtag := by
    simp only [g]
    split
    · exact jtag_rawStart d false h
    · rfl
  split
  · exact hg
  · split
    · split
      · exact Eq.trans rfl hg
      · exact (jtag_accessFault _ _ q).trans (Eq.trans rfl hg)
    · exact (jtag_rawStart d true g).trans hg

theorem jtag_atcLockWrite (d v : Nat) (h : Hub) : (atcLockWrite d v h).jtag = h.jtag := by
  have hl : (lockSet d (v.testBit 0) (v.testBit 1) h).jtag = h.jtag := by
    unfold lockSet
    refine Eq.trans (b := (if _ then lockIgnored d 0x718 h else h).jtag) rfl ?_
    split
    · exact jtag_intEvent d 12 _
    · rfl
  have hw : (writeKey d 0xF1 1 (lockSet d (v.testBit 0) (v.testBit 1) h)).1.jtag = h.jtag := Eq.trans rfl hl
  refine Eq.trans (b := (if v.testBit 1 && !(getDie h d).atc.persist then
    (let w := writeKey d 0xF1 1 (lockSet d (v.testBit 0) (v.testBit 1) h)
    if w.2 then w.1 else faultReport d 0x0706 (unitId 0x0C d 0) (unitId 0x0C d 0) 0x100 w.1)
    else lockSet d (v.testBit 0) (v.testBit 1) h).jtag) rfl ?_
  split
  · dsimp only
    split
    · exact hw
    · exact (jtag_faultReport _ _ _ _ _ _).trans hw
  · exact hl

theorem jtag_dbgCtrl (d v : Nat) (h : Hub) : (dbgCtrl d v h).jtag = h.jtag := by
  unfold dbgCtrl
  extract_lets g
  have hg : g.jtag = h.jtag := by
    simp only [g]
    split <;> rfl
  split
  · exact Eq.trans rfl hg
  · exact hg

theorem jtag_atcWrite32 (fn : Option Nat) (d off v : Nat) (h : Hub) : (atcWrite32 fn d off v h).jtag = h.jtag := by
  unfold atcWrite32
  split
  · exact jtag_atcCtrl fn d v h
  · rfl
  · rfl
  · rfl
  · exact jtag_atcLockWrite d v h
  · rfl
  · exact jtag_dbgCtrl d v h
  · split <;> rfl

theorem jtag_fbkCtrlWrite (d v : Nat) (h : Hub) : (fbkCtrlWrite d v h).jtag = h.jtag := by
  unfold fbkCtrlWrite
  dsimp only
  split <;> rfl

theorem jtag_pmxWrite32 (d off v : Nat) (h : Hub) : (pmxWrite32 d off v h).jtag = h.jtag := by
  unfold pmxWrite32
  split
  · split <;> rfl
  · split <;> rfl

/-! ### The privileged channels (12 R320-R323) -/

theorem jtag_privEnds (d ch st moved mism : Nat) (h : Hub) : (privEnds d ch st moved mism h).jtag = h.jtag := jtag_intEvent d ch _

theorem jtag_systemWritten (d : Nat) (h : Hub) : (systemWritten d h).jtag = h.jtag := by
  unfold systemWritten
  rfl

theorem jtag_privWritten (d ch dst n op : Nat) (ws : List MemWrite) (h : Hub) : (privWritten d ch dst n op ws h).jtag = h.jtag := by
  have hu : (unitWrites d (dmaUnit ch) ws h).jtag = h.jtag := by
    refine (jtag_of_fixed (fixed_writesTouched ws _)).trans ?_
    unfold ownWrites
    split <;> rfl
  unfold privWritten
  extract_lets g
  split
  · exact (jtag_systemWritten _ g).trans hu
  · exact hu

theorem jtag_systemView (a n : Nat) (m : List Host.Cell) (h : Hub) : (systemView a n m h).2.jtag = h.jtag := by
  simp only [systemView, apply_ite Prod.snd, apply_ite Hub.jtag, ite_self]

theorem jtag_privView (d ch src dst len op : Nat) (m : List Host.Cell) (h : Hub) : (privView d ch src dst len op m h).2.jtag = h.jtag := by
  unfold privView
  extract_lets v
  have hv : v.2.jtag = h.jtag := by
    simp only [v]
    split
    · rfl
    · exact jtag_systemView _ _ _ h
  split
  · exact (jtag_systemView _ _ _ v.2).trans hv
  · exact hv

theorem jtag_remoteRead (d : Nat) (gs : List Nat) (m : List Host.Cell) (h : Hub) : (remoteRead d gs m h).jtag = h.jtag := by
  unfold remoteRead
  split <;> rfl

theorem jtag_privStop (d ch st : Nat) (m : List Host.Cell) (h : Hub) : (privStop d ch st m h).1.jtag = h.jtag := by
  unfold privStop
  split
  · rfl
  · extract_lets op
    dsimp only
    rw [jtag_privWritten, jtag_privEnds, jtag_privView, jtag_remoteRead]
    rfl

theorem jtag_privCtrlWrite (d ch v : Nat) (m : List Host.Cell) (h : Hub) : (privCtrlWrite d ch v m h).1.jtag = h.jtag := by
  unfold privCtrlWrite
  dsimp only
  split
  · split
    · exact (jtag_privStop d ch 0x0411 m _).trans rfl
    · rfl
  · split
    · rfl
    · split
      · exact (jtag_privEnds _ _ _ _ _ _).trans rfl
      · rfl

theorem jtag_privWrite32 (d ch off v : Nat) (m : List Host.Cell) (h : Hub) : (privWrite32 d ch off v m h).1.jtag = h.jtag := by
  unfold privWrite32
  split
  case h_6 => exact jtag_privCtrlWrite d ch v m h
  all_goals rfl

theorem jtag_privWrite (d ch off size v : Nat) (m : List Host.Cell) (h : Hub) : (privWrite d ch off size v m h).1.jtag = h.jtag := by
  unfold privWrite
  split
  · exact jtag_privWrite32 d ch off _ m h
  · split
    · rfl
    · rfl
    · rfl
    · exact (jtag_privWrite32 d ch _ _ _ _).trans (jtag_privWrite32 d ch off _ m h)

/-! ### Any register (20 R499-R502) -/

theorem jtag_regWord (jtag : Bool) (fn bar0 d off v : Nat) (m : List Host.Cell) (h : Hub) : (regWord jtag fn bar0 d off v m h).1.jtag = h.jtag := by
  unfold regWord
  extract_lets o
  split
  · split
    · rfl
    · split
      · exact jtag_accessFault fn bar0 h
      · rfl
  · split
    · exact jtag_accessFault fn bar0 h
    · exact jtag_kprWrite32 d o v m h
  · exact jtag_intWrite32 d o v h
  · exact jtag_clkWrite32 d o v h
  · exact jtag_pllWrite32 d o v h
  · exact jtag_pwrWrite32 d o v h
  · exact jtag_atcWrite32 _ d o v h
  · dsimp only
    split
    · exact jtag_fbkCtrlWrite d v h
    · split <;> rfl
  · exact jtag_privWrite32 d _ _ v m h
  · dsimp only
    split
    · exact jtag_pmxWrite32 d _ v h
    · rfl

theorem jtag_regWrite (jtag : Bool) (fn bar0 d off size v : Nat) (m : List Host.Cell) (h : Hub) :
    (regWrite jtag fn bar0 d off size v m h).1.jtag = h.jtag := by
  unfold regWrite
  split
  · exact jtag_privWrite d _ _ size v m h
  · split
    · exact jtag_regWord jtag fn bar0 d off _ m h
    · exact (jtag_regWord jtag fn bar0 d _ _ _ _).trans (jtag_regWord jtag fn bar0 d off _ m h)

theorem jtag_dieTime (h : Hub) (d : Nat) : (dieTime h d).2.jtag = h.jtag := by
  unfold dieTime
  dsimp only
  split <;> rfl

theorem jtag_pllRead32 (h : Hub) (d off : Nat) : (pllRead32 h d off).2.jtag = h.jtag := by
  unfold pllRead32
  dsimp only
  split
  · rfl
  · split
    case h_5 =>
      split
      · rfl
      · unfold fracNow
        dsimp only
        split <;> rfl
    all_goals rfl

theorem jtag_srvRead32 (h : Hub) (d off : Nat) : (srvRead32 h d off).2.jtag = h.jtag := by
  unfold srvRead32
  dsimp only
  split <;> rfl

theorem jtag_pmxRead32 (h : Hub) (d off : Nat) : (pmxRead32 h d off).2.jtag = h.jtag := by
  unfold pmxRead32
  dsimp only
  split
  · rfl
  · split <;> rfl

theorem jtag_regReadWord (fn d off : Nat) (h : Hub) : (regReadWord fn d off h).2.jtag = h.jtag := by
  unfold regReadWord
  extract_lets o
  split
  · rfl
  · rfl
  · rfl
  · split
    · exact jtag_dieTime h d
    · split <;> rfl
  · exact jtag_pllRead32 h d o
  · rfl
  · exact jtag_srvRead32 h d o
  · rfl
  · rfl
  · split
    · rfl
    · exact jtag_accessFault _ _ h
  · split
    · exact jtag_pmxRead32 h d _
    · rfl

theorem jtag_regRead (fn d off size : Nat) (h : Hub) : (regRead fn d off size h).2.jtag = h.jtag := by
  unfold regRead
  dsimp only
  split
  · exact jtag_regReadWord fn d off h
  · exact (jtag_regReadWord fn d (off + 4) _).trans (jtag_regReadWord fn d off h)

end Sys2Proof.Machine
end

section
/-!
The Field book's flush, the scans of the TAP, REGACC and the Keeper debug port (22 R542, R545-R550; log entries 7, 71, 72, 73, 75).
-/

namespace Sys2Proof.Machine

/-! ### The ring (22 R542) -/

theorem get_fbkStore_ne {l : List Bytes} {i x : Nat} (hx : ∀ j, j < l.length → (i + j) % 262144 ≠ x) (t : Tab Bytes) :
    (fbkStore i l t).get x [] = t.get x [] := by
  induction l generalizing i t with
  | nil => rfl
  | cons r rest ih =>
    rw [fbkStore, ih fun j hj => ?_, Tab.get_set_ne]
    · exact fun he => hx 0 (Nat.succ_pos _) he.symm
    · rw [Nat.add_assoc, Nat.add_comm 1 j]
      exact hx (j + 1) (Nat.succ_lt_succ hj)

/-- Records that fit the ring lie at their indices. -/
theorem get_fbkStore {l : List Bytes} (hl : l.length ≤ 262144) (i : Nat) (t : Tab Bytes) {j : Nat} (hj : j < l.length) :
    (fbkStore i l t).get ((i + j) % 262144) [] = l[j] := by
  induction l generalizing i t j with
  | nil => exact absurd hj (Nat.not_lt_zero j)
  | cons r rest ih =>
    have hlen : rest.length + 1 ≤ 262144 := hl
    cases j with
    | zero =>
      rw [fbkStore, get_fbkStore_ne fun k hk => by omega]
      exact Tab.get_set_same _ _ _ _
    | succ j =>
      have hi : (i + (j + 1)) % 262144 = (i + 1 + j) % 262144 := by rw [Nat.add_assoc, Nat.add_comm 1 j]
      rw [fbkStore, hi]
      exact ih (by omega) (i + 1) _ (Nat.lt_of_succ_lt_succ hj)

theorem fbkFlushed_eq {f : Fbk} (hb : f.buf ≠ []) : fbkFlushed f = { f with
    ring := fbkStore (f.head - f.buf.length) f.buf f.ring, buf := []
    tail := max f.tail (f.head - 262144), flushes := (f.flushes + 1) % 65536 } := by
  have he : ¬f.buf.isEmpty = true := by simpa using hb
  rw [fbkFlushed, if_neg he]
  rfl

theorem fbk_fbkFlush (d : Nat) (h : Hub) : (getDie (fbkFlush d h) d).fbk = fbkFlushed (getDie h d).fbk := by
  rw [fbkFlush, updFbk, getDie_updDie]

theorem fbkTimer_eq {d : Nat} {h : Hub} (hu : dieUp h d = true) (ha : awake h d = true) (hb : (getDie h d).fbk.buf ≠ []) :
    fbkTimer d h = fbkFlush d (if 512 ≤ (getDie h d).fbk.buf.length then h else at_ ((getDie h d).fbk.oldest + 1000000) h) := by
  have he : (getDie h d).fbk.buf.isEmpty = false := by simpa using hb
  simp only [fbkTimer, hu, ha, he, Bool.not_true, Bool.or_self, Bool.false_eq_true, if_false, ge_iff_le]
  split <;> rfl

theorem fbkCtrlWrite_fbk (d v : Nat) (h : Hub) : (getDie (fbkCtrlWrite d v h) d).fbk =
    (let f := { (getDie h d).fbk with
      srcEn := bits v 0 10 ||| 1, mode := bit v 16, stopped := (getDie h d).fbk.stopped && bit v 16 }
    if bit v 17 then fbkFlushed f else f) := by
  unfold fbkCtrlWrite
  extract_lets g f₀ f
  have hg : (getDie g d).fbk = f := congrArg Die.fbk (getDie_updDie h d fun x => { x with fbk := { x.fbk with
    srcEn := bits v 0 10 ||| 1, mode := bit v 16, stopped := x.fbk.stopped && bit v 16 } })
  split
  · rw [fbk_fbkFlush, hg]
  · exact hg

theorem fbkCtrlWrite_others {d e : Nat} (he : e ≠ d) (v : Nat) (h : Hub) : getDie (fbkCtrlWrite d v h) e = getDie h e := by
  unfold fbkCtrlWrite
  extract_lets g
  have hg : getDie g e = getDie h e := getDie_updDie_ne h d e (fun x => { x with fbk := { x.fbk with
    srcEn := bits v 0 10 ||| 1, mode := bit v 16, stopped := x.fbk.stopped && bit v 16 } }) he
  split
  · exact (getDie_updDie_ne g d e (fun x => { x with fbk := fbkFlushed x.fbk }) he).trans hg
  · exact hg

/-! ### Scans (22 R547, R548) -/

theorem scanBits_bypass {dr : List Bool} (hd : dr ≠ []) : (scanBits [false] dr).1 = false :: dr.dropLast ∧
    some ((scanBits [false] dr).2.headD false) = dr.getLast? := by
  obtain ⟨l, b, rfl⟩ : ∃ l b, dr = l ++ [b] := ⟨dr.dropLast, dr.getLast hd, (List.dropLast_append_getLast hd).symm⟩
  have hlen : (l ++ [b]).length = l.length + 1 := by simp
  constructor
  · simp [scanBits, hlen]
  · simp [scanBits, hlen]

theorem scanBits_whole {cap dr : List Bool} (hl : dr.length = cap.length) : scanBits cap dr = (cap, dr) := by
  simp [scanBits, hl]

theorem scanBypass_spec {dr : List Bool} (hd : dr ≠ []) (h : Hub) : (scanBypass dr h).dies = h.dies ∧ (scanBypass dr h).jtag.ir = h.jtag.ir ∧
    (scanBypass dr h).jtag.tdo = false :: dr.dropLast ∧ some (scanBypass dr h).jtag.bypass = dr.getLast? :=
  ⟨rfl, rfl, scanBits_bypass hd⟩

theorem scanBoundary_spec {dr : List Bool} {h : Hub} (hl : dr.length = bsrCells h) :
    (scanBoundary dr h).dies = h.dies ∧ (scanBoundary dr h).jtag.ir = h.jtag.ir ∧ (scanBoundary dr h).jtag.tdo.length = bsrCells h ∧
      (scanBoundary dr h).jtag.bsr = dr := by
  have hcap : dr.length = (freeBits (bsrCells h) h).1.length := by simp [freeBits, hl]
  have hs := scanBits_whole hcap
  unfold scanBoundary
  dsimp only
  rw [hs]
  exact ⟨rfl, rfl, hcap.symm.trans hl, rfl⟩

/-- EXTEST is the boundary scan while PORST_N is low, and else BYPASS. -/
theorem extest_boundary {h : Hub} (hp : h.pkg.phase = .porst) (dr : List Bool) : extest dr h = scanBoundary dr (loadIr 0x00 h) := by
  have hc : compliance (loadIr 0x00 h) = true := (by simpa [compliance] using hp : compliance h = true)
  rw [extest]
  exact if_pos hc

theorem extest_bypass {h : Hub} (hp : ¬h.pkg.phase = .porst) (dr : List Bool) : extest dr h = scanBypass dr (loadIr 0x00 h) := by
  have hc : ¬compliance (loadIr 0x00 h) = true := (by simpa [compliance] using hp : ¬compliance h = true)
  rw [extest]
  exact if_neg hc

/-! ### REGACC (22 R549) -/

/-- The hub as a REGACC has shifted out what the last access left. -/
def accShifted (h : Hub) : Hub :=
  let b := freeBits 9 (loadIr 0x10 h)
  updJtag (fun j => { j with tdo := lowBits 64 j.accData.toNat ++ lowBits 16 j.accStatus ++ b.1 }) b.2

/-- A hub that still holds what a REGACC shifted out of `h`. -/
def ShiftedFrom (h g : Hub) : Prop := g.jtag.ir = 0x10 ∧
  g.jtag.tdo.take 80 = (List.range 64).map (fun i => h.jtag.accData.getLsbD i) ++ (List.range 16).map fun i => h.jtag.accStatus.testBit i

theorem shiftedFrom_accShifted (h : Hub) : ShiftedFrom h (accShifted h) := by
  refine ⟨rfl, ?_⟩
  have ht : (accShifted h).jtag.tdo = lowBits 64 h.jtag.accData.toNat ++ lowBits 16 h.jtag.accStatus ++ (freeBits 9 (loadIr 0x10 h)).1 := rfl
  have hl : (lowBits 64 h.jtag.accData.toNat ++ lowBits 16 h.jtag.accStatus).length = 80 := by simp [lowBits]
  rw [ht, List.take_left' hl]
  rfl

theorem shiftedFrom_accResult {h g : Hub} (hg : ShiftedFrom h g) (data st : Nat) : ShiftedFrom h (accResult data st g) := hg

theorem shiftedFrom_congr {h g g' : Hub} (hg : ShiftedFrom h g) (e : g'.jtag = g.jtag) : ShiftedFrom h g' := by
  rw [ShiftedFrom, e]
  exact hg

theorem regaccDoes_spec {h0 h : Hub} (hs : ShiftedFrom h0 h) (d off size : Nat) (write : Bool) (v : Nat) (m : List Host.Cell) :
    ShiftedFrom h0 (regaccDoes d off size write v m h).1 ∧ (regaccDoes d off size write v m h).1.jtag.accStatus = 0 := by
  unfold regaccDoes
  split
  · exact ⟨hs, rfl⟩
  · split
    · exact ⟨shiftedFrom_accResult (shiftedFrom_congr hs (jtag_wakeEvent d 1 h)) 0 0, rfl⟩
    · extract_lets fn a r
      split
      · have ha : a.1.jtag = h.jtag := by
          simp only [a]
          split
          · exact jtag_regWrite true fn _ d off size v m h
          · rfl
        exact ⟨shiftedFrom_accResult (shiftedFrom_congr hs ha) 0 0, rfl⟩
      · exact ⟨shiftedFrom_accResult (shiftedFrom_congr hs (jtag_regRead fn d off size h)) r.1 0, rfl⟩

/-- A read of an identification register. -/
theorem regaccDoes_id {d off : Nat} {h : Hub} (hr : jtagReaches h d off = true) (ha : asleep h d = false) (hb : off / 0x100 = 0) (v : Nat)
    (m : List Host.Cell) : regaccDoes d off 4 false v m h = (accResult (idRead32 h d off) 0 h, []) := by
  have ho : off % 0x100 = off := by omega
  have hw : regReadWord (integratorFn h) d off h = (idRead32 h d off, h) := by
    rw [regReadWord, hb, ho]
    rfl
  have hread : regRead (integratorFn h) d off 4 h = (idRead32 h d off, h) := hw
  simp only [regaccDoes, hr, ha, hread, Bool.not_true, Bool.and_false, Bool.false_and, Bool.false_eq_true, if_false]

theorem bits_extract (v : BitVec 89) (lo w : Nat) : bits v.toNat lo w = (v.extractLsb' lo w).toNat := by
  rw [bits, BitVec.extractLsb'_toNat, Nat.shiftRight_eq_div_pow]

/-- The Update-DR of a REGACC, by the fields of its register. -/
theorem regacc_eq (dr : BitVec 89) (m : List Host.Cell) (h : Hub) :
    let off := (dr.extractLsb' 64 20).toNat
    let d := (dr.extractLsb' 84 3).toNat
    let size := if dr.getLsbD 88 then 8 else 4
    regacc dr m h =
      if !accessOk off size then (accResult 0 0x0105 (accSizeError d (accShifted h)), [])
      else if !(getDie h d).atc.unlocked && !lockPermits off (dr.getLsbD 87) then (accResult 0 0x0307 (accShifted h), [])
      else regaccDoes d off size (dr.getLsbD 87) (bits dr.toNat 0 64) m (accShifted h) := by
  intro off d size
  have hoff : off = bits dr.toNat 64 20 := (bits_extract dr 64 20).symm
  have hd : d = bits dr.toNat 84 3 := (bits_extract dr 84 3).symm
  rw [hoff, hd]
  rfl

section
variable {dr : BitVec 89} (m : List Host.Cell) {h : Hub}

theorem regacc_misaligned (h : Hub) (ho : accessOk (dr.extractLsb' 64 20).toNat (if dr.getLsbD 88 then 8 else 4) = false) :
    regacc dr m h = (accResult 0 0x0105 (accSizeError (dr.extractLsb' 84 3).toNat (accShifted h)), []) :=
  (regacc_eq dr m h).trans (if_pos (by rw [ho]; rfl))

theorem regacc_barred (ho : accessOk (dr.extractLsb' 64 20).toNat (if dr.getLsbD 88 then 8 else 4) = true)
    (hl : (getDie h (dr.extractLsb' 84 3).toNat).atc.unlocked = false)
    (hp : lockPermits (dr.extractLsb' 64 20).toNat (dr.getLsbD 87) = false) :
    regacc dr m h = (accResult 0 0x0307 (accShifted h), []) :=
  (regacc_eq dr m h).trans ((if_neg (by rw [ho]; exact Bool.false_ne_true)).trans (if_pos (by rw [hl, hp]; rfl)))

theorem regacc_does (ho : accessOk (dr.extractLsb' 64 20).toNat (if dr.getLsbD 88 then 8 else 4) = true)
    (hp : (getDie h (dr.extractLsb' 84 3).toNat).atc.unlocked = true ∨ lockPermits (dr.extractLsb' 64 20).toNat (dr.getLsbD 87) = true) :
    regacc dr m h = regaccDoes (dr.extractLsb' 84 3).toNat (dr.extractLsb' 64 20).toNat (if dr.getLsbD 88 then 8 else 4) (dr.getLsbD 87)
      (bits dr.toNat 0 64) m (accShifted h) := by
  refine (regacc_eq dr m h).trans ((if_neg (by rw [ho]; exact Bool.false_ne_true)).trans (if_neg ?_))
  obtain hu | hp := hp
  · rw [hu]
    exact Bool.false_ne_true
  · rw [hp, Bool.not_true, Bool.and_false]
    exact Bool.false_ne_true

/-- Whatever it answers, a REGACC shifts out what the last one left. -/
theorem shiftedFrom_regacc (dr : BitVec 89) (m : List Host.Cell) (h : Hub) : ShiftedFrom h (regacc dr m h).1 := by
  have hsh := shiftedFrom_accShifted h
  rw [regacc_eq]
  generalize (if dr.getLsbD 88 = true then 8 else 4) = size
  split
  · exact shiftedFrom_accResult (shiftedFrom_congr hsh (jtag_accSizeError _ _)) _ _
  · split
    · exact shiftedFrom_accResult hsh _ _
    · exact (regaccDoes_spec hsh _ _ _ _ _ m).1

end

/-! ### KDEBUG and the halt (22 R549, R550) -/

theorem kdebug_locked {d : Nat} {h : Hub} (hu : (getDie h d).atc.unlocked = false) (req addr : Nat) (x : BitVec 64) :
    kdebug d req addr x h = accResult 0 0x0307 (loadIr 0x11 h) := by
  have hl : (!(getDie (loadIr 0x11 h) d).atc.unlocked) = true := congrArg not hu
  rw [kdebug]
  exact if_pos hl

theorem kdebug_open {d : Nat} {h : Hub} (hu : (getDie h d).atc.unlocked = true) (hr : jtagReaches h d 0 = true) (ha : awake h d = true)
    (req addr : Nat) (x : BitVec 64) : kdebug d req addr x h = kdebugDoes d req addr x (loadIr 0x11 h) := by
  have hl : ¬(!(getDie (loadIr 0x11 h) d).atc.unlocked) = true := by
    have hu' : (getDie (loadIr 0x11 h) d).atc.unlocked = true := hu
    simp [hu']
  have hra : ¬(!jtagReaches (loadIr 0x11 h) d 0 || !awake (loadIr 0x11 h) d) = true := by
    have hr' : jtagReaches (loadIr 0x11 h) d 0 = true := hr
    have ha' : awake (loadIr 0x11 h) d = true := ha
    simp [hr', ha']
  rw [kdebug]
  exact (if_neg hl).trans (if_neg hra)

theorem halted_kdebugDoes (d addr : Nat) (x : BitVec 64) (h : Hub) : halted (kdebugDoes d 0 addr x h) d = true ∧
    halted (kdebugDoes d 1 addr x h) d = false := by
  have hd (f : Kdbg → Kdbg) : (getDie (accResult 0 0 (updKdbg h d f)) d).kdbg = f (getDie h d).kdbg :=
    congrArg Die.kdbg (getDie_updDie h d fun x => { x with kdbg := f x.kdbg })
  constructor
  · rw [halted, kdebugDoes, hd]
    rfl
  · rw [halted, kdebugDoes, hd]
    rfl

theorem haltTimeout_eq {d t : Nat} {h : Hub} (hh : (getDie h d).kdbg.halted = some t) (hu : dieUp h d = true) (m : List Host.Cell) :
    haltTimeout d m h = dieLost d 7 m (at_ (t + 1000001) h) := by
  rw [haltTimeout, hh]
  exact if_pos hu

/-! ### The obligation -/

/-- Settles O60: the ring takes the flushed buffer index by index; a scan passes its register; REGACC and KDEBUG answer as the lock allows,
and no register access touches the TAP. -/
theorem fieldBookAndJtag : Obligations.FieldBookAndJtag := by
  unfold Obligations.FieldBookAndJtag
  refine ⟨fun d s hu ha => ?_, fun fn d v s ht => ?_, fun c s => ?_, fun dr s => ?_, fun dr s => ?_, fun d addr x s => ⟨fun hu req => ?_, ?_⟩,
    fun d t s hh hu => ?_⟩
  · intro f hb hlen hhead
    have he := fbkTimer_eq hu ha hb
    have hfbk : (getDie (fbkTimer d s.hub) d).fbk = fbkFlushed f := by
      rw [he, fbk_fbkFlush]
      split <;> rfl
    refine ⟨onHub (fbkTimer d) s, rfl, rfl, rfl, ?_, ?_, fun i hi => ?_⟩
    · rw [onHub_hub, he]
      change (if _ then _ else _ : Hub).now = _
      split <;> rfl
    · rw [onHub_hub, hfbk, fbkFlushed_eq hb]
    · rw [onHub_hub, hfbk, fbkFlushed_eq hb]
      exact get_fbkStore (by omega) _ _ hi
  · intro h set
    refine ⟨_, next_onHub_congr (regGateHub_of_takes ht _ _), rfl, rfl, ?_, fun e he => fbkCtrlWrite_others he v.toNat h⟩
    have hb : bits v.toNat 0 10 = v.toNat % 1024 := by simp [bits]
    refine (fbkCtrlWrite_fbk d v.toNat h).trans ?_
    rw [hb]
    rfl
  · intro h d
    refine ⟨fun ha => ?_, fun ha => ha.next_done rfl⟩
    intro g f l
    have hrun : Machine.fbkReadCmd.run c (taken Machine.fbkReadCmd.op c s.hub) s.lp5x h =
        okRes (if l.isEmpty then g else ctxWrite c.ctx (arg64 c 32) l.flatten g) l.length := rfl
    refine ⟨fun hl => ha.next_done (hrun.trans ?_), fun hl => ha.next_done (hrun.trans ?_)⟩
    · rw [hl]
      rfl
    · rw [if_neg (by simpa using hl)]
  · intro porst cells by1 through
    have hby (i : Instr) (ir : Nat) (he : exec i s = .next { s with hub := scanBypass dr (loadIr ir s.hub) }) : by1 i ir := fun hd =>
      ⟨_, he, rfl, rfl, scanBypass_spec hd (loadIr ir s.hub)⟩
    have hthrough (i : Instr) (ir : Nat) (he : exec i s = .next { s with hub := scanBoundary dr (loadIr ir s.hub) }) : through i ir := fun hl =>
      ⟨_, he, rfl, rfl, scanBoundary_spec (h := loadIr ir s.hub) hl⟩
    refine ⟨hby _ 0xFF rfl, hby _ 0x03 rfl, hby _ 0x04 rfl, fun hp => hby _ 0x00 (next_onHub_congr (extest_bypass hp dr)),
      hthrough _ 0x01 rfl, fun hp => hthrough _ 0x00 (next_onHub_congr (extest_boundary hp dr)), fun hl => ?_⟩
    · refine ⟨onHub (idcode dr) s, rfl, rfl, rfl, rfl, ?_⟩
      have hs := scanBits_whole (cap := lowBits 32 (idcodeOf s.hub.pkg.part)) (dr := dr) (by simp [lowBits, hl])
      exact congrArg Prod.fst hs
  · intro off d write size a
    have hu : ∀ {r : Eff}, regacc dr s.lp5x s.hub = r →
        (act (regacc dr) s).hub = r.1 ∧ (act (regacc dr) s).lp5x = r.2.foldl Memory.apply s.lp5x :=
      fun hr => ⟨congrArg Prod.fst hr, congrArg (fun r : Eff => r.2.foldl Memory.apply s.lp5x) hr⟩
    obtain ⟨hir, htdo⟩ := shiftedFrom_regacc dr s.lp5x s.hub
    refine ⟨act (regacc dr) s, rfl, rfl, hir, htdo, fun ho => ?_, fun ho hl hp => ?_, fun ho hp => ?_⟩
    · obtain ⟨hh, hm⟩ := hu (regacc_misaligned s.lp5x s.hub ho)
      rw [hh, hm]
      exact ⟨rfl, rfl⟩
    · obtain ⟨hh, hm⟩ := hu (regacc_barred s.lp5x ho hl hp)
      rw [hh, hm]
      exact ⟨rfl, rfl, rfl⟩
    · have he := regacc_does s.lp5x ho hp
      obtain ⟨hh, -⟩ := hu he
      refine ⟨?_, fun hw hb hs hr ha => ?_⟩
      · rw [hh]
        exact (regaccDoes_spec (shiftedFrom_accShifted s.hub) _ _ _ _ _ _).2
      · have hs' : (if dr.getLsbD 88 then 8 else 4) = 4 := hs
        have hw' : dr.getLsbD 87 = false := hw
        rw [hs', hw', regaccDoes_id (h := accShifted s.hub) hr ha hb] at he
        obtain ⟨hh, hm⟩ := hu he
        rw [hh, hm]
        exact ⟨rfl, rfl, rfl⟩
  · exact ⟨_, next_onHub_congr (kdebug_locked hu req addr x), rfl, rfl, rfl, rfl⟩
  · intro hu hr ha
    obtain ⟨h0, h1⟩ := halted_kdebugDoes d addr x (loadIr 0x11 s.hub)
    exact ⟨⟨_, next_onHub_congr (kdebug_open hu hr ha 0 addr x), rfl, rfl, h0⟩,
      ⟨_, next_onHub_congr (kdebug_open hu hr ha 1 addr x), rfl, rfl, h1⟩⟩
  · have he := haltTimeout_eq hh hu s.lp5x
    refine ⟨act (haltTimeout d) s, rfl, lostDie_act (f := haltTimeout d) (h := at_ (t + 1000001) s.hub) hu he, ?_⟩
    rw [act_hub, he, now_dieLost]
    exact Nat.le_max_right _ _

end Sys2Proof.Machine
end
